-- ==== Sys2Proof/Word.lean ====
section
/-! DEFINITION. The word types of the GX12 and the two kinds of sparse table the state is made of. -/

namespace Sys2Proof

/-- A register, a pilot register or a 64-bit field (R15, R87). -/
abbrev Word := BitVec 64

/-- One byte of memory. -/
abbrev Byte := BitVec 8

/-- A stick: 120 bits of two's-complement sum and a status byte (R24). -/
abbrev Stick := BitVec 128

/-- A sparse table: keys strictly rising, no entry equal to what an unlisted key reads as.
`Machine/Table.lean` holds its operations. -/
abbrev Tbl (α : Type) := List (Nat × α)

end Sys2Proof
end

