-- ==== Sys2Proof/Machine/Table.lean ====
section
/-! DEFINITION. Sparse tables in one canonical form: reading, writing, and the form itself; with the bit-field helpers. -/

namespace Sys2Proof

/-- The entry of key `k`, if the table lists one. -/
def Tbl.find {α : Type} (t : Tbl α) (k : Nat) : Option α :=
  match t with
  | [] => none
  | (k', v) :: r => if k' = k then some v else Tbl.find r k

/-- What key `k` reads as: its entry, or the default `d`. -/
def Tbl.get {α : Type} (d : α) (t : Tbl α) (k : Nat) : α :=
  match Tbl.find t k with
  | some v => v
  | none => d

/-- The table with every entry of `k` taken out. -/
def Tbl.erase {α : Type} (t : Tbl α) (k : Nat) : Tbl α :=
  match t with
  | [] => []
  | (k', v) :: r => if k' = k then Tbl.erase r k else (k', v) :: Tbl.erase r k

/-- The table with `v` listed at `k`, in its place by key. -/
def Tbl.insert {α : Type} (t : Tbl α) (k : Nat) (v : α) : Tbl α :=
  match t with
  | [] => [(k, v)]
  | (k', v') :: r =>
    if k < k' then (k, v) :: (k', v') :: r
    else if k = k' then (k, v) :: r
    else (k', v') :: Tbl.insert r k v

/-- Writing `v` at `k`: writing the default takes the entry out, so equal tables are equal lists. -/
def Tbl.set {α : Type} [DecidableEq α] (d : α) (t : Tbl α) (k : Nat) (v : α) : Tbl α :=
  if v = d then Tbl.erase t k else Tbl.insert t k v

/-- The keys of a table rise strictly and all lie above `lo` (when there is one). -/
def Tbl.rising {α : Type} : Option Nat → Tbl α → Bool
  | _, [] => true
  | none, (k, _) :: r => Tbl.rising (some k) r
  | some lo, (k, _) :: r => decide (lo < k) && Tbl.rising (some k) r

/-- No entry equals the default. -/
def Tbl.clean {α : Type} [DecidableEq α] (d : α) (t : Tbl α) : Bool :=
  t.all fun e => decide (e.2 ≠ d)

/-- The canonical form of a table with default `d`. -/
def Tbl.wf {α : Type} [DecidableEq α] (d : α) (t : Tbl α) : Bool :=
  Tbl.rising none t && Tbl.clean d t

/-- A bit field: bits `hi` down to `lo` of a 64-bit word. -/
structure Fld where
  hi : Nat
  lo : Nat
deriving DecidableEq, Repr

/-- How many bits the field has. -/
def Fld.width (f : Fld) : Nat := f.hi + 1 - f.lo

/-- The field's bits in place, all ones. -/
def Fld.mask (f : Fld) : Word := BitVec.ofNat 64 ((2 ^ f.width - 1) * 2 ^ f.lo)

/-- The field's value. -/
def Fld.get (f : Fld) (w : Word) : Nat := (w.toNat / 2 ^ f.lo) % 2 ^ f.width

/-- The word with the field set to the low bits of `v`. -/
def Fld.set (f : Fld) (w : Word) (v : Nat) : Word :=
  (w &&& ~~~ f.mask) ||| BitVec.ofNat 64 ((v % 2 ^ f.width) * 2 ^ f.lo)

/-- The bits `hi` to `lo` of a natural number. -/
def bits (n hi lo : Nat) : Nat := (n / 2 ^ lo) % 2 ^ (hi + 1 - lo)

/-- Bit `i` of a natural number. -/
def bit (n i : Nat) : Bool := (n / 2 ^ i) % 2 == 1

/-- The low `w` bits of a natural number read as two's complement. -/
def signed (w n : Nat) : Int := (BitVec.ofNat w n).toInt

/-- An integer as the `w` low bits of its two's complement. -/
def unsigned (w : Nat) (i : Int) : Nat := (BitVec.ofInt w i).toNat

/-- The bytes of a number, least significant first (R10). -/
def bytesLE : Nat → Nat → List Byte
  | 0, _ => []
  | n + 1, v => BitVec.ofNat 8 v :: bytesLE n (v / 256)

/-- The number that bytes spell, least significant first (R10). -/
def natLE : List Byte → Nat
  | [] => 0
  | b :: r => b.toNat + 256 * natLE r

/-- `v` held at a largest value `m` (counters that hold). -/
def holdAt (m v : Nat) : Nat := if v < m then v else m

/-- One true as a number. -/
def b2n (b : Bool) : Nat := if b then 1 else 0

/-- The list with position `i` replaced. -/
def setAt {α : Type} (l : List α) (i : Nat) (a : α) : List α := l.set i a

/-- The numbers from `a`, `n` of them. -/
def upFrom (a n : Nat) : List Nat := (List.range n).map (a + ·)

/-- A list cut into pieces of `n`, for `k` pieces. -/
def pieces {α : Type} (n : Nat) : Nat → List α → List (List α)
  | 0, _ => []
  | k + 1, l => l.take n :: pieces n k (l.drop n)

end Sys2Proof
end

