-- ==== Sys2Proof/Syntax.lean ====
section
/-! DEFINITION. The commands the device takes: one constructor per row of spec/opcode_table.json, with its operands.
The first operand of a pilot instruction is its core, as a module core id 13d + c (00_scope.md, Identifiers). -/

namespace Sys2Proof

/-- The way a control word is written: CSRW, CSRS or CSRC (R113). -/
inductive CsrOp where
  | w | s | c
deriving DecidableEq, Repr

/-- The interface a command comes over (R505, R389): with the sender node and epoch of a manager order,
or the core. The image loader writes under the interface that loaded the image; from boot flash as the manager control
channel with epoch 0 (R422). -/
inductive Source where
  | manager (node epoch : Nat)
  | pcie
  | mctp
  | jtag
  | pilot (core : Nat)
  | device
deriving DecidableEq, Repr

/-- A fault of the hardware in a stick: set, row, column (128 is the checksum stick) and the bit of A or of its status that turns over. -/
structure StickFlip where
  set : Fin 4
  row : Fin 128
  col : Fin 129
  bit : Fin 126
deriving DecidableEq, Repr

/-- A request that waits at a galley bank (R133): its port, 0 to 71 in the order of R133's table, the address and length of the
access, and the bytes of a write. -/
structure GalleyReq where
  port : Nat
  addr : Nat
  len : Nat
  data : Option (List Byte)
deriving DecidableEq, Repr

/-- Faults of the hardware in a proof of a tile (R208): bits that flip in the proof core's set, and bits of its output tally. -/
structure ProofFault where
  flips : List StickFlip
  out : Word
deriving DecidableEq, Repr

/-- Faults of the hardware in a vector result: bits of the destination and of the IEEE flags raised (R210). -/
structure VecFault where
  dest : BitVec 2048
  flags : BitVec 5
deriving DecidableEq, Repr

/-- A cell (R312, R313): header fields and the three granules. -/
structure Cell where
  kind : Nat
  part : Nat
  dst : Nat
  src : Nat
  core : Nat
  rid : Nat
  itide : Nat
  gmask : Nat
  addr : Nat
  g0 : Nat
  g1 : Nat
  g2 : Nat
deriving DecidableEq, Repr

/-- An event message as it reaches a die (R236, R238): source and destination die, EKIND, CORE, the reserved bits, TIDE, BODY, PART and
BCAST. -/
structure EvtMsg where
  src : Nat
  dst : Nat
  ekind : Nat
  core : Nat
  reserved : Nat
  tide : Nat
  body : Nat
  part : Nat
  bcast : Bool
deriving DecidableEq, Repr

/-- What a lookup of a home directory finds in the entry's SECDED (R249). -/
inductive DirErr where
  | clean | single | double
deriving DecidableEq, Repr

/-- A symbol of an HBM codeword that comes back wrong: its position 0 to 35 and the XOR pattern (R265). -/
structure SymErr where
  pos : Nat
  err : BitVec 16
deriving DecidableEq, Repr

/-- What the management processor does with the UART's FIFOs before a row (16_host_network_management.md R507): the bytes it takes from the
receive FIFO, and those it puts into the transmit FIFO. -/
structure UartMove where
  taken : Nat
  put : List Byte
deriving DecidableEq, Repr

/-- Where a PTP Sync comes from (16_host_network_management.md R495): its domain, and how the best time transmitter algorithm of the standard ranks
its transmitter by what it announces, a lower number the better. -/
structure PtpFrom where
  domain : Nat
  rank : Nat
deriving DecidableEq, Repr

/-- The time stamps of a Sync in ns (R495): t1 as the transmitter sent it, told in the Sync (one-step) or in its Follow_Up (two-step), t2 as
the MAC took it, and t3 and t4 of a delay request that the transmitter has answered since the Sync before. -/
structure PtpTimes where
  t1 : Int
  t2 : Int
  delay : Option (Int × Int)
deriving DecidableEq, Repr

/-- An MCTP message that no row of its own brings (16_host_network_management.md R499): Set Endpoint ID, another control message by its command
with its first data byte, or a message of a type by its length. -/
inductive MctpControl where
  | setEid (eid : Nat)
  | control (cmd arg : Nat)
  | other (type len : Nat)
deriving DecidableEq, Repr

/-- Another member of a job as its leader knows it (14_faults_checkpoint_recovery.md R443): the node, its lead die, and the cores to tell
there. -/
structure JobMember where
  node : Nat
  die : Nat
  cores : Nat
deriving DecidableEq, Repr

/-- What a leader knows of a job, from its job description (14_faults_checkpoint_recovery.md R443): the partition, the leader's own lead die,
the cores to tell there, and the other members. -/
structure JobMark where
  part : Nat
  die : Nat
  cores : Nat
  members : List JobMember
deriving DecidableEq, Repr

/-- A tensor of a shard: its first byte, its elements, and the log2 of the bytes of one (06_result_checking.md R224). -/
structure Tensor where
  addr : Nat
  count : Nat
  esz : Nat
deriving DecidableEq, Repr

/-- Another replica of a shard as a vote's PUT reaches it (06_result_checking.md R225): the global address of its vote table, and the core and
counter that run its vote. -/
structure VotePeer where
  table : Nat
  core : Nat
  ctr : Nat
deriving DecidableEq, Repr

/-- A member of a job, from its job description (06_result_checking.md R224 to R227, 14_faults_checkpoint_recovery.md R440, R444): the core
and counter that run its vote, the vote table, the replicas of its shard and its own index among them, the step, the step record, the
job and shard ids, the shard's tensors, its histories by die and slot, the element size its data is compressed with, and the host address
of its shard object. -/
structure Member where
  core : Nat
  ctr : Nat
  table : Nat
  replicas : Nat
  ridx : Nat
  peers : List VotePeer
  step : Nat
  record : Nat
  job : Nat
  shard : Nat
  tensors : List Tensor
  hists : List (Nat × Nat)
  pack : Option Nat
  dest : Nat
deriving DecidableEq, Repr

/-- A block of a gradient tensor that a member owns (11_collectives_and_job_mapping.md R367): the tensor's index, the address and size in bytes
of its elements, and the address of its block word. -/
structure GradBlock where
  tensor : Nat
  addr : Nat
  size : Nat
  word : Nat
deriving DecidableEq, Repr

/-- What a member does at a mark that its job description names: enter the vote, take it, take its tally again after a repair, write its
shard, restore it from the object read back, with the checkpoint's manifest and the tallies of its shard headers, or apply the numeric policy to the job flag array of `count` bytes at `flags`, with the gradient
blocks that it owns (11_collectives_and_job_mapping.md R368). -/
inductive MarkDuty
  | enter
  | vote
  | repair
  | shard
  | policy (flags count : Nat) (owned : List GradBlock)
  | restore (manifest : List Byte) (tallies : List Nat) (object : List Byte)
deriving DecidableEq, Repr

/-- A member and its duty at a mark. -/
structure MemberMark where
  duty : MarkDuty
  member : Member
deriving DecidableEq, Repr

/-- A failure of the self-test (18_start_up.md R535): the row of its table, the unit (a link by die and link number in `core`), and the
first failing local address or zero. -/
structure SelfFail where
  row : Nat
  ukind : Nat
  die : Nat
  core : Nat
  sub : Nat
  addr : Nat
deriving DecidableEq, Repr

/-- What a stack shows at start-up (18_start_up.md R536): whether it reports the organisation of R257, by rate the channels that fail
training, and by rate and pseudo-channel the eye that screening measures. -/
structure StackBoot where
  organised : Bool
  fails : List Nat
  eyes : List (List (List Word))
deriving DecidableEq, Repr



/-- The commands of the device: one constructor per row of the opcode table. -/
inductive Instr where
  /-- REGISTER_WRITE (R16): A configuration write to a register with no row of its own is serialised at the journal, applied at the end of its tide tick and journaled. -/
  | registerWrite (src : Source) (addr size : Nat) (value : Word)
  /-- REGISTER_HALF_READ (R15): A 32-bit read of a register's low half latches its high half, which a later high-half read from the same interface uses up. -/
  | registerHalfRead (src : Source) (addr tag : Nat)
  /-- ADD (R113): Integer add of two registers. -/
  | add (c : Nat) (rd ra rb : Fin 32)
  /-- SUB (R113): Integer subtract of two registers. -/
  | sub (c : Nat) (rd ra rb : Fin 32)
  /-- AND (R113): Bitwise AND of two registers. -/
  | and (c : Nat) (rd ra rb : Fin 32)
  /-- OR (R113): Bitwise OR of two registers. -/
  | or (c : Nat) (rd ra rb : Fin 32)
  /-- XOR (R113): Bitwise XOR of two registers. -/
  | xor (c : Nat) (rd ra rb : Fin 32)
  /-- ANDN (R113): AND of ra with the complement of rb. -/
  | andn (c : Nat) (rd ra rb : Fin 32)
  /-- SHL (R113): Logical left shift by rb[5:0]. -/
  | shl (c : Nat) (rd ra rb : Fin 32)
  /-- SHR (R113): Logical right shift by rb[5:0]. -/
  | shr (c : Nat) (rd ra rb : Fin 32)
  /-- SRA (R113): Arithmetic right shift by rb[5:0]. -/
  | sra (c : Nat) (rd ra rb : Fin 32)
  /-- ROR (R113): Rotate right by rb[5:0]. -/
  | ror (c : Nat) (rd ra rb : Fin 32)
  /-- SLT (R113): Set if signed less than. -/
  | slt (c : Nat) (rd ra rb : Fin 32)
  /-- SLTU (R113): Set if unsigned less than. -/
  | sltu (c : Nat) (rd ra rb : Fin 32)
  /-- MIN (R113): Signed minimum of two registers. -/
  | min (c : Nat) (rd ra rb : Fin 32)
  /-- MAX (R113): Signed maximum of two registers. -/
  | max (c : Nat) (rd ra rb : Fin 32)
  /-- MINU (R113): Unsigned minimum of two registers. -/
  | minu (c : Nat) (rd ra rb : Fin 32)
  /-- MAXU (R113): Unsigned maximum of two registers. -/
  | maxu (c : Nat) (rd ra rb : Fin 32)
  /-- CLZ (R113): Count leading zeros of ra. -/
  | clz (c : Nat) (rd ra : Fin 32)
  /-- CTZ (R113): Count trailing zeros of ra. -/
  | ctz (c : Nat) (rd ra : Fin 32)
  /-- POPC (R113): Count set bits of ra. -/
  | popc (c : Nat) (rd ra : Fin 32)
  /-- SEL (R113): Select ra or rb by whether rc is nonzero. -/
  | sel (c : Nat) (rd ra rb rc : Fin 32)
  /-- ADDW (R113): 32-bit add, sign-extended. -/
  | addw (c : Nat) (rd ra rb : Fin 32)
  /-- SUBW (R113): 32-bit subtract, sign-extended. -/
  | subw (c : Nat) (rd ra rb : Fin 32)
  /-- MUL (R113): Low 64 bits of a product. -/
  | mul (c : Nat) (rd ra rb : Fin 32)
  /-- MULH (R113): High 64 bits of a signed product. -/
  | mulh (c : Nat) (rd ra rb : Fin 32)
  /-- MULHU (R113): High 64 bits of an unsigned product. -/
  | mulhu (c : Nat) (rd ra rb : Fin 32)
  /-- MADD (R113): Multiply and add, low 64 bits. -/
  | madd (c : Nat) (rd ra rb rc : Fin 32)
  /-- DIV (R113): Signed truncating division that never traps. -/
  | div (c : Nat) (rd ra rb : Fin 32)
  /-- DIVU (R113): Unsigned truncating division that never traps. -/
  | divu (c : Nat) (rd ra rb : Fin 32)
  /-- REM (R113): Signed remainder with the sign of ra. -/
  | rem (c : Nat) (rd ra rb : Fin 32)
  /-- REMU (R113): Unsigned remainder. -/
  | remu (c : Nat) (rd ra rb : Fin 32)
  /-- ADDI (R113): Add a sign-extended immediate. -/
  | addi (c : Nat) (rd ra : Fin 32) (imm : BitVec 14)
  /-- ANDI (R113): AND with a sign-extended immediate. -/
  | andi (c : Nat) (rd ra : Fin 32) (imm : BitVec 14)
  /-- ORI (R113): OR with a sign-extended immediate. -/
  | ori (c : Nat) (rd ra : Fin 32) (imm : BitVec 14)
  /-- XORI (R113): XOR with a sign-extended immediate. -/
  | xori (c : Nat) (rd ra : Fin 32) (imm : BitVec 14)
  /-- SLTI (R113): Set if signed less than an immediate. -/
  | slti (c : Nat) (rd ra : Fin 32) (imm : BitVec 14)
  /-- SLTIU (R113): Set if unsigned less than an immediate. -/
  | sltiu (c : Nat) (rd ra : Fin 32) (imm : BitVec 14)
  /-- SHI (R113): Shift or rotate by an immediate count. -/
  | shi (c : Nat) (rd ra : Fin 32) (kind : Fin 4) (sh : Fin 64)
  /-- MOVZ (R113): Load a shifted 16-bit immediate, zeroing other bits. -/
  | movz (c : Nat) (rd : Fin 32) (hw : Fin 4) (imm : BitVec 16)
  /-- MOVK (R113): Insert a 16-bit immediate, keeping other bits. -/
  | movk (c : Nat) (rd : Fin 32) (hw : Fin 4) (imm : BitVec 16)
  /-- MOVN (R113): Load the complement of a shifted 16-bit immediate. -/
  | movn (c : Nat) (rd : Fin 32) (hw : Fin 4) (imm : BitVec 16)
  /-- LB (R89): Load a sign-extended byte from private memory, galley or register space. -/
  | lb (c : Nat) (rd ra : Fin 32) (imm : BitVec 14)
  /-- LH (R89): Load a sign-extended halfword. -/
  | lh (c : Nat) (rd ra : Fin 32) (imm : BitVec 14)
  /-- LW (R89): Load a sign-extended word. -/
  | lw (c : Nat) (rd ra : Fin 32) (imm : BitVec 14)
  /-- LD (R89): Load a doubleword. -/
  | ld (c : Nat) (rd ra : Fin 32) (imm : BitVec 14)
  /-- LBU (R89): Load a zero-extended byte. -/
  | lbu (c : Nat) (rd ra : Fin 32) (imm : BitVec 14)
  /-- LHU (R89): Load a zero-extended halfword. -/
  | lhu (c : Nat) (rd ra : Fin 32) (imm : BitVec 14)
  /-- LWU (R89): Load a zero-extended word. -/
  | lwu (c : Nat) (rd ra : Fin 32) (imm : BitVec 14)
  /-- SB (R89): Store a byte through the store buffer. -/
  | sb (c : Nat) (rs ra : Fin 32) (imm : BitVec 14)
  /-- SH (R89): Store a halfword through the store buffer. -/
  | sh (c : Nat) (rs ra : Fin 32) (imm : BitVec 14)
  /-- SW (R89): Store a word through the store buffer. -/
  | sw (c : Nat) (rs ra : Fin 32) (imm : BitVec 14)
  /-- SD (R89): Store a doubleword through the store buffer. -/
  | sd (c : Nat) (rs ra : Fin 32) (imm : BitVec 14)
  /-- BEQ (R113): Branch if equal. -/
  | beq (c : Nat) (ra rb : Fin 32) (off : BitVec 14)
  /-- BNE (R113): Branch if not equal. -/
  | bne (c : Nat) (ra rb : Fin 32) (off : BitVec 14)
  /-- BLT (R113): Branch if signed less than. -/
  | blt (c : Nat) (ra rb : Fin 32) (off : BitVec 14)
  /-- BGE (R113): Branch if signed greater or equal. -/
  | bge (c : Nat) (ra rb : Fin 32) (off : BitVec 14)
  /-- BLTU (R113): Branch if unsigned less than. -/
  | bltu (c : Nat) (ra rb : Fin 32) (off : BitVec 14)
  /-- BGEU (R113): Branch if unsigned greater or equal. -/
  | bgeu (c : Nat) (ra rb : Fin 32) (off : BitVec 14)
  /-- J (R113): Jump relative. -/
  | j (c : Nat) (off : BitVec 26)
  /-- JL (R113): Jump relative and write the return address to g31. -/
  | jl (c : Nat) (off : BitVec 26)
  /-- CSRR (R125): Read a control word. -/
  | csrr (c : Nat) (rd : Fin 32) (idx : BitVec 12)
  /-- CSRW (R125): Write a control word, returning its old value. -/
  | csrw (c : Nat) (rd ra : Fin 32) (idx : BitVec 12)
  /-- CSRS (R125): Set bits of a control word. -/
  | csrs (c : Nat) (rd ra : Fin 32) (idx : BitVec 12)
  /-- CSRC (R125): Clear bits of a control word. -/
  | csrc (c : Nat) (rd ra : Fin 32) (idx : BitVec 12)
  /-- WUMARK (R126): A write of WUMARK records the current work unit's id, entry, registers, tokens and VCT and resets the lighter's issued count. -/
  | wumark (c : Nat) (op : CsrOp) (rd ra : Fin 32)
  /-- JR (R113): Jump to a register address. -/
  | jr (c : Nat) (ra : Fin 32)
  /-- JLR (R113): Jump to a register address and link. -/
  | jlr (c : Nat) (rd ra : Fin 32)
  /-- FENCE (R113): Discard fetched-ahead instructions and/or wait until earlier stores are visible. -/
  | fence (c : Nat) (fi fm : Bool)
  /-- WAITEV (R100): Wait for a pending unmasked event, return its number and clear it. -/
  | waitev (c : Nat) (rd : Fin 32)
  /-- TRAP (R96): Software trap with a 12-bit code. -/
  | trap (c : Nat) (code : BitVec 12)
  /-- ERET (R97): Return from a trap, restoring mode, EVEN and pc. -/
  | eret (c : Nat)
  /-- ILLEGAL_INSTRUCTION (R110): A word that matches no encoding traps precisely with ILLEGAL_INSTRUCTION. -/
  | illegalInstruction (c : Nat) (word : BitVec 32)
  /-- EVENT_TRAP (R99): Between instructions, with EVEN set and an unmasked event pending, the pilot takes the lowest event as a trap. -/
  | eventTrap (c : Nat)
  /-- TIMER_EVENT (R99): When the tide reaches TCMP, event TIMER fires once. -/
  | timerEvent (c : Nat)
  /-- INSTRUCTION_FETCH (R93): A fetch or cache-miss fill from HBM completes, or traps with BAD_ADDRESS or FETCH_ERROR. -/
  | instructionFetch (c : Nat) (addr : Word)
  /-- PILOT_LOAD_RETURN (R94): Data of an outstanding galley or register load returns to its register, or the load traps on an uncorrectable word. -/
  | pilotLoadReturn (c : Nat)
  /-- STORE_VISIBLE (R554): The oldest buffered store becomes visible when its memory or galley bank serves it and leaves the buffer. -/
  | storeVisible (c : Nat)
  /-- VADD (R114): Lane-wise add. -/
  | vadd (c : Nat) (ty mask : Fin 8) (vd va vb : Fin 32) (upset : BitVec 64)
  /-- VSUB (R114): Lane-wise subtract. -/
  | vsub (c : Nat) (ty mask : Fin 8) (vd va vb : Fin 32) (upset : BitVec 64)
  /-- VMUL (R114): Lane-wise multiply. -/
  | vmul (c : Nat) (ty mask : Fin 8) (vd va vb : Fin 32) (upset : BitVec 64)
  /-- VFMA (R45): Lane-wise fused multiply-add with one rounding. -/
  | vfma (c : Nat) (ty mask : Fin 8) (vd va vb : Fin 32) (upset : BitVec 64)
  /-- VFNMA (R114): Lane-wise negated fused multiply-add. -/
  | vfnma (c : Nat) (ty mask : Fin 8) (vd va vb : Fin 32) (upset : BitVec 64)
  /-- VDIV (R49): Lane-wise correctly rounded division. -/
  | vdiv (c : Nat) (ty mask : Fin 8) (vd va vb : Fin 32)
  /-- VSQRT (R49): Lane-wise correctly rounded square root. -/
  | vsqrt (c : Nat) (ty mask : Fin 8) (vd va : Fin 32)
  /-- VMIN (R45): Lane-wise IEEE minimum. -/
  | vmin (c : Nat) (ty mask : Fin 8) (vd va vb : Fin 32)
  /-- VMAX (R45): Lane-wise IEEE maximum. -/
  | vmax (c : Nat) (ty mask : Fin 8) (vd va vb : Fin 32)
  /-- VABS (R114): Lane-wise absolute value. -/
  | vabs (c : Nat) (ty mask : Fin 8) (vd va : Fin 32)
  /-- VNEG (R114): Lane-wise negation. -/
  | vneg (c : Nat) (ty mask : Fin 8) (vd va : Fin 32) (upset : BitVec 64)
  /-- VRCP (R49): Lane-wise correctly rounded reciprocal. -/
  | vrcp (c : Nat) (ty mask : Fin 8) (vd va : Fin 32)
  /-- VRSQRT (R49): Lane-wise correctly rounded reciprocal square root. -/
  | vrsqrt (c : Nat) (ty mask : Fin 8) (vd va : Fin 32)
  /-- VEXP (R51): Lane-wise exponential by the reference kernel. -/
  | vexp (c : Nat) (ty mask : Fin 8) (vd va : Fin 32)
  /-- VLOG (R52): Lane-wise logarithm by the reference algorithm. -/
  | vlog (c : Nat) (ty mask : Fin 8) (vd va : Fin 32)
  /-- VSIG (R53): Lane-wise sigmoid. -/
  | vsig (c : Nat) (ty mask : Fin 8) (vd va : Fin 32)
  /-- VTANH (R53): Lane-wise hyperbolic tangent. -/
  | vtanh (c : Nat) (ty mask : Fin 8) (vd va : Fin 32)
  /-- VAND (R114): Lane-wise bitwise AND. -/
  | vand (c : Nat) (ty mask : Fin 8) (vd va vb : Fin 32)
  /-- VOR (R114): Lane-wise bitwise OR. -/
  | vor (c : Nat) (ty mask : Fin 8) (vd va vb : Fin 32)
  /-- VXOR (R114): Lane-wise bitwise XOR. -/
  | vxor (c : Nat) (ty mask : Fin 8) (vd va vb : Fin 32)
  /-- VSHL (R114): Lane-wise left shift. -/
  | vshl (c : Nat) (ty mask : Fin 8) (vd va vb : Fin 32)
  /-- VSHR (R114): Lane-wise logical right shift. -/
  | vshr (c : Nat) (ty mask : Fin 8) (vd va vb : Fin 32)
  /-- VSRA (R114): Lane-wise arithmetic right shift. -/
  | vsra (c : Nat) (ty mask : Fin 8) (vd va vb : Fin 32)
  /-- VLD (R114): Load 256 bytes into a vector register. -/
  | vld (c : Nat) (vd ra : Fin 32) (imm : BitVec 14)
  /-- VST (R114): Store a vector register. -/
  | vst (c : Nat) (vd ra : Fin 32) (imm : BitVec 14)
  /-- VLDM (R114): Load a mask register. -/
  | vldm (c : Nat) (md : Fin 8) (ra : Fin 32) (imm : BitVec 14)
  /-- VSTM (R114): Store a mask register. -/
  | vstm (c : Nat) (md : Fin 8) (ra : Fin 32) (imm : BitVec 14)
  /-- VMOV (R114): Copy a vector register. -/
  | vmov (c : Nat) (ty mask : Fin 8) (vd va : Fin 32)
  /-- VCVT (R105): Convert between lane types with the VCT scale. -/
  | vcvt (c : Nat) (ty mask : Fin 8) (vd va : Fin 32) (part : Fin 4) (dty : Fin 8)
  /-- VBCAST (R114): Broadcast a scalar to active lanes. -/
  | vbcast (c : Nat) (ty mask : Fin 8) (vd ra : Fin 32)
  /-- VEXTR (R114): Extract a lane into a scalar register. -/
  | vextr (c : Nat) (ty : Fin 8) (rd va rb : Fin 32)
  /-- VINS (R114): Insert a scalar into a lane. -/
  | vins (c : Nat) (ty : Fin 8) (vd ra rb : Fin 32)
  /-- VPERM (R114): Permute lanes by an index vector. -/
  | vperm (c : Nat) (ty mask : Fin 8) (vd va vb : Fin 32)
  /-- VSEL (R114): Select lanes from two registers by a mask. -/
  | vsel (c : Nat) (ty mask : Fin 8) (vd va vb : Fin 32)
  /-- VIOTA (R114): Write each lane's index. -/
  | viota (c : Nat) (ty mask : Fin 8) (vd : Fin 32)
  /-- VRMAX (R107): Maximum over active lanes into lane 0. -/
  | vrmax (c : Nat) (ty mask : Fin 8) (vd va : Fin 32)
  /-- VRMIN (R107): Minimum over active lanes into lane 0. -/
  | vrmin (c : Nat) (ty mask : Fin 8) (vd va : Fin 32)
  /-- VSCLR (R106): Clear a vector stick and set its QE. -/
  | vsclr (c : Nat) (vsd : Fin 8) (ra : Fin 32)
  /-- VSADD (R106): Add active lanes into a vector stick by fixed-window accumulation. -/
  | vsadd (c : Nat) (ty mask vsd : Fin 8) (va : Fin 32) (upset : BitVec 64)
  /-- VSDOT (R106): Add exact lane products into a vector stick. -/
  | vsdot (c : Nat) (ty mask vsd : Fin 8) (va vb : Fin 32) (upset : BitVec 64)
  /-- VSACC (R106): Add one vector stick into another. -/
  | vsacc (c : Nat) (vsd vsa : Fin 8) (upset : BitVec 64)
  /-- VSRD (R106): Read a vector stick out to a scalar register. -/
  | vsrd (c : Nat) (ty : Fin 8) (rd : Fin 32) (vsa : Fin 8) (rb : Fin 32)
  /-- VSRAW (R106): Read raw bits or QE of a vector stick. -/
  | vsraw (c : Nat) (rd : Fin 32) (vsa : Fin 8) (part : Fin 3)
  /-- VSWRAW (R106): Write raw bits or QE of a vector stick. -/
  | vswraw (c : Nat) (vsd : Fin 8) (ra : Fin 32) (part : Fin 3)
  /-- VCMPEQ (R114): Lane-wise equality compare into a mask. -/
  | vcmpeq (c : Nat) (ty mask md : Fin 8) (va vb : Fin 32)
  /-- VCMPLT (R114): Lane-wise less-than compare into a mask. -/
  | vcmplt (c : Nat) (ty mask md : Fin 8) (va vb : Fin 32)
  /-- VCMPLE (R114): Lane-wise less-or-equal compare into a mask. -/
  | vcmple (c : Nat) (ty mask md : Fin 8) (va vb : Fin 32)
  /-- VCMPUN (R114): Lane-wise unordered compare into a mask. -/
  | vcmpun (c : Nat) (ty mask md : Fin 8) (va vb : Fin 32)
  /-- MAND (R114): Mask AND. -/
  | mand (c : Nat) (md ma mb : Fin 8)
  /-- MOR (R114): Mask OR. -/
  | mor (c : Nat) (md ma mb : Fin 8)
  /-- MXOR (R114): Mask XOR. -/
  | mxor (c : Nat) (md ma mb : Fin 8)
  /-- MNOT (R114): Mask complement. -/
  | mnot (c : Nat) (md ma : Fin 8)
  /-- MPOPC (R114): Count set bits of a mask. -/
  | mpopc (c : Nat) (ty : Fin 8) (rd : Fin 32) (ma : Fin 8)
  /-- FORME (R59): Validate a staging descriptor and queue a tile for staging. -/
  | forme (c : Nat) (wait raise : Fin 64) (ra : Fin 32)
  /-- FORME_TILE_STAGED (R62): A staging completes: the slot becomes resident (or POISON) and the RAISE token is raised. -/
  | formeTileStaged (c : Nat)
  /-- FORME_ROW_SUMS (R155): The reducer's forme path returns a forme's row sums 48 cycles after acceptance. -/
  | formeRowSums (c : Nat)
  /-- PRESS (R67): Validate a PRESS instruction and retire it into the press. -/
  | press (c : Nat) (m : Fin 16) (f a : Fin 2) (raise : Fin 64)
  /-- PRESS_ISSUE (R68): A pending PRESS issues once the previous one ended, its sets are free, its slots resident and the ramp released it. -/
  | pressIssue (c : Nat)
  /-- PRESS_COMPLETE (R69): A PRESS ends its 128 cycles; unchecked PRESS instructions complete and raise their token. -/
  | pressComplete (c : Nat) (flips : List StickFlip)
  /-- CHECKSUM_COMPARISON (R78): Eight cycles after a PRESS the checksum comparison ends; passing completes the PRESS. -/
  | checksumComparison (c : Nat)
  /-- STICKCLR (R72): Validate and accept a clear of stick sets with new QEs. -/
  | stickclr (c : Nat) (m : Fin 16) (ra : Fin 32)
  /-- STICKCLR_EXECUTE (R72): Once no earlier PRESS into a set is incomplete and the set is free, it is cleared and its QE and CKV set. -/
  | stickclrExecute (c : Nat)
  /-- STICKRD (R74): Validate a drain descriptor and queue it in the drain queue. -/
  | stickrd (c : Nat) (wait raise : Fin 64) (ra : Fin 32)
  /-- DRAIN_HOLD (R75): A queued drain, once earlier PRESS instructions are complete, holds its set and starts reading. -/
  | drainHold (c : Nat)
  /-- DRAIN_RELEASE (R76): A drain ends: results are written, PRESS_RD_STATUS is updated, the set released and the token raised. -/
  | drainRelease (c : Nat) (flips : List StickFlip)
  /-- PRESS_HALT (R80): PRESS_CTL.HALT halts the press without capture or record. -/
  | pressHalt (src : Source) (c : Nat)
  /-- PRESS_RESUME (R83): PRESS_CTL.RESUME clears the halt, zeroes sets, resets CKV and empties slots and queues. -/
  | pressResume (src : Source) (c : Nat)
  /-- ENQ (R119): Fence stores, check queue and header, and copy a descriptor into a unit queue. -/
  | enq (c : Nat) (queue : BitVec 8) (ra : Fin 32)
  /-- TKWAIT (R116): Stall until a token is nonzero, then decrement it. -/
  | tkwait (c : Nat) (tk : Fin 64)
  /-- TKTRY (R116): Decrement a token if nonzero and report success. -/
  | tktry (c : Nat) (rd : Fin 32) (tk : Fin 64)
  /-- TKREAD (R116): Read a token's count. -/
  | tkread (c : Nat) (rd : Fin 32) (tk : Fin 64)
  /-- TKRAISE (R116): Increment a token, trapping at 65,535. -/
  | tkraise (c : Nat) (tk : Fin 64)
  /-- TKSET (R116): Set a token's count. -/
  | tkset (c : Nat) (tk : Fin 64) (ra : Fin 32)
  /-- PILOT_RESET (R88): PILOT_CTL.RESET resets the core, flushes its queues and tokens and resets its press. -/
  | pilotReset (src : Source) (c : Nat)
  /-- PILOT_RUN (R131): PILOT_CTL.RUN continues the pilot from PILOT_PC. -/
  | pilotRun (src : Source) (c : Nat)
  /-- PILOT_HALT (R131): PILOT_CTL.HALT stops the pilot after the current instruction. -/
  | pilotHalt (src : Source) (c : Nat)
  /-- PILOT_MAILBOX_WRITE (R131): A write to PILOT_MAILBOX fires event MGMT. -/
  | pilotMailboxWrite (src : Source) (c : Nat) (value : Word)
  /-- STAND_IN (R129): The proof core takes over a failed core's identity, memory and state and re-runs its work unit. -/
  | standIn (core : Nat)
  /-- GALLEY_BANK_SERVE (R134): A galley bank serves the next waiting request by round-robin arbitration. -/
  | galleyBankServe (die bank : Nat) (reqs : List GalleyReq)
  /-- GALLEY_SCRUB (R137): The patrol scrubber reads and corrects galley words in idle bank cycles, counting passes. -/
  | galleyScrub (die : Nat)
  /-- TRANSPOSE (R147): Transposer descriptor moves element bits from SRC to DST transposed. -/
  | transpose (c : Nat)
  /-- GATHER (R148): Gather rows by an index list. -/
  | gather (c : Nat)
  /-- SCATTER (R148): Scatter rows by an index list, last index winning. -/
  | scatter (c : Nat)
  /-- SCATTER_ADD (R149): Add rows into indexed destination rows exactly. -/
  | scatterAdd (c : Nat)
  /-- ENGINE_EXP (R150): Transcendental engine exponential of A×x+B. -/
  | engineExp (c : Nat)
  /-- ENGINE_LOG (R150): Transcendental engine logarithm. -/
  | engineLog (c : Nat)
  /-- ENGINE_RCP (R150): Transcendental engine reciprocal. -/
  | engineRcp (c : Nat)
  /-- ENGINE_RSQRT (R150): Transcendental engine reciprocal square root. -/
  | engineRsqrt (c : Nat)
  /-- ENGINE_SIG (R150): Transcendental engine sigmoid. -/
  | engineSig (c : Nat)
  /-- ENGINE_TANH (R150): Transcendental engine hyperbolic tangent. -/
  | engineTanh (c : Nat)
  /-- SORT (R152): Stable sort of each row by the total key order. -/
  | sort (c : Nat)
  /-- TOPK (R152): Write the first k keys of each row in key order. -/
  | topk (c : Nat)
  /-- REDUCER_SUM (R154): Sum addends into sticks and write them by OKIND. -/
  | reducerSum (c : Nat)
  /-- REDUCER_SUMSQ (R154): Sum exact squares into sticks. -/
  | reducerSumsq (c : Nat)
  /-- REDUCER_DOT (R154): Sum exact products of two sources into sticks. -/
  | reducerDot (c : Nat)
  /-- REDUCER_MAX (R154): Reduce by IEEE maximum. -/
  | reducerMax (c : Nat)
  /-- REDUCER_MIN (R154): Reduce by IEEE minimum. -/
  | reducerMin (c : Nat)
  /-- REDUCER_AMAX (R154): Reduce by maximum magnitude. -/
  | reducerAmax (c : Nat)
  /-- STICKADD (R154): Add raw sticks exactly. -/
  | stickadd (c : Nat)
  /-- TALLYSUM (R154): Sum 64-bit words modulo 2^64. -/
  | tallysum (c : Nat)
  /-- CONVERT (R158): Scale engine converts a tensor between formats, optionally recording its entry. -/
  | convert (c : Nat)
  /-- SCALE_AMAX (R158): Compute the entry of the largest magnitude, optionally recording it. -/
  | scaleAmax (c : Nat)
  /-- RECORD (R158): Push an entry into a history slot. -/
  | record (c : Nat)
  /-- SELECT (R159): Compute a window and scale from a history slot. -/
  | select (c : Nat)
  /-- HSAVE (R158): Save history slots to the galley. -/
  | hsave (c : Nat)
  /-- HLOAD (R158): Load history slots from the galley. -/
  | hload (c : Nat)
  /-- HINIT (R158): Clear a history slot and set its DEFAULT. -/
  | hinit (c : Nat)
  /-- RNG_RAW (R162): Write raw rng64 words. -/
  | rngRaw (c : Nat)
  /-- UNIFORM (R162): Write uniform values in [0,1). -/
  | uniform (c : Nat)
  /-- BERNOULLI (R162): Write Bernoulli values. -/
  | bernoulli (c : Nat)
  /-- INTRANGE (R162): Write integers in [0,M). -/
  | intrange (c : Nat)
  /-- COMPRESS (R164): Compress blocks into ZERO, RAW or MASK records. -/
  | compress (c : Nat)
  /-- DECOMPRESS (R164): Check and decompress block records. -/
  | decompress (c : Nat)
  /-- TALLY (R166): Compute or accumulate the content tally of a tensor. -/
  | tally (c : Nat)
  /-- MICROCODE_UPDATE (R451): Staged case-engine microcode is loaded when the engine is idle. -/
  | microcodeUpdate (die engine : Nat)
  /-- BERTH_GET (R170): Hand out the lowest free berth of the smallest fitting pool, or fail at once. -/
  | berthGet (c : Nat)
  /-- BERTH_PUT (R171): Return a berth held by the partition. -/
  | berthPut (c : Nat)
  /-- BERTH_AUDIT (R175): Every 1,000 tide units owners are compared with count and age thresholds. -/
  | berthAudit (die : Nat)
  /-- PROOF_COMPARE (R209): The proof of a sampled tile is compared with the original's output tally; the drain's token waits for it. -/
  | proofCompare (die : Nat) (first second : ProofFault)
  /-- VECTOR_PROOF_COMPARE (R210): A sampled vector instruction's proof result and flags are compared with the original's. -/
  | vectorProofCompare (die : Nat) (orig first second : VecFault)
  /-- CHK_RECORD (R217): The CHK block takes a detection, updates history and counts, logs it and fires event CHK. -/
  | chkRecord (die : Nat)
  /-- CHK_LOG_COLLECT (R217): The management processor takes every pending die log record to the status ring and harbourmaster. -/
  | chkLogCollect (die : Nat)
  /-- CHK_CONDITION_SAMPLE (R216): Every 10 µs the CHK block samples TEMP, VOLT and CLOCK. -/
  | chkConditionSample (die : Nat) (patterns : List Word)
  /-- QUARANTINE_RANGE_SAMPLE (R221): Every 1 ms the lowest and highest condition values of each enabled unit are updated. -/
  | quarantineRangeSample (die : Nat)
  /-- QUARANTINE_CLEAR_ENTRY (R223): CHK_QCLR with ALL 0 clears one quarantine entry and its history. -/
  | quarantineClearEntry (src : Source) (entry : Nat)
  /-- QUARANTINE_CLEAR_ALL (R223): CHK_QCLR with ALL 1 clears every quarantine entry. -/
  | quarantineClearAll (src : Source)
  /-- QUAY_MEM_REQUEST (R237): A MEM.REQ packet arrives and is checked against its partition's windows. -/
  | quayMemRequest (die : Nat)
  /-- BUDGET (R459): A BUDGET event message from a die is stored for the next allocation. -/
  | budget (msg : EvtMsg)
  /-- TIDE_NOTE (R384): A tide-schedule entry accepted elsewhere arrives at its acting die and takes a pending slot. -/
  | tideNote (msg : EvtMsg)
  /-- EVENT_POST (R238): An event posted from another die sets the pending bit at the target core. -/
  | eventPost (msg : EvtMsg)
  /-- RECORD_READY (R217): A die's CHK block signals die 12 that records are pending. -/
  | recordReady (msg : EvtMsg)
  /-- HALT (R238): A HALT broadcast halts the cores of the named partitions. -/
  | halt (msg : EvtMsg)
  /-- LINK_NOTE (R240): A link's change of state reaches die 12 for recording. -/
  | linkNote (msg : EvtMsg)
  /-- FLIT_CRC_REPLAY (R239): A flit failing its CRC is replayed with every later flit; repeated failure starts a retrain. -/
  | flitCrcReplay (die link flits : Nat) (again : Bool)
  /-- LINK_RETRAIN_DONE (R239): A Quay retrain ends and traffic resumes in order, or the retrain counts as failed. -/
  | linkRetrainDone (die link : Nat) (good : Bool)
  /-- QUAY_LINK_DISABLE (R240): QUAY_LCTL.DISABLE written while up fails the link. -/
  | quayLinkDisable (src : Source) (die link : Nat)
  /-- QUAY_LINK_RETRAIN (R256): QUAY_LCTL.RETRAIN retrains the link without counting a failure. -/
  | quayLinkRetrain (src : Source) (die link : Nat)
  /-- PLL_LOSS_OF_LOCK (R243): A PLL loses lock; the die's clocks halt and its links fail. -/
  | pllLossOfLock (die pll : Nat)
  /-- REFERENCE_LOSS (R243): The reference absent for 200 ns stops compute and reports REFERENCE_LOST. -/
  | referenceLoss
  /-- HOME_WRITE (R246): A write reaches its home; invalidations or a recall are sent and the write held. -/
  | homeWrite (die : Nat) (found : DirErr)
  /-- HOME_WRITE_APPLY (R246): Once every acknowledgement or write-back is in, the home applies the write and sends its completion. -/
  | homeWriteApply (die : Nat)
  /-- INVALIDATION (R245): An invalidation reaches a die's instruction caches, which drop the line and acknowledge. -/
  | invalidation (die : Nat)
  /-- RECALL (R246): A recall makes the management processor write a modified line back. -/
  | recallLine (die : Nat) (data : Option (List Byte))
  /-- HOME_READ (R247): A read is served at the home in arrival order. -/
  | homeRead (die : Nat) (found : DirErr)
  /-- HBM_SCHEDULER_ISSUE (R261): A pseudo-channel scheduler issues its next request by age, row-hit and write rules. -/
  | hbmSchedulerIssue (stack pchan : Nat)
  /-- HBM_READ_DECODE (R266): An HBM read's symbol code is decoded: clean, corrected or uncorrectable. -/
  | hbmReadDecode (line : Nat) (errs : List SymErr) (fixed : Nat)
  /-- HBM_REFRESH (R264): The controller refreshes a bank at its temperature-dependent interval. -/
  | hbmRefresh (stack bank : Nat)
  /-- HBM_TEMP_READ (R264): Every 10 µs the controller reads its stack's temperature. -/
  | hbmTempRead (stack : Nat) (temp : Int)
  /-- HBM_ROW_SCRUB (R268): After a correction the row's 16 lines are read and rewritten. -/
  | hbmRowScrub (stack : Nat) (errs : List (List SymErr))
  /-- HBM_PATROL_SCRUB (R268): The patrol scrubber reads and corrects lines in idle scheduler slots. -/
  | hbmPatrolScrub (stack : Nat) (errs : List SymErr)
  /-- HBM_LOG_COLLECT (R270): The management processor takes pending HBM log entries to the status ring. -/
  | hbmLogCollect (stack : Nat)
  /-- ADDER_RL_ADD (R272): An RL add packet is applied to a block, its block word and check word, or refused. -/
  | adderRlAdd (die : Nat) (found cache : DirErr)
  /-- ATOMIC_ADD (R271): Integer add atomic at the adder. -/
  | atomicAdd (die : Nat) (found : DirErr)
  /-- ATOMIC_MAX (R271): Signed max atomic. -/
  | atomicMax (die : Nat) (found : DirErr)
  /-- ATOMIC_MIN (R271): Signed min atomic. -/
  | atomicMin (die : Nat) (found : DirErr)
  /-- ATOMIC_MAXU (R271): Unsigned max atomic. -/
  | atomicMaxu (die : Nat) (found : DirErr)
  /-- ATOMIC_MINU (R271): Unsigned min atomic. -/
  | atomicMinu (die : Nat) (found : DirErr)
  /-- ATOMIC_AND (R271): Bitwise AND atomic. -/
  | atomicAnd (die : Nat) (found : DirErr)
  /-- ATOMIC_OR (R271): Bitwise OR atomic. -/
  | atomicOr (die : Nat) (found : DirErr)
  /-- ATOMIC_XOR (R271): Bitwise XOR atomic. -/
  | atomicXor (die : Nat) (found : DirErr)
  /-- ATOMIC_SWAP (R271): Swap atomic returning the old value. -/
  | atomicSwap (die : Nat) (found : DirErr)
  /-- ATOMIC_CAS (R271): Compare-and-swap atomic. -/
  | atomicCas (die : Nat) (found : DirErr)
  /-- ATOMIC_FADD32 (R273): binary32 add atomic, refused in Invariant mode. -/
  | atomicFadd32 (die : Nat) (found : DirErr)
  /-- HBM_CHANNEL_RETRAIN (R277): More than 16 interface errors in 1 ms start a channel retrain. -/
  | hbmChannelRetrain (stack chan errors : Nat)
  /-- HBM_RETRAIN_CMD (R277): HBM_CH_CTL.RETRAIN retrains the channel now. -/
  | hbmRetrainCmd (src : Source) (stack chan : Nat)
  /-- HBM_OFFLINE (R277): OFFLINE written 0 to 1 takes the channel Offline, holding its requests. -/
  | hbmOffline (src : Source) (stack chan : Nat)
  /-- HBM_ONLINE (R277): OFFLINE written 1 to 0 retrains the channel back to Active. -/
  | hbmOnline (src : Source) (stack chan : Nat)
  /-- HBM_RETRAIN_DONE (R277): A channel retrain ends; held requests are served or the retrain counts as failed. -/
  | hbmRetrainDone (stack chan : Nat) (good : Bool)
  /-- HBM_HELD_TIMEOUT (R277): A request held over 2 ms ends with HBM_CHANNEL_DOWN. -/
  | hbmHeldTimeout (die : Nat)
  /-- HBM_MARGIN_START (R279): HBM_MARGIN_CTL.START begins a margining run on an Offline channel. -/
  | hbmMarginStart (src : Source) (stack : Nat) (pc chan pin mode : Nat)
  /-- HBM_MARGIN_DONE (R279): A margining run ends and reports eye, width and height. -/
  | hbmMarginDone (stack : Nat) (eye : List Word)
  /-- LASER_MONITOR_SAMPLE (R283): Every 500 ns each laser's power and frequency are sampled. -/
  | laserMonitorSample (die bank wave power bias : Nat) (offset : Int)
  /-- LASER_TAKEOVER (R284): The spare laser's light reaches the combiner and it becomes COVERING. -/
  | laserTakeover (die wave : Nat)
  /-- LASER_RETIRE (R286): PHX_LASER_CTL.RETIRE retires an active laser if its spare is free. -/
  | laserRetire (src : Source) (die bank wave : Nat)
  /-- RING_LOCK_UPDATE (R287): Every 1 µs the lock loop sets each ring's heater. -/
  | ringLockUpdate (port slot : Nat) (tx : Bool) (heat : Int) (power : Nat)
  /-- DARK_MASK_APPLY (R288): A changed dark mask takes effect for the slot mapping at the first boundary 200,000 after DTIDE. -/
  | darkMaskApply (port : Nat)
  /-- LANE_CODEWORD_RECEIVE (R292): A data codeword is decoded whole; its cells go to the router or a NAK is formed. -/
  | laneCodewordReceive (lane : Nat) (raw : List Byte)
  /-- CONTROL_CODEWORD_RECEIVE (R291): A control codeword is taken: block alignment, peer state, dark mask, TSYNC and link entries. -/
  | controlCodewordReceive (port : Nat) (lane : Option Nat) (raw : List Byte)
  /-- PORT_TRAIN_STEP (R293): A step of port bring-up completes and the next begins, or the failure exit is taken. -/
  | portTrainStep (port : Nat) (light : Bool) (failed : Nat) (eyes : List Nat)
  /-- PHX_PORT_RETRAIN (R293): PHX_PORT_CTL.RETRAIN takes the port through bring-up from step 2. -/
  | phxPortRetrain (src : Source) (port : Nat)
  /-- PORT_DISABLE (R305): PHX_PORT.DISABLE closes the shutter and ignores the port. -/
  | portDisable (src : Source) (port : Nat)
  /-- CALIBRATION_STEP_BOUNDARY (R295): At a step boundary the lane above the gap moves into it and failed positions are refilled. -/
  | calibrationStepBoundary (port eye : Nat)
  /-- LANE_MOVE_RETURN (R296): A moved lane returns to service 20,000 tide units after its move. -/
  | laneMoveReturn (lane : Nat)
  /-- LANE_FAULT (R301): A lane fault stops the lane in both directions and signals LFAULT to the peer. -/
  | laneFault (lane cause : Nat) (dark : Bool)
  /-- LANE_RECOVERY_DONE (R302): A lane recalibrated in place returns to service. -/
  | laneRecoveryDone (lane : Nat)
  /-- LANE_RECOVERY_TIMEOUT (R303): A recovery passing 1 ms makes the lane FAILED. -/
  | laneRecoveryTimeout (lane : Nat)
  /-- LANE_OFFLINE (R301): LANE_CTL.OFFLINE written 1 forces a lane fault. -/
  | laneOffline (src : Source) (lane : Nat)
  /-- LANE_ONLINE (R303): LANE_CTL.OFFLINE written 0 makes the engine idle again. -/
  | laneOnline (src : Source) (lane : Nat)
  /-- LANE_RETRAIN (R309): LANE_CTL.RETRAIN recalibrates a lane in place without counting a fault. -/
  | laneRetrain (src : Source) (lane : Nat)
  /-- OPTICAL_LOW_POWER (R306): Received power below 178 µW for 1 s writes OPTICAL_LOW_POWER. -/
  | opticalLowPower (port slot power : Nat)
  /-- ROUTER_SLOT (R318): Each 4.25 ns slot the router ejects, combines, admits and assigns outputs to cells. -/
  | routerSlot (base bad : Nat)
  /-- EJECTION_HANDOFF (R322): A cell in the ejection buffer is handed on as a Quay MEM.REQ packet. -/
  | ejectionHandoff (base : Nat)
  /-- COMBINING_RELEASE (R333): After CWIN slots an entry releases its merged cell as a held cell. -/
  | combiningRelease (base : Nat)
  /-- COMBINED_RESPONSE_FANOUT (R334): The response to a merged cell is replicated to every ticket and the entry closes. -/
  | combinedResponseFanout (die : Nat)
  /-- LINK_ENTRY_EXPIRE (R328): A link entry not carried within 3,000 tide units becomes a FAULT and a lane fault. -/
  | linkEntryExpire (port : Nat)
  /-- REPLAY_HOLD_EXPIRE (R329): A sent codeword held 8,000 tide units is released from the replay buffer. -/
  | replayHoldExpire (base : Nat)
  /-- CELL_READ (R342): A READ cell is served at its home with READ_RSP cells and a TCLOSE if tallied. -/
  | cellRead (die : Nat) (found : DirErr)
  /-- CELL_READ_RSP (R341): Read response granules are written locally for a LOAD. -/
  | cellReadRsp (die : Nat)
  /-- CELL_WRITE (R341): A WRITE cell is written at the home and acknowledged when visible. -/
  | cellWrite (die : Nat) (found : DirErr)
  /-- CELL_TWRITE (R342): A tallied write cell is written and counted in its transfer context. -/
  | cellTwrite (die : Nat) (found : DirErr)
  /-- CELL_TCLOSE (R342): A TCLOSE closes a tallied transfer; the range is read back, tallied and the verdict returned. -/
  | cellTclose (die : Nat) (found : DirErr)
  /-- CELL_ATOMIC_RSP (R341): An atomic's old value is written to RES, completing the descriptor. -/
  | cellAtomicRsp (die : Nat)
  /-- CELL_ACK (R341): An ACK counts performed cells, completing the descriptor when all are in. -/
  | cellAck (die : Nat)
  /-- CELL_SIGNAL (R344): A SIGNAL adds INC to a completion counter. -/
  | cellSignal (die : Nat) (found : DirErr)
  /-- TEARDOWN (R346): A TEARDOWN control cell is forwarded, tears down the partition and ends its requests. -/
  | teardown
  /-- ABORT (R362): An ABORT control cell is flooded and acted on by the COLL block for its CID. -/
  | abort
  /-- LIGHTER_LOAD (R339): Lighter LOAD reads remote memory into local memory. -/
  | lighterLoad (c : Nat)
  /-- LIGHTER_PUT (R339): Lighter PUT writes local data to a global address. -/
  | lighterPut (c : Nat)
  /-- LIGHTER_STORE (R339): Lighter STORE writes 16 or 32 bytes of descriptor data. -/
  | lighterStore (c : Nat)
  /-- LIGHTER_RLADD32 (R339): Lighter sends RL32 blocks as RL add cells. -/
  | lighterRladd32 (c : Nat)
  /-- LIGHTER_RLADD64 (R339): Lighter sends RL64 blocks as RL add cells. -/
  | lighterRladd64 (c : Nat)
  /-- LIGHTER_ATOMIC (R339): Lighter sends one integer or binary32 atomic. -/
  | lighterAtomic (c : Nat)
  /-- LIGHTER_SIGNAL (R339): Lighter sends one completion-counter signal. -/
  | lighterSignal (c : Nat)
  /-- CCSET (R344): Set a completion counter's COUNT, TARGET and TOKEN and arm it. -/
  | ccset (c : Nat)
  /-- XVERIFY_SET (R204): XVERIFY MODE 1 writes each block's linear tally to its check word. -/
  | xverifySet (c : Nat)
  /-- XVERIFY_VERIFY (R204): XVERIFY MODE 0 compares each block's linear tally with its check word. -/
  | xverifyVerify (c : Nat)
  /-- STREAM (R355): A STREAM waits for the set's PRESS instructions, holds it and reads it through the scale engine. -/
  | stream (c : Nat)
  /-- STREAM_READ_END (R355): A stream's read ends and releases the set, clearing it if asked. -/
  | streamReadEnd (c : Nat) (flips : List StickFlip)
  /-- STREAM_SEND (R355): After conversion and any proof pass, the stream sends its blocks as RLADD32 cells. -/
  | streamSend (c : Nat)
  /-- COLLECTIVE_OPEN (R358): A COLLECTIVE entry opens a context on a counter with CID and deadline. -/
  | collectiveOpen (die : Nat)
  /-- COLLECTIVE_DEADLINE (R360): The tide reaching D with the context OPEN aborts it and sends an ABORT. -/
  | collectiveDeadline (die : Nat)
  /-- COLLECTIVE_FINAL (R359): A DONE context becomes FINAL at D + GRACE. -/
  | collectiveFinal (die : Nat)
  /-- TIDE_PROBE_SEND (R376): Every 100,000 tide units a die sends a TIDE_ALIGN PROBE to die 12. -/
  | tideProbeSend (die : Nat)
  /-- TIDE_ALIGN_PROBE (R376): Die 12 answers a PROBE with a REPLY. -/
  | tideAlignProbe (msg : EvtMsg)
  /-- TIDE_ALIGN_REPLY (R376): A REPLY gives the offset; the die jumps once, then slews. -/
  | tideAlignReply (msg : EvtMsg)
  /-- TIDE_ALIGN_RATE (R376): A RATE message schedules a rate change at its effective tide. -/
  | tideAlignRate (msg : EvtMsg)
  /-- RATE_APPLY (R376): At the effective tide every die changes its RATE. -/
  | rateApply (die : Nat)
  /-- SYNC_REQ_SEND (R378): Every 125,000 tide units a non-root module sends SYNC_REQ to its parent. -/
  | syncReqSend
  /-- SYNC_REQ (R377): A parent answers a SYNC_REQ with SYNC_RSP. -/
  | syncReq (arrival : Nat)
  /-- SYNC_RSP (R378): A SYNC_RSP completes an exchange and steps the servo. -/
  | syncRsp (arrival : Nat)
  /-- TIDE_SERVO_TIMEOUT (R378): ACQUIRE past 10 ms or HOLDOVER past 50 ms while imposed takes the servo to FAULT. -/
  | tideServoTimeout
  /-- TIDE_PUT_SUBMIT (R384): Writing TIDE_PUT word 3 submits a schedule entry for checking. -/
  | tidePutSubmit (src : Source) (die : Nat) (value : Word)
  /-- TIDE_RING_POLL (R383): The TIDE block reads a pilot ring's PROD and takes new entries. -/
  | tideRingPoll (c : Nat)
  /-- SCHED_MARK (R382): A MARK entry writes its due record and fires event TIDE. -/
  | schedMark (die : Nat) (job : Option MemberMark)
  /-- SCHED_PREFETCH (R189): A PREFETCH entry enqueues a descriptor or holds it for a full queue. -/
  | schedPrefetch (die : Nat)
  /-- PREFETCH_ENQUEUE (R189): A held prefetch descriptor is enqueued once its queue has room. -/
  | prefetchEnqueue (die : Nat)
  /-- SCHED_PREWARM (R388): A PREWARM entry begins the platen ramp ahead of its mark. -/
  | schedPrewarm (die : Nat)
  /-- SCHED_COMMIT (R390): A COMMIT entry writes the commit word, or withholds it. -/
  | schedCommit (die : Nat)
  /-- SCHED_LANE (R299): A LANE entry selects a lane plan and places engines. -/
  | schedLane (die : Nat)
  /-- SCHED_CALHOLD (R298): A CALHOLD entry starts a calibration hold on named ports. -/
  | schedCalhold (die : Nat)
  /-- CALHOLD_END (R298): At a hold's end the mapping is applied and the deferred move made. -/
  | calholdEnd (port : Nat)
  /-- SCHED_HBM_MAINT (R382): An HBM_MAINT entry takes a channel Offline at its mark. -/
  | schedHbmMaint (die : Nat)
  /-- HBM_MAINT_END (R382): At MARK + LENGTH the channel is retrained to Active. -/
  | hbmMaintEnd (stack chan : Nat)
  /-- SCHED_REHEARSE (R449): A REHEARSE entry starts a fault injection or is refused. -/
  | schedRehearse (die : Nat)
  /-- INJECTION_END (R449): An injection ends when its duration passes and writes REHEARSAL_END. -/
  | injectionEnd (die index : Nat)
  /-- SCHED_APPLY (R425): An APPLY entry puts a staged replacement section in force on every die. -/
  | schedApply (die : Nat)
  /-- IMPO_LOAD (R414): IMPO_CMD LOAD starts reading an image into the loader's buffer. -/
  | impoLoad (src : Source)
  /-- IMPO_READ_COMPLETE (R415): The image copy is checked in order and applied or refused. -/
  | impoReadComplete
  /-- IMPO_APPLY_COMPLETE (R417): The load's writes end; cores reset, ports retrained, entries accepted, partitions IMPOSED. -/
  | impoApplyComplete
  /-- IMPO_STAGING_COMPLETE (R424): A replacement image's records reach every acting die and are marked staged. -/
  | impoStagingComplete
  /-- IMPO_RELEASE (R413): IMPO_CMD RELEASE takes partitions to EMPTY. -/
  | impoRelease (src : Source) (parts : Nat)
  /-- IMPO_DISCARD (R424): IMPO_CMD DISCARD drops staged sections. -/
  | impoDiscard (src : Source) (parts : Nat)
  /-- TEARDOWN_RECORD (R438): 1,000,000 tide units after the first TEARDOWN copy, the teardown record is written. -/
  | teardownRecord (part : Nat)
  /-- HEARTBEAT_SEND (R434): Every 100,000 tide units heartbeats are sent to or from the harbourmaster. -/
  | heartbeatSend
  /-- HEARTBEAT (R433): A received heartbeat updates the known roles and settles claims by epoch and node id. -/
  | heartbeat
  /-- MODULE_LOST (R435): Five missing heartbeats declare a module lost and start its teardown or takeover. -/
  | moduleLost (node parts : Nat)
  /-- MAILBOX_POLL (R434): Every 100,000 tide units the management processor reads pilot mailboxes for teardown requests. -/
  | mailboxPoll
  /-- FI_RETIRE (R430): FI_RETIRE.GO retires a core by proof-core stand-in. -/
  | fiRetire (src : Source) (die core : Nat)
  /-- RESTART_DECIDE (R442): At restart the leader reads step records and decides ROLL_FORWARD, RECOVERY_REPLAY, STEP_REPLAY or ROLLBACK. -/
  | restartDecide (part : Nat) (records : List (List Byte)) (shards : Nat)
  /-- PREEMPT_DEADLINE (R443): At Dp the leader declares a teardown with PREEMPTED. -/
  | preemptDeadline
  /-- CHECKPOINT_MANIFEST (R446): When every shard has a data object the leader writes the manifest and CHECKPOINT_DONE. -/
  | checkpointManifest (part job step addr : Nat) (tallies : List (Option Nat))
  /-- SUPPLY_SAMPLE (R453): Every 1 µs the supply monitor samples input voltage and current. -/
  | supplySample (vin current power : Nat) (rails : Bool)
  /-- BROWNOUT_TIMEOUT (R454): No recovery within 5 ms writes SUPPLY_LOST and powers off. -/
  | brownoutTimeout
  /-- BUDGET_SEND (R459): At each multiple of 10,000 every die broadcasts its BUDGET report. -/
  | budgetSend (die draw : Nat)
  /-- BUDGET_ALLOCATE (R460): At T + 5,000 every compute die computes all twelve budgets. -/
  | budgetAllocate (die : Nat)
  /-- WAVE_BOUNDARY (R463): At each 2,000 boundary a compute die decides a wave or withdrawal and steps its clock. -/
  | waveBoundary (die draw : Nat)
  /-- TEMP_SAMPLE (R466): Every 2 µs a die samples temperature and sets throttle or rate limit. -/
  | tempSample (die : Nat) (temp rise : Int) (volt : Nat)
  /-- CROSSING_CLOCK_STOP (R471): No edge for 1,000 tide units marks a crossing's clock stopped. -/
  | crossingClockStop (die group : Nat)
  /-- CROSSING_TIMEOUT (R471): In timeout mode a clock stopped past TIMEOUT discards contents and ends waiting requests. -/
  | crossingTimeout (die group : Nat)
  /-- CROSSING_CLOCK_RETURN (R471): A stopped clock returns and the crossing resumes or is reset. -/
  | crossingClockReturn (die group : Nat)
  /-- COLD_RESET (R528): A cold reset resets every register, the tide and lock bits, and starts start-up. -/
  | coldReset (power : Bool)
  /-- STRAP_SAMPLE (R529): The boot ROM samples straps twice and accepts them if they agree. -/
  | strapSample (straps : Nat)
  /-- STRAP_RESAMPLE (R529): After disagreement the straps are sampled again every 10 ms. -/
  | strapResample (first second : Nat)
  /-- BOOT_VERIFY (R503): The boot ROM derives the identity key and verifies and runs a firmware slot. -/
  | bootVerify (slotA slotB : Option Nat) (key : Bool)
  /-- MGMT_FIRMWARE_START (R532): Firmware reads the start-up record, releases the other dies and trains Quay links. -/
  | mgmtFirmwareStart (pilot micro : Bool) (stacksDown bridgesDown : Nat)
  /-- SELF_TEST (R535): Every unit is tested and failures acted on. -/
  | selfTest (fails : List SelfFail)
  /-- STARTUP_HBM (R536): Each stack is repaired, checked, trained and optionally screened. -/
  | startupHbm (sts : List StackBoot)
  /-- HARBOURMASTER_CLAIM (R537): A strapped harbourmaster claims at W + 200 µs unless it has heard one. -/
  | harbourmasterClaim
  /-- CANDIDATE_CLAIM (R537): A candidate claims harbourmaster or standby at its slot's instant. -/
  | candidateClaim
  /-- AUTOSTART (R540): Once the tide condition holds, firmware copies and loads the start-up image. -/
  | autostart
  /-- FUNCTION_LEVEL_RESET (R479): FLR clears ring enable and ends in-flight host-window transfers. -/
  | functionLevelReset
  /-- HOST_MEMORY_READ (R478): A host read through BAR2 or BAR4 is served, aborted or marked poisoned. -/
  | hostMemoryRead (bar off len tag : Nat)
  /-- HOST_MEMORY_WRITE (R478): A host write through BAR2 or BAR4 is performed at the home or discarded. -/
  | hostMemoryWrite (bar off : Nat) (data : List Byte)
  /-- HOST_WINDOW_COMPLETION (R481): A host completion for a LOAD through the window is written locally or fails the descriptor. -/
  | hostWindowCompletion (tag off : Nat) (data : List Byte) (good : Bool)
  /-- HOST_COMPLETION_TIMEOUT (R481): A host read not completed within 50 ms ends the descriptor with HOST_WINDOW_FAULT. -/
  | hostCompletionTimeout (tag : Nat)
  /-- STATUS_RECORD_WRITE (R485): The management processor writes a status record into the host ring. -/
  | statusRecordWrite
  /-- PCIE_RING_HEAD (R487): The HEAD doorbell advances the host's consumed count or is ignored as bad. -/
  | pcieRingHead (head : Nat)
  /-- PCIE_PREEMPT (R487): The PREEMPT doorbell passes Dp to job leaders. -/
  | pciePreempt (dp : Option Nat) (leaders : List Nat) (jobs : List JobMark)
  /-- RING_ENABLE (R510): Setting PCIE_RING_CTL.EN zeroes TAIL and HEAD and starts ring writes. -/
  | ringEnable (src : Source) (log : Nat)
  /-- ETH_LINK_DOWN (R489): Loss of PCS block lock for 1 ms writes ETH_LINK_DOWN. -/
  | ethLinkDown (port : Nat)
  /-- ETH_SEND_POLL (R491): Every 1,000 tide units the ETH block reads send rings and starts new WQEs. -/
  | ethSendPoll
  /-- ROCE_ACK (R492): An acknowledgement completes a WQE, writing its CQE and optional signal. -/
  | roceAck (qp psn : Nat)
  /-- ROCE_WRITE_RECEIVE (R493): An incoming RDMA WRITE is checked against ETH_MR and written or NAKed. -/
  | roceWriteReceive (qp psn pos raddr rkey dlen : Nat) (data : List Byte) (ecn : Bool)
  /-- ROCE_SEND_RECEIVE (R493): An incoming SEND takes the next RQE or is NAKed. -/
  | roceSendReceive (qp psn pos : Nat) (data : List Byte) (ecn : Bool)
  /-- ROCE_NAK (R494): A NAK for a sequence error retransmits from the last acknowledged PSN. -/
  | roceNak (qp psn kind : Nat)
  /-- ROCE_RETRY_TIMEOUT (R494): A missing acknowledgement retransmits, or puts the queue pair in error after RETRY. -/
  | roceRetryTimeout (qp : Nat)
  /-- ROCE_CNP (R494): A CNP halves the queue pair's sending rate. -/
  | roceCnp (qp : Nat)
  /-- ROCE_RATE_RESTORE (R494): Every 55 µs without a CNP the rate rises by 5 % of line rate. -/
  | roceRateRestore (qp : Nat)
  /-- QP_ENABLE (R511): Setting ETH_QP.EN makes the queue pair ready. -/
  | qpEnable (src : Source) (qp : Nat)
  /-- PTP_SYNC (R495): A PTP Sync updates the time-receiver's offset and lock state. -/
  | ptpSync (port : Nat) (domain : PtpFrom) (offset : PtpTimes) (time : Nat)
  /-- PTP_SYNC_TIMEOUT (R495): 4 s with no Sync unlocks PTP and writes PTP_UNLOCKED. -/
  | ptpSyncTimeout
  /-- ORDER_WRITE (R498): A manager WRITE order performs a register write. -/
  | orderWrite (tcp : Option (List Byte))
  /-- ORDER_READ (R498): A manager READ order returns a register value. -/
  | orderRead (tcp : Option (List Byte))
  /-- ORDER_TEARDOWN_REQ (R436): A teardown request order makes the harbourmaster declare a teardown. -/
  | orderTeardownReq (tcp : Option (List Byte)) (parts : Nat)
  /-- ORDER_MEMREAD (R498): A MEMREAD order returns bytes of memory. -/
  | orderMemread (tcp : Option (List Byte))
  /-- ORDER_PREEMPT (R443): A PREEMPT order starts the leader's checkpoint for pre-emption. -/
  | orderPreempt (tcp : Option (List Byte)) (jobs : List JobMark)
  /-- ORDER_PAUSE (R451): A PAUSE order suspends loss counting for a module. -/
  | orderPause (tcp : Option (List Byte))
  /-- ORDER_HANDOVER (R498): A HANDOVER order makes the standby take the role with epoch + 1. -/
  | orderHandover (tcp : Option (List Byte))
  /-- MGMT_REPLY (R496): A REPLY message answers an earlier order. -/
  | mgmtReply
  /-- MGMT_RECORD (R496): A forwarded status record arrives at the harbourmaster. -/
  | mgmtRecord (parts : Nat)
  /-- MGMT_ACK (R497): An ACK ends retransmission of a message. -/
  | mgmtAck
  /-- MGMT_RETRANSMIT (R497): An unacknowledged message is sent again after 100 µs, up to 8 times. -/
  | mgmtRetransmit
  /-- MCTP_SET_ENDPOINT_ID (R499): Set the module's MCTP endpoint id. -/
  | mctpSetEndpointId (tag : Nat) (eid : MctpControl)
  /-- MCTP_REG_READ (R500): Read a register over MCTP. -/
  | mctpRegRead (tag addr : Nat)
  /-- MCTP_REG_WRITE (R500): Write a register over MCTP. -/
  | mctpRegWrite (tag addr : Nat) (value : Word)
  /-- MCTP_HBM_WRITE (R500): Write HBM bytes outside imposed windows over MCTP. -/
  | mctpHbmWrite (tag addr : Nat) (data : List Byte)
  /-- MCTP_HBM_READ (R500): Read HBM bytes over MCTP. -/
  | mctpHbmRead (tag addr len : Nat)
  /-- MCTP_RECORD_GET (R500): Return up to 8 recent status records. -/
  | mctpRecordGet (tag first : Nat)
  /-- MCTP_PREEMPT (R500): Pass a pre-emption deadline over MCTP. -/
  | mctpPreempt (tag dp : Nat) (leaders : List Nat) (jobs : List JobMark)
  /-- PLDM_GET_TID (R501): PLDM GetTID. -/
  | pldmGetTid (tag : Nat)
  /-- PLDM_GET_VERSION (R501): PLDM GetPLDMVersion. -/
  | pldmGetVersion (tag type : Nat)
  /-- PLDM_GET_TYPES (R501): PLDM GetPLDMTypes. -/
  | pldmGetTypes (tag : Nat)
  /-- PLDM_GET_COMMANDS (R501): PLDM GetPLDMCommands. -/
  | pldmGetCommands (tag type : Nat)
  /-- PLDM_GET_PDR_REPOSITORY_INFO (R501): PLDM GetPDRRepositoryInfo. -/
  | pldmGetPdrRepositoryInfo (tag : Nat)
  /-- PLDM_GET_PDR (R501): PLDM GetPDR. -/
  | pldmGetPdr (tag handle : Nat)
  /-- PLDM_GET_SENSOR_READING (R501): PLDM GetSensorReading for a numeric sensor. -/
  | pldmGetSensorReading (tag id : Nat)
  /-- PLDM_GET_STATE_SENSOR_READINGS (R501): PLDM GetStateSensorReadings for health and partition states. -/
  | pldmGetStateSensorReadings (tag id : Nat)
  /-- SPDM_GET_VERSION (R502): SPDM GET_VERSION. -/
  | spdmGetVersion (doe : Bool) (tag : Nat)
  /-- SPDM_GET_CAPABILITIES (R502): SPDM GET_CAPABILITIES. -/
  | spdmGetCapabilities (doe : Bool) (tag version : Nat)
  /-- SPDM_NEGOTIATE_ALGORITHMS (R502): SPDM NEGOTIATE_ALGORITHMS. -/
  | spdmNegotiateAlgorithms (doe : Bool) (tag : Nat) (p384 sha384 : Bool)
  /-- SPDM_GET_DIGESTS (R502): SPDM GET_DIGESTS for slot 0. -/
  | spdmGetDigests (doe : Bool) (tag : Nat)
  /-- SPDM_GET_CERTIFICATE (R502): SPDM GET_CERTIFICATE for slot 0. -/
  | spdmGetCertificate (doe : Bool) (tag slot off len : Nat)
  /-- SPDM_CHALLENGE (R502): SPDM CHALLENGE signed by the identity key. -/
  | spdmChallenge (doe : Bool) (tag slot nonce : Nat)
  /-- SPDM_GET_MEASUREMENTS (R502): SPDM GET_MEASUREMENTS of the measurement blocks. -/
  | spdmGetMeasurements (doe : Bool) (tag index : Nat) (sign : Bool) (nonce : Nat)
  /-- UART_CHARACTER_RECEIVE (R507): A received character is accepted into the FIFO or discarded as a framing error. -/
  | uartCharacterReceive (read : UartMove) (char : List (Nat × Bool))
  /-- UART_BREAK (R507): A line held low for two frames is counted as a break. -/
  | uartBreak
  /-- UART_DIV_WRITE (R552): A new DIV takes effect after the character in flight. -/
  | uartDivWrite (src : Source) (div : Nat)
  /-- JTAG_BYPASS (R509): JTAG BYPASS instruction. -/
  | jtagBypass
  /-- JTAG_IDCODE (R509): JTAG IDCODE returns 0x1C12_A8F3. -/
  | jtagIdcode
  /-- JTAG_SAMPLE_PRELOAD (R509): JTAG SAMPLE/PRELOAD of the boundary. -/
  | jtagSamplePreload (pins preload : Nat)
  /-- JTAG_EXTEST (R509): JTAG EXTEST drives pins only under PERST# with no partition imposed. -/
  | jtagExtest (perst : Bool)
  /-- JTAG_CLAMP (R509): JTAG CLAMP, allowed under the same condition. -/
  | jtagClamp (perst : Bool)
  /-- JTAG_DEBUG_ACCESS (R509): The Fuonsen debug instruction reaches register space over the DBG class. -/
  | jtagDebugAccess (addr : Nat) (value : Option Word)
  /-- JTAG_TAP_RESET (R519): TRST# resets the JTAG TAP controller only. -/
  | jtagTapReset
  /-- FLASH_READ (R548): Copy 512 bytes of boot flash into the buffer. -/
  | flashRead (src : Source) (addr : Nat)
  /-- FLASH_PROGRAM (R548): Program the buffer into boot flash and verify. -/
  | flashProgram (src : Source) (addr : Nat)
  /-- FLASH_ERASE (R548): Erase a 64 KiB sector of boot flash. -/
  | flashErase (src : Source) (addr : Nat)
  /-- FLASH_COMMAND_DONE (R548): A flash command completes and reports RESULT. -/
  | flashCommandDone (held : Option (List Byte))
  /-- MGMT_SWAP (R549): MGMT_FWCTL.SWAP verifies the other slot and swaps management firmware. -/
  | mgmtSwap (src : Option Source) (svn : Option Nat)
  /-- SVN_WRITE (R550): A valid write of MGMT_SEC.SVN starts burning the security counter fuses. -/
  | svnWrite (src : Source) (value : Nat)
  /-- FUSE_BURN_DONE (R550): The fuse burn completes and BURNING clears. -/
  | fuseBurnDone
  /-- CASE_ENGINE_COMPLETION (R141): A case engine finishes the last unit of a running descriptor, writes its results, raises its RAISE token, counts ENG_DONE and takes its next descriptor. -/
  | caseEngineCompletion (die engine : Nat)
  /-- PREWARM_START (R388): At the later of the PREWARM's due tide S and the boundary that releases its last wave, the entry writes its due record and fires event TIDE. -/
  | prewarmStart (die : Nat)
  /-- HEARTBEAT_WINDOW_END (R537): At W + 5.2 ms a module that holds no role, as worker or unanswered candidate, ends start-up step 8 so that READY can follow. -/
  | heartbeatWindowEnd
  /-- ETH_LINK_UP (R489): An Ethernet port regains PCS block lock, its STATE becomes up, and queue pairs that were retransmitting can complete again. -/
  | ethLinkUp (port : Nat)
  /-- PCIE_LINK_RESET (R472): A PCIe link reset or retrain resets the PCIe side of its crossing after whole units complete, and PCIE_STATUS follows the link's training. -/
  | pcieLinkReset (state width speed mps : Nat) (flit : Bool)
  /-- ARP_REQUEST (R488): An ARP request or IPv6 neighbour solicitation for a port's address is answered. -/
  | arpRequest (port : Nat) (v6 : Bool) (target asker : Nat)
  /-- ICMP_ECHO_REQUEST (R488): An ICMP or ICMPv6 echo request to a port's address is answered with an echo reply. -/
  | icmpEchoRequest (port : Nat) (v6 : Bool) (target asker : Nat) (data : List Byte)
  /-- PRIORITY_FLOW_CONTROL (R488): A received IEEE 802.1Qbb PFC frame on the configured priority pauses that priority's transmission for the time it names. -/
  | priorityFlowControl (port prio quanta : Nat)
  /-- ERROR_LOG_READ (R167): A read of any word of an ERRLOG or LTR_ERRLOG record marks that record as read, so its later overwrite does not count in LOST. -/
  | errorLogRead (addr : Nat)
deriving DecidableEq, Repr

end Sys2Proof
end

