-- ==== Sys2Proof/Decode.lean ====
section
/-! DEFINITION. No row of the opcode table gives bits, so no word spells a command (decodeTableWord answers none). The pilot's
own instruction words (R110 to R116) are here as well, as an encoder and a decoder: a trap's TVAL holds the word, a
proof record names it, and a fetched word is one of them or illegal. -/

namespace Sys2Proof


/-- The command a word spells by the table's bits: the table gives no row any bits. -/
def decodeTableWord (_nbits _w : Nat) : Option Instr := none

namespace Machine

/-- Format RR (R111). -/
def wRR (maj fn7 rc rb ra rd : Nat) : Nat := maj * 2 ^ 27 + fn7 * 2 ^ 20 + rc * 2 ^ 15 + rb * 2 ^ 10 + ra * 2 ^ 5 + rd

/-- Formats RI, M, B and VM (R111): three bits of function, 14 of immediate. -/
def wRI (maj fn3 imm ra rd : Nat) : Nat := maj * 2 ^ 27 + fn3 * 2 ^ 24 + imm * 2 ^ 10 + ra * 2 ^ 5 + rd

/-- Format W (R111). -/
def wW (maj hw imm fn4 rd : Nat) : Nat := maj * 2 ^ 27 + hw * 2 ^ 25 + imm * 2 ^ 9 + fn4 * 2 ^ 5 + rd

/-- Format S (R111). -/
def wS (fn5 idx ra rd : Nat) : Nat := 0x0C * 2 ^ 27 + fn5 * 2 ^ 22 + idx * 2 ^ 10 + ra * 2 ^ 5 + rd

/-- Format V (R111). -/
def wV (maj fn6 ty mask vb va vd : Nat) : Nat :=
  maj * 2 ^ 27 + fn6 * 2 ^ 21 + ty * 2 ^ 18 + mask * 2 ^ 15 + vb * 2 ^ 10 + va * 2 ^ 5 + vd

/-- Format T (R111). -/
def wT (fn5 tk ra rd : Nat) : Nat := 0x1A * 2 ^ 27 + fn5 * 2 ^ 22 + tk * 2 ^ 10 + ra * 2 ^ 5 + rd

/-- FN5 of CSRW, CSRS and CSRC (R113). -/
def csrFn5 : CsrOp → Nat
  | .w => 1 | .s => 2 | .c => 3

/-- The 32-bit word of a pilot instruction (R110 to R116); 0, which is illegal, for every other command. -/
def pilotWord : Instr → Nat
  | .add _ rd ra rb => wRR 0x01 0x0 0 rb ra rd
  | .sub _ rd ra rb => wRR 0x01 0x1 0 rb ra rd
  | .and _ rd ra rb => wRR 0x01 0x2 0 rb ra rd
  | .or _ rd ra rb => wRR 0x01 0x3 0 rb ra rd
  | .xor _ rd ra rb => wRR 0x01 0x4 0 rb ra rd
  | .andn _ rd ra rb => wRR 0x01 0x5 0 rb ra rd
  | .shl _ rd ra rb => wRR 0x01 0x6 0 rb ra rd
  | .shr _ rd ra rb => wRR 0x01 0x7 0 rb ra rd
  | .sra _ rd ra rb => wRR 0x01 0x8 0 rb ra rd
  | .ror _ rd ra rb => wRR 0x01 0x9 0 rb ra rd
  | .slt _ rd ra rb => wRR 0x01 0xA 0 rb ra rd
  | .sltu _ rd ra rb => wRR 0x01 0xB 0 rb ra rd
  | .min _ rd ra rb => wRR 0x01 0xC 0 rb ra rd
  | .max _ rd ra rb => wRR 0x01 0xD 0 rb ra rd
  | .minu _ rd ra rb => wRR 0x01 0xE 0 rb ra rd
  | .maxu _ rd ra rb => wRR 0x01 0xF 0 rb ra rd
  | .addw _ rd ra rb => wRR 0x01 0x14 0 rb ra rd
  | .subw _ rd ra rb => wRR 0x01 0x15 0 rb ra rd
  | .clz _ rd ra => wRR 0x01 0x10 0 0 ra rd
  | .ctz _ rd ra => wRR 0x01 0x11 0 0 ra rd
  | .popc _ rd ra => wRR 0x01 0x12 0 0 ra rd
  | .sel _ rd ra rb rc => wRR 0x01 0x13 rc rb ra rd
  | .mul _ rd ra rb => wRR 0x09 0x0 0 rb ra rd
  | .mulh _ rd ra rb => wRR 0x09 0x1 0 rb ra rd
  | .mulhu _ rd ra rb => wRR 0x09 0x2 0 rb ra rd
  | .div _ rd ra rb => wRR 0x09 0x4 0 rb ra rd
  | .divu _ rd ra rb => wRR 0x09 0x5 0 rb ra rd
  | .rem _ rd ra rb => wRR 0x09 0x6 0 rb ra rd
  | .remu _ rd ra rb => wRR 0x09 0x7 0 rb ra rd
  | .madd _ rd ra rb rc => wRR 0x09 0x03 rc rb ra rd
  | .addi _ rd ra imm => wRI 0x02 0 imm.toNat ra rd
  | .andi _ rd ra imm => wRI 0x02 1 imm.toNat ra rd
  | .ori _ rd ra imm => wRI 0x02 2 imm.toNat ra rd
  | .xori _ rd ra imm => wRI 0x02 3 imm.toNat ra rd
  | .slti _ rd ra imm => wRI 0x02 4 imm.toNat ra rd
  | .sltiu _ rd ra imm => wRI 0x02 5 imm.toNat ra rd
  | .shi _ rd ra kind sh => wRI 0x02 6 (kind * 2 ^ 12 + sh) ra rd
  | .movz _ rd hw imm => wW 0x03 hw imm.toNat 0 rd
  | .movk _ rd hw imm => wW 0x03 hw imm.toNat 1 rd
  | .movn _ rd hw imm => wW 0x03 hw imm.toNat 2 rd
  | .lb _ rd ra imm => wRI 0x04 0 imm.toNat ra rd
  | .lh _ rd ra imm => wRI 0x04 1 imm.toNat ra rd
  | .lw _ rd ra imm => wRI 0x04 2 imm.toNat ra rd
  | .ld _ rd ra imm => wRI 0x04 3 imm.toNat ra rd
  | .lbu _ rd ra imm => wRI 0x04 4 imm.toNat ra rd
  | .lhu _ rd ra imm => wRI 0x04 5 imm.toNat ra rd
  | .lwu _ rd ra imm => wRI 0x04 6 imm.toNat ra rd
  | .sb _ rs ra imm => wRI 0x05 0 imm.toNat ra rs
  | .sh _ rs ra imm => wRI 0x05 1 imm.toNat ra rs
  | .sw _ rs ra imm => wRI 0x05 2 imm.toNat ra rs
  | .sd _ rs ra imm => wRI 0x05 3 imm.toNat ra rs
  | .beq _ ra rb off => wRI 0x06 0 off.toNat ra rb
  | .bne _ ra rb off => wRI 0x06 1 off.toNat ra rb
  | .blt _ ra rb off => wRI 0x06 2 off.toNat ra rb
  | .bge _ ra rb off => wRI 0x06 3 off.toNat ra rb
  | .bltu _ ra rb off => wRI 0x06 4 off.toNat ra rb
  | .bgeu _ ra rb off => wRI 0x06 5 off.toNat ra rb
  | .j _ off => 0x07 * 2 ^ 27 + 0 * 2 ^ 26 + off.toNat
  | .jl _ off => 0x07 * 2 ^ 27 + 1 * 2 ^ 26 + off.toNat
  | .csrr _ rd idx => wS 0x00 idx.toNat 0 rd
  | .csrw _ rd ra idx => wS 1 idx.toNat ra rd
  | .csrs _ rd ra idx => wS 2 idx.toNat ra rd
  | .csrc _ rd ra idx => wS 3 idx.toNat ra rd
  | .wumark _ op rd ra => wS (csrFn5 op) 0x050 ra rd
  | .jr _ ra => wS 0x04 0 ra 0
  | .jlr _ rd ra => wS 0x05 0 ra rd
  | .fence _ i m => wS 0x06 (b2n i + 2 * b2n m) 0 0
  | .waitev _ rd => wS 0x07 0 0 rd
  | .trap _ code => wS 0x08 code.toNat 0 0
  | .eret _ => wS 0x09 0 0 0
  | .vadd _ ty mask vd va vb _ => wV 0x10 0x0 ty mask vb va vd
  | .vsub _ ty mask vd va vb _ => wV 0x10 0x1 ty mask vb va vd
  | .vmul _ ty mask vd va vb _ => wV 0x10 0x2 ty mask vb va vd
  | .vfma _ ty mask vd va vb _ => wV 0x10 0x3 ty mask vb va vd
  | .vfnma _ ty mask vd va vb _ => wV 0x10 0x4 ty mask vb va vd
  | .vdiv _ ty mask vd va vb => wV 0x10 0x5 ty mask vb va vd
  | .vmin _ ty mask vd va vb => wV 0x10 0x7 ty mask vb va vd
  | .vmax _ ty mask vd va vb => wV 0x10 0x8 ty mask vb va vd
  | .vand _ ty mask vd va vb => wV 0x10 0x11 ty mask vb va vd
  | .vor _ ty mask vd va vb => wV 0x10 0x12 ty mask vb va vd
  | .vxor _ ty mask vd va vb => wV 0x10 0x13 ty mask vb va vd
  | .vshl _ ty mask vd va vb => wV 0x10 0x14 ty mask vb va vd
  | .vshr _ ty mask vd va vb => wV 0x10 0x15 ty mask vb va vd
  | .vsra _ ty mask vd va vb => wV 0x10 0x16 ty mask vb va vd
  | .vsqrt _ ty mask vd va => wV 0x10 0x6 ty mask 0 va vd
  | .vabs _ ty mask vd va => wV 0x10 0x9 ty mask 0 va vd
  | .vrcp _ ty mask vd va => wV 0x10 0xB ty mask 0 va vd
  | .vrsqrt _ ty mask vd va => wV 0x10 0xC ty mask 0 va vd
  | .vexp _ ty mask vd va => wV 0x10 0xD ty mask 0 va vd
  | .vlog _ ty mask vd va => wV 0x10 0xE ty mask 0 va vd
  | .vsig _ ty mask vd va => wV 0x10 0xF ty mask 0 va vd
  | .vtanh _ ty mask vd va => wV 0x10 0x10 ty mask 0 va vd
  | .vneg _ ty mask vd va _ => wV 0x10 0x0A ty mask 0 va vd
  | .vld _ vd ra imm => wRI 0x11 0 imm.toNat ra vd
  | .vst _ vd ra imm => wRI 0x11 1 imm.toNat ra vd
  | .vldm _ md ra imm => wRI 0x11 2 imm.toNat ra md
  | .vstm _ md ra imm => wRI 0x11 3 imm.toNat ra md
  | .vmov _ ty mask vd va => wV 0x12 0x00 ty mask 0 va vd
  | .vcvt _ ty mask vd va part dty => wV 0x12 0x01 ty mask (part * 8 + dty) va vd
  | .vbcast _ ty mask vd ra => wV 0x12 0x02 ty mask 0 ra vd
  | .vextr _ ty rd va rb => wV 0x12 0x03 ty 0 rb va rd
  | .vins _ ty vd ra rb => wV 0x12 0x04 ty 0 rb ra vd
  | .vperm _ ty mask vd va vb => wV 0x12 0x05 ty mask vb va vd
  | .vsel _ ty mask vd va vb => wV 0x12 0x06 ty mask vb va vd
  | .viota _ ty mask vd => wV 0x12 0x07 ty mask 0 0 vd
  | .vrmax _ ty mask vd va => wV 0x12 8 ty mask 0 va vd
  | .vrmin _ ty mask vd va => wV 0x12 9 ty mask 0 va vd
  | .vsclr _ vsd ra => wV 0x13 0x00 0 0 0 ra vsd
  | .vsadd _ ty mask vsd va _ => wV 0x13 0x01 ty mask 0 va vsd
  | .vsdot _ ty mask vsd va vb _ => wV 0x13 0x02 ty mask vb va vsd
  | .vsacc _ vsd vsa _ => wV 0x13 0x03 0 0 0 vsa vsd
  | .vsrd _ ty rd vsa rb => wV 0x13 0x04 ty 0 rb vsa rd
  | .vsraw _ rd vsa part => wV 0x13 0x05 0 0 part vsa rd
  | .vswraw _ vsd ra part => wV 0x13 0x06 0 0 part ra vsd
  | .vcmpeq _ ty mask md va vb => wV 0x14 0 ty mask vb va md
  | .vcmplt _ ty mask md va vb => wV 0x14 1 ty mask vb va md
  | .vcmple _ ty mask md va vb => wV 0x14 2 ty mask vb va md
  | .vcmpun _ ty mask md va vb => wV 0x14 3 ty mask vb va md
  | .mand _ md ma mb => wV 0x14 4 0 0 mb ma md
  | .mor _ md ma mb => wV 0x14 5 0 0 mb ma md
  | .mxor _ md ma mb => wV 0x14 6 0 0 mb ma md
  | .mnot _ md ma => wV 0x14 7 0 0 0 ma md
  | .mpopc _ ty rd ma => wV 0x14 8 ty 0 0 ma rd
  | .press _ m f a raise => 0x18 * 2 ^ 27 + m * 2 ^ 20 + f * 2 ^ 19 + a * 2 ^ 18 + raise * 2 ^ 12
  | .forme _ wait raise ra => 0x18 * 2 ^ 27 + 1 * 2 ^ 24 + wait * 2 ^ 18 + raise * 2 ^ 12 + ra * 2 ^ 5
  | .stickrd _ wait raise ra => 0x18 * 2 ^ 27 + 2 * 2 ^ 24 + wait * 2 ^ 18 + raise * 2 ^ 12 + ra * 2 ^ 5
  | .stickclr _ m ra => 0x18 * 2 ^ 27 + 3 * 2 ^ 24 + m * 2 ^ 20 + ra * 2 ^ 5
  | .enq _ queue ra => 0x19 * 2 ^ 27 + queue.toNat * 2 ^ 19 + ra * 2 ^ 5
  | .tkwait _ tk => wT 0 tk 0 0
  | .tktry _ rd tk => wT 1 tk 0 rd
  | .tkread _ rd tk => wT 2 tk 0 rd
  | .tkraise _ tk => wT 3 tk 0 0
  | .tkset _ tk ra => wT 4 tk ra 0
  | .illegalInstruction _ word => word.toNat
  | _ => 0

/-- The instructions of MAJ 0x01 (R112 to R116). -/
def decodeMaj01 (c w : Nat) : Option Instr :=
  let fn7 : Nat := bits w 26 20
  let rc : Fin 32 := (Fin.ofNat 32 (bits w 19 15))
  let rb : Fin 32 := (Fin.ofNat 32 (bits w 14 10))
  let ra : Fin 32 := (Fin.ofNat 32 (bits w 9 5))
  let rd : Fin 32 := (Fin.ofNat 32 (bits w 4 0))
  if fn7 = 0x0 && rc == 0 then some (.add c rd ra rb)
  else if fn7 = 0x1 && rc == 0 then some (.sub c rd ra rb)
  else if fn7 = 0x2 && rc == 0 then some (.and c rd ra rb)
  else if fn7 = 0x3 && rc == 0 then some (.or c rd ra rb)
  else if fn7 = 0x4 && rc == 0 then some (.xor c rd ra rb)
  else if fn7 = 0x5 && rc == 0 then some (.andn c rd ra rb)
  else if fn7 = 0x6 && rc == 0 then some (.shl c rd ra rb)
  else if fn7 = 0x7 && rc == 0 then some (.shr c rd ra rb)
  else if fn7 = 0x8 && rc == 0 then some (.sra c rd ra rb)
  else if fn7 = 0x9 && rc == 0 then some (.ror c rd ra rb)
  else if fn7 = 0xA && rc == 0 then some (.slt c rd ra rb)
  else if fn7 = 0xB && rc == 0 then some (.sltu c rd ra rb)
  else if fn7 = 0xC && rc == 0 then some (.min c rd ra rb)
  else if fn7 = 0xD && rc == 0 then some (.max c rd ra rb)
  else if fn7 = 0xE && rc == 0 then some (.minu c rd ra rb)
  else if fn7 = 0xF && rc == 0 then some (.maxu c rd ra rb)
  else if fn7 = 0x14 && rc == 0 then some (.addw c rd ra rb)
  else if fn7 = 0x15 && rc == 0 then some (.subw c rd ra rb)
  else if fn7 = 0x10 && rc == 0 && rb == 0 then some (.clz c rd ra)
  else if fn7 = 0x11 && rc == 0 && rb == 0 then some (.ctz c rd ra)
  else if fn7 = 0x12 && rc == 0 && rb == 0 then some (.popc c rd ra)
  else if fn7 = 0x13 then some (.sel c rd ra rb rc)
  else none

/-- The instructions of MAJ 0x02 (R112 to R116). -/
def decodeMaj02 (c w : Nat) : Option Instr :=
  let fn3 : Nat := bits w 26 24
  let ra : Fin 32 := (Fin.ofNat 32 (bits w 9 5))
  let rd : Fin 32 := (Fin.ofNat 32 (bits w 4 0))
  let imm : BitVec 14 := BitVec.ofNat 14 (bits w 23 10)
  if fn3 = 0 then some (.addi c rd ra imm)
  else if fn3 = 1 then some (.andi c rd ra imm)
  else if fn3 = 2 then some (.ori c rd ra imm)
  else if fn3 = 3 then some (.xori c rd ra imm)
  else if fn3 = 4 then some (.slti c rd ra imm)
  else if fn3 = 5 then some (.sltiu c rd ra imm)
  else if fn3 = 6 && bits w 21 16 == 0 then some (.shi c rd ra (Fin.ofNat 4 (bits w 23 22)) (Fin.ofNat 64 (bits w 15 10)))
  else none

/-- The instructions of MAJ 0x03 (R112 to R116). -/
def decodeMaj03 (c w : Nat) : Option Instr :=
  let rd : Fin 32 := (Fin.ofNat 32 (bits w 4 0))
  if bits w 8 5 = 0 then some (.movz c rd (Fin.ofNat 4 (bits w 26 25)) (BitVec.ofNat 16 (bits w 24 9)))
  else if bits w 8 5 = 1 then some (.movk c rd (Fin.ofNat 4 (bits w 26 25)) (BitVec.ofNat 16 (bits w 24 9)))
  else if bits w 8 5 = 2 then some (.movn c rd (Fin.ofNat 4 (bits w 26 25)) (BitVec.ofNat 16 (bits w 24 9)))
  else none

/-- The instructions of MAJ 0x04 (R112 to R116). -/
def decodeMaj04 (c w : Nat) : Option Instr :=
  let fn3 : Nat := bits w 26 24
  let ra : Fin 32 := (Fin.ofNat 32 (bits w 9 5))
  let rd : Fin 32 := (Fin.ofNat 32 (bits w 4 0))
  let imm : BitVec 14 := BitVec.ofNat 14 (bits w 23 10)
  if fn3 = 0 then some (.lb c rd ra imm)
  else if fn3 = 1 then some (.lh c rd ra imm)
  else if fn3 = 2 then some (.lw c rd ra imm)
  else if fn3 = 3 then some (.ld c rd ra imm)
  else if fn3 = 4 then some (.lbu c rd ra imm)
  else if fn3 = 5 then some (.lhu c rd ra imm)
  else if fn3 = 6 then some (.lwu c rd ra imm)
  else none

/-- The instructions of MAJ 0x05 (R112 to R116). -/
def decodeMaj05 (c w : Nat) : Option Instr :=
  let fn3 : Nat := bits w 26 24
  let ra : Fin 32 := (Fin.ofNat 32 (bits w 9 5))
  let rd : Fin 32 := (Fin.ofNat 32 (bits w 4 0))
  let imm : BitVec 14 := BitVec.ofNat 14 (bits w 23 10)
  if fn3 = 0 then some (.sb c rd ra imm)
  else if fn3 = 1 then some (.sh c rd ra imm)
  else if fn3 = 2 then some (.sw c rd ra imm)
  else if fn3 = 3 then some (.sd c rd ra imm)
  else none

/-- The instructions of MAJ 0x06 (R112 to R116). -/
def decodeMaj06 (c w : Nat) : Option Instr :=
  let fn3 : Nat := bits w 26 24
  let ra : Fin 32 := (Fin.ofNat 32 (bits w 9 5))
  let rd : Fin 32 := (Fin.ofNat 32 (bits w 4 0))
  let imm : BitVec 14 := BitVec.ofNat 14 (bits w 23 10)
  if fn3 = 0 then some (.beq c ra rd imm)
  else if fn3 = 1 then some (.bne c ra rd imm)
  else if fn3 = 2 then some (.blt c ra rd imm)
  else if fn3 = 3 then some (.bge c ra rd imm)
  else if fn3 = 4 then some (.bltu c ra rd imm)
  else if fn3 = 5 then some (.bgeu c ra rd imm)
  else none

/-- The instructions of MAJ 0x07 (R112 to R116). -/
def decodeMaj07 (c w : Nat) : Option Instr :=
  if bits w 26 26 = 0 then some (.j c (BitVec.ofNat 26 (bits w 25 0)))
  else if bits w 26 26 = 1 then some (.jl c (BitVec.ofNat 26 (bits w 25 0)))
  else none

/-- The instructions of MAJ 0x09 (R112 to R116). -/
def decodeMaj09 (c w : Nat) : Option Instr :=
  let fn7 : Nat := bits w 26 20
  let rc : Fin 32 := (Fin.ofNat 32 (bits w 19 15))
  let rb : Fin 32 := (Fin.ofNat 32 (bits w 14 10))
  let ra : Fin 32 := (Fin.ofNat 32 (bits w 9 5))
  let rd : Fin 32 := (Fin.ofNat 32 (bits w 4 0))
  if fn7 = 0x0 && rc == 0 then some (.mul c rd ra rb)
  else if fn7 = 0x1 && rc == 0 then some (.mulh c rd ra rb)
  else if fn7 = 0x2 && rc == 0 then some (.mulhu c rd ra rb)
  else if fn7 = 0x4 && rc == 0 then some (.div c rd ra rb)
  else if fn7 = 0x5 && rc == 0 then some (.divu c rd ra rb)
  else if fn7 = 0x6 && rc == 0 then some (.rem c rd ra rb)
  else if fn7 = 0x7 && rc == 0 then some (.remu c rd ra rb)
  else if fn7 = 0x03 then some (.madd c rd ra rb rc)
  else none

/-- The instructions of MAJ 0x0C (R112 to R116). -/
def decodeMaj0C (c w : Nat) : Option Instr :=
  let fn5 : Nat := bits w 26 22
  let ra : Fin 32 := (Fin.ofNat 32 (bits w 9 5))
  let rd : Fin 32 := (Fin.ofNat 32 (bits w 4 0))
  let idx : BitVec 12 := BitVec.ofNat 12 (bits w 21 10)
  if fn5 = 0 && ra == 0 then some (.csrr c rd idx)
  else if fn5 = 1 && idx == 0x050 then some (.wumark c .w rd ra)
  else if fn5 = 1 then some (.csrw c rd ra idx)
  else if fn5 = 2 && idx == 0x050 then some (.wumark c .s rd ra)
  else if fn5 = 2 then some (.csrs c rd ra idx)
  else if fn5 = 3 && idx == 0x050 then some (.wumark c .c rd ra)
  else if fn5 = 3 then some (.csrc c rd ra idx)
  else if fn5 = 4 && idx == 0 && rd == 0 then some (.jr c ra)
  else if fn5 = 5 && idx == 0 then some (.jlr c rd ra)
  else if fn5 = 6 && bits w 21 12 == 0 && ra == 0 && rd == 0 then some (.fence c (bit w 10) (bit w 11))
  else if fn5 = 7 && idx == 0 && ra == 0 then some (.waitev c rd)
  else if fn5 = 8 && ra == 0 && rd == 0 then some (.trap c idx)
  else if fn5 = 9 && idx == 0 && ra == 0 && rd == 0 then some (.eret c)
  else none

/-- The instructions of MAJ 0x10 (R112 to R116). -/
def decodeMaj10 (c w : Nat) : Option Instr :=
  let fn6 : Nat := bits w 26 21
  let rb : Fin 32 := (Fin.ofNat 32 (bits w 14 10))
  let ra : Fin 32 := (Fin.ofNat 32 (bits w 9 5))
  let rd : Fin 32 := (Fin.ofNat 32 (bits w 4 0))
  let ty : Fin 8 := Fin.ofNat 8 (bits w 20 18)
  let mask : Fin 8 := Fin.ofNat 8 (bits w 17 15)
  if fn6 = 0x0 then some (.vadd c ty mask rd ra rb 0)
  else if fn6 = 0x1 then some (.vsub c ty mask rd ra rb 0)
  else if fn6 = 0x2 then some (.vmul c ty mask rd ra rb 0)
  else if fn6 = 0x3 then some (.vfma c ty mask rd ra rb 0)
  else if fn6 = 0x4 then some (.vfnma c ty mask rd ra rb 0)
  else if fn6 = 0x5 then some (.vdiv c ty mask rd ra rb)
  else if fn6 = 0x7 then some (.vmin c ty mask rd ra rb)
  else if fn6 = 0x8 then some (.vmax c ty mask rd ra rb)
  else if fn6 = 0x11 then some (.vand c ty mask rd ra rb)
  else if fn6 = 0x12 then some (.vor c ty mask rd ra rb)
  else if fn6 = 0x13 then some (.vxor c ty mask rd ra rb)
  else if fn6 = 0x14 then some (.vshl c ty mask rd ra rb)
  else if fn6 = 0x15 then some (.vshr c ty mask rd ra rb)
  else if fn6 = 0x16 then some (.vsra c ty mask rd ra rb)
  else if fn6 = 0x6 && rb == 0 then some (.vsqrt c ty mask rd ra)
  else if fn6 = 0x9 && rb == 0 then some (.vabs c ty mask rd ra)
  else if fn6 = 0xB && rb == 0 then some (.vrcp c ty mask rd ra)
  else if fn6 = 0xC && rb == 0 then some (.vrsqrt c ty mask rd ra)
  else if fn6 = 0xD && rb == 0 then some (.vexp c ty mask rd ra)
  else if fn6 = 0xE && rb == 0 then some (.vlog c ty mask rd ra)
  else if fn6 = 0xF && rb == 0 then some (.vsig c ty mask rd ra)
  else if fn6 = 0x10 && rb == 0 then some (.vtanh c ty mask rd ra)
  else if fn6 = 0x0A && rb == 0 then some (.vneg c ty mask rd ra 0)
  else none

/-- The instructions of MAJ 0x11 (R112 to R116). -/
def decodeMaj11 (c w : Nat) : Option Instr :=
  let fn3 : Nat := bits w 26 24
  let ra : Fin 32 := (Fin.ofNat 32 (bits w 9 5))
  let rd : Fin 32 := (Fin.ofNat 32 (bits w 4 0))
  let imm : BitVec 14 := BitVec.ofNat 14 (bits w 23 10)
  let d8 : Fin 8 := Fin.ofNat 8 (bits w 2 0)
  if fn3 = 0 then some (.vld c rd ra imm)
  else if fn3 = 1 then some (.vst c rd ra imm)
  else if fn3 = 2 && bits w 4 3 == 0 then some (.vldm c d8 ra imm)
  else if fn3 = 3 && bits w 4 3 == 0 then some (.vstm c d8 ra imm)
  else none

/-- The instructions of MAJ 0x12 (R112 to R116). -/
def decodeMaj12 (c w : Nat) : Option Instr :=
  let fn6 : Nat := bits w 26 21
  let rb : Fin 32 := (Fin.ofNat 32 (bits w 14 10))
  let ra : Fin 32 := (Fin.ofNat 32 (bits w 9 5))
  let rd : Fin 32 := (Fin.ofNat 32 (bits w 4 0))
  let ty : Fin 8 := Fin.ofNat 8 (bits w 20 18)
  let mask : Fin 8 := Fin.ofNat 8 (bits w 17 15)
  if fn6 = 0x00 && rb == 0 then some (.vmov c ty mask rd ra)
  else if fn6 = 0x01 then some (.vcvt c ty mask rd ra (Fin.ofNat 4 (bits w 14 13)) (Fin.ofNat 8 (bits w 12 10)))
  else if fn6 = 0x02 && rb == 0 then some (.vbcast c ty mask rd ra)
  else if fn6 = 0x03 && mask == 0 then some (.vextr c ty rd ra rb)
  else if fn6 = 0x04 && mask == 0 then some (.vins c ty rd ra rb)
  else if fn6 = 0x05 then some (.vperm c ty mask rd ra rb)
  else if fn6 = 0x06 && mask != 0 then some (.vsel c ty mask rd ra rb)
  else if fn6 = 0x07 && ra == 0 && rb == 0 then some (.viota c ty mask rd)
  else if fn6 = 8 && rb == 0 then some (.vrmax c ty mask rd ra)
  else if fn6 = 9 && rb == 0 then some (.vrmin c ty mask rd ra)
  else none

/-- The instructions of MAJ 0x13 (R112 to R116). -/
def decodeMaj13 (c w : Nat) : Option Instr :=
  let fn6 : Nat := bits w 26 21
  let rb : Fin 32 := (Fin.ofNat 32 (bits w 14 10))
  let ra : Fin 32 := (Fin.ofNat 32 (bits w 9 5))
  let rd : Fin 32 := (Fin.ofNat 32 (bits w 4 0))
  let ty : Fin 8 := Fin.ofNat 8 (bits w 20 18)
  let mask : Fin 8 := Fin.ofNat 8 (bits w 17 15)
  let d8 : Fin 8 := Fin.ofNat 8 (bits w 2 0)
  let a8 : Fin 8 := Fin.ofNat 8 (bits w 7 5)
  if fn6 = 0x00 && ty == 0 && mask == 0 && rb == 0 && bits w 4 3 == 0 then some (.vsclr c d8 ra)
  else if fn6 = 0x01 && rb == 0 && bits w 4 3 == 0 then some (.vsadd c ty mask d8 ra 0)
  else if fn6 = 0x02 && bits w 4 3 == 0 then some (.vsdot c ty mask d8 ra rb 0)
  else if fn6 = 0x03 && ty == 0 && mask == 0 && rb == 0 && bits w 4 3 == 0 && bits w 9 8 == 0 then some (.vsacc c d8 a8 0)
  else if fn6 = 0x04 && mask == 0 && bits w 9 8 == 0 then some (.vsrd c ty rd a8 rb)
  else if fn6 = 0x05 && ty == 0 && mask == 0 && bits w 9 8 == 0 && decide (bits w 14 10 < 3) then some (.vsraw c rd a8 (Fin.ofNat 3 (bits w 14 10)))
  else if fn6 = 0x06 && ty == 0 && mask == 0 && bits w 4 3 == 0 && decide (bits w 14 10 < 3) then some (.vswraw c d8 ra (Fin.ofNat 3 (bits w 14 10)))
  else none

/-- The instructions of MAJ 0x14 (R112 to R116). -/
def decodeMaj14 (c w : Nat) : Option Instr :=
  let fn6 : Nat := bits w 26 21
  let rb : Fin 32 := (Fin.ofNat 32 (bits w 14 10))
  let ra : Fin 32 := (Fin.ofNat 32 (bits w 9 5))
  let rd : Fin 32 := (Fin.ofNat 32 (bits w 4 0))
  let ty : Fin 8 := Fin.ofNat 8 (bits w 20 18)
  let mask : Fin 8 := Fin.ofNat 8 (bits w 17 15)
  let d8 : Fin 8 := Fin.ofNat 8 (bits w 2 0)
  let a8 : Fin 8 := Fin.ofNat 8 (bits w 7 5)
  let b8 : Fin 8 := Fin.ofNat 8 (bits w 12 10)
  if fn6 = 0 && bits w 4 3 == 0 then some (.vcmpeq c ty mask d8 ra rb)
  else if fn6 = 1 && bits w 4 3 == 0 then some (.vcmplt c ty mask d8 ra rb)
  else if fn6 = 2 && bits w 4 3 == 0 then some (.vcmple c ty mask d8 ra rb)
  else if fn6 = 3 && bits w 4 3 == 0 then some (.vcmpun c ty mask d8 ra rb)
  else if fn6 = 4 && ty == 0 && mask == 0 && bits w 4 3 == 0 && bits w 9 8 == 0 && bits w 14 13 == 0 then some (.mand c d8 a8 b8)
  else if fn6 = 5 && ty == 0 && mask == 0 && bits w 4 3 == 0 && bits w 9 8 == 0 && bits w 14 13 == 0 then some (.mor c d8 a8 b8)
  else if fn6 = 6 && ty == 0 && mask == 0 && bits w 4 3 == 0 && bits w 9 8 == 0 && bits w 14 13 == 0 then some (.mxor c d8 a8 b8)
  else if fn6 = 7 && ty == 0 && mask == 0 && rb == 0 && bits w 4 3 == 0 && bits w 9 8 == 0 then some (.mnot c d8 a8)
  else if fn6 = 8 && mask == 0 && rb == 0 && bits w 9 8 == 0 then some (.mpopc c ty rd a8)
  else none

/-- The instructions of MAJ 0x18 (R112 to R116). -/
def decodeMaj18 (c w : Nat) : Option Instr :=
  let fn3 : Nat := bits w 26 24
  let ra : Fin 32 := (Fin.ofNat 32 (bits w 9 5))
  let rd : Fin 32 := (Fin.ofNat 32 (bits w 4 0))
  if fn3 = 0 && bits w 11 0 == 0 then some (.press c (Fin.ofNat 16 (bits w 23 20)) (Fin.ofNat 2 (bits w 19 19)) (Fin.ofNat 2 (bits w 18 18)) (Fin.ofNat 64 (bits w 17 12)))
  else if fn3 = 1 && bits w 11 10 == 0 && rd == 0 then some (.forme c (Fin.ofNat 64 (bits w 23 18)) (Fin.ofNat 64 (bits w 17 12)) ra)
  else if fn3 = 2 && bits w 11 10 == 0 && rd == 0 then some (.stickrd c (Fin.ofNat 64 (bits w 23 18)) (Fin.ofNat 64 (bits w 17 12)) ra)
  else if fn3 = 3 && bits w 19 10 == 0 && rd == 0 then some (.stickclr c (Fin.ofNat 16 (bits w 23 20)) ra)
  else none

/-- The instructions of MAJ 0x19 (R112 to R116). -/
def decodeMaj19 (c w : Nat) : Option Instr :=
  let ra : Fin 32 := (Fin.ofNat 32 (bits w 9 5))
  let rd : Fin 32 := (Fin.ofNat 32 (bits w 4 0))
  if bits w 18 10 = 0 && rd == 0 then some (.enq c (BitVec.ofNat 8 (bits w 26 19)) ra)
  else none

/-- The instructions of MAJ 0x1A (R112 to R116). -/
def decodeMaj1A (c w : Nat) : Option Instr :=
  let fn5 : Nat := bits w 26 22
  let ra : Fin 32 := (Fin.ofNat 32 (bits w 9 5))
  let rd : Fin 32 := (Fin.ofNat 32 (bits w 4 0))
  let tk : Fin 64 := Fin.ofNat 64 (bits w 15 10)
  if fn5 = 0 && bits w 21 16 == 0 && bits w 15 10 != 0 && ra == 0 && rd == 0 then some (.tkwait c tk)
  else if fn5 = 1 && bits w 21 16 == 0 && bits w 15 10 != 0 && ra == 0 then some (.tktry c rd tk)
  else if fn5 = 2 && bits w 21 16 == 0 && bits w 15 10 != 0 && ra == 0 then some (.tkread c rd tk)
  else if fn5 = 3 && bits w 21 16 == 0 && bits w 15 10 != 0 && ra == 0 && rd == 0 then some (.tkraise c tk)
  else if fn5 = 4 && bits w 21 16 == 0 && bits w 15 10 != 0 && rd == 0 then some (.tkset c tk ra)
  else none

/-- The instruction a word of a core is (R110): none is a word that matches no encoding. -/
def decodePilot (c w : Nat) : Option Instr :=
  match bits w 31 27 with
  | 0x01 => decodeMaj01 c w
  | 0x02 => decodeMaj02 c w
  | 0x03 => decodeMaj03 c w
  | 0x04 => decodeMaj04 c w
  | 0x05 => decodeMaj05 c w
  | 0x06 => decodeMaj06 c w
  | 0x07 => decodeMaj07 c w
  | 0x09 => decodeMaj09 c w
  | 0x0C => decodeMaj0C c w
  | 0x10 => decodeMaj10 c w
  | 0x11 => decodeMaj11 c w
  | 0x12 => decodeMaj12 c w
  | 0x13 => decodeMaj13 c w
  | 0x14 => decodeMaj14 c w
  | 0x18 => decodeMaj18 c w
  | 0x19 => decodeMaj19 c w
  | 0x1A => decodeMaj1A c w
  | _ => none

end Machine
end Sys2Proof
end

