-- ==== Sys2Proof/Machine/Mix.lean ====
section
/-! DEFINITION. The keyed mixing functions: mix64 and rng64 (R161), content tallies (R165), linear tallies (R201), and the
two CRCs the device uses. -/

namespace Sys2Proof.Machine
open Sys2Proof

/-- mix64 of R161. -/
def mix64 (z : Word) : Word :=
  let z := (z ^^^ (z >>> 29)) * 0xA3C59E276B1D4F8B
  let z := (z ^^^ (z >>> 32)) * 0xD6E8F1A25C397B4D
  z ^^^ (z >>> 31)

/-- The six rounds of rng64 (R161), from round `r` on. -/
def rngRounds : Nat → Nat → Word → Word → Word
  | 0, _, x, y => x ^^^ y
  | n + 1, r, x, y =>
    let x' := mix64 (x + y + BitVec.ofNat 64 r * 0x3B94E7C21D6A58F3)
    rngRounds n (r + 1) x' (y.rotateRight 17 ^^^ x')

/-- rng64 of R161: the word of a key, a 32-bit stream and an index. -/
def rng64 (key : Word) (stream : Nat) (index : Word) : Word :=
  rngRounds 6 0 (index ^^^ key) ((BitVec.ofNat 64 (stream % 2 ^ 32) <<< 32) ^^^ key.rotateRight 32 ^^^ 0x7C15F39A4E2B8D61)

/-- tally_term of R165. -/
def tallyTerm (key j v : Word) : Word := mix64 (mix64 (key + j) ^^^ (v + 0xC2B81F4D93A6E057))

/-- The content tally of elements whose indices count from `j` (R165). -/
def contentTally (key : Word) : Nat → List Nat → Word
  | _, [] => 0
  | j, v :: r => tallyTerm key (BitVec.ofNat 64 j) (BitVec.ofNat 64 v) + contentTally key (j + 1) r

/-- Bytes as 8-byte words, the last padded with zeros (R199); `n` bounds how many words there are. -/
def wordsLE : Nat → List Byte → List Nat
  | 0, _ => []
  | _, [] => []
  | n + 1, bs => natLE (bs.take 8) :: wordsLE n (bs.drop 8)

/-- The tally of a transfer's bytes: 8-byte words indexed from its first byte (R199). -/
def bytesTally (key : Word) (bs : List Byte) : Word := contentTally key 0 (wordsLE (bs.length / 8 + 1) bs)

/-- The linear weight of index `j` (R201). -/
def linWeight (key : Word) (j : Nat) : Nat := (mix64 (key + BitVec.ofNat 64 j) ||| 1).toNat

/-- The linear tally of elements of `w` bits whose indices count from `j`, modulo 2^w (R201). -/
def linTally (key : Word) (w : Nat) : Nat → List Nat → Nat
  | _, [] => 0
  | j, v :: r => (linWeight key j * v + linTally key w (j + 1) r) % 2 ^ w

/-- One byte into a reflected CRC of polynomial `poly`. -/
def crcByte (poly : Nat) : Nat → Nat → Nat
  | 0, c => c
  | n + 1, c => crcByte poly n (if c % 2 = 1 then (c / 2) ^^^ poly else c / 2)

/-- CRC-32C (reflected, polynomial 0x82F63B78, initial and final all ones), the device's CRC over bytes. -/
def crc32c (bs : List Byte) : Nat :=
  (bs.foldl (fun c b => crcByte 0x82F63B78 8 (c ^^^ b.toNat)) 0xFFFFFFFF) ^^^ 0xFFFFFFFF

end Sys2Proof.Machine
end

