-- ==== Sys2Proof/Config.lean ====
section
/-! DEFINITION. What the spec leaves open: free values, and what an implementation or a published standard fixes. None has
a body, so no proof can see a value. -/

namespace Sys2Proof.Config

/-- A free value of 64 bits, applied to State.freeCount. -/
opaque freeWord : Nat → BitVec 64

/-- PHASE of a status record outside the host ring, by its SEQ (16_host_network_management.md R482, R496, R500). -/
opaque recordPhase : Nat → Bool

/-- The opcode within a channel of a Quay packet, by what it carries (07_package_and_quay_link.md R236). -/
opaque quayOpcode : Nat → Nat → BitVec 8

/-- The byte of the module identity in boot flash at which the MAC address of an Ethernet port begins (18_start_up.md R547 names the region,
not the places in it). -/
opaque macAt : Nat → Nat

/-- When die 12's PLLs lock in start-up step 1, in ns after t0: 200,000 at the latest (12_the_tide.md R374, 18_start_up.md R532). -/
opaque pllLock : Nat

/-- How far beyond 2,000 tide units ahead die 12 sets a rate change (12_the_tide.md R376). -/
opaque rateLead : Nat

/-- Whether an odd sum of time stamps is halved upwards in TIDE_OFFSET and TIDE_DELAY (12_the_tide.md R378, R392). -/
opaque halfUp : Int → Bool

/-- Whether a DEMAND that is no whole number is rounded up, by the draw (15_power_clocks_crossings.md R459). -/
opaque demandUp : Nat → Bool

/-- The words of PCIe configuration space that the spec does not give, by their number (R476). -/
opaque pcieWord : Nat → Nat

/-- What PLDM answers beyond the sensors (R501): the terminus id, versions by type, the PDR repository's description and its PDRs. -/
opaque pldmTid : Nat
opaque pldmVersion : Nat → List Nat
opaque pdrInfo : List Nat
opaque pdr : Nat → List Nat

/-- SHA-384, as its standard defines it (R502, R503). -/
opaque sha384 : List (BitVec 8) → BitVec 384

/-- The certificate chain of SPDM slot 0, and what GET_CAPABILITIES and NEGOTIATE_ALGORITHMS answer (R502). -/
opaque certChain : List (BitVec 8)
opaque spdmCaps : Nat → List Nat
opaque spdmAlgorithms : List Nat

/-- Whether an image in boot flash passes the check of R503 and R504, by its region's bytes: 3 pilot firmware, 4 case-engine microcode. -/
opaque imageGood : Nat → List (Nat × BitVec 8) → Bool

/-- The digest of a measured image (R502): 1 the boot ROM, 2 management firmware, 4 pilot firmware, 5 microcode, from its bytes in boot flash. -/
opaque measured : Nat → List (Nat × BitVec 8) → BitVec 384

/-- A signature by the identity key over a message; ECDSA draws a number of its own for each (R502). -/
opaque signed : Nat → List Nat → BitVec 768

end Sys2Proof.Config
end

