-- ==== Sys2Proof/Machine/Arith.lean ====
section
/-! DEFINITION. Invariant arithmetic (01_invariant_arithmetic.md): element formats, windows, sticks, readout, reduction
lanes, IEEE elementwise operations and the reference functions, on exact integers. -/

namespace Sys2Proof.Machine
open Sys2Proof

/-- The floating element formats of R19. -/
inductive Fmt where
  | b32 | bf16 | e5m2 | e4m3 | e2m1
deriving DecidableEq, Repr

/-- Bits of an element (R19). -/
def Fmt.width : Fmt → Nat
  | .b32 => 32 | .bf16 => 16 | .e5m2 => 8 | .e4m3 => 8 | .e2m1 => 4

/-- Mantissa bits (R19). -/
def Fmt.mant : Fmt → Nat
  | .b32 => 23 | .bf16 => 7 | .e5m2 => 2 | .e4m3 => 3 | .e2m1 => 1

/-- Exponent bias (R19). -/
def Fmt.bias : Fmt → Nat
  | .b32 => 127 | .bf16 => 127 | .e5m2 => 15 | .e4m3 => 7 | .e2m1 => 1

/-- The largest finite encoding (R19). -/
def Fmt.maxFin : Fmt → Nat
  | .b32 => 0x7F7F_FFFF | .bf16 => 0x7F7F | .e5m2 => 0x7B | .e4m3 => 0x7E | .e2m1 => 0x7

/-- The encoding of a NaN that the device produces (R34, R46); E2M1 has none, its block scale says it. -/
def Fmt.nanBits : Fmt → Nat
  | .b32 => 0x7FC0_0000 | .bf16 => 0x7FC0 | .e5m2 => 0x7F | .e4m3 => 0x7F | .e2m1 => 0

/-- The smallest quantum exponent: that of the subnormals. -/
def Fmt.qmin (f : Fmt) : Int := 1 - (f.bias : Int) - (f.mant : Int)

/-- The sign bit in its place. -/
def Fmt.sign (f : Fmt) (neg : Bool) : Nat := if neg then 2 ^ (f.width - 1) else 0

/-- The encoding of an infinity (R34): E4M3 has 0x7F for both, E2M1 says it in the block scale. -/
def Fmt.infBits (f : Fmt) (neg : Bool) : Nat :=
  match f with
  | .b32 => 0x7F80_0000 + f.sign neg
  | .bf16 => 0x7F80 + f.sign neg
  | .e5m2 => 0x7C + f.sign neg
  | .e4m3 => 0x7F
  | .e2m1 => 0

/-- What replaces a finite magnitude beyond the largest value (R34). -/
def Fmt.ovfBits (f : Fmt) (neg : Bool) : Nat :=
  match f with
  | .e4m3 => 0x7E + f.sign neg
  | .e2m1 => 0x7 + f.sign neg
  | _ => f.infBits neg

/-- An exact value, or what stands in its place: a NaN (signalling or not), an infinity, or ±m·2^e. -/
inductive ElemVal where
  | nan (signalling : Bool)
  | inf (neg : Bool)
  | fin (neg : Bool) (m : Nat) (e : Int)
deriving DecidableEq, Repr

/-- The value an encoding stands for (R19, R21, R46). -/
def Fmt.decode (f : Fmt) (b : Nat) : ElemVal :=
  let mb := f.mant
  let m := b % 2 ^ mb
  let e := (b / 2 ^ mb) % 2 ^ (f.width - 1 - mb)
  let s := bit b (f.width - 1)
  let plain : ElemVal := if e = 0 then .fin s m f.qmin else .fin s (2 ^ mb + m) ((e : Int) - 1 + f.qmin)
  match f with
  | .b32 => if e = 255 then (if m = 0 then .inf s else .nan (! bit b 22)) else plain
  | .bf16 => if e = 255 then (if m = 0 then .inf s else .nan (! bit b 6)) else plain
  | .e5m2 => if e = 31 then (if m = 0 then .inf s else .nan false) else plain
  | .e4m3 => if b % 128 = 0x7F then .nan false else plain
  | .e2m1 => plain

/-- The value of a two's-complement integer of `w` bits. -/
def intNum (w b : Nat) : ElemVal :=
  let i := signed w b
  .fin (decide (i < 0)) i.natAbs 0

/-- The value times 2^t (R20). -/
def ElemVal.scale (t : Int) : ElemVal → ElemVal
  | .fin s m e => .fin s m (e + t)
  | v => v

/-- The value an MX element has under its block's E8M0 byte (R20, R32). -/
def ElemVal.mx (b : Nat) (v : ElemVal) : ElemVal :=
  if b = 0xFF then .nan false else v.scale ((b : Int) - 127)

/-- The signed integer m of ±m·2^e. -/
def sgn (neg : Bool) (m : Nat) : Int := if neg then -(m : Int) else (m : Int)

/-- a / b to the nearest integer, ties to even, and whether anything was cut off. -/
def rneDiv (a b : Nat) : Nat × Bool :=
  let q := a / b
  let r := a % b
  (if 2 * r > b || (2 * r == b && q % 2 == 1) then q + 1 else q, r != 0)

/-- a/b·2^e to the nearest integer, ties to even. -/
def rneScaled (a b : Nat) (e : Int) : Nat × Bool :=
  rneDiv (a * 2 ^ e.toNat) (b * 2 ^ (-e).toNat)

/-- ⌊log2 (a/b)⌋ of positive a and b. -/
def floorLog2 (a b : Nat) : Int :=
  let l : Int := (Nat.log2 a : Int) - (Nat.log2 b : Int)
  if a * 2 ^ (-l).toNat < b * 2 ^ l.toNat then l - 1 else l

/-- The IEEE flags of R48, each at its bit of VFLAGS (R125). -/
def flNX : Nat := 1
def flUF : Nat := 2
def flOF : Nat := 4
def flDZ : Nat := 8
def flNV : Nat := 16

/-- A result's bits and the flags it raises. -/
structure Res where
  bits : Nat
  fl : Nat
deriving DecidableEq, Repr

/-- One rounding of ±(a/b)·2^e into a format, to nearest, ties to even, subnormals honoured (R21, R33, R34), with the
flags of R48: `forced` says that the value itself already differs from the exact result. A nonzero negative value that rounds to zero keeps
its sign, −0; R33 names +0 for A = 0 alone (DESIGN CHOICE, log entry 25). -/
def Fmt.roundF (f : Fmt) (forced : Bool) (neg : Bool) (a b : Nat) (e : Int) : Res :=
  if a = 0 then ⟨f.sign neg, if forced then flNX + flUF else 0⟩
  else
    let k := floorLog2 a b + e
    let q := max (k - (f.mant : Int)) f.qmin
    let r := rneScaled a b (e - q)
    let inexact := r.2 || forced
    let enc := (q - f.qmin).toNat * 2 ^ f.mant + r.1
    if enc > f.maxFin then ⟨f.ovfBits neg, flOF + flNX⟩
    else
      let emin : Int := 1 - (f.bias : Int)
      let free := rneScaled a b (e - (k - (f.mant : Int)))
      let tiny := decide (k < emin) && !(decide (k = emin - 1) && free.1 == 2 ^ (f.mant + 1))
      ⟨f.sign neg + enc, if inexact then (if tiny then flNX + flUF else flNX) else 0⟩

/-- One rounding of an exact value. -/
def Fmt.round (f : Fmt) (neg : Bool) (a b : Nat) (e : Int) : Res := f.roundF false neg a b e

/-- A NaN result (R46). -/
def Fmt.nanRes (f : Fmt) (fl : Nat) : Res := ⟨f.nanBits, fl⟩

/-- An infinite result. -/
def Fmt.infRes (f : Fmt) (neg : Bool) (fl : Nat) : Res := ⟨f.infBits neg, fl⟩

/-- A value converted into a format (R33, R34, R46). An infinity raises no flag, not even in E4M3, where R34 writes it as a NaN encoding: no
rule names a flag for it (DESIGN CHOICE, log entry 25). -/
def Fmt.ofNum (f : Fmt) : ElemVal → Res
  | .nan sg => f.nanRes (if sg then flNV else 0)
  | .inf s => f.infRes s 0
  | .fin s m e => f.round s m 1 e

/-- A value converted into a two's-complement integer of `w` bits (R34, R48). -/
def intOfNum (w : Nat) : ElemVal → Res
  | .nan _ => ⟨0, flNV⟩
  | .inf s => ⟨unsigned w (sgn s (2 ^ (w - 1) - 1)), flNV⟩
  | .fin s m e =>
    let r := rneScaled m 1 e
    if r.1 > 2 ^ (w - 1) - 1 then ⟨unsigned w (sgn s (2 ^ (w - 1) - 1)), flNV⟩
    else ⟨unsigned w (sgn s r.1), if r.2 then flNX else 0⟩

/-! ### Windows and sticks -/

/-- Status bits of a stick, as the byte at [127:120] (R24). -/
def stBELOW : Nat := 1
def stRANGE : Nat := 2
def stNAN : Nat := 4
def stPINF : Nat := 8
def stNINF : Nat := 16
def stUSED : Nat := 32

/-- A window descriptor's quantum exponent and width (R22). -/
structure Window where
  q : Int
  w : Nat
deriving DecidableEq, Repr

/-- Reading a window descriptor; none is BAD_WINDOW (R22). -/
def Window.ofWord (n : Nat) : Option Window :=
  let w := bits n 21 16
  let q := signed 16 n
  if bits n 31 22 = 0 && decide (1 ≤ w) && decide (w ≤ 44) && decide (-1024 ≤ q) && decide (q ≤ 1023)
  then some ⟨q, w⟩ else none

/-- Rounding an exact value into a window: the integer and the status bits (R23). -/
def toWindow (neg : Bool) (m : Nat) (e q : Int) (w : Nat) : Int × Nat :=
  let n := (rneScaled m 1 (e - q)).1
  let below := decide (m ≠ 0) && decide (m * 2 ^ (e - q).toNat < 2 ^ (q - e).toNat)
  let st := if below then stBELOW else 0
  if n > 2 ^ w - 1 then (sgn neg (2 ^ w - 1), st ||| stRANGE) else (sgn neg n, st)

/-- The field A of a stick as an integer (R24). -/
def stickA (s : Stick) : Int := (s.extractLsb' 0 120).toInt

/-- The status byte of a stick (R24). -/
def stickSt (s : Stick) : Nat := (s.extractLsb' 120 8).toNat

/-- A stick from a sum and status bits; bits [127:126] are zero (R553). -/
def mkStick (a : Int) (st : Nat) : Stick :=
  BitVec.ofNat 128 ((st % 64) * 2 ^ 120 + unsigned 120 a)

/-- A contribution: A modulo 2^120, status by OR (R25). -/
def stickAdd (s : Stick) (n : Int) (st : Nat) : Stick := mkStick (stickA s + n) (stickSt s ||| st)

/-- A stick taken in from outside: bits [127:126] as zero (R553). -/
def stickIn (n : Nat) : Stick := BitVec.ofNat 128 (n % 2 ^ 126)

/-- Two sticks of one QE added (R31). -/
def stickJoin (s t : Stick) : Stick := mkStick (stickA s + stickA t) (stickSt s ||| stickSt t)

/-- An addend into a stick of quantum exponent `qe`, through the window (QE, 104) (R30, R32). -/
def stickAddNum (qe : Int) (s : Stick) : ElemVal → Stick
  | .nan _ => stickAdd s 0 (stNAN + stUSED)
  | .inf neg => stickAdd s 0 ((if neg then stNINF else stPINF) + stUSED)
  | .fin neg m e =>
    let r := toWindow neg m e qe 104
    stickAdd s r.1 (r.2 ||| stUSED)

/-- The exact product of two values (R32 for the non-finite ones). -/
def ElemVal.mul : ElemVal → ElemVal → ElemVal
  | .nan a, .nan b => .nan (a || b)
  | .nan a, _ => .nan a
  | _, .nan b => .nan b
  | .inf a, .inf b => .inf (a != b)
  | .inf a, .fin b m _ => if m = 0 then .nan false else .inf (a != b)
  | .fin a m _, .inf b => if m = 0 then .nan false else .inf (a != b)
  | .fin a m e, .fin b n f => .fin (a != b) (m * n) (e + f)

/-- What a stick reads out as before the output rounding: NaN, infinity or A·2^QE (R33). -/
def stickNum (qe : Int) (s : Stick) : ElemVal :=
  let st := stickSt s
  let p := st &&& stPINF != 0
  let n := st &&& stNINF != 0
  if st &&& stNAN != 0 || (p && n) then .nan false
  else if p then .inf false
  else if n then .inf true
  else
    let a := stickA s
    .fin (decide (a < 0)) a.natAbs qe

/-- An output element format of R34. -/
inductive OutFmt where
  | fl (f : Fmt)
  | i8
  | i32
deriving DecidableEq, Repr

/-- A value written in an output format (R33, R34, R48). -/
def OutFmt.conv : OutFmt → ElemVal → Res
  | .fl f, v => f.ofNum v
  | .i8, v => intOfNum 8 v
  | .i32, v => intOfNum 32 v

/-- A stick read out with output scale exponent `t` (R33). -/
def stickRead (o : OutFmt) (qe t : Int) (s : Stick) : Res := o.conv ((stickNum qe s).scale (-t))

/-- The two BF16 parts of a binary32 operand (R28). -/
def splitTrunc (neg : Bool) (m : Nat) (e : Int) : ElemVal :=
  if m = 0 then .fin neg 0 0
  else
    let q := max ((Nat.log2 m : Int) + e - 7) (-133)
    .fin neg (if e ≥ q then m * 2 ^ (e - q).toNat else m / 2 ^ (q - e).toNat) q

/-- hi of R28. -/
def splitHi : ElemVal → ElemVal
  | .fin s m e => splitTrunc s m e
  | v => v

/-- lo of R28: x − hi, truncated likewise; 0 for a non-finite x. -/
def splitLo : ElemVal → ElemVal
  | .fin s m e =>
    match splitTrunc s m e with
    | .fin _ h q =>
      let lo := min e q
      splitTrunc s (m * 2 ^ (e - lo).toNat - h * 2 ^ (q - lo).toNat) lo
    | v => v
  | _ => .fin false 0 0

/-- A factor entering the press: its window integer, status bits, and whether it is NaN or infinite (R26, R32). -/
structure Factor where
  n : Int
  st : Nat
  nan : Bool
  inf : Bool
  neg : Bool
deriving DecidableEq, Repr

/-- A value rounded into its tensor's window, as a press factor (R26). -/
def factorOf (win : Window) : ElemVal → Factor
  | .nan _ => ⟨0, 0, true, false, false⟩
  | .inf s => ⟨0, 0, false, true, s⟩
  | .fin s m e => let r := toWindow s m e win.q win.w; ⟨r.1, r.2, false, false, s⟩

/-- The contribution of one press product (R26, R32): the integer and every status bit it brings. -/
def pressProduct (x w : Factor) : Int × Nat :=
  let st := x.st ||| w.st ||| stUSED
  if x.nan || w.nan then (0, st ||| stNAN)
  else if x.inf || w.inf then
    if (x.inf && !w.inf && decide (w.n = 0)) || (w.inf && !x.inf && decide (x.n = 0)) then (0, st ||| stNAN)
    else (0, st ||| (if x.neg != w.neg then stNINF else stPINF))
  else (x.n * w.n, st)

/-! ### MX blocks -/

/-- emax of R35. -/
def Fmt.emax : Fmt → Int
  | .e2m1 => 2 | .e4m3 => 8 | .e5m2 => 15 | _ => 127

/-- ⌊log2⌋ of the largest finite magnitude of a block, if one is nonzero (R35 step 1). -/
def maxLog : List ElemVal → Option Int
  | [] => none
  | .fin _ m e :: r =>
    if m = 0 then maxLog r
    else match maxLog r with
      | none => some ((Nat.log2 m : Int) + e)
      | some k => some (max ((Nat.log2 m : Int) + e) k)
  | _ :: r => maxLog r

/-- A block of 32 values as an E8M0 byte and elements (R35). -/
def mxBlock (f : Fmt) (vs : List ElemVal) : Nat × List Nat :=
  let nan := vs.any fun v => match v with | .nan _ => true | _ => false
  let inf := vs.any fun v => match v with | .inf _ => true | _ => false
  if nan || (inf && decide (f = .e2m1)) then (0xFF, vs.map fun _ => 0)
  else
    let byte : Nat := match maxLog vs with
      | none => 0x7F
      | some k => (min 254 (max 0 (k - f.emax + 127))).toNat
    (byte, vs.map fun v => (f.ofNum (v.scale (127 - (byte : Int)))).bits)

/-! ### Reduction lanes -/

/-- Flag bits of a block word, at [21:16] (R37). -/
def rlNAN : Nat := 1
def rlPINF : Nat := 2
def rlNINF : Nat := 4
def rlOVF : Nat := 8
def rlBELOW : Nat := 16
def rlINEXACT : Nat := 32

/-- The scale exponent of a block word; none where R37 refuses it with BAD_SCALE. -/
def blockG (w : Nat) : Option Int :=
  let g := signed 16 w
  if bits w 31 22 = 0 && decide (-2048 ≤ g) && decide (g ≤ 2047) then some g else none

/-- A value converted to an RL element of `w` bits at G with guard g: the element and its flags (R38). -/
def toRL (w : Nat) (G : Int) (g : Nat) : ElemVal → Int × Nat
  | .nan _ => (0, rlNAN)
  | .inf s => (0, if s then rlNINF else rlPINF)
  | .fin s m e =>
    let r := rneScaled m 1 (e - G)
    let L := 2 ^ (w - 1 - g) - 1
    let below := decide (m ≠ 0) && decide (m * 2 ^ (e - G).toNat < 2 ^ (G - e).toNat)
    let fl := (if r.2 then rlINEXACT else 0) + (if below then rlBELOW else 0)
    if r.1 > L then (sgn s L, fl + rlOVF) else (sgn s r.1, fl)

/-- A stick converted to an RL element (R38 step 4). -/
def stickToRL (w : Nat) (G : Int) (g : Nat) (qe : Int) (s : Stick) : Int × Nat :=
  let st := stickSt s
  let b := (if st &&& stBELOW != 0 then rlBELOW else 0) ||| (if st &&& stRANGE != 0 then rlOVF else 0)
  if st &&& (stNAN + stPINF + stNINF) != 0 then
    (0, b ||| (if st &&& stNAN != 0 then rlNAN else 0) ||| (if st &&& stPINF != 0 then rlPINF else 0)
        ||| (if st &&& stNINF != 0 then rlNINF else 0))
  else
    let a := stickA s
    let r := toRL w G g (.fin (decide (a < 0)) a.natAbs qe)
    (r.1, r.2 ||| b)

/-- Two block words of one G joined: the flags by OR (R39). -/
def blockJoin (d i : Nat) : Nat := d ||| (bits i 31 16 * 2 ^ 16)

/-- An RL element as a value, under its block's flag word (R41). -/
def rlNum (w : Nat) (blockWord el : Nat) : ElemVal :=
  let fl := bits blockWord 31 16
  let p := fl &&& rlPINF != 0
  let n := fl &&& rlNINF != 0
  if fl &&& rlNAN != 0 || (p && n) then .nan false
  else if p then .inf false
  else if n then .inf true
  else
    let i := signed w el
    .fin (decide (i < 0)) i.natAbs (signed 16 blockWord)

/-! ### Elementwise operations (R45 to R48) -/

/-- Whether an operand is a signalling NaN: its flag. -/
def ElemVal.sig : ElemVal → Nat
  | .nan true => flNV
  | _ => 0

/-- Whether a value is a NaN. -/
def ElemVal.isNan : ElemVal → Bool
  | .nan _ => true
  | _ => false

/-- The exact sum of two finite values as a signed integer over 2^e. -/
def finSum (a : Bool) (m : Nat) (e : Int) (b : Bool) (n : Nat) (f : Int) : Int × Int :=
  let lo := min e f
  (sgn a (m * 2 ^ (e - lo).toNat) + sgn b (n * 2 ^ (f - lo).toNat), lo)

/-- Addition with one rounding (R45). -/
def Fmt.add (f : Fmt) (x y : ElemVal) : Res :=
  match x, y with
  | .fin a m e, .fin b n g =>
    let s := finSum a m e b n g
    if s.1 = 0 then ⟨f.sign (a && b), 0⟩ else f.round (decide (s.1 < 0)) s.1.natAbs 1 s.2
  | .inf a, .inf b => if a = b then f.infRes a 0 else f.nanRes flNV
  | .inf a, .fin .. => f.infRes a 0
  | .fin .., .inf b => f.infRes b 0
  | _, _ => f.nanRes (x.sig ||| y.sig)

/-- The value with its sign turned. -/
def ElemVal.neg : ElemVal → ElemVal
  | .fin s m e => .fin (!s) m e
  | .inf s => .inf (!s)
  | v => v

/-- Subtraction (R45). -/
def Fmt.sub (f : Fmt) (x y : ElemVal) : Res := f.add x y.neg

/-- Multiplication with one rounding (R45). -/
def Fmt.mul (f : Fmt) (x y : ElemVal) : Res :=
  if x.isNan || y.isNan then f.nanRes (x.sig ||| y.sig)
  else match ElemVal.mul x y with
    | .nan _ => f.nanRes flNV
    | .inf s => f.infRes s 0
    | .fin s m e => f.round s m 1 e

/-- Fused multiply–add x·y + z with one rounding (R45): an infinity times zero is invalid whatever the addend. -/
def Fmt.fma (f : Fmt) (x y z : ElemVal) : Res :=
  let sg := x.sig ||| y.sig ||| z.sig
  if x.isNan || y.isNan then f.nanRes sg
  else match ElemVal.mul x y with
    | .nan _ => f.nanRes (sg ||| flNV)
    | .inf s => (match z with
      | .nan _ => f.nanRes sg
      | .inf b => if s = b then f.infRes s 0 else f.nanRes flNV
      | .fin .. => f.infRes s 0)
    | .fin s m e => (match z with
      | .nan _ => f.nanRes sg
      | .inf b => f.infRes b 0
      | .fin b n g =>
        let t := finSum s m e b n g
        if t.1 = 0 then ⟨f.sign (s && b), 0⟩ else f.round (decide (t.1 < 0)) t.1.natAbs 1 t.2)

/-- Division, correctly rounded (R49). -/
def Fmt.div (f : Fmt) (x y : ElemVal) : Res :=
  match x, y with
  | .fin a m e, .fin b n g =>
    if n = 0 then (if m = 0 then f.nanRes flNV else f.infRes (a != b) flDZ)
    else f.round (a != b) m n (e - g)
  | .inf a, .fin b _ _ => f.infRes (a != b) 0
  | .fin a _ _, .inf b => ⟨f.sign (a != b), 0⟩
  | .inf _, .inf _ => f.nanRes flNV
  | _, _ => f.nanRes (x.sig ||| y.sig)

/-- ⌊√n⌋ by trying the bits of the root from `k − 1` down. -/
def isqrtGo (n : Nat) : Nat → Nat → Nat
  | 0, r => r
  | k + 1, r => isqrtGo n k (if (r + 2 ^ k) * (r + 2 ^ k) ≤ n then r + 2 ^ k else r)

/-- ⌊√n⌋. -/
def isqrt (n : Nat) : Nat := isqrtGo n (Nat.log2 n / 2 + 1) 0

/-- The root of (a/b)·2^e times 2^−t, correctly rounded: enough bits of the root, then one bit that says whether more follow. -/
def Fmt.rootOf (f : Fmt) (t : Int) (a b : Nat) (e : Int) : Res :=
  let odd := e % 2
  let a' := a * 2 ^ odd.toNat
  let n := a' * 2 ^ (2 * 420) / b
  let r := isqrt n
  let exact := r * r * b == a' * 2 ^ (2 * 420)
  f.round false (2 * r + (if exact then 0 else 1)) 1 ((e - odd) / 2 - 421 - t)

/-- Square root (R49): the root of a negative value is invalid, √−0 is −0. -/
def Fmt.sqrt (f : Fmt) (x : ElemVal) : Res :=
  match x with
  | .nan _ => f.nanRes x.sig
  | .inf s => if s then f.nanRes flNV else f.infRes false 0
  | .fin s m e => if m = 0 then ⟨f.sign s, 0⟩ else if s then f.nanRes flNV else f.rootOf 0 m 1 e

/-- Reciprocal (R49, R54). -/
def Fmt.rcp (f : Fmt) (t : Int) (x : ElemVal) : Res :=
  match x with
  | .nan _ => f.nanRes x.sig
  | .inf s => ⟨f.sign s, 0⟩
  | .fin s m e => if m = 0 then f.infRes s flDZ else f.round s 1 m (-e - t)

/-- Reciprocal square root (R49, R54). -/
def Fmt.rsqrt (f : Fmt) (t : Int) (x : ElemVal) : Res :=
  match x with
  | .nan _ => f.nanRes x.sig
  | .inf s => if s then f.nanRes flNV else ⟨0, 0⟩
  | .fin s m e => if m = 0 then f.infRes s flDZ else if s then f.nanRes flNV else f.rootOf t 1 m (-e)

/-- Whether x < y as values (no NaN); −0 equals +0. -/
def ElemVal.lt (x y : ElemVal) : Bool :=
  match x, y with
  | .fin a m e, .fin b n g => decide ((finSum a m e (!b) n g).1 < 0)
  | .inf a, .inf b => a && !b
  | .inf a, .fin .. => a
  | .fin .., .inf b => !b
  | _, _ => false

/-- Whether x = y as values (no NaN). -/
def ElemVal.eqv (x y : ElemVal) : Bool := !x.isNan && !y.isNan && !x.lt y && !y.lt x

/-- The sign of a value. -/
def ElemVal.isNeg : ElemVal → Bool
  | .fin s _ _ => s
  | .inf s => s
  | .nan _ => false

/-- IEEE maximum: a NaN operand gives NaN, −0 is below +0 (R45). -/
def Fmt.max (f : Fmt) (x y : ElemVal) : Res :=
  if x.isNan || y.isNan then f.nanRes (x.sig ||| y.sig)
  else if x.lt y then f.ofNum y
  else if y.lt x then f.ofNum x
  else if x.isNeg then f.ofNum y else f.ofNum x

/-- IEEE minimum (R45). -/
def Fmt.min (f : Fmt) (x y : ElemVal) : Res :=
  if x.isNan || y.isNan then f.nanRes (x.sig ||| y.sig)
  else if x.lt y then f.ofNum x
  else if y.lt x then f.ofNum y
  else if x.isNeg then f.ofNum x else f.ofNum y

/-! ### The reference functions (R50 to R54) -/

def log2eQ62 : Int := 0x5C55_1D94_AE0B_F85E
def ln2Q62 : Int := 0x2C5C_85FD_F473_DE6B

/-- C[i] of R50. -/
def coefC : Nat → Nat
  | 0 => 2 ^ 62
  | i + 1 => ((coefC i * ln2Q62.toNat) / 2 ^ 62) / (i + 1)

/-- D[k] of R50. -/
def coefD (k : Nat) : Nat := 2 ^ 63 / (2 * k + 1)

/-- Arithmetic shift right by 62 (rounds towards minus infinity). -/
def sar62 (x : Int) : Int := x / 2 ^ 62

/-- m / 2^s to nearest, ties to even, of a signed integer (shift_rne of R23). -/
def shiftRne (m : Int) (s : Nat) : Int := sgn (decide (m < 0)) (rneDiv m.natAbs (2 ^ s)).1

/-- q62 of R50. -/
def q62 (m : Int) (e : Int) : Int :=
  if e < 0 then shiftRne (m * log2eQ62) (-e).toNat else m * log2eQ62 * 2 ^ e.toNat

/-- The Horner loop of exp2k, from coefficient i − 1 down. -/
def expHorner (f : Int) : Nat → Int → Int
  | 0, acc => acc
  | i + 1, acc => expHorner f i ((coefC i : Int) + sar62 (acc * f))

/-- exp2k of R51: p and n with 2^(t/2^62) = p·2^(n−62). -/
def exp2k (t : Int) : Int × Int :=
  let k := (t + 2 ^ 61) / 2 ^ 62
  let f := t - k * 2 ^ 62
  (expHorner f 12 (coefC 12), k)

/-- Whether ±m·2^e is at least the integer c in magnitude. -/
def magGe (m : Nat) (e : Int) (c : Nat) : Bool := decide (c * 2 ^ (-e).toNat ≤ m * 2 ^ e.toNat)

/-- The exponential (R51, R54), written at output scale exponent `t` as the other functions here are. -/
def Fmt.exp (f : Fmt) (t : Int) (x : ElemVal) : Res :=
  match x with
  | .nan _ => f.nanRes x.sig
  | .inf s => if s then ⟨0, 0⟩ else f.infRes false 0
  | .fin s m e =>
    if m = 0 then f.round false 1 1 (-t)
    else if !s && magGe m e 89 then f.infRes false (flOF + flNX)
    else if s && magGe m e 104 then ⟨0, flUF + flNX⟩
    else
      let pn := exp2k (q62 (sgn s m) e)
      f.roundF true false pn.1.toNat 1 (pn.2 - 62 - t)

/-- The Horner loop of log_ref. -/
def logHorner (z : Int) : Nat → Int → Int
  | 0, q => q
  | i + 1, q => logHorner z i ((coefD i : Int) + sar62 (q * z))

/-- log_ref of R52 for (m / 2^23)·2^E. -/
def logKernel (m : Nat) (E : Int) : Int :=
  let big := decide (m ≥ 11863284)
  let b : Nat := if big then 2 ^ 24 else 2 ^ 23
  let E := if big then E + 1 else E
  let d : Int := ((m : Int) - (b : Int)) * 2 ^ 62
  let S := sgn (decide (d < 0)) (rneDiv d.natAbs (m + b)).1
  let z := sar62 (S * S)
  let L := sar62 (logHorner z 9 (coefD 9) * S)
  E * ln2Q62 + L

/-- The logarithm (R52, R54). -/
def Fmt.log (f : Fmt) (t : Int) (x : ElemVal) : Res :=
  match x with
  | .nan _ => f.nanRes x.sig
  | .inf s => if s then f.nanRes flNV else f.infRes false 0
  | .fin s m e =>
    if m = 0 then f.infRes true flDZ
    else if s then f.nanRes flNV
    else
      let l := Nat.log2 m
      let m' := if l ≤ 23 then m * 2 ^ (23 - l) else m / 2 ^ (l - 23)
      let v := logKernel m' (e + (l : Int))
      if v = 0 then ⟨0, 0⟩ else f.roundF true (decide (v < 0)) v.natAbs 1 (-62 - t)

/-- P = 2^(62−n) and p of R53, over one denominator 2^d that clears a negative exponent. -/
def sigParts (t : Int) : Nat × Nat :=
  let pn := exp2k t
  (2 ^ (62 - pn.2).toNat, pn.1.toNat)

/-- The sigmoid (R53, R54). -/
def Fmt.sig (f : Fmt) (t : Int) (x : ElemVal) : Res :=
  match x with
  | .nan _ => f.nanRes x.sig
  | .inf s => if s then ⟨0, 0⟩ else f.round false 1 1 (-t)
  | .fin s m e =>
    if m = 0 then f.round false 1 2 (-t)
    else if magGe m e 104 then (if s then ⟨0, flUF + flNX⟩ else f.roundF true false 1 1 (-t))
    else
      let pp := sigParts (q62 (-(m : Int)) e)
      if s then f.roundF true false pp.2 (pp.1 + pp.2) (-t) else f.roundF true false pp.1 (pp.1 + pp.2) (-t)

/-- The hyperbolic tangent (R53, R54). -/
def Fmt.tanh (f : Fmt) (t : Int) (x : ElemVal) : Res :=
  match x with
  | .nan _ => f.nanRes x.sig
  | .inf s => f.round s 1 1 (-t)
  | .fin s m e =>
    if m = 0 then ⟨f.sign s, 0⟩
    else if !magGe m (e + 12) 1 then f.roundF true s m 1 (e - t)
    else if magGe m e 16 then f.roundF true s 1 1 (-t)
    else
      let pp := sigParts (q62 (-(m : Int)) (e + 1))
      f.roundF true s (pp.1 - pp.2) (pp.1 + pp.2) (-t)

end Sys2Proof.Machine
end

