-- ==== Sys2Proof/Machine/Codes.lean ====
section
/-! DEFINITION. The error, refusal and status codes of R428: every mnemonic has one 16-bit value (R427). -/

namespace Sys2Proof.Machine.Code

/-! 0x0000 -/
def OK : Nat := 0x0000
/-! 0x0101–0x010A -/
def ILLEGAL_INSTRUCTION : Nat := 0x0101
def PRIVILEGE : Nat := 0x0102
def MISALIGNED : Nat := 0x0103
def FETCH_ERROR : Nat := 0x0104
def PILOT_MEM_ERROR : Nat := 0x0105
def WU_PROTECTED : Nat := 0x0106
def TOKEN_OVERFLOW : Nat := 0x0107
def SOFTWARE_TRAP : Nat := 0x0108
def EVENT : Nat := 0x0109
def DOUBLE_TRAP : Nat := 0x010A
/-! 0x0201–0x0208 -/
def BAD_ADDRESS : Nat := 0x0201
def BAD_DESCRIPTOR : Nat := 0x0202
def QUEUE_FULL : Nat := 0x0203
def BAD_QUEUE : Nat := 0x0204
def QUEUE_FLUSHED : Nat := 0x0205
def BAD_REG_ACCESS : Nat := 0x0206
def LOCK_VIOLATION : Nat := 0x0207
def COMMAND_OVERRIDDEN : Nat := 0x0208
/-! 0x0301–0x0304 -/
def BAD_SCALE : Nat := 0x0301
def BAD_WINDOW : Nat := 0x0302
def SCALE_MISMATCH : Nat := 0x0303
def ORDER_SENSITIVE_REFUSED : Nat := 0x0304
/-! 0x0401–0x0407 -/
def STAGE_BAD_FORMAT : Nat := 0x0401
def STAGE_DATA_ERROR : Nat := 0x0402
def PRESS_HALTED : Nat := 0x0403
def PRESS_BAD_MASK : Nat := 0x0404
def PRESS_NO_OPERAND : Nat := 0x0405
def PRESS_FORMAT_MISMATCH : Nat := 0x0406
def PRESS_CHECKSUM : Nat := 0x0407
/-! 0x0501–0x050C -/
def GALLEY_DATA_ERROR : Nat := 0x0501
def ENGINE_BAD_OP : Nat := 0x0502
def ENGINE_BAD_FORMAT : Nat := 0x0503
def HIST_RANGE : Nat := 0x0504
def INDEX_RANGE : Nat := 0x0505
def COMPRESS_OVERFLOW : Nat := 0x0506
def COMPRESS_CORRUPT : Nat := 0x0507
def BERTH_EXHAUSTED : Nat := 0x0508
def BERTH_TOO_LARGE : Nat := 0x0509
def BERTH_NOT_HELD : Nat := 0x050A
def BERTH_AUDIT_COUNT : Nat := 0x050B
def BERTH_AUDIT_AGE : Nat := 0x050C
/-! 0x0601–0x0609 -/
def RESIDUE_MISMATCH : Nat := 0x0601
def TALLY_MISMATCH : Nat := 0x0602
def PROOF_MISMATCH : Nat := 0x0603
def PROOF_SUSPENDED : Nat := 0x0604
def UNIT_QUARANTINED : Nat := 0x0605
def QUARANTINED_UNIT : Nat := 0x0606
def REPLICA_ODD : Nat := 0x0607
def VOTE_NO_MAJORITY : Nat := 0x0608
def DIVERGENCE : Nat := 0x0609
/-! 0x0701–0x0705 -/
def COMPUTE_DIE_LOST : Nat := 0x0701
def QUAY_LINK_DOWN : Nat := 0x0702
def DIE_UNAVAILABLE : Nat := 0x0703
def REFERENCE_LOST : Nat := 0x0704
def DIRECTORY_ERROR : Nat := 0x0705
/-! 0x0801–0x0806 -/
def HBM_SYMBOL_CORRECTED : Nat := 0x0801
def HBM_DATA_ERROR : Nat := 0x0802
def HBM_ROW_REPAIR : Nat := 0x0803
def HBM_RETRAIN : Nat := 0x0804
def HBM_CHANNEL_DOWN : Nat := 0x0805
def MEMORY_UNAVAILABLE : Nat := 0x0806
/-! 0x0901–0x090A -/
def LASER_TAKEOVER : Nat := 0x0901
def WAVELENGTH_LOST : Nat := 0x0902
def LASER_WEAR : Nat := 0x0903
def RING_UNTUNABLE : Nat := 0x0904
def LINK_TRAIN_FAIL : Nat := 0x0905
def PORT_MISWIRED : Nat := 0x0906
def CAL_STEP_MISMATCH : Nat := 0x0907
def OPTICAL_LOW_POWER : Nat := 0x0908
def LANE_FAULT : Nat := 0x0909
def LANE_FAILED : Nat := 0x090A
/-! 0x0A01–0x0A06 -/
def LIGHTER_BAD_OP : Nat := 0x0A01
def NODE_UNREACHABLE : Nat := 0x0A02
def FABRIC_CELL_CRC : Nat := 0x0A03
def FABRIC_STALE_CELL : Nat := 0x0A04
def LINK_REPLAY_LOST : Nat := 0x0A05
def FOREIGN_CELL : Nat := 0x0A06
/-! 0x0B01–0x0B06 -/
def COLL_BUSY : Nat := 0x0B01
def COLL_DEADLINE : Nat := 0x0B02
def COLL_LATE_ABORT : Nat := 0x0B03
def NONFINITE_SKIP : Nat := 0x0B04
def NONFINITE_ZEROED : Nat := 0x0B05
def NONFINITE_ABORT : Nat := 0x0B06
/-! 0x0C01–0x0C0A -/
def TIDE_UNLOCKED : Nat := 0x0C01
def TIDE_FAULT : Nat := 0x0C02
def SCHED_BAD_ENTRY : Nat := 0x0C03
def SCHED_FULL : Nat := 0x0C04
def SCHED_RING_OVERRUN : Nat := 0x0C05
def SCHED_CONFLICT : Nat := 0x0C06
def TIDE_SLIP : Nat := 0x0C07
def COMMIT_WITHHELD : Nat := 0x0C08
def STALE_MANAGER : Nat := 0x0C09
def MANAGER_CONFLICT : Nat := 0x0C0A
/-! 0x0D01–0x0D11 -/
def IMPO_BUSY : Nat := 0x0D01
def IMPO_BAD_MAGIC : Nat := 0x0D02
def IMPO_BAD_VERSION : Nat := 0x0D03
def IMPO_BAD_LENGTH : Nat := 0x0D04
def IMPO_BAD_CRC : Nat := 0x0D05
def IMPO_BAD_HEADER : Nat := 0x0D06
def IMPO_SECTION_CRC : Nat := 0x0D07
def IMPO_BAD_SECTION : Nat := 0x0D08
def IMPO_MISSING_SECTION : Nat := 0x0D09
def IMPO_BAD_RECORD : Nat := 0x0D0A
def IMPO_STATE : Nat := 0x0D0B
def IMPO_CONFLICT : Nat := 0x0D0C
def IMPO_CAPACITY : Nat := 0x0D0D
def IMPO_POWER : Nat := 0x0D0E
def IMPO_KEY_CHANGE : Nat := 0x0D0F
def IMPO_APPLY_TOO_NEAR : Nat := 0x0D10
def IMPO_WRITE_FAILED : Nat := 0x0D11
/-! 0x0D12–0x0D17 -/
def IMPO_REFUSED : Nat := 0x0D12
def IMPO_LOADED : Nat := 0x0D13
def IMPO_STAGED : Nat := 0x0D14
def IMPO_APPLIED : Nat := 0x0D15
def IMPO_NOTHING_STAGED : Nat := 0x0D16
def LANE_PLAN_IN_FORCE : Nat := 0x0D17
/-! 0x0E01–0x0E06 -/
def MODULE_LOST : Nat := 0x0E01
def MANAGER_TAKEOVER : Nat := 0x0E02
def STANDIN_BEGUN : Nat := 0x0E03
def STANDIN_UNAVAILABLE : Nat := 0x0E04
def CORE_RETIRED : Nat := 0x0E05
def TEARDOWN_REQUESTED : Nat := 0x0E06
/-! 0x0E07–0x0E0B -/
def PREEMPT_NOTICE : Nat := 0x0E07
def PREEMPTED : Nat := 0x0E08
def CHECKPOINT_DONE : Nat := 0x0E09
def CHECKPOINT_LATE : Nat := 0x0E0A
def CHECKPOINT_CORRUPT : Nat := 0x0E0B
/-! 0x0E0C–0x0E0F -/
def ROLL_FORWARD : Nat := 0x0E0C
def RECOVERY_REPLAY : Nat := 0x0E0D
def STEP_REPLAY : Nat := 0x0E0E
def ROLLBACK : Nat := 0x0E0F
/-! 0x0E10–0x0E15 -/
def REHEARSAL_START : Nat := 0x0E10
def REHEARSAL_END : Nat := 0x0E11
def FI_BUSY : Nat := 0x0E12
def FIRMWARE_UPDATED : Nat := 0x0E13
def MICROCODE_UPDATED : Nat := 0x0E14
def MGMT_SWAPPED : Nat := 0x0E15
/-! 0x0F01–0x0F09 -/
def SUPPLY_LOW : Nat := 0x0F01
def SUPPLY_LOST : Nat := 0x0F02
def SUPPLY_HIGH : Nat := 0x0F03
def THERMAL_THROTTLE : Nat := 0x0F04
def THERMAL_TRIP : Nat := 0x0F05
def RAMP_SLIP : Nat := 0x0F06
def BUDGET_LIMIT : Nat := 0x0F07
def PLL_UNLOCK : Nat := 0x0F08
def CROSSING_TIMEOUT : Nat := 0x0F09
/-! 0x1001–0x100B -/
def STATUS_RING_OVERRUN : Nat := 0x1001
def HOST_WINDOW_FAULT : Nat := 0x1002
def PCIE_POISONED : Nat := 0x1003
def DOORBELL_BAD : Nat := 0x1004
def ETH_LINK_DOWN : Nat := 0x1005
def RDMA_ERROR : Nat := 0x1006
def PTP_UNLOCKED : Nat := 0x1007
def FIRMWARE_BAD_SIGNATURE : Nat := 0x1008
def ATTESTATION_FAILED : Nat := 0x1009
def UART_FRAMING : Nat := 0x100A
def JOURNAL_WRAPPED : Nat := 0x100B
/-! 0x1101–0x1105 -/
def STRAP_INVALID : Nat := 0x1101
def SELFTEST_FAIL : Nat := 0x1102
def BOOT_IMAGE_BAD : Nat := 0x1103
def HBM_STACK_REJECTED : Nat := 0x1104
def BRIDGE_FAILED_START : Nat := 0x1105

/-- Whether a value is one of the table of R428. -/
def listed (c : Nat) : Bool :=
  [(0x0000, 0x0000), (0x0101, 0x010A), (0x0201, 0x0208), (0x0301, 0x0304), (0x0401, 0x0407), (0x0501, 0x050C),
    (0x0601, 0x0609), (0x0701, 0x0705), (0x0801, 0x0806), (0x0901, 0x090A), (0x0A01, 0x0A06), (0x0B01, 0x0B06),
    (0x0C01, 0x0C0A), (0x0D01, 0x0D17), (0x0E01, 0x0E15), (0x0F01, 0x0F09), (0x1001, 0x100B), (0x1101, 0x1105)].any fun r =>
    decide (r.1 ≤ c) && decide (c ≤ r.2)

end Sys2Proof.Machine.Code
end

