-- ==== Sys2Proof/Machine/RegMap.lean ====
section
/-! DEFINITION. The register map (19_register_address_map.md R541 to R544 and every chapter's register tables): for each
register its block, offsets, the dies it is on and its fields with type and reset value; the address of each register,
and the place of each field. The tables of spec/ say every number here. -/

namespace Sys2Proof.Machine
open Sys2Proof

/-- How a field answers a write (R12). -/
inductive FieldType where
  | rw | ro | w1c | w1s | wo | lk | ot
deriving DecidableEq, Repr

/-- A field of a register: its word (registers of several words), its place, type and reset value. -/
structure FieldDesc where
  word : Nat
  fld : Fld
  ty : FieldType
  reset : Nat
deriving DecidableEq, Repr

/-- The dies a register is on: compute dies, base dies, all, or die 12 (R542). -/
inductive DieSet where
  | compute | base | all | die12
deriving DecidableEq, Repr

/-- Whether a die id is in the set. -/
def DieSet.has : DieSet → Nat → Bool
  | .compute, d => decide (d < 12)
  | .base, d => decide (12 ≤ d) && decide (d < 16)
  | .all, d => decide (d < 16)
  | .die12, d => decide (d = 12)

/-- A register of the map: base offset in its block, repetition (stride and count) from the outermost in, words. -/
structure RegDesc where
  name : String
  base : Nat
  dims : List (Nat × Nat)
  words : Nat
  dies : DieSet
  fields : List FieldDesc
deriving DecidableEq, Repr

/-- The address of an offset in a block of a die (R541). -/
def regAddr (die block offset : Nat) : Nat := 0xF0_0000_0000 + die * 0x1000_0000 + block * 0x10_0000 + offset

/-- PRESS_CTL (R86). -/
def desc_PRESS_CTL : RegDesc :=
  ⟨"PRESS_CTL", 0x0, [(0x10000, 13)], 1, .compute,
  [⟨0, ⟨1, 1⟩, .wo, 0⟩, ⟨0, ⟨0, 0⟩, .wo, 0⟩]⟩
/-- PRESS_STATUS (R86). -/
def desc_PRESS_STATUS : RegDesc :=
  ⟨"PRESS_STATUS", 0x8, [(0x10000, 13)], 1, .compute,
  [⟨0, ⟨29, 26⟩, .ro, 0⟩, ⟨0, ⟨25, 22⟩, .ro, 0⟩, ⟨0, ⟨21, 19⟩, .ro, 0⟩,
   ⟨0, ⟨18, 16⟩, .ro, 0⟩, ⟨0, ⟨15, 8⟩, .ro, 0⟩, ⟨0, ⟨7, 6⟩, .ro, 0⟩,
   ⟨0, ⟨5, 5⟩, .ro, 0⟩, ⟨0, ⟨2, 2⟩, .ro, 0⟩, ⟨0, ⟨1, 1⟩, .ro, 0⟩,
   ⟨0, ⟨0, 0⟩, .ro, 0⟩]⟩
/-- PRESS_SEQ (R86). -/
def desc_PRESS_SEQ : RegDesc :=
  ⟨"PRESS_SEQ", 0x10, [(0x10000, 13)], 1, .compute,
  [⟨0, ⟨47, 0⟩, .ro, 0⟩]⟩
/-- PRESS_QE (R86). -/
def desc_PRESS_QE : RegDesc :=
  ⟨"PRESS_QE", 0x18, [(0x10000, 13)], 1, .compute,
  [⟨0, ⟨47, 36⟩, .ro, 0⟩, ⟨0, ⟨35, 24⟩, .ro, 0⟩, ⟨0, ⟨23, 12⟩, .ro, 0⟩,
   ⟨0, ⟨11, 0⟩, .ro, 0⟩]⟩
/-- PRESS_RD_STATUS (R86). -/
def desc_PRESS_RD_STATUS : RegDesc :=
  ⟨"PRESS_RD_STATUS", 0x20, [(0x10000, 13)], 1, .compute,
  [⟨0, ⟨53, 48⟩, .w1c, 0⟩, ⟨0, ⟨47, 32⟩, .ro, 0⟩, ⟨0, ⟨31, 16⟩, .ro, 0⟩,
   ⟨0, ⟨15, 0⟩, .ro, 0⟩]⟩
/-- PRESS_STALL_BUSY (R86). -/
def desc_PRESS_STALL_BUSY : RegDesc :=
  ⟨"PRESS_STALL_BUSY", 0x40, [(0x10000, 13)], 1, .compute,
  [⟨0, ⟨63, 0⟩, .ro, 0⟩]⟩
/-- PRESS_STALL_STICK (R86). -/
def desc_PRESS_STALL_STICK : RegDesc :=
  ⟨"PRESS_STALL_STICK", 0x48, [(0x10000, 13)], 1, .compute,
  [⟨0, ⟨63, 0⟩, .ro, 0⟩]⟩
/-- PRESS_STALL_FORME (R86). -/
def desc_PRESS_STALL_FORME : RegDesc :=
  ⟨"PRESS_STALL_FORME", 0x50, [(0x10000, 13)], 1, .compute,
  [⟨0, ⟨63, 0⟩, .ro, 0⟩]⟩
/-- PRESS_STALL_FSUM (R86). -/
def desc_PRESS_STALL_FSUM : RegDesc :=
  ⟨"PRESS_STALL_FSUM", 0x58, [(0x10000, 13)], 1, .compute,
  [⟨0, ⟨63, 0⟩, .ro, 0⟩]⟩
/-- PRESS_STALL_ACT (R86). -/
def desc_PRESS_STALL_ACT : RegDesc :=
  ⟨"PRESS_STALL_ACT", 0x60, [(0x10000, 13)], 1, .compute,
  [⟨0, ⟨63, 0⟩, .ro, 0⟩]⟩
/-- PRESS_STALL_RAMP (R86). -/
def desc_PRESS_STALL_RAMP : RegDesc :=
  ⟨"PRESS_STALL_RAMP", 0x68, [(0x10000, 13)], 1, .compute,
  [⟨0, ⟨63, 0⟩, .ro, 0⟩]⟩
/-- PRESS_BUSY_CYCLES (R86). -/
def desc_PRESS_BUSY_CYCLES : RegDesc :=
  ⟨"PRESS_BUSY_CYCLES", 0x70, [(0x10000, 13)], 1, .compute,
  [⟨0, ⟨63, 0⟩, .ro, 0⟩]⟩
/-- CK_FAULT_SEQ (R86). -/
def desc_CK_FAULT_SEQ : RegDesc :=
  ⟨"CK_FAULT_SEQ", 0x80, [(0x10000, 13)], 1, .compute,
  [⟨0, ⟨47, 0⟩, .ro, 0⟩]⟩
/-- CK_LOC (R86). -/
def desc_CK_LOC : RegDesc :=
  ⟨"CK_LOC", 0x88, [(0x10000, 13)], 1, .compute,
  [⟨0, ⟨40, 40⟩, .w1c, 0⟩, ⟨0, ⟨39, 30⟩, .ro, 0⟩, ⟨0, ⟨29, 29⟩, .ro, 0⟩,
   ⟨0, ⟨28, 28⟩, .ro, 0⟩, ⟨0, ⟨27, 24⟩, .ro, 0⟩, ⟨0, ⟨8, 7⟩, .ro, 0⟩,
   ⟨0, ⟨6, 0⟩, .ro, 0⟩]⟩
/-- CK_DIFF_LO (R86). -/
def desc_CK_DIFF_LO : RegDesc :=
  ⟨"CK_DIFF_LO", 0x90, [(0x10000, 13)], 1, .compute,
  [⟨0, ⟨63, 0⟩, .ro, 0⟩]⟩
/-- CK_DIFF_HI (R86). -/
def desc_CK_DIFF_HI : RegDesc :=
  ⟨"CK_DIFF_HI", 0x98, [(0x10000, 13)], 1, .compute,
  [⟨0, ⟨55, 0⟩, .ro, 0⟩]⟩
/-- CK_COUNT (R86). -/
def desc_CK_COUNT : RegDesc :=
  ⟨"CK_COUNT", 0xA0, [(0x10000, 13)], 1, .compute,
  [⟨0, ⟨31, 0⟩, .ro, 0⟩]⟩
/-- PILOT_CTL (R131). -/
def desc_PILOT_CTL : RegDesc :=
  ⟨"PILOT_CTL", 0x0, [(0x10000, 13)], 1, .compute,
  [⟨0, ⟨2, 2⟩, .wo, 0⟩, ⟨0, ⟨1, 1⟩, .wo, 0⟩, ⟨0, ⟨0, 0⟩, .wo, 0⟩]⟩
/-- PILOT_STATUS (R131). -/
def desc_PILOT_STATUS : RegDesc :=
  ⟨"PILOT_STATUS", 0x8, [(0x10000, 13)], 1, .compute,
  [⟨0, ⟨3, 0⟩, .ro, 2⟩]⟩
/-- PILOT_PC (R131). -/
def desc_PILOT_PC : RegDesc :=
  ⟨"PILOT_PC", 0x10, [(0x10000, 13)], 1, .compute,
  [⟨0, ⟨63, 0⟩, .ro, 0⟩]⟩
/-- PILOT_ENTRY (R131). -/
def desc_PILOT_ENTRY : RegDesc :=
  ⟨"PILOT_ENTRY", 0x18, [(0x10000, 13)], 1, .compute,
  [⟨0, ⟨47, 0⟩, .lk, 0⟩]⟩
/-- PILOT_LASTTRAP (R131). -/
def desc_PILOT_LASTTRAP : RegDesc :=
  ⟨"PILOT_LASTTRAP", 0x20, [(0x10000, 13)], 1, .compute,
  [⟨0, ⟨63, 48⟩, .ro, 0⟩, ⟨0, ⟨47, 0⟩, .ro, 0⟩]⟩
/-- PILOT_ECC (R131). -/
def desc_PILOT_ECC : RegDesc :=
  ⟨"PILOT_ECC", 0x28, [(0x10000, 13)], 1, .compute,
  [⟨0, ⟨63, 32⟩, .ro, 0⟩, ⟨0, ⟨31, 0⟩, .ro, 0⟩]⟩
/-- PILOT_MAILBOX (R131). -/
def desc_PILOT_MAILBOX : RegDesc :=
  ⟨"PILOT_MAILBOX", 0x30, [(0x10000, 13)], 1, .compute,
  [⟨0, ⟨63, 0⟩, .rw, 0⟩]⟩
/-- VEC_STATUS (R546). -/
def desc_VEC_STATUS : RegDesc :=
  ⟨"VEC_STATUS", 0x0, [(0x10000, 13)], 1, .compute,
  [⟨0, ⟨63, 32⟩, .ro, 0⟩, ⟨0, ⟨0, 0⟩, .ro, 0⟩]⟩
/-- VEC_ISSUED (R546). -/
def desc_VEC_ISSUED : RegDesc :=
  ⟨"VEC_ISSUED", 0x8, [(0x10000, 13)], 1, .compute,
  [⟨0, ⟨63, 0⟩, .ro, 0⟩]⟩
/-- GALLEY_WIN (R138). -/
def desc_GALLEY_WIN : RegDesc :=
  ⟨"GALLEY_WIN", 0x0, [(0x8, 2)], 1, .compute,
  [⟨0, ⟨29, 25⟩, .lk, 0⟩, ⟨0, ⟨24, 16⟩, .lk, 0⟩, ⟨0, ⟨7, 0⟩, .lk, 0⟩]⟩
/-- GALLEY_ECC (R138). -/
def desc_GALLEY_ECC : RegDesc :=
  ⟨"GALLEY_ECC", 0x10, [], 1, .compute,
  [⟨0, ⟨63, 32⟩, .ro, 0⟩, ⟨0, ⟨31, 0⟩, .ro, 0⟩]⟩
/-- GALLEY_ERRADDR (R138). -/
def desc_GALLEY_ERRADDR : RegDesc :=
  ⟨"GALLEY_ERRADDR", 0x18, [], 1, .compute,
  [⟨0, ⟨63, 63⟩, .w1c, 0⟩, ⟨0, ⟨27, 0⟩, .ro, 0⟩]⟩
/-- GALLEY_SCRUB (R138). -/
def desc_GALLEY_SCRUB : RegDesc :=
  ⟨"GALLEY_SCRUB", 0x20, [], 1, .compute,
  [⟨0, ⟨31, 0⟩, .ro, 0⟩]⟩
/-- GALLEY_CONFLICT (R138). -/
def desc_GALLEY_CONFLICT : RegDesc :=
  ⟨"GALLEY_CONFLICT", 0x28, [], 1, .compute,
  [⟨0, ⟨63, 0⟩, .ro, 0⟩]⟩
/-- ENG_STATUS (R167). -/
def desc_ENG_STATUS : RegDesc :=
  ⟨"ENG_STATUS", 0x0, [(0x10000, 9)], 1, .compute,
  [⟨0, ⟨16, 16⟩, .ro, 0⟩, ⟨0, ⟨7, 0⟩, .ro, 255⟩]⟩
/-- ENG_BUSY (R167). -/
def desc_ENG_BUSY : RegDesc :=
  ⟨"ENG_BUSY", 0x8, [(0x10000, 9)], 1, .compute,
  [⟨0, ⟨63, 0⟩, .ro, 0⟩]⟩
/-- ENG_DONE (R167). -/
def desc_ENG_DONE : RegDesc :=
  ⟨"ENG_DONE", 0x10, [(0x10000, 9)], 1, .compute,
  [⟨0, ⟨63, 0⟩, .ro, 0⟩]⟩
/-- ENG_ERRCNT (R167). -/
def desc_ENG_ERRCNT : RegDesc :=
  ⟨"ENG_ERRCNT", 0x18, [(0x10000, 9)], 1, .compute,
  [⟨0, ⟨31, 0⟩, .ro, 0⟩]⟩
/-- ENG_ERRPTR (R167). -/
def desc_ENG_ERRPTR : RegDesc :=
  ⟨"ENG_ERRPTR", 0x800, [(0x10000, 9), (0x8, 13)], 1, .compute,
  [⟨0, ⟨15, 8⟩, .w1c, 0⟩, ⟨0, ⟨2, 0⟩, .ro, 0⟩]⟩
/-- ERRLOG (R167). -/
def desc_ERRLOG : RegDesc :=
  ⟨"ERRLOG", 0x1000, [(0x10000, 9), (0x100, 13), (0x20, 8)], 4, .compute,
  [⟨3, ⟨63, 0⟩, .ro, 0⟩, ⟨2, ⟨63, 0⟩, .ro, 0⟩, ⟨1, ⟨63, 48⟩, .ro, 0⟩,
   ⟨1, ⟨47, 40⟩, .ro, 0⟩, ⟨1, ⟨39, 32⟩, .ro, 0⟩, ⟨1, ⟨31, 0⟩, .ro, 0⟩,
   ⟨0, ⟨63, 0⟩, .ro, 0⟩]⟩
/-- BERTH_CTL (R176). -/
def desc_BERTH_CTL : RegDesc :=
  ⟨"BERTH_CTL", 0x0, [], 1, .compute,
  [⟨0, ⟨0, 0⟩, .lk, 0⟩]⟩
/-- BERTH_POOL (R176). -/
def desc_BERTH_POOL : RegDesc :=
  ⟨"BERTH_POOL", 0x100, [(0x28, 2), (0x8, 5)], 1, .compute,
  [⟨0, ⟨55, 36⟩, .lk, 0⟩, ⟨0, ⟨35, 0⟩, .lk, 0⟩]⟩
/-- BERTH_FREE (R176). -/
def desc_BERTH_FREE : RegDesc :=
  ⟨"BERTH_FREE", 0x200, [(0x28, 2), (0x8, 5)], 1, .compute,
  [⟨0, ⟨19, 0⟩, .ro, 0⟩]⟩
/-- BERTH_FAIL (R176). -/
def desc_BERTH_FAIL : RegDesc :=
  ⟨"BERTH_FAIL", 0x300, [(0x8, 2)], 1, .compute,
  [⟨0, ⟨31, 0⟩, .ro, 0⟩]⟩
/-- BERTH_AUD_THR (R176). -/
def desc_BERTH_AUD_THR : RegDesc :=
  ⟨"BERTH_AUD_THR", 0x340, [(0x8, 2)], 1, .compute,
  [⟨0, ⟨63, 24⟩, .rw, 0⟩, ⟨0, ⟨23, 0⟩, .rw, 0⟩]⟩
/-- BERTH_AUD_CNT (R176). -/
def desc_BERTH_AUD_CNT : RegDesc :=
  ⟨"BERTH_AUD_CNT", 0x1000, [(0x8, 182)], 1, .compute,
  [⟨0, ⟨23, 0⟩, .ro, 0⟩]⟩
/-- BERTH_AUD_OLD (R176). -/
def desc_BERTH_AUD_OLD : RegDesc :=
  ⟨"BERTH_AUD_OLD", 0x2000, [(0x8, 182)], 1, .compute,
  [⟨0, ⟨63, 0⟩, .ro, 0⟩]⟩
/-- LTR_STATUS (R348). -/
def desc_LTR_STATUS : RegDesc :=
  ⟨"LTR_STATUS", 0x0, [(0x10000, 13)], 1, .compute,
  [⟨0, ⟨47, 16⟩, .ro, 0⟩, ⟨0, ⟨8, 0⟩, .ro, 0⟩]⟩
/-- LTR_SUPPRESS (R348). -/
def desc_LTR_SUPPRESS : RegDesc :=
  ⟨"LTR_SUPPRESS", 0x8, [(0x10000, 13)], 1, .compute,
  [⟨0, ⟨31, 0⟩, .ro, 0⟩]⟩
/-- LTR_CELLS_OUT (R348). -/
def desc_LTR_CELLS_OUT : RegDesc :=
  ⟨"LTR_CELLS_OUT", 0x10, [(0x10000, 13)], 1, .compute,
  [⟨0, ⟨63, 0⟩, .ro, 0⟩]⟩
/-- LTR_CELLS_IN (R348). -/
def desc_LTR_CELLS_IN : RegDesc :=
  ⟨"LTR_CELLS_IN", 0x18, [(0x10000, 13)], 1, .compute,
  [⟨0, ⟨63, 0⟩, .ro, 0⟩]⟩
/-- LTR_ERRCNT (R167). -/
def desc_LTR_ERRCNT : RegDesc :=
  ⟨"LTR_ERRCNT", 0x20, [(0x10000, 13)], 1, .compute,
  [⟨0, ⟨31, 0⟩, .ro, 0⟩]⟩
/-- LTR_ERRPTR (R167). -/
def desc_LTR_ERRPTR : RegDesc :=
  ⟨"LTR_ERRPTR", 0x28, [(0x10000, 13)], 1, .compute,
  [⟨0, ⟨15, 8⟩, .w1c, 0⟩, ⟨0, ⟨2, 0⟩, .ro, 0⟩]⟩
/-- LTR_CC (R348). -/
def desc_LTR_CC : RegDesc :=
  ⟨"LTR_CC", 0x100, [(0x10000, 13), (0x8, 32)], 1, .compute,
  [⟨0, ⟨63, 32⟩, .rw, 0⟩, ⟨0, ⟨31, 0⟩, .rw, 0⟩]⟩
/-- LTR_CCCFG (R348). -/
def desc_LTR_CCCFG : RegDesc :=
  ⟨"LTR_CCCFG", 0x200, [(0x10000, 13), (0x8, 32)], 1, .compute,
  [⟨0, ⟨7, 7⟩, .w1c, 0⟩, ⟨0, ⟨6, 6⟩, .rw, 0⟩, ⟨0, ⟨5, 0⟩, .rw, 0⟩]⟩
/-- LTR_ERRLOG (R343). -/
def desc_LTR_ERRLOG : RegDesc :=
  ⟨"LTR_ERRLOG", 0x1000, [(0x10000, 13), (0x20, 8)], 4, .compute,
  [⟨0, ⟨63, 0⟩, .ro, 0⟩, ⟨1, ⟨63, 0⟩, .ro, 0⟩, ⟨2, ⟨63, 0⟩, .ro, 0⟩,
   ⟨3, ⟨63, 0⟩, .ro, 0⟩]⟩
/-- QUAY_LSTATUS (R256). -/
def desc_QUAY_LSTATUS : RegDesc :=
  ⟨"QUAY_LSTATUS", 0x0, [(0x1000, 8)], 1, .all,
  [⟨0, ⟨23, 20⟩, .ro, 0⟩, ⟨0, ⟨19, 16⟩, .ro, 0⟩, ⟨0, ⟨3, 0⟩, .ro, 0⟩]⟩
/-- QUAY_LCTL (R256). -/
def desc_QUAY_LCTL : RegDesc :=
  ⟨"QUAY_LCTL", 0x8, [(0x1000, 8)], 1, .all,
  [⟨0, ⟨1, 1⟩, .lk, 0⟩, ⟨0, ⟨0, 0⟩, .wo, 0⟩]⟩
/-- QUAY_LERR (R256). -/
def desc_QUAY_LERR : RegDesc :=
  ⟨"QUAY_LERR", 0x10, [(0x1000, 8)], 1, .all,
  [⟨0, ⟨63, 32⟩, .ro, 0⟩, ⟨0, ⟨31, 16⟩, .ro, 0⟩, ⟨0, ⟨15, 0⟩, .ro, 0⟩]⟩
/-- QUAY_CREDIT (R256). -/
def desc_QUAY_CREDIT : RegDesc :=
  ⟨"QUAY_CREDIT", 0x18, [(0x1000, 8)], 1, .all,
  [⟨0, ⟨47, 40⟩, .ro, 16⟩, ⟨0, ⟨39, 32⟩, .ro, 16⟩, ⟨0, ⟨31, 24⟩, .ro, 32⟩,
   ⟨0, ⟨23, 16⟩, .ro, 32⟩, ⟨0, ⟨15, 8⟩, .ro, 128⟩, ⟨0, ⟨7, 0⟩, .ro, 128⟩]⟩
/-- QUAY_FLITS (R256). -/
def desc_QUAY_FLITS : RegDesc :=
  ⟨"QUAY_FLITS", 0x20, [(0x1000, 8), (0x8, 6)], 1, .all,
  [⟨0, ⟨63, 0⟩, .ro, 0⟩]⟩
/-- QUAY_WAIT (R256). -/
def desc_QUAY_WAIT : RegDesc :=
  ⟨"QUAY_WAIT", 0x60, [(0x1000, 8), (0x8, 6)], 1, .all,
  [⟨0, ⟨63, 0⟩, .ro, 0⟩]⟩
/-- QUAY_TAGVIOL (R256). -/
def desc_QUAY_TAGVIOL : RegDesc :=
  ⟨"QUAY_TAGVIOL", 0x8000, [], 1, .all,
  [⟨0, ⟨31, 0⟩, .ro, 0⟩]⟩
/-- QUAY_EVDROP (R256). -/
def desc_QUAY_EVDROP : RegDesc :=
  ⟨"QUAY_EVDROP", 0x8008, [], 1, .all,
  [⟨0, ⟨31, 0⟩, .ro, 0⟩]⟩
/-- DIR_STATUS (R256). -/
def desc_DIR_STATUS : RegDesc :=
  ⟨"DIR_STATUS", 0x9000, [], 1, .base,
  [⟨0, ⟨35, 18⟩, .ro, 0⟩, ⟨0, ⟨17, 0⟩, .ro, 0⟩]⟩
/-- DIR_EVICT (R256). -/
def desc_DIR_EVICT : RegDesc :=
  ⟨"DIR_EVICT", 0x9008, [], 1, .base,
  [⟨0, ⟨63, 0⟩, .ro, 0⟩]⟩
/-- DIR_ECC (R256). -/
def desc_DIR_ECC : RegDesc :=
  ⟨"DIR_ECC", 0x9010, [], 1, .base,
  [⟨0, ⟨63, 32⟩, .ro, 0⟩, ⟨0, ⟨31, 0⟩, .ro, 0⟩]⟩
/-- DIR_ERRADDR (R256). -/
def desc_DIR_ERRADDR : RegDesc :=
  ⟨"DIR_ERRADDR", 0x9018, [], 1, .base,
  [⟨0, ⟨63, 63⟩, .w1c, 0⟩, ⟨0, ⟨47, 6⟩, .ro, 0⟩]⟩
/-- HBM_STACK_STATUS (R280). -/
def desc_HBM_STACK_STATUS : RegDesc :=
  ⟨"HBM_STACK_STATUS", 0x0, [(0x40000, 3)], 1, .base,
  [⟨0, ⟨47, 32⟩, .ro, 0⟩, ⟨0, ⟨9, 8⟩, .ro, 0⟩, ⟨0, ⟨3, 0⟩, .ro, 0⟩]⟩
/-- HBM_CFG (R280). -/
def desc_HBM_CFG : RegDesc :=
  ⟨"HBM_CFG", 0x8, [(0x40000, 3)], 1, .base,
  [⟨0, ⟨1, 0⟩, .ro, 0⟩]⟩
/-- HBM_ECC (R280). -/
def desc_HBM_ECC : RegDesc :=
  ⟨"HBM_ECC", 0x10, [(0x40000, 3)], 1, .base,
  [⟨0, ⟨63, 48⟩, .ro, 0⟩, ⟨0, ⟨47, 32⟩, .ro, 0⟩, ⟨0, ⟨31, 0⟩, .ro, 0⟩]⟩
/-- HBM_ERRADDR (R280). -/
def desc_HBM_ERRADDR : RegDesc :=
  ⟨"HBM_ERRADDR", 0x18, [(0x40000, 3)], 1, .base,
  [⟨0, ⟨63, 63⟩, .w1c, 0⟩, ⟨0, ⟨47, 6⟩, .ro, 0⟩]⟩
/-- HBM_SCRUB (R280). -/
def desc_HBM_SCRUB : RegDesc :=
  ⟨"HBM_SCRUB", 0x20, [(0x40000, 3)], 1, .base,
  [⟨0, ⟨63, 32⟩, .ro, 0⟩, ⟨0, ⟨7, 0⟩, .rw, 24⟩]⟩
/-- HBM_ADD_STATUS (R280). -/
def desc_HBM_ADD_STATUS : RegDesc :=
  ⟨"HBM_ADD_STATUS", 0x28, [(0x40000, 3)], 1, .base,
  [⟨0, ⟨63, 32⟩, .ro, 0⟩, ⟨0, ⟨31, 0⟩, .ro, 0⟩]⟩
/-- HBM_MARGIN_CTL (R280). -/
def desc_HBM_MARGIN_CTL : RegDesc :=
  ⟨"HBM_MARGIN_CTL", 0x30, [(0x40000, 3)], 1, .base,
  [⟨0, ⟨17, 17⟩, .wo, 0⟩, ⟨0, ⟨16, 16⟩, .rw, 0⟩, ⟨0, ⟨13, 8⟩, .rw, 0⟩,
   ⟨0, ⟨5, 1⟩, .rw, 0⟩, ⟨0, ⟨0, 0⟩, .rw, 0⟩]⟩
/-- HBM_MARGIN_STATUS (R280). -/
def desc_HBM_MARGIN_STATUS : RegDesc :=
  ⟨"HBM_MARGIN_STATUS", 0x38, [(0x40000, 3)], 1, .base,
  [⟨0, ⟨23, 16⟩, .ro, 0⟩, ⟨0, ⟨15, 8⟩, .ro, 0⟩, ⟨0, ⟨3, 2⟩, .ro, 0⟩,
   ⟨0, ⟨1, 1⟩, .ro, 0⟩, ⟨0, ⟨0, 0⟩, .ro, 0⟩]⟩
/-- HBM_LOGPTR (R280). -/
def desc_HBM_LOGPTR : RegDesc :=
  ⟨"HBM_LOGPTR", 0x40, [(0x40000, 3)], 1, .base,
  [⟨0, ⟨15, 8⟩, .w1c, 0⟩, ⟨0, ⟨7, 4⟩, .ro, 0⟩, ⟨0, ⟨3, 0⟩, .ro, 0⟩]⟩
/-- HBM_CH_STATUS (R280). -/
def desc_HBM_CH_STATUS : RegDesc :=
  ⟨"HBM_CH_STATUS", 0x100, [(0x40000, 3), (0x8, 32)], 1, .base,
  [⟨0, ⟨63, 48⟩, .ro, 0⟩, ⟨0, ⟨47, 32⟩, .ro, 0⟩, ⟨0, ⟨3, 0⟩, .ro, 0⟩]⟩
/-- HBM_CH_CTL (R280). -/
def desc_HBM_CH_CTL : RegDesc :=
  ⟨"HBM_CH_CTL", 0x200, [(0x40000, 3), (0x8, 32)], 1, .base,
  [⟨0, ⟨1, 1⟩, .rw, 0⟩, ⟨0, ⟨0, 0⟩, .wo, 0⟩]⟩
/-- HBM_EYE (R280). -/
def desc_HBM_EYE : RegDesc :=
  ⟨"HBM_EYE", 0x300, [(0x40000, 3), (0x8, 32)], 1, .base,
  [⟨0, ⟨63, 0⟩, .ro, 0⟩]⟩
/-- HBM_REPAIR (R280). -/
def desc_HBM_REPAIR : RegDesc :=
  ⟨"HBM_REPAIR", 0x400, [(0x40000, 3), (0x8, 8)], 1, .base,
  [⟨0, ⟨63, 63⟩, .ro, 0⟩, ⟨0, ⟨47, 6⟩, .ro, 0⟩]⟩
/-- HBM_ERRLOG (R280). -/
def desc_HBM_ERRLOG : RegDesc :=
  ⟨"HBM_ERRLOG", 0x1000, [(0x40000, 3), (0x20, 16)], 4, .base,
  [⟨0, ⟨63, 0⟩, .ro, 0⟩, ⟨1, ⟨63, 0⟩, .ro, 0⟩, ⟨2, ⟨63, 0⟩, .ro, 0⟩,
   ⟨3, ⟨63, 0⟩, .ro, 0⟩]⟩
/-- HBM_WIN (R280). -/
def desc_HBM_WIN : RegDesc :=
  ⟨"HBM_WIN", 0xC0000, [(0x20, 24), (0x8, 4)], 1, .base,
  [⟨0, ⟨63, 63⟩, .lk, 0⟩, ⟨0, ⟨27, 16⟩, .lk, 0⟩, ⟨0, ⟨11, 0⟩, .lk, 0⟩]⟩
/-- HBM_PART (R280). -/
def desc_HBM_PART : RegDesc :=
  ⟨"HBM_PART", 0xC0400, [(0x8, 24)], 1, .base,
  [⟨0, ⟨0, 0⟩, .lk, 1⟩]⟩
/-- PHX_CAL (R308). -/
def desc_PHX_CAL : RegDesc :=
  ⟨"PHX_CAL", 0x0, [], 1, .base,
  [⟨0, ⟨31, 0⟩, .lk, 2940000⟩]⟩
/-- PHX_LASER_CTL (R308). -/
def desc_PHX_LASER_CTL : RegDesc :=
  ⟨"PHX_LASER_CTL", 0x8, [], 1, .base,
  [⟨0, ⟨9, 9⟩, .wo, 0⟩, ⟨0, ⟨8, 5⟩, .wo, 0⟩, ⟨0, ⟨4, 0⟩, .wo, 0⟩]⟩
/-- PHX_LASER (R308). -/
def desc_PHX_LASER : RegDesc :=
  ⟨"PHX_LASER", 0x100, [(0x88, 5), (0x8, 17)], 1, .base,
  [⟨0, ⟨63, 48⟩, .ro, 0⟩, ⟨0, ⟨47, 32⟩, .ro, 0⟩, ⟨0, ⟨8, 8⟩, .ro, 0⟩,
   ⟨0, ⟨7, 4⟩, .ro, 15⟩, ⟨0, ⟨3, 0⟩, .ro, 0⟩]⟩
/-- PHX_SLOT (R308). -/
def desc_PHX_SLOT : RegDesc :=
  ⟨"PHX_SLOT", 0x800, [(0x88, 8), (0x8, 17)], 1, .base,
  [⟨0, ⟨63, 48⟩, .ro, 0⟩, ⟨0, ⟨47, 32⟩, .ro, 0⟩, ⟨0, ⟨31, 24⟩, .ro, 0⟩,
   ⟨0, ⟨23, 16⟩, .ro, 0⟩, ⟨0, ⟨15, 8⟩, .ro, 255⟩, ⟨0, ⟨3, 0⟩, .ro, 1⟩]⟩
/-- PHX_PORT (R308). -/
def desc_PHX_PORT : RegDesc :=
  ⟨"PHX_PORT", 0x1000, [(0x8, 8)], 1, .base,
  [⟨0, ⟨63, 63⟩, .lk, 0⟩, ⟨0, ⟨62, 58⟩, .lk, 0⟩, ⟨0, ⟨57, 46⟩, .ro, 0⟩,
   ⟨0, ⟨45, 41⟩, .ro, 0⟩, ⟨0, ⟨40, 36⟩, .ro, 0⟩, ⟨0, ⟨35, 31⟩, .ro, 0⟩,
   ⟨0, ⟨30, 14⟩, .ro, 0⟩, ⟨0, ⟨13, 9⟩, .ro, 0⟩, ⟨0, ⟨3, 0⟩, .ro, 0⟩]⟩
/-- PHX_PORT_EXP (R308). -/
def desc_PHX_PORT_EXP : RegDesc :=
  ⟨"PHX_PORT_EXP", 0x1040, [(0x8, 8)], 1, .base,
  [⟨0, ⟨17, 6⟩, .lk, 0⟩, ⟨0, ⟨5, 1⟩, .lk, 0⟩, ⟨0, ⟨0, 0⟩, .lk, 0⟩]⟩
/-- PHX_PORT_CTL (R308). -/
def desc_PHX_PORT_CTL : RegDesc :=
  ⟨"PHX_PORT_CTL", 0x1080, [(0x8, 8)], 1, .base,
  [⟨0, ⟨0, 0⟩, .wo, 0⟩]⟩
/-- LANE_STATUS (R309). -/
def desc_LANE_STATUS : RegDesc :=
  ⟨"LANE_STATUS", 0x0, [(0x40, 96)], 1, .base,
  [⟨0, ⟨39, 32⟩, .ro, 0⟩, ⟨0, ⟨20, 16⟩, .ro, 31⟩, ⟨0, ⟨13, 8⟩, .ro, 63⟩,
   ⟨0, ⟨7, 4⟩, .ro, 15⟩, ⟨0, ⟨3, 0⟩, .ro, 0⟩]⟩
/-- LANE_CTL (R309). -/
def desc_LANE_CTL : RegDesc :=
  ⟨"LANE_CTL", 0x8, [(0x40, 96)], 1, .base,
  [⟨0, ⟨7, 3⟩, .lk, 0⟩, ⟨0, ⟨2, 2⟩, .lk, 0⟩, ⟨0, ⟨1, 1⟩, .rw, 0⟩,
   ⟨0, ⟨0, 0⟩, .wo, 0⟩]⟩
/-- LANE_FEC (R309). -/
def desc_LANE_FEC : RegDesc :=
  ⟨"LANE_FEC", 0x10, [(0x40, 96)], 1, .base,
  [⟨0, ⟨63, 32⟩, .ro, 0⟩, ⟨0, ⟨31, 0⟩, .ro, 0⟩]⟩
/-- LANE_CW (R309). -/
def desc_LANE_CW : RegDesc :=
  ⟨"LANE_CW", 0x18, [(0x40, 96)], 1, .base,
  [⟨0, ⟨63, 0⟩, .ro, 0⟩]⟩
/-- LANE_EYE (R309). -/
def desc_LANE_EYE : RegDesc :=
  ⟨"LANE_EYE", 0x20, [(0x40, 96)], 1, .base,
  [⟨0, ⟨55, 48⟩, .ro, 0⟩, ⟨0, ⟨47, 40⟩, .ro, 0⟩, ⟨0, ⟨39, 32⟩, .ro, 0⟩,
   ⟨0, ⟨15, 0⟩, .ro, 0⟩]⟩
/-- LANE_PLAN (R309). -/
def desc_LANE_PLAN : RegDesc :=
  ⟨"LANE_PLAN", 0x2000, [(0x8, 8)], 1, .base,
  [⟨0, ⟨39, 0⟩, .rw, 0⟩]⟩
/-- LANE_PLANSEL (R309). -/
def desc_LANE_PLANSEL : RegDesc :=
  ⟨"LANE_PLANSEL", 0x2040, [], 1, .base,
  [⟨0, ⟨2, 0⟩, .ro, 0⟩]⟩
/-- LANE_SHORT (R309). -/
def desc_LANE_SHORT : RegDesc :=
  ⟨"LANE_SHORT", 0x2048, [], 1, .base,
  [⟨0, ⟨7, 0⟩, .ro, 0⟩]⟩
/-- RTR_CTL (R347). -/
def desc_RTR_CTL : RegDesc :=
  ⟨"RTR_CTL", 0x0, [], 1, .base,
  [⟨0, ⟨15, 8⟩, .lk, 40⟩, ⟨0, ⟨7, 0⟩, .lk, 16⟩]⟩
/-- RTR_NODE (R347). -/
def desc_RTR_NODE : RegDesc :=
  ⟨"RTR_NODE", 0x8, [], 1, .base,
  [⟨0, ⟨11, 0⟩, .lk, 0⟩]⟩
/-- RTR_STATUS (R347). -/
def desc_RTR_STATUS : RegDesc :=
  ⟨"RTR_STATUS", 0x10, [], 1, .base,
  [⟨0, ⟨47, 32⟩, .ro, 0⟩, ⟨0, ⟨23, 0⟩, .ro, 0⟩]⟩
/-- RTR_PORTDIM (R347). -/
def desc_RTR_PORTDIM : RegDesc :=
  ⟨"RTR_PORTDIM", 0x100, [(0x8, 8)], 1, .base,
  [⟨0, ⟨3, 0⟩, .lk, 15⟩]⟩
/-- RTR_CRES (R347). -/
def desc_RTR_CRES : RegDesc :=
  ⟨"RTR_CRES", 0x200, [(0x8, 24)], 1, .base,
  [⟨0, ⟨12, 0⟩, .lk, 0⟩]⟩
/-- RTR_COUNT (R347). -/
def desc_RTR_COUNT : RegDesc :=
  ⟨"RTR_COUNT", 0x400, [(0x8, 16)], 1, .base,
  [⟨0, ⟨63, 0⟩, .ro, 0⟩]⟩
/-- RTR_ROUTE (R347). -/
def desc_RTR_ROUTE : RegDesc :=
  ⟨"RTR_ROUTE", 0x10000, [(0x8, 4096)], 1, .base,
  [⟨0, ⟨31, 0⟩, .lk, 0⟩]⟩
/-- COLL_CTL (R373). -/
def desc_COLL_CTL : RegDesc :=
  ⟨"COLL_CTL", 0x0, [], 1, .compute,
  [⟨0, ⟨35, 34⟩, .lk, 0⟩, ⟨0, ⟨33, 32⟩, .lk, 0⟩, ⟨0, ⟨31, 0⟩, .lk, 100000⟩]⟩
/-- COLL_STATUS (R373). -/
def desc_COLL_STATUS : RegDesc :=
  ⟨"COLL_STATUS", 0x8, [], 1, .compute,
  [⟨0, ⟨63, 48⟩, .ro, 0⟩, ⟨0, ⟨47, 32⟩, .ro, 0⟩, ⟨0, ⟨31, 16⟩, .ro, 0⟩,
   ⟨0, ⟨15, 0⟩, .ro, 0⟩]⟩
/-- COLL_SLOW (R373). -/
def desc_COLL_SLOW : RegDesc :=
  ⟨"COLL_SLOW", 0x10, [(0x8, 17)], 1, .compute,
  [⟨0, ⟨31, 0⟩, .ro, 0⟩]⟩
/-- COLL_REC (R373). -/
def desc_COLL_REC : RegDesc :=
  ⟨"COLL_REC", 0x100, [(0x20, 64)], 4, .compute,
  [⟨0, ⟨63, 0⟩, .ro, 0⟩, ⟨1, ⟨63, 0⟩, .ro, 0⟩, ⟨2, ⟨63, 0⟩, .ro, 0⟩,
   ⟨3, ⟨63, 0⟩, .ro, 0⟩]⟩
/-- COLL_RECPTR (R373). -/
def desc_COLL_RECPTR : RegDesc :=
  ⟨"COLL_RECPTR", 0x900, [], 1, .compute,
  [⟨0, ⟨23, 16⟩, .w1c, 0⟩, ⟨0, ⟨5, 0⟩, .ro, 0⟩]⟩
/-- COLL_EARLY (R373). -/
def desc_COLL_EARLY : RegDesc :=
  ⟨"COLL_EARLY", 0xA00, [(0x10, 16)], 2, .compute,
  [⟨0, ⟨63, 32⟩, .ro, 0⟩, ⟨0, ⟨31, 16⟩, .ro, 0⟩, ⟨0, ⟨12, 8⟩, .ro, 0⟩,
   ⟨0, ⟨0, 0⟩, .ro, 0⟩, ⟨1, ⟨63, 0⟩, .ro, 0⟩]⟩
/-- COLL_CTX (R373). -/
def desc_COLL_CTX : RegDesc :=
  ⟨"COLL_CTX", 0x10000, [(0x400, 13), (0x20, 32)], 4, .compute,
  [⟨0, ⟨63, 32⟩, .ro, 0⟩, ⟨0, ⟨31, 16⟩, .ro, 0⟩, ⟨0, ⟨3, 0⟩, .ro, 0⟩,
   ⟨1, ⟨63, 0⟩, .ro, 0⟩, ⟨2, ⟨63, 0⟩, .ro, 0⟩, ⟨3, ⟨63, 0⟩, .ro, 0⟩]⟩
/-- TIDE_NOW (R392). -/
def desc_TIDE_NOW : RegDesc :=
  ⟨"TIDE_NOW", 0x0, [], 1, .all,
  [⟨0, ⟨63, 0⟩, .ro, 0⟩]⟩
/-- TIDE_STATUS (R392). -/
def desc_TIDE_STATUS : RegDesc :=
  ⟨"TIDE_STATUS", 0x8, [], 1, .all,
  [⟨0, ⟨43, 32⟩, .ro, 0⟩, ⟨0, ⟨31, 24⟩, .ro, 0⟩, ⟨0, ⟨15, 10⟩, .ro, 63⟩,
   ⟨0, ⟨3, 0⟩, .ro, 0⟩]⟩
/-- TIDE_CTL (R392). -/
def desc_TIDE_CTL : RegDesc :=
  ⟨"TIDE_CTL", 0x10, [], 1, .all,
  [⟨0, ⟨21, 16⟩, .lk, 63⟩, ⟨0, ⟨13, 8⟩, .lk, 63⟩, ⟨0, ⟨1, 1⟩, .lk, 0⟩,
   ⟨0, ⟨0, 0⟩, .lk, 0⟩]⟩
/-- TIDE_OFFSET (R392). -/
def desc_TIDE_OFFSET : RegDesc :=
  ⟨"TIDE_OFFSET", 0x18, [], 1, .all,
  [⟨0, ⟨63, 32⟩, .ro, 0⟩, ⟨0, ⟨31, 0⟩, .ro, 0⟩]⟩
/-- TIDE_DELAY (R392). -/
def desc_TIDE_DELAY : RegDesc :=
  ⟨"TIDE_DELAY", 0x20, [], 1, .all,
  [⟨0, ⟨63, 32⟩, .ro, 0⟩, ⟨0, ⟨31, 0⟩, .ro, 0⟩]⟩
/-- TIDE_SYNCCNT (R392). -/
def desc_TIDE_SYNCCNT : RegDesc :=
  ⟨"TIDE_SYNCCNT", 0x28, [], 1, .all,
  [⟨0, ⟨63, 48⟩, .ro, 0⟩, ⟨0, ⟨47, 32⟩, .ro, 0⟩, ⟨0, ⟨31, 0⟩, .ro, 0⟩]⟩
/-- TIDE_SCHED (R392). -/
def desc_TIDE_SCHED : RegDesc :=
  ⟨"TIDE_SCHED", 0x30, [], 1, .all,
  [⟨0, ⟨63, 48⟩, .ro, 0⟩, ⟨0, ⟨47, 32⟩, .ro, 0⟩, ⟨0, ⟨31, 16⟩, .ro, 0⟩,
   ⟨0, ⟨15, 0⟩, .ro, 0⟩]⟩
/-- TIDE_SLIP (R392). -/
def desc_TIDE_SLIP : RegDesc :=
  ⟨"TIDE_SLIP", 0x38, [], 1, .all,
  [⟨0, ⟨63, 32⟩, .ro, 0⟩, ⟨0, ⟨31, 0⟩, .ro, 0⟩]⟩
/-- TIDE_MGR (R392). -/
def desc_TIDE_MGR : RegDesc :=
  ⟨"TIDE_MGR", 0x40, [], 1, .die12,
  [⟨0, ⟨63, 32⟩, .ro, 0⟩, ⟨0, ⟨11, 0⟩, .ro, 0⟩]⟩
/-- TIDE_PUT (R392). -/
def desc_TIDE_PUT : RegDesc :=
  ⟨"TIDE_PUT", 0x48, [(0x8, 4)], 1, .all,
  [⟨0, ⟨63, 0⟩, .wo, 0⟩]⟩
/-- TIDE_PRES (R392). -/
def desc_TIDE_PRES : RegDesc :=
  ⟨"TIDE_PRES", 0x100, [(0x8, 24)], 1, .all,
  [⟨0, ⟨10, 0⟩, .lk, 0⟩]⟩
/-- TIDE_RING (R392). -/
def desc_TIDE_RING : RegDesc :=
  ⟨"TIDE_RING", 0x200, [(0x8, 13)], 1, .compute,
  [⟨0, ⟨47, 0⟩, .lk, 0⟩]⟩
/-- TIDE_ENTRY (R392). -/
def desc_TIDE_ENTRY : RegDesc :=
  ⟨"TIDE_ENTRY", 0x10000, [(0x20, 1024)], 4, .all,
  [⟨0, ⟨63, 0⟩, .ro, 0⟩, ⟨1, ⟨63, 0⟩, .ro, 0⟩, ⟨2, ⟨63, 0⟩, .ro, 0⟩,
   ⟨3, ⟨63, 0⟩, .ro, 0⟩]⟩
/-- IMPO_CMD (R426). -/
def desc_IMPO_CMD : RegDesc :=
  ⟨"IMPO_CMD", 0x0, [], 1, .die12,
  [⟨0, ⟨31, 8⟩, .wo, 0⟩, ⟨0, ⟨2, 0⟩, .wo, 0⟩]⟩
/-- IMPO_SRC (R426). -/
def desc_IMPO_SRC : RegDesc :=
  ⟨"IMPO_SRC", 0x8, [], 1, .die12,
  [⟨0, ⟨47, 0⟩, .rw, 0⟩]⟩
/-- IMPO_STATUS (R426). -/
def desc_IMPO_STATUS : RegDesc :=
  ⟨"IMPO_STATUS", 0x10, [], 1, .die12,
  [⟨0, ⟨63, 32⟩, .ro, 0⟩, ⟨0, ⟨7, 6⟩, .ro, 0⟩, ⟨0, ⟨2, 0⟩, .ro, 0⟩]⟩
/-- IMPO_ERR (R426). -/
def desc_IMPO_ERR : RegDesc :=
  ⟨"IMPO_ERR", 0x18, [], 1, .die12,
  [⟨0, ⟨63, 48⟩, .ro, 0⟩, ⟨0, ⟨47, 40⟩, .ro, 0⟩, ⟨0, ⟨39, 24⟩, .ro, 0⟩,
   ⟨0, ⟨23, 0⟩, .ro, 0⟩]⟩
/-- IMPO_LAST (R426). -/
def desc_IMPO_LAST : RegDesc :=
  ⟨"IMPO_LAST", 0x20, [], 1, .die12,
  [⟨0, ⟨63, 0⟩, .ro, 0⟩]⟩
/-- IMPO_PSTATE (R426). -/
def desc_IMPO_PSTATE : RegDesc :=
  ⟨"IMPO_PSTATE", 0x28, [], 1, .die12,
  [⟨0, ⟨47, 0⟩, .ro, 0⟩]⟩
/-- IMPO_STAGED (R426). -/
def desc_IMPO_STAGED : RegDesc :=
  ⟨"IMPO_STAGED", 0x30, [(0x8, 3)], 1, .die12,
  [⟨0, ⟨23, 0⟩, .ro, 0⟩]⟩
/-- CHK_CFG (R228). -/
def desc_CHK_CFG : RegDesc :=
  ⟨"CHK_CFG", 0x0, [(0x8, 2)], 1, .compute,
  [⟨0, ⟨12, 8⟩, .rw, 7⟩, ⟨0, ⟨1, 0⟩, .rw, 0⟩]⟩
/-- CHK_KEY (R228). -/
def desc_CHK_KEY : RegDesc :=
  ⟨"CHK_KEY", 0x10, [(0x8, 2)], 1, .compute,
  [⟨0, ⟨63, 0⟩, .rw, 0⟩]⟩
/-- CHK_PROOF (R228). -/
def desc_CHK_PROOF : RegDesc :=
  ⟨"CHK_PROOF", 0x20, [], 1, .compute,
  [⟨0, ⟨63, 32⟩, .ro, 0⟩, ⟨0, ⟨1, 0⟩, .ro, 0⟩]⟩
/-- CHK_PROOF_DONE (R228). -/
def desc_CHK_PROOF_DONE : RegDesc :=
  ⟨"CHK_PROOF_DONE", 0x28, [], 1, .compute,
  [⟨0, ⟨63, 32⟩, .ro, 0⟩, ⟨0, ⟨31, 0⟩, .ro, 0⟩]⟩
/-- CHK_PROOF_SKIP (R228). -/
def desc_CHK_PROOF_SKIP : RegDesc :=
  ⟨"CHK_PROOF_SKIP", 0x30, [], 1, .compute,
  [⟨0, ⟨63, 32⟩, .ro, 0⟩, ⟨0, ⟨31, 0⟩, .ro, 0⟩]⟩
/-- CHK_REH_COUNT (R228). -/
def desc_CHK_REH_COUNT : RegDesc :=
  ⟨"CHK_REH_COUNT", 0x38, [], 1, .all,
  [⟨0, ⟨31, 0⟩, .ro, 0⟩]⟩
/-- CHK_COUNT (R228). -/
def desc_CHK_COUNT : RegDesc :=
  ⟨"CHK_COUNT", 0x40, [(0x8, 9)], 1, .all,
  [⟨0, ⟨31, 0⟩, .ro, 0⟩]⟩
/-- CHK_LOGPTR (R228). -/
def desc_CHK_LOGPTR : RegDesc :=
  ⟨"CHK_LOGPTR", 0x88, [], 1, .all,
  [⟨0, ⟨23, 16⟩, .w1c, 0⟩, ⟨0, ⟨8, 4⟩, .ro, 0⟩, ⟨0, ⟨3, 0⟩, .ro, 0⟩]⟩
/-- CHK_LOG (R228). -/
def desc_CHK_LOG : RegDesc :=
  ⟨"CHK_LOG", 0x100, [(0x40, 16)], 8, .all,
  [⟨0, ⟨63, 0⟩, .ro, 0⟩, ⟨1, ⟨63, 0⟩, .ro, 0⟩, ⟨2, ⟨63, 0⟩, .ro, 0⟩,
   ⟨3, ⟨63, 0⟩, .ro, 0⟩, ⟨4, ⟨63, 0⟩, .ro, 0⟩, ⟨5, ⟨63, 0⟩, .ro, 0⟩,
   ⟨6, ⟨63, 0⟩, .ro, 0⟩, ⟨7, ⟨63, 0⟩, .ro, 0⟩]⟩
/-- CHK_PKEY (R228). -/
def desc_CHK_PKEY : RegDesc :=
  ⟨"CHK_PKEY", 0x200, [(0x8, 24)], 1, .base,
  [⟨0, ⟨63, 0⟩, .rw, 0⟩]⟩
/-- CHK_QPOLICY (R228). -/
def desc_CHK_QPOLICY : RegDesc :=
  ⟨"CHK_QPOLICY", 0x1000, [], 1, .die12,
  [⟨0, ⟨39, 32⟩, .rw, 2⟩, ⟨0, ⟨31, 0⟩, .rw, 86400⟩]⟩
/-- CHK_QSTATUS (R228). -/
def desc_CHK_QSTATUS : RegDesc :=
  ⟨"CHK_QSTATUS", 0x1008, [], 1, .die12,
  [⟨0, ⟨7, 7⟩, .w1c, 0⟩, ⟨0, ⟨6, 0⟩, .ro, 0⟩]⟩
/-- CHK_QCLR (R228). -/
def desc_CHK_QCLR : RegDesc :=
  ⟨"CHK_QCLR", 0x1010, [], 1, .die12,
  [⟨0, ⟨7, 7⟩, .wo, 0⟩, ⟨0, ⟨5, 0⟩, .wo, 0⟩]⟩
/-- CHK_QUNIT (R228). -/
def desc_CHK_QUNIT : RegDesc :=
  ⟨"CHK_QUNIT", 0x1100, [(0x10, 64)], 1, .die12,
  [⟨0, ⟨63, 63⟩, .ro, 0⟩, ⟨0, ⟨47, 44⟩, .ro, 0⟩, ⟨0, ⟨43, 40⟩, .ro, 0⟩,
   ⟨0, ⟨39, 36⟩, .ro, 0⟩, ⟨0, ⟨35, 32⟩, .ro, 0⟩, ⟨0, ⟨23, 16⟩, .ro, 0⟩]⟩
/-- CHK_QCOND (R228). -/
def desc_CHK_QCOND : RegDesc :=
  ⟨"CHK_QCOND", 0x1108, [(0x10, 64)], 1, .die12,
  [⟨0, ⟨63, 32⟩, .ro, 0⟩, ⟨0, ⟨10, 0⟩, .ro, 0⟩]⟩
/-- FI_CTL (R452). -/
def desc_FI_CTL : RegDesc :=
  ⟨"FI_CTL", 0x0, [], 1, .all,
  [⟨0, ⟨0, 0⟩, .rw, 0⟩]⟩
/-- FI_STATUS (R452). -/
def desc_FI_STATUS : RegDesc :=
  ⟨"FI_STATUS", 0x8, [], 1, .all,
  [⟨0, ⟨63, 48⟩, .ro, 0⟩, ⟨0, ⟨47, 32⟩, .ro, 0⟩, ⟨0, ⟨15, 0⟩, .ro, 0⟩]⟩
/-- FI_RETIRE (R452). -/
def desc_FI_RETIRE : RegDesc :=
  ⟨"FI_RETIRE", 0x10, [], 1, .compute,
  [⟨0, ⟨4, 4⟩, .wo, 0⟩, ⟨0, ⟨3, 0⟩, .wo, 0⟩]⟩
/-- FI_INJ (R452). -/
def desc_FI_INJ : RegDesc :=
  ⟨"FI_INJ", 0x100, [(0x10, 16)], 2, .all,
  [⟨0, ⟨63, 63⟩, .rw, 0⟩, ⟨0, ⟨59, 56⟩, .rw, 0⟩, ⟨0, ⟨52, 48⟩, .rw, 0⟩,
   ⟨0, ⟨47, 40⟩, .rw, 0⟩, ⟨0, ⟨31, 0⟩, .rw, 0⟩, ⟨1, ⟨63, 0⟩, .rw, 0⟩]⟩
/-- PWR_MODE (R474). -/
def desc_PWR_MODE : RegDesc :=
  ⟨"PWR_MODE", 0x0, [], 1, .all,
  [⟨0, ⟨39, 32⟩, .lk, 15⟩, ⟨0, ⟨31, 16⟩, .lk, 0⟩, ⟨0, ⟨1, 0⟩, .lk, 0⟩]⟩
/-- PWR_STATUS (R474). -/
def desc_PWR_STATUS : RegDesc :=
  ⟨"PWR_STATUS", 0x8, [], 1, .all,
  [⟨0, ⟨63, 48⟩, .ro, 0⟩, ⟨0, ⟨47, 32⟩, .ro, 0⟩, ⟨0, ⟨23, 16⟩, .ro, 64⟩,
   ⟨0, ⟨4, 4⟩, .ro, 0⟩, ⟨0, ⟨3, 3⟩, .ro, 0⟩, ⟨0, ⟨2, 2⟩, .ro, 0⟩,
   ⟨0, ⟨1, 1⟩, .ro, 0⟩, ⟨0, ⟨0, 0⟩, .ro, 0⟩]⟩
/-- PWR_BUDGET (R474). -/
def desc_PWR_BUDGET : RegDesc :=
  ⟨"PWR_BUDGET", 0x10, [], 1, .compute,
  [⟨0, ⟨47, 32⟩, .ro, 0⟩, ⟨0, ⟨31, 16⟩, .ro, 0⟩, ⟨0, ⟨15, 0⟩, .ro, 0⟩]⟩
/-- PWR_RAMP (R474). -/
def desc_PWR_RAMP : RegDesc :=
  ⟨"PWR_RAMP", 0x18, [], 1, .compute,
  [⟨0, ⟨39, 24⟩, .lk, 20000⟩, ⟨0, ⟨23, 16⟩, .lk, 60⟩, ⟨0, ⟨13, 12⟩, .ro, 0⟩,
   ⟨0, ⟨11, 11⟩, .ro, 0⟩, ⟨0, ⟨10, 5⟩, .ro, 0⟩, ⟨0, ⟨4, 0⟩, .ro, 0⟩]⟩
/-- PWR_RAMP_CNT (R474). -/
def desc_PWR_RAMP_CNT : RegDesc :=
  ⟨"PWR_RAMP_CNT", 0x20, [], 1, .compute,
  [⟨0, ⟨63, 32⟩, .ro, 0⟩, ⟨0, ⟨31, 0⟩, .ro, 0⟩]⟩
/-- PWR_THERM (R474). -/
def desc_PWR_THERM : RegDesc :=
  ⟨"PWR_THERM", 0x28, [], 1, .all,
  [⟨0, ⟨47, 32⟩, .lk, 0⟩, ⟨0, ⟨31, 16⟩, .lk, 0⟩, ⟨0, ⟨15, 0⟩, .lk, 0⟩]⟩
/-- PWR_SENSE (R474). -/
def desc_PWR_SENSE : RegDesc :=
  ⟨"PWR_SENSE", 0x30, [], 1, .all,
  [⟨0, ⟨63, 48⟩, .ro, 0⟩, ⟨0, ⟨47, 32⟩, .ro, 0⟩, ⟨0, ⟨31, 16⟩, .ro, 0⟩,
   ⟨0, ⟨15, 0⟩, .ro, 0⟩]⟩
/-- PWR_THERM_HBM (R474). -/
def desc_PWR_THERM_HBM : RegDesc :=
  ⟨"PWR_THERM_HBM", 0x38, [], 1, .base,
  [⟨0, ⟨47, 32⟩, .lk, 1680⟩, ⟨0, ⟨31, 16⟩, .lk, 1472⟩, ⟨0, ⟨15, 0⟩, .lk, 1520⟩]⟩
/-- PWR_FLOOR (R474). -/
def desc_PWR_FLOOR : RegDesc :=
  ⟨"PWR_FLOOR", 0x100, [(0x8, 24)], 1, .all,
  [⟨0, ⟨15, 0⟩, .lk, 0⟩]⟩
/-- PWR_SUPPLY (R474). -/
def desc_PWR_SUPPLY : RegDesc :=
  ⟨"PWR_SUPPLY", 0x200, [], 1, .die12,
  [⟨0, ⟨63, 48⟩, .ro, 0⟩, ⟨0, ⟨47, 32⟩, .ro, 0⟩, ⟨0, ⟨31, 16⟩, .ro, 65535⟩,
   ⟨0, ⟨15, 8⟩, .ro, 15⟩, ⟨0, ⟨3, 0⟩, .ro, 0⟩]⟩
/-- PWR_SUPPLY_CNT (R474). -/
def desc_PWR_SUPPLY_CNT : RegDesc :=
  ⟨"PWR_SUPPLY_CNT", 0x208, [], 1, .die12,
  [⟨0, ⟨63, 48⟩, .ro, 0⟩, ⟨0, ⟨47, 32⟩, .ro, 0⟩, ⟨0, ⟨31, 16⟩, .ro, 0⟩]⟩
/-- PWR_HBMPACE (R474). -/
def desc_PWR_HBMPACE : RegDesc :=
  ⟨"PWR_HBMPACE", 0x300, [(0x8, 3)], 1, .base,
  [⟨0, ⟨3, 2⟩, .ro, 0⟩, ⟨0, ⟨1, 0⟩, .ro, 0⟩]⟩
/-- CLK_STATUS (R475). -/
def desc_CLK_STATUS : RegDesc :=
  ⟨"CLK_STATUS", 0x0, [], 1, .all,
  [⟨0, ⟨4, 4⟩, .ro, 0⟩, ⟨0, ⟨3, 3⟩, .ro, 0⟩, ⟨0, ⟨2, 2⟩, .ro, 0⟩,
   ⟨0, ⟨1, 1⟩, .ro, 0⟩, ⟨0, ⟨0, 0⟩, .ro, 0⟩]⟩
/-- CLK_PLLCNT (R475). -/
def desc_CLK_PLLCNT : RegDesc :=
  ⟨"CLK_PLLCNT", 0x8, [], 1, .all,
  [⟨0, ⟨31, 16⟩, .ro, 0⟩, ⟨0, ⟨15, 0⟩, .ro, 0⟩]⟩
/-- CLK_XCFG (R475). -/
def desc_CLK_XCFG : RegDesc :=
  ⟨"CLK_XCFG", 0x100, [(0x8, 10)], 1, .all,
  [⟨0, ⟨16, 16⟩, .rw, 0⟩, ⟨0, ⟨15, 0⟩, .rw, 1000⟩]⟩
/-- CLK_XSTAT (R475). -/
def desc_CLK_XSTAT : RegDesc :=
  ⟨"CLK_XSTAT", 0x200, [(0x8, 10)], 1, .all,
  [⟨0, ⟨63, 32⟩, .ro, 0⟩, ⟨0, ⟨31, 16⟩, .ro, 0⟩, ⟨0, ⟨0, 0⟩, .ro, 0⟩]⟩
/-- PCIE_STATUS (R510). -/
def desc_PCIE_STATUS : RegDesc :=
  ⟨"PCIE_STATUS", 0x0, [], 1, .die12,
  [⟨0, ⟨15, 12⟩, .ro, 0⟩, ⟨0, ⟨11, 7⟩, .ro, 0⟩, ⟨0, ⟨6, 4⟩, .ro, 0⟩,
   ⟨0, ⟨3, 3⟩, .ro, 0⟩, ⟨0, ⟨2, 0⟩, .ro, 0⟩]⟩
/-- PCIE_RING_BASE (R510). -/
def desc_PCIE_RING_BASE : RegDesc :=
  ⟨"PCIE_RING_BASE", 0x8, [], 1, .die12,
  [⟨0, ⟨63, 12⟩, .rw, 0⟩]⟩
/-- PCIE_RING_CTL (R510). -/
def desc_PCIE_RING_CTL : RegDesc :=
  ⟨"PCIE_RING_CTL", 0x10, [], 1, .die12,
  [⟨0, ⟨8, 8⟩, .rw, 0⟩, ⟨0, ⟨4, 0⟩, .rw, 6⟩]⟩
/-- PCIE_RING_HEAD (R510). -/
def desc_PCIE_RING_HEAD : RegDesc :=
  ⟨"PCIE_RING_HEAD", 0x18, [], 1, .die12,
  [⟨0, ⟨31, 0⟩, .rw, 0⟩]⟩
/-- PCIE_RING_TAIL (R510). -/
def desc_PCIE_RING_TAIL : RegDesc :=
  ⟨"PCIE_RING_TAIL", 0x20, [], 1, .die12,
  [⟨0, ⟨63, 32⟩, .ro, 0⟩, ⟨0, ⟨31, 0⟩, .ro, 0⟩]⟩
/-- PCIE_PREEMPT (R510). -/
def desc_PCIE_PREEMPT : RegDesc :=
  ⟨"PCIE_PREEMPT", 0x28, [], 1, .die12,
  [⟨0, ⟨63, 0⟩, .wo, 0⟩]⟩
/-- PCIE_ERRCNT (R510). -/
def desc_PCIE_ERRCNT : RegDesc :=
  ⟨"PCIE_ERRCNT", 0x30, [], 1, .die12,
  [⟨0, ⟨63, 48⟩, .ro, 0⟩, ⟨0, ⟨47, 32⟩, .ro, 0⟩, ⟨0, ⟨31, 16⟩, .ro, 0⟩]⟩
/-- PCIE_HMAP (R510). -/
def desc_PCIE_HMAP : RegDesc :=
  ⟨"PCIE_HMAP", 0x100, [(0x8, 32)], 1, .die12,
  [⟨0, ⟨63, 12⟩, .rw, 0⟩, ⟨0, ⟨11, 11⟩, .rw, 0⟩, ⟨0, ⟨10, 6⟩, .rw, 0⟩]⟩
/-- ETH_PORT (R511). -/
def desc_ETH_PORT : RegDesc :=
  ⟨"ETH_PORT", 0x0, [(0x40, 2)], 4, .die12,
  [⟨2, ⟨63, 0⟩, .rw, 0⟩, ⟨3, ⟨63, 0⟩, .rw, 0⟩, ⟨1, ⟨63, 32⟩, .rw, 0⟩,
   ⟨0, ⟨63, 48⟩, .rw, 0⟩, ⟨1, ⟨31, 0⟩, .rw, 0⟩, ⟨0, ⟨47, 36⟩, .rw, 0⟩,
   ⟨0, ⟨35, 33⟩, .rw, 3⟩, ⟨0, ⟨32, 32⟩, .rw, 0⟩, ⟨0, ⟨31, 24⟩, .rw, 0⟩,
   ⟨0, ⟨19, 16⟩, .ro, 0⟩, ⟨0, ⟨0, 0⟩, .rw, 0⟩]⟩
/-- ETH_CNT (R511). -/
def desc_ETH_CNT : RegDesc :=
  ⟨"ETH_CNT", 0x100, [(0x40, 2), (0x8, 8)], 1, .die12,
  [⟨0, ⟨63, 0⟩, .ro, 0⟩]⟩
/-- ETH_MR (R511). -/
def desc_ETH_MR : RegDesc :=
  ⟨"ETH_MR", 0x800, [(0x10, 64)], 2, .die12,
  [⟨1, ⟨63, 32⟩, .rw, 0⟩, ⟨1, ⟨31, 27⟩, .rw, 0⟩, ⟨1, ⟨26, 26⟩, .rw, 0⟩,
   ⟨1, ⟨25, 25⟩, .rw, 0⟩, ⟨0, ⟨63, 28⟩, .rw, 0⟩, ⟨0, ⟨27, 0⟩, .rw, 0⟩]⟩
/-- ETH_QP (R511). -/
def desc_ETH_QP : RegDesc :=
  ⟨"ETH_QP", 0x1000, [(0x40, 64)], 6, .die12,
  [⟨5, ⟨63, 40⟩, .rw, 0⟩, ⟨5, ⟨39, 16⟩, .rw, 0⟩, ⟨4, ⟨63, 56⟩, .rw, 0⟩,
   ⟨5, ⟨15, 0⟩, .rw, 0⟩, ⟨4, ⟨51, 48⟩, .ro, 0⟩, ⟨4, ⟨47, 47⟩, .rw, 0⟩,
   ⟨4, ⟨46, 42⟩, .rw, 0⟩, ⟨4, ⟨41, 41⟩, .rw, 0⟩, ⟨4, ⟨40, 37⟩, .rw, 8⟩,
   ⟨4, ⟨36, 34⟩, .rw, 7⟩, ⟨4, ⟨33, 32⟩, .rw, 2⟩, ⟨2, ⟨63, 32⟩, .rw, 0⟩,
   ⟨3, ⟨63, 0⟩, .rw, 0⟩, ⟨4, ⟨31, 0⟩, .rw, 0⟩, ⟨1, ⟨63, 48⟩, .rw, 0⟩,
   ⟨2, ⟨31, 0⟩, .rw, 0⟩, ⟨1, ⟨47, 44⟩, .rw, 4⟩, ⟨0, ⟨63, 60⟩, .rw, 0⟩,
   ⟨1, ⟨43, 0⟩, .rw, 0⟩, ⟨0, ⟨59, 56⟩, .rw, 4⟩, ⟨0, ⟨55, 8⟩, .rw, 0⟩,
   ⟨0, ⟨7, 4⟩, .rw, 4⟩]⟩
/-- MGMT_BOOT (R551). -/
def desc_MGMT_BOOT : RegDesc :=
  ⟨"MGMT_BOOT", 0x0, [], 1, .die12,
  [⟨0, ⟨63, 48⟩, .ro, 0⟩, ⟨0, ⟨8, 8⟩, .ro, 0⟩, ⟨0, ⟨7, 0⟩, .ro, 1⟩]⟩
/-- MGMT_STRAP (R551). -/
def desc_MGMT_STRAP : RegDesc :=
  ⟨"MGMT_STRAP", 0x8, [], 1, .die12,
  [⟨0, ⟨7, 4⟩, .ro, 0⟩, ⟨0, ⟨3, 3⟩, .ro, 0⟩, ⟨0, ⟨1, 0⟩, .ro, 0⟩]⟩
/-- MGMT_ROLE (R551). -/
def desc_MGMT_ROLE : RegDesc :=
  ⟨"MGMT_ROLE", 0x10, [], 1, .die12,
  [⟨0, ⟨63, 32⟩, .ro, 0⟩, ⟨0, ⟨31, 20⟩, .ro, 0⟩, ⟨0, ⟨19, 8⟩, .ro, 0⟩,
   ⟨0, ⟨3, 3⟩, .ro, 0⟩, ⟨0, ⟨2, 2⟩, .ro, 0⟩, ⟨0, ⟨1, 0⟩, .ro, 3⟩]⟩
/-- MGMT_FW (R551). -/
def desc_MGMT_FW : RegDesc :=
  ⟨"MGMT_FW", 0x18, [], 1, .die12,
  [⟨0, ⟨47, 32⟩, .ro, 0⟩, ⟨0, ⟨31, 16⟩, .ro, 0⟩, ⟨0, ⟨8, 8⟩, .ro, 0⟩,
   ⟨0, ⟨0, 0⟩, .ro, 0⟩]⟩
/-- MGMT_FWCTL (R551). -/
def desc_MGMT_FWCTL : RegDesc :=
  ⟨"MGMT_FWCTL", 0x20, [], 1, .die12,
  [⟨0, ⟨0, 0⟩, .wo, 0⟩]⟩
/-- MGMT_SEC (R551). -/
def desc_MGMT_SEC : RegDesc :=
  ⟨"MGMT_SEC", 0x28, [], 1, .die12,
  [⟨0, ⟨16, 16⟩, .ro, 0⟩, ⟨0, ⟨15, 0⟩, .rw, 0⟩]⟩
/-- MGMT_FLASH_CTL (R551). -/
def desc_MGMT_FLASH_CTL : RegDesc :=
  ⟨"MGMT_FLASH_CTL", 0x30, [], 1, .die12,
  [⟨0, ⟨31, 9⟩, .rw, 0⟩, ⟨0, ⟨1, 0⟩, .wo, 0⟩]⟩
/-- MGMT_FLASH_STATUS (R551). -/
def desc_MGMT_FLASH_STATUS : RegDesc :=
  ⟨"MGMT_FLASH_STATUS", 0x38, [], 1, .die12,
  [⟨0, ⟨63, 32⟩, .ro, 0⟩, ⟨0, ⟨2, 1⟩, .ro, 0⟩, ⟨0, ⟨0, 0⟩, .ro, 0⟩]⟩
/-- MGMT_FLASH_BUF (R551). -/
def desc_MGMT_FLASH_BUF : RegDesc :=
  ⟨"MGMT_FLASH_BUF", 0x100, [(0x8, 64)], 1, .die12,
  [⟨0, ⟨63, 0⟩, .rw, 0⟩]⟩
/-- JRNL_STATUS (R512). -/
def desc_JRNL_STATUS : RegDesc :=
  ⟨"JRNL_STATUS", 0x0, [], 1, .die12,
  [⟨0, ⟨63, 32⟩, .ro, 0⟩, ⟨0, ⟨31, 0⟩, .ro, 0⟩]⟩
/-- JRNL_RDPTR (R512). -/
def desc_JRNL_RDPTR : RegDesc :=
  ⟨"JRNL_RDPTR", 0x8, [], 1, .die12,
  [⟨0, ⟨31, 0⟩, .rw, 0⟩]⟩
/-- JRNL_ENTRY (R512). -/
def desc_JRNL_ENTRY : RegDesc :=
  ⟨"JRNL_ENTRY", 0x10000, [(0x40, 4096)], 6, .die12,
  [⟨0, ⟨63, 0⟩, .ro, 0⟩, ⟨1, ⟨63, 0⟩, .ro, 0⟩, ⟨2, ⟨63, 0⟩, .ro, 0⟩,
   ⟨3, ⟨63, 0⟩, .ro, 0⟩, ⟨4, ⟨63, 0⟩, .ro, 0⟩, ⟨5, ⟨63, 0⟩, .ro, 0⟩]⟩
/-- UART_CFG (R552). -/
def desc_UART_CFG : RegDesc :=
  ⟨"UART_CFG", 0x0, [], 1, .die12,
  [⟨0, ⟨15, 0⟩, .rw, 13889⟩]⟩
/-- UART_STATUS (R552). -/
def desc_UART_STATUS : RegDesc :=
  ⟨"UART_STATUS", 0x8, [], 1, .die12,
  [⟨0, ⟨24, 16⟩, .ro, 0⟩, ⟨0, ⟨8, 0⟩, .ro, 0⟩]⟩
/-- UART_CNT (R552). -/
def desc_UART_CNT : RegDesc :=
  ⟨"UART_CNT", 0x10, [], 1, .die12,
  [⟨0, ⟨63, 48⟩, .ro, 0⟩, ⟨0, ⟨47, 32⟩, .ro, 0⟩, ⟨0, ⟨31, 0⟩, .ro, 0⟩]⟩
/-- BLK_ID (R544). -/
def desc_BLK_ID : RegDesc :=
  ⟨"BLK_ID", 0xFF000, [], 1, .all,
  [⟨0, ⟨63, 48⟩, .ro, 8046⟩, ⟨0, ⟨47, 32⟩, .ro, 18194⟩, ⟨0, ⟨31, 24⟩, .ro, 161⟩,
   ⟨0, ⟨23, 16⟩, .ro, 0⟩, ⟨0, ⟨15, 12⟩, .ro, 0⟩, ⟨0, ⟨7, 0⟩, .ro, 1⟩]⟩
/-- BLK_LOCK (R544). -/
def desc_BLK_LOCK : RegDesc :=
  ⟨"BLK_LOCK", 0xFF008, [], 1, .all,
  [⟨0, ⟨63, 63⟩, .ro, 0⟩, ⟨0, ⟨62, 0⟩, .ro, 0⟩]⟩
/-- BLK_VIOL (R544). -/
def desc_BLK_VIOL : RegDesc :=
  ⟨"BLK_VIOL", 0xFF010, [], 1, .all,
  [⟨0, ⟨31, 0⟩, .ro, 0⟩]⟩
/-- BLK_LASTERR (R544). -/
def desc_BLK_LASTERR : RegDesc :=
  ⟨"BLK_LASTERR", 0xFF018, [], 1, .all,
  [⟨0, ⟨63, 48⟩, .ro, 0⟩, ⟨0, ⟨47, 40⟩, .ro, 0⟩, ⟨0, ⟨39, 32⟩, .ro, 0⟩,
   ⟨0, ⟨19, 0⟩, .ro, 0⟩]⟩

/-- The registers of each block (R542), the common ones apart. -/
def blockRegs : Nat → List RegDesc
  | 0 => [desc_PILOT_CTL, desc_PILOT_STATUS, desc_PILOT_PC, desc_PILOT_ENTRY, desc_PILOT_LASTTRAP,
     desc_PILOT_ECC, desc_PILOT_MAILBOX]
  | 1 => [desc_PRESS_CTL, desc_PRESS_STATUS, desc_PRESS_SEQ, desc_PRESS_QE, desc_PRESS_RD_STATUS,
     desc_PRESS_STALL_BUSY, desc_PRESS_STALL_STICK, desc_PRESS_STALL_FORME, desc_PRESS_STALL_FSUM, desc_PRESS_STALL_ACT,
     desc_PRESS_STALL_RAMP, desc_PRESS_BUSY_CYCLES, desc_CK_FAULT_SEQ, desc_CK_LOC, desc_CK_DIFF_LO,
     desc_CK_DIFF_HI, desc_CK_COUNT]
  | 2 => [desc_VEC_STATUS, desc_VEC_ISSUED]
  | 3 => [desc_GALLEY_WIN, desc_GALLEY_ECC, desc_GALLEY_ERRADDR, desc_GALLEY_SCRUB, desc_GALLEY_CONFLICT]
  | 4 => [desc_ENG_STATUS, desc_ENG_BUSY, desc_ENG_DONE, desc_ENG_ERRCNT, desc_ENG_ERRPTR,
     desc_ERRLOG]
  | 5 => [desc_BERTH_CTL, desc_BERTH_POOL, desc_BERTH_FREE, desc_BERTH_FAIL, desc_BERTH_AUD_THR,
     desc_BERTH_AUD_CNT, desc_BERTH_AUD_OLD]
  | 6 => [desc_LTR_STATUS, desc_LTR_SUPPRESS, desc_LTR_CELLS_OUT, desc_LTR_CELLS_IN, desc_LTR_ERRCNT,
     desc_LTR_ERRPTR, desc_LTR_CC, desc_LTR_CCCFG, desc_LTR_ERRLOG]
  | 7 => [desc_QUAY_LSTATUS, desc_QUAY_LCTL, desc_QUAY_LERR, desc_QUAY_CREDIT, desc_QUAY_FLITS,
     desc_QUAY_WAIT, desc_QUAY_TAGVIOL, desc_QUAY_EVDROP, desc_DIR_STATUS, desc_DIR_EVICT,
     desc_DIR_ECC, desc_DIR_ERRADDR]
  | 8 => [desc_HBM_STACK_STATUS, desc_HBM_CFG, desc_HBM_ECC, desc_HBM_ERRADDR, desc_HBM_SCRUB,
     desc_HBM_ADD_STATUS, desc_HBM_MARGIN_CTL, desc_HBM_MARGIN_STATUS, desc_HBM_LOGPTR, desc_HBM_CH_STATUS,
     desc_HBM_CH_CTL, desc_HBM_EYE, desc_HBM_REPAIR, desc_HBM_ERRLOG, desc_HBM_WIN,
     desc_HBM_PART]
  | 9 => [desc_PHX_CAL, desc_PHX_LASER_CTL, desc_PHX_LASER, desc_PHX_SLOT, desc_PHX_PORT,
     desc_PHX_PORT_EXP, desc_PHX_PORT_CTL]
  | 10 => [desc_LANE_STATUS, desc_LANE_CTL, desc_LANE_FEC, desc_LANE_CW, desc_LANE_EYE,
     desc_LANE_PLAN, desc_LANE_PLANSEL, desc_LANE_SHORT]
  | 11 => [desc_RTR_CTL, desc_RTR_NODE, desc_RTR_STATUS, desc_RTR_PORTDIM, desc_RTR_CRES,
     desc_RTR_COUNT, desc_RTR_ROUTE]
  | 12 => [desc_COLL_CTL, desc_COLL_STATUS, desc_COLL_SLOW, desc_COLL_REC, desc_COLL_RECPTR,
     desc_COLL_EARLY, desc_COLL_CTX]
  | 13 => [desc_TIDE_NOW, desc_TIDE_STATUS, desc_TIDE_CTL, desc_TIDE_OFFSET, desc_TIDE_DELAY,
     desc_TIDE_SYNCCNT, desc_TIDE_SCHED, desc_TIDE_SLIP, desc_TIDE_MGR, desc_TIDE_PUT,
     desc_TIDE_PRES, desc_TIDE_RING, desc_TIDE_ENTRY]
  | 14 => [desc_IMPO_CMD, desc_IMPO_SRC, desc_IMPO_STATUS, desc_IMPO_ERR, desc_IMPO_LAST,
     desc_IMPO_PSTATE, desc_IMPO_STAGED]
  | 15 => [desc_CHK_CFG, desc_CHK_KEY, desc_CHK_PROOF, desc_CHK_PROOF_DONE, desc_CHK_PROOF_SKIP,
     desc_CHK_REH_COUNT, desc_CHK_COUNT, desc_CHK_LOGPTR, desc_CHK_PKEY, desc_CHK_LOG,
     desc_CHK_QPOLICY, desc_CHK_QSTATUS, desc_CHK_QCLR, desc_CHK_QUNIT, desc_CHK_QCOND]
  | 16 => [desc_FI_CTL, desc_FI_STATUS, desc_FI_RETIRE, desc_FI_INJ]
  | 17 => [desc_PWR_MODE, desc_PWR_STATUS, desc_PWR_BUDGET, desc_PWR_RAMP, desc_PWR_RAMP_CNT,
     desc_PWR_THERM, desc_PWR_SENSE, desc_PWR_THERM_HBM, desc_PWR_FLOOR, desc_PWR_SUPPLY,
     desc_PWR_SUPPLY_CNT, desc_PWR_HBMPACE]
  | 18 => [desc_CLK_STATUS, desc_CLK_PLLCNT, desc_CLK_XCFG, desc_CLK_XSTAT]
  | 19 => [desc_PCIE_STATUS, desc_PCIE_RING_BASE, desc_PCIE_RING_CTL, desc_PCIE_RING_HEAD, desc_PCIE_RING_TAIL,
     desc_PCIE_PREEMPT, desc_PCIE_ERRCNT, desc_PCIE_HMAP]
  | 20 => [desc_ETH_PORT, desc_ETH_CNT, desc_ETH_MR, desc_ETH_QP]
  | 21 => [desc_MGMT_BOOT, desc_MGMT_STRAP, desc_MGMT_ROLE, desc_MGMT_FW, desc_MGMT_FWCTL,
     desc_MGMT_SEC, desc_MGMT_FLASH_CTL, desc_MGMT_FLASH_STATUS, desc_MGMT_FLASH_BUF]
  | 22 => [desc_JRNL_STATUS, desc_JRNL_RDPTR, desc_JRNL_ENTRY]
  | 23 => [desc_UART_CFG, desc_UART_STATUS, desc_UART_CNT]
  | _ => []

/-- The four common registers of every block (R544). -/
def commonRegs : List RegDesc := [desc_BLK_ID, desc_BLK_LOCK, desc_BLK_VIOL, desc_BLK_LASTERR]

/-! The addresses of the registers by name: die, then the window, then the indices, then the word. -/

def a_PRESS_CTL (die i : Nat) : Nat := regAddr die 1 (0x0 + i * 0x10000)
def a_PRESS_STATUS (die i : Nat) : Nat := regAddr die 1 (0x8 + i * 0x10000)
def a_PRESS_SEQ (die i : Nat) : Nat := regAddr die 1 (0x10 + i * 0x10000)
def a_PRESS_QE (die i : Nat) : Nat := regAddr die 1 (0x18 + i * 0x10000)
def a_PRESS_RD_STATUS (die i : Nat) : Nat := regAddr die 1 (0x20 + i * 0x10000)
def a_PRESS_STALL_BUSY (die i : Nat) : Nat := regAddr die 1 (0x40 + i * 0x10000)
def a_PRESS_STALL_STICK (die i : Nat) : Nat := regAddr die 1 (0x48 + i * 0x10000)
def a_PRESS_STALL_FORME (die i : Nat) : Nat := regAddr die 1 (0x50 + i * 0x10000)
def a_PRESS_STALL_FSUM (die i : Nat) : Nat := regAddr die 1 (0x58 + i * 0x10000)
def a_PRESS_STALL_ACT (die i : Nat) : Nat := regAddr die 1 (0x60 + i * 0x10000)
def a_PRESS_STALL_RAMP (die i : Nat) : Nat := regAddr die 1 (0x68 + i * 0x10000)
def a_PRESS_BUSY_CYCLES (die i : Nat) : Nat := regAddr die 1 (0x70 + i * 0x10000)
def a_CK_FAULT_SEQ (die i : Nat) : Nat := regAddr die 1 (0x80 + i * 0x10000)
def a_CK_LOC (die i : Nat) : Nat := regAddr die 1 (0x88 + i * 0x10000)
def a_CK_DIFF_LO (die i : Nat) : Nat := regAddr die 1 (0x90 + i * 0x10000)
def a_CK_DIFF_HI (die i : Nat) : Nat := regAddr die 1 (0x98 + i * 0x10000)
def a_CK_COUNT (die i : Nat) : Nat := regAddr die 1 (0xA0 + i * 0x10000)
def a_PILOT_CTL (die i : Nat) : Nat := regAddr die 0 (0x0 + i * 0x10000)
def a_PILOT_STATUS (die i : Nat) : Nat := regAddr die 0 (0x8 + i * 0x10000)
def a_PILOT_PC (die i : Nat) : Nat := regAddr die 0 (0x10 + i * 0x10000)
def a_PILOT_ENTRY (die i : Nat) : Nat := regAddr die 0 (0x18 + i * 0x10000)
def a_PILOT_LASTTRAP (die i : Nat) : Nat := regAddr die 0 (0x20 + i * 0x10000)
def a_PILOT_ECC (die i : Nat) : Nat := regAddr die 0 (0x28 + i * 0x10000)
def a_PILOT_MAILBOX (die i : Nat) : Nat := regAddr die 0 (0x30 + i * 0x10000)
def a_VEC_STATUS (die i : Nat) : Nat := regAddr die 2 (0x0 + i * 0x10000)
def a_VEC_ISSUED (die i : Nat) : Nat := regAddr die 2 (0x8 + i * 0x10000)
def a_GALLEY_WIN (die i : Nat) : Nat := regAddr die 3 (0x0 + i * 0x8)
def a_GALLEY_ECC (die : Nat) : Nat := regAddr die 3 (0x10)
def a_GALLEY_ERRADDR (die : Nat) : Nat := regAddr die 3 (0x18)
def a_GALLEY_SCRUB (die : Nat) : Nat := regAddr die 3 (0x20)
def a_GALLEY_CONFLICT (die : Nat) : Nat := regAddr die 3 (0x28)
def a_ENG_STATUS (die i : Nat) : Nat := regAddr die 4 (0x0 + i * 0x10000)
def a_ENG_BUSY (die i : Nat) : Nat := regAddr die 4 (0x8 + i * 0x10000)
def a_ENG_DONE (die i : Nat) : Nat := regAddr die 4 (0x10 + i * 0x10000)
def a_ENG_ERRCNT (die i : Nat) : Nat := regAddr die 4 (0x18 + i * 0x10000)
def a_ENG_ERRPTR (die i j : Nat) : Nat := regAddr die 4 (0x800 + i * 0x10000 + j * 0x8)
def a_ERRLOG (die i j k w : Nat) : Nat := regAddr die 4 (0x1000 + i * 0x10000 + j * 0x100 + k * 0x20 + w * 8)
def a_BERTH_CTL (die : Nat) : Nat := regAddr die 5 (0x0)
def a_BERTH_POOL (die i j : Nat) : Nat := regAddr die 5 (0x100 + i * 0x28 + j * 0x8)
def a_BERTH_FREE (die i j : Nat) : Nat := regAddr die 5 (0x200 + i * 0x28 + j * 0x8)
def a_BERTH_FAIL (die i : Nat) : Nat := regAddr die 5 (0x300 + i * 0x8)
def a_BERTH_AUD_THR (die i : Nat) : Nat := regAddr die 5 (0x340 + i * 0x8)
def a_BERTH_AUD_CNT (die i : Nat) : Nat := regAddr die 5 (0x1000 + i * 0x8)
def a_BERTH_AUD_OLD (die i : Nat) : Nat := regAddr die 5 (0x2000 + i * 0x8)
def a_LTR_STATUS (die i : Nat) : Nat := regAddr die 6 (0x0 + i * 0x10000)
def a_LTR_SUPPRESS (die i : Nat) : Nat := regAddr die 6 (0x8 + i * 0x10000)
def a_LTR_CELLS_OUT (die i : Nat) : Nat := regAddr die 6 (0x10 + i * 0x10000)
def a_LTR_CELLS_IN (die i : Nat) : Nat := regAddr die 6 (0x18 + i * 0x10000)
def a_LTR_ERRCNT (die i : Nat) : Nat := regAddr die 6 (0x20 + i * 0x10000)
def a_LTR_ERRPTR (die i : Nat) : Nat := regAddr die 6 (0x28 + i * 0x10000)
def a_LTR_CC (die i j : Nat) : Nat := regAddr die 6 (0x100 + i * 0x10000 + j * 0x8)
def a_LTR_CCCFG (die i j : Nat) : Nat := regAddr die 6 (0x200 + i * 0x10000 + j * 0x8)
def a_LTR_ERRLOG (die i j w : Nat) : Nat := regAddr die 6 (0x1000 + i * 0x10000 + j * 0x20 + w * 8)
def a_QUAY_LSTATUS (die i : Nat) : Nat := regAddr die 7 (0x0 + i * 0x1000)
def a_QUAY_LCTL (die i : Nat) : Nat := regAddr die 7 (0x8 + i * 0x1000)
def a_QUAY_LERR (die i : Nat) : Nat := regAddr die 7 (0x10 + i * 0x1000)
def a_QUAY_CREDIT (die i : Nat) : Nat := regAddr die 7 (0x18 + i * 0x1000)
def a_QUAY_FLITS (die i j : Nat) : Nat := regAddr die 7 (0x20 + i * 0x1000 + j * 0x8)
def a_QUAY_WAIT (die i j : Nat) : Nat := regAddr die 7 (0x60 + i * 0x1000 + j * 0x8)
def a_QUAY_TAGVIOL (die : Nat) : Nat := regAddr die 7 (0x8000)
def a_QUAY_EVDROP (die : Nat) : Nat := regAddr die 7 (0x8008)
def a_DIR_STATUS (die : Nat) : Nat := regAddr die 7 (0x9000)
def a_DIR_EVICT (die : Nat) : Nat := regAddr die 7 (0x9008)
def a_DIR_ECC (die : Nat) : Nat := regAddr die 7 (0x9010)
def a_DIR_ERRADDR (die : Nat) : Nat := regAddr die 7 (0x9018)
def a_HBM_STACK_STATUS (die i : Nat) : Nat := regAddr die 8 (0x0 + i * 0x40000)
def a_HBM_CFG (die i : Nat) : Nat := regAddr die 8 (0x8 + i * 0x40000)
def a_HBM_ECC (die i : Nat) : Nat := regAddr die 8 (0x10 + i * 0x40000)
def a_HBM_ERRADDR (die i : Nat) : Nat := regAddr die 8 (0x18 + i * 0x40000)
def a_HBM_SCRUB (die i : Nat) : Nat := regAddr die 8 (0x20 + i * 0x40000)
def a_HBM_ADD_STATUS (die i : Nat) : Nat := regAddr die 8 (0x28 + i * 0x40000)
def a_HBM_MARGIN_CTL (die i : Nat) : Nat := regAddr die 8 (0x30 + i * 0x40000)
def a_HBM_MARGIN_STATUS (die i : Nat) : Nat := regAddr die 8 (0x38 + i * 0x40000)
def a_HBM_LOGPTR (die i : Nat) : Nat := regAddr die 8 (0x40 + i * 0x40000)
def a_HBM_CH_STATUS (die i j : Nat) : Nat := regAddr die 8 (0x100 + i * 0x40000 + j * 0x8)
def a_HBM_CH_CTL (die i j : Nat) : Nat := regAddr die 8 (0x200 + i * 0x40000 + j * 0x8)
def a_HBM_EYE (die i j : Nat) : Nat := regAddr die 8 (0x300 + i * 0x40000 + j * 0x8)
def a_HBM_REPAIR (die i j : Nat) : Nat := regAddr die 8 (0x400 + i * 0x40000 + j * 0x8)
def a_HBM_ERRLOG (die i j w : Nat) : Nat := regAddr die 8 (0x1000 + i * 0x40000 + j * 0x20 + w * 8)
def a_HBM_WIN (die i j : Nat) : Nat := regAddr die 8 (0xC0000 + i * 0x20 + j * 0x8)
def a_HBM_PART (die i : Nat) : Nat := regAddr die 8 (0xC0400 + i * 0x8)
def a_PHX_CAL (die : Nat) : Nat := regAddr die 9 (0x0)
def a_PHX_LASER_CTL (die : Nat) : Nat := regAddr die 9 (0x8)
def a_PHX_LASER (die i j : Nat) : Nat := regAddr die 9 (0x100 + i * 0x88 + j * 0x8)
def a_PHX_SLOT (die i j : Nat) : Nat := regAddr die 9 (0x800 + i * 0x88 + j * 0x8)
def a_PHX_PORT (die i : Nat) : Nat := regAddr die 9 (0x1000 + i * 0x8)
def a_PHX_PORT_EXP (die i : Nat) : Nat := regAddr die 9 (0x1040 + i * 0x8)
def a_PHX_PORT_CTL (die i : Nat) : Nat := regAddr die 9 (0x1080 + i * 0x8)
def a_LANE_STATUS (die i : Nat) : Nat := regAddr die 10 (0x0 + i * 0x40)
def a_LANE_CTL (die i : Nat) : Nat := regAddr die 10 (0x8 + i * 0x40)
def a_LANE_FEC (die i : Nat) : Nat := regAddr die 10 (0x10 + i * 0x40)
def a_LANE_CW (die i : Nat) : Nat := regAddr die 10 (0x18 + i * 0x40)
def a_LANE_EYE (die i : Nat) : Nat := regAddr die 10 (0x20 + i * 0x40)
def a_LANE_PLAN (die i : Nat) : Nat := regAddr die 10 (0x2000 + i * 0x8)
def a_LANE_PLANSEL (die : Nat) : Nat := regAddr die 10 (0x2040)
def a_LANE_SHORT (die : Nat) : Nat := regAddr die 10 (0x2048)
def a_RTR_CTL (die : Nat) : Nat := regAddr die 11 (0x0)
def a_RTR_NODE (die : Nat) : Nat := regAddr die 11 (0x8)
def a_RTR_STATUS (die : Nat) : Nat := regAddr die 11 (0x10)
def a_RTR_PORTDIM (die i : Nat) : Nat := regAddr die 11 (0x100 + i * 0x8)
def a_RTR_CRES (die i : Nat) : Nat := regAddr die 11 (0x200 + i * 0x8)
def a_RTR_COUNT (die i : Nat) : Nat := regAddr die 11 (0x400 + i * 0x8)
def a_RTR_ROUTE (die i : Nat) : Nat := regAddr die 11 (0x10000 + i * 0x8)
def a_COLL_CTL (die : Nat) : Nat := regAddr die 12 (0x0)
def a_COLL_STATUS (die : Nat) : Nat := regAddr die 12 (0x8)
def a_COLL_SLOW (die i : Nat) : Nat := regAddr die 12 (0x10 + i * 0x8)
def a_COLL_REC (die i w : Nat) : Nat := regAddr die 12 (0x100 + i * 0x20 + w * 8)
def a_COLL_RECPTR (die : Nat) : Nat := regAddr die 12 (0x900)
def a_COLL_EARLY (die i w : Nat) : Nat := regAddr die 12 (0xA00 + i * 0x10 + w * 8)
def a_COLL_CTX (die i j w : Nat) : Nat := regAddr die 12 (0x10000 + i * 0x400 + j * 0x20 + w * 8)
def a_TIDE_NOW (die : Nat) : Nat := regAddr die 13 (0x0)
def a_TIDE_STATUS (die : Nat) : Nat := regAddr die 13 (0x8)
def a_TIDE_CTL (die : Nat) : Nat := regAddr die 13 (0x10)
def a_TIDE_OFFSET (die : Nat) : Nat := regAddr die 13 (0x18)
def a_TIDE_DELAY (die : Nat) : Nat := regAddr die 13 (0x20)
def a_TIDE_SYNCCNT (die : Nat) : Nat := regAddr die 13 (0x28)
def a_TIDE_SCHED (die : Nat) : Nat := regAddr die 13 (0x30)
def a_TIDE_SLIP (die : Nat) : Nat := regAddr die 13 (0x38)
def a_TIDE_MGR (die : Nat) : Nat := regAddr die 13 (0x40)
def a_TIDE_PUT (die i : Nat) : Nat := regAddr die 13 (0x48 + i * 0x8)
def a_TIDE_PRES (die i : Nat) : Nat := regAddr die 13 (0x100 + i * 0x8)
def a_TIDE_RING (die i : Nat) : Nat := regAddr die 13 (0x200 + i * 0x8)
def a_TIDE_ENTRY (die i w : Nat) : Nat := regAddr die 13 (0x10000 + i * 0x20 + w * 8)
def a_IMPO_CMD : Nat := regAddr 12 14 (0x0)
def a_IMPO_SRC : Nat := regAddr 12 14 (0x8)
def a_IMPO_STATUS : Nat := regAddr 12 14 (0x10)
def a_IMPO_ERR : Nat := regAddr 12 14 (0x18)
def a_IMPO_LAST : Nat := regAddr 12 14 (0x20)
def a_IMPO_PSTATE : Nat := regAddr 12 14 (0x28)
def a_IMPO_STAGED (i : Nat) : Nat := regAddr 12 14 (0x30 + i * 0x8)
def a_CHK_CFG (die i : Nat) : Nat := regAddr die 15 (0x0 + i * 0x8)
def a_CHK_KEY (die i : Nat) : Nat := regAddr die 15 (0x10 + i * 0x8)
def a_CHK_PROOF (die : Nat) : Nat := regAddr die 15 (0x20)
def a_CHK_PROOF_DONE (die : Nat) : Nat := regAddr die 15 (0x28)
def a_CHK_PROOF_SKIP (die : Nat) : Nat := regAddr die 15 (0x30)
def a_CHK_REH_COUNT (die : Nat) : Nat := regAddr die 15 (0x38)
def a_CHK_COUNT (die i : Nat) : Nat := regAddr die 15 (0x40 + i * 0x8)
def a_CHK_LOGPTR (die : Nat) : Nat := regAddr die 15 (0x88)
def a_CHK_LOG (die i w : Nat) : Nat := regAddr die 15 (0x100 + i * 0x40 + w * 8)
def a_CHK_PKEY (die i : Nat) : Nat := regAddr die 15 (0x200 + i * 0x8)
def a_CHK_QPOLICY (die : Nat) : Nat := regAddr die 15 (0x1000)
def a_CHK_QSTATUS (die : Nat) : Nat := regAddr die 15 (0x1008)
def a_CHK_QCLR (die : Nat) : Nat := regAddr die 15 (0x1010)
def a_CHK_QUNIT (die i : Nat) : Nat := regAddr die 15 (0x1100 + i * 0x10)
def a_CHK_QCOND (die i : Nat) : Nat := regAddr die 15 (0x1108 + i * 0x10)
def a_FI_CTL (die : Nat) : Nat := regAddr die 16 (0x0)
def a_FI_STATUS (die : Nat) : Nat := regAddr die 16 (0x8)
def a_FI_RETIRE (die : Nat) : Nat := regAddr die 16 (0x10)
def a_FI_INJ (die i w : Nat) : Nat := regAddr die 16 (0x100 + i * 0x10 + w * 8)
def a_PWR_MODE (die : Nat) : Nat := regAddr die 17 (0x0)
def a_PWR_STATUS (die : Nat) : Nat := regAddr die 17 (0x8)
def a_PWR_BUDGET (die : Nat) : Nat := regAddr die 17 (0x10)
def a_PWR_RAMP (die : Nat) : Nat := regAddr die 17 (0x18)
def a_PWR_RAMP_CNT (die : Nat) : Nat := regAddr die 17 (0x20)
def a_PWR_THERM (die : Nat) : Nat := regAddr die 17 (0x28)
def a_PWR_SENSE (die : Nat) : Nat := regAddr die 17 (0x30)
def a_PWR_THERM_HBM (die : Nat) : Nat := regAddr die 17 (0x38)
def a_PWR_FLOOR (die i : Nat) : Nat := regAddr die 17 (0x100 + i * 0x8)
def a_PWR_SUPPLY : Nat := regAddr 12 17 (0x200)
def a_PWR_SUPPLY_CNT : Nat := regAddr 12 17 (0x208)
def a_PWR_HBMPACE (die i : Nat) : Nat := regAddr die 17 (0x300 + i * 0x8)
def a_CLK_STATUS (die : Nat) : Nat := regAddr die 18 (0x0)
def a_CLK_PLLCNT (die : Nat) : Nat := regAddr die 18 (0x8)
def a_CLK_XCFG (die i : Nat) : Nat := regAddr die 18 (0x100 + i * 0x8)
def a_CLK_XSTAT (die i : Nat) : Nat := regAddr die 18 (0x200 + i * 0x8)
def a_PCIE_STATUS : Nat := regAddr 12 19 (0x0)
def a_PCIE_RING_BASE : Nat := regAddr 12 19 (0x8)
def a_PCIE_RING_CTL : Nat := regAddr 12 19 (0x10)
def a_PCIE_RING_HEAD : Nat := regAddr 12 19 (0x18)
def a_PCIE_RING_TAIL : Nat := regAddr 12 19 (0x20)
def a_PCIE_PREEMPT : Nat := regAddr 12 19 (0x28)
def a_PCIE_ERRCNT : Nat := regAddr 12 19 (0x30)
def a_PCIE_HMAP (i : Nat) : Nat := regAddr 12 19 (0x100 + i * 0x8)
def a_ETH_PORT (i w : Nat) : Nat := regAddr 12 20 (0x0 + i * 0x40 + w * 8)
def a_ETH_CNT (i j : Nat) : Nat := regAddr 12 20 (0x100 + i * 0x40 + j * 0x8)
def a_ETH_MR (i w : Nat) : Nat := regAddr 12 20 (0x800 + i * 0x10 + w * 8)
def a_ETH_QP (i w : Nat) : Nat := regAddr 12 20 (0x1000 + i * 0x40 + w * 8)
def a_MGMT_BOOT : Nat := regAddr 12 21 (0x0)
def a_MGMT_STRAP : Nat := regAddr 12 21 (0x8)
def a_MGMT_ROLE : Nat := regAddr 12 21 (0x10)
def a_MGMT_FW : Nat := regAddr 12 21 (0x18)
def a_MGMT_FWCTL : Nat := regAddr 12 21 (0x20)
def a_MGMT_SEC : Nat := regAddr 12 21 (0x28)
def a_MGMT_FLASH_CTL : Nat := regAddr 12 21 (0x30)
def a_MGMT_FLASH_STATUS : Nat := regAddr 12 21 (0x38)
def a_MGMT_FLASH_BUF (i : Nat) : Nat := regAddr 12 21 (0x100 + i * 0x8)
def a_JRNL_STATUS : Nat := regAddr 12 22 (0x0)
def a_JRNL_RDPTR : Nat := regAddr 12 22 (0x8)
def a_JRNL_ENTRY (i w : Nat) : Nat := regAddr 12 22 (0x10000 + i * 0x40 + w * 8)
def a_UART_CFG : Nat := regAddr 12 23 (0x0)
def a_UART_STATUS : Nat := regAddr 12 23 (0x8)
def a_UART_CNT : Nat := regAddr 12 23 (0x10)
def a_BLK_ID (die block : Nat) : Nat := regAddr die block 0xFF000
def a_BLK_LOCK (die block : Nat) : Nat := regAddr die block 0xFF008
def a_BLK_VIOL (die block : Nat) : Nat := regAddr die block 0xFF010
def a_BLK_LASTERR (die block : Nat) : Nat := regAddr die block 0xFF018

/-! The fields by register and name. -/

def f_PRESS_CTL_RESUME : Fld := ⟨1, 1⟩
def f_PRESS_CTL_HALT : Fld := ⟨0, 0⟩
def f_PRESS_STATUS_CKV : Fld := ⟨29, 26⟩
def f_PRESS_STATUS_HELD : Fld := ⟨25, 22⟩
def f_PRESS_STATUS_FQ_DEPTH : Fld := ⟨21, 19⟩
def f_PRESS_STATUS_DQ_DEPTH : Fld := ⟨18, 16⟩
def f_PRESS_STATUS_ACT_VALID : Fld := ⟨15, 8⟩
def f_PRESS_STATUS_FORME_VALID : Fld := ⟨7, 6⟩
def f_PRESS_STATUS_POISON : Fld := ⟨5, 5⟩
def f_PRESS_STATUS_COMPARE : Fld := ⟨2, 2⟩
def f_PRESS_STATUS_BUSY : Fld := ⟨1, 1⟩
def f_PRESS_STATUS_HALTED : Fld := ⟨0, 0⟩
def f_PRESS_SEQ_SEQ : Fld := ⟨47, 0⟩
def f_PRESS_QE_QE3 : Fld := ⟨47, 36⟩
def f_PRESS_QE_QE2 : Fld := ⟨35, 24⟩
def f_PRESS_QE_QE1 : Fld := ⟨23, 12⟩
def f_PRESS_QE_QE0 : Fld := ⟨11, 0⟩
def f_PRESS_RD_STATUS_STATUS_OR : Fld := ⟨53, 48⟩
def f_PRESS_RD_STATUS_SAT_COUNT : Fld := ⟨47, 32⟩
def f_PRESS_RD_STATUS_RANGE_COUNT : Fld := ⟨31, 16⟩
def f_PRESS_RD_STATUS_BELOW_COUNT : Fld := ⟨15, 0⟩
def f_PRESS_STALL_BUSY_COUNT : Fld := ⟨63, 0⟩
def f_PRESS_STALL_STICK_COUNT : Fld := ⟨63, 0⟩
def f_PRESS_STALL_FORME_COUNT : Fld := ⟨63, 0⟩
def f_PRESS_STALL_FSUM_COUNT : Fld := ⟨63, 0⟩
def f_PRESS_STALL_ACT_COUNT : Fld := ⟨63, 0⟩
def f_PRESS_STALL_RAMP_COUNT : Fld := ⟨63, 0⟩
def f_PRESS_BUSY_CYCLES_COUNT : Fld := ⟨63, 0⟩
def f_CK_FAULT_SEQ_SEQ : Fld := ⟨47, 0⟩
def f_CK_LOC_VALID : Fld := ⟨40, 40⟩
def f_CK_LOC_NROWS : Fld := ⟨39, 30⟩
def f_CK_LOC_SHARED : Fld := ⟨29, 29⟩
def f_CK_LOC_KIND : Fld := ⟨28, 28⟩
def f_CK_LOC_PLATENS : Fld := ⟨27, 24⟩
def f_CK_LOC_PLATEN : Fld := ⟨8, 7⟩
def f_CK_LOC_ROW : Fld := ⟨6, 0⟩
def f_CK_DIFF_LO_DIFF : Fld := ⟨63, 0⟩
def f_CK_DIFF_HI_DIFF : Fld := ⟨55, 0⟩
def f_CK_COUNT_COUNT : Fld := ⟨31, 0⟩
def f_PILOT_CTL_RESET : Fld := ⟨2, 2⟩
def f_PILOT_CTL_HALT : Fld := ⟨1, 1⟩
def f_PILOT_CTL_RUN : Fld := ⟨0, 0⟩
def f_PILOT_STATUS_STATE : Fld := ⟨3, 0⟩
def f_PILOT_PC_PC : Fld := ⟨63, 0⟩
def f_PILOT_ENTRY_ENTRY : Fld := ⟨47, 0⟩
def f_PILOT_LASTTRAP_CODE : Fld := ⟨63, 48⟩
def f_PILOT_LASTTRAP_EPC : Fld := ⟨47, 0⟩
def f_PILOT_ECC_UNCORR : Fld := ⟨63, 32⟩
def f_PILOT_ECC_CORR : Fld := ⟨31, 0⟩
def f_PILOT_MAILBOX_MSG : Fld := ⟨63, 0⟩
def f_VEC_STATUS_RESIDUE : Fld := ⟨63, 32⟩
def f_VEC_STATUS_STOPPED : Fld := ⟨0, 0⟩
def f_VEC_ISSUED_COUNT : Fld := ⟨63, 0⟩
def f_GALLEY_WIN_PART : Fld := ⟨29, 25⟩
def f_GALLEY_WIN_SIZE : Fld := ⟨24, 16⟩
def f_GALLEY_WIN_BASE : Fld := ⟨7, 0⟩
def f_GALLEY_ECC_UNCORR : Fld := ⟨63, 32⟩
def f_GALLEY_ECC_CORR : Fld := ⟨31, 0⟩
def f_GALLEY_ERRADDR_VALID : Fld := ⟨63, 63⟩
def f_GALLEY_ERRADDR_OFFSET : Fld := ⟨27, 0⟩
def f_GALLEY_SCRUB_PASSES : Fld := ⟨31, 0⟩
def f_GALLEY_CONFLICT_COUNT : Fld := ⟨63, 0⟩
def f_ENG_STATUS_BUSY : Fld := ⟨16, 16⟩
def f_ENG_STATUS_CORE : Fld := ⟨7, 0⟩
def f_ENG_BUSY_COUNT : Fld := ⟨63, 0⟩
def f_ENG_DONE_COUNT : Fld := ⟨63, 0⟩
def f_ENG_ERRCNT_COUNT : Fld := ⟨31, 0⟩
def f_ENG_ERRPTR_LOST : Fld := ⟨15, 8⟩
def f_ENG_ERRPTR_NEXT : Fld := ⟨2, 0⟩
def f_ERRLOG_DETAIL : Fld := ⟨63, 0⟩
def f_ERRLOG_TIDE : Fld := ⟨63, 0⟩
def f_ERRLOG_CODE : Fld := ⟨63, 48⟩
def f_ERRLOG_OP : Fld := ⟨47, 40⟩
def f_ERRLOG_QUEUE : Fld := ⟨39, 32⟩
def f_ERRLOG_UNIT : Fld := ⟨31, 0⟩
def f_ERRLOG_TAG : Fld := ⟨63, 0⟩
def f_BERTH_CTL_SHARED : Fld := ⟨0, 0⟩
def f_BERTH_POOL_COUNT : Fld := ⟨55, 36⟩
def f_BERTH_POOL_BASE : Fld := ⟨35, 0⟩
def f_BERTH_FREE_FREE : Fld := ⟨19, 0⟩
def f_BERTH_FAIL_COUNT : Fld := ⟨31, 0⟩
def f_BERTH_AUD_THR_AGE : Fld := ⟨63, 24⟩
def f_BERTH_AUD_THR_COUNT : Fld := ⟨23, 0⟩
def f_BERTH_AUD_CNT_HELD : Fld := ⟨23, 0⟩
def f_BERTH_AUD_OLD_TIDE : Fld := ⟨63, 0⟩
def f_LTR_STATUS_WUISSUED : Fld := ⟨47, 16⟩
def f_LTR_STATUS_OUTSTANDING : Fld := ⟨8, 0⟩
def f_LTR_SUPPRESS_LEFT : Fld := ⟨31, 0⟩
def f_LTR_CELLS_OUT_COUNT : Fld := ⟨63, 0⟩
def f_LTR_CELLS_IN_COUNT : Fld := ⟨63, 0⟩
def f_LTR_ERRCNT_COUNT : Fld := ⟨31, 0⟩
def f_LTR_ERRPTR_LOST : Fld := ⟨15, 8⟩
def f_LTR_ERRPTR_NEXT : Fld := ⟨2, 0⟩
def f_LTR_CC_TARGET : Fld := ⟨63, 32⟩
def f_LTR_CC_COUNT : Fld := ⟨31, 0⟩
def f_LTR_CCCFG_FIRED : Fld := ⟨7, 7⟩
def f_LTR_CCCFG_ARMED : Fld := ⟨6, 6⟩
def f_LTR_CCCFG_TOKEN : Fld := ⟨5, 0⟩
def f_QUAY_LSTATUS_PEER : Fld := ⟨23, 20⟩
def f_QUAY_LSTATUS_LINK : Fld := ⟨19, 16⟩
def f_QUAY_LSTATUS_STATE : Fld := ⟨3, 0⟩
def f_QUAY_LCTL_DISABLE : Fld := ⟨1, 1⟩
def f_QUAY_LCTL_RETRAIN : Fld := ⟨0, 0⟩
def f_QUAY_LERR_REPLAYS : Fld := ⟨63, 32⟩
def f_QUAY_LERR_RETRAINS : Fld := ⟨31, 16⟩
def f_QUAY_LERR_FAILED : Fld := ⟨15, 0⟩
def f_QUAY_CREDIT_DBG : Fld := ⟨47, 40⟩
def f_QUAY_CREDIT_EVT : Fld := ⟨39, 32⟩
def f_QUAY_CREDIT_COH_RSP : Fld := ⟨31, 24⟩
def f_QUAY_CREDIT_COH_REQ : Fld := ⟨23, 16⟩
def f_QUAY_CREDIT_MEM_RSP : Fld := ⟨15, 8⟩
def f_QUAY_CREDIT_MEM_REQ : Fld := ⟨7, 0⟩
def f_QUAY_FLITS_COUNT : Fld := ⟨63, 0⟩
def f_QUAY_WAIT_COUNT : Fld := ⟨63, 0⟩
def f_QUAY_TAGVIOL_COUNT : Fld := ⟨31, 0⟩
def f_QUAY_EVDROP_COUNT : Fld := ⟨31, 0⟩
def f_DIR_STATUS_MOD : Fld := ⟨35, 18⟩
def f_DIR_STATUS_VALID : Fld := ⟨17, 0⟩
def f_DIR_EVICT_COUNT : Fld := ⟨63, 0⟩
def f_DIR_ECC_UNCORR : Fld := ⟨63, 32⟩
def f_DIR_ECC_CORR : Fld := ⟨31, 0⟩
def f_DIR_ERRADDR_VALID : Fld := ⟨63, 63⟩
def f_DIR_ERRADDR_LINE : Fld := ⟨47, 6⟩
def f_HBM_STACK_STATUS_TEMP : Fld := ⟨47, 32⟩
def f_HBM_STACK_STATUS_RATE : Fld := ⟨9, 8⟩
def f_HBM_STACK_STATUS_STATE : Fld := ⟨3, 0⟩
def f_HBM_CFG_RATE_CAP : Fld := ⟨1, 0⟩
def f_HBM_ECC_DIE : Fld := ⟨63, 48⟩
def f_HBM_ECC_UNCORR : Fld := ⟨47, 32⟩
def f_HBM_ECC_CORR : Fld := ⟨31, 0⟩
def f_HBM_ERRADDR_VALID : Fld := ⟨63, 63⟩
def f_HBM_ERRADDR_LINE : Fld := ⟨47, 6⟩
def f_HBM_SCRUB_PASSES : Fld := ⟨63, 32⟩
def f_HBM_SCRUB_HOURS : Fld := ⟨7, 0⟩
def f_HBM_ADD_STATUS_SCALE : Fld := ⟨63, 32⟩
def f_HBM_ADD_STATUS_ORDER : Fld := ⟨31, 0⟩
def f_HBM_MARGIN_CTL_START : Fld := ⟨17, 17⟩
def f_HBM_MARGIN_CTL_MODE : Fld := ⟨16, 16⟩
def f_HBM_MARGIN_CTL_PIN : Fld := ⟨13, 8⟩
def f_HBM_MARGIN_CTL_CH : Fld := ⟨5, 1⟩
def f_HBM_MARGIN_CTL_PC : Fld := ⟨0, 0⟩
def f_HBM_MARGIN_STATUS_HEIGHT : Fld := ⟨23, 16⟩
def f_HBM_MARGIN_STATUS_WIDTH : Fld := ⟨15, 8⟩
def f_HBM_MARGIN_STATUS_RESULT : Fld := ⟨3, 2⟩
def f_HBM_MARGIN_STATUS_DONE : Fld := ⟨1, 1⟩
def f_HBM_MARGIN_STATUS_BUSY : Fld := ⟨0, 0⟩
def f_HBM_LOGPTR_LOST : Fld := ⟨15, 8⟩
def f_HBM_LOGPTR_PENDING : Fld := ⟨7, 4⟩
def f_HBM_LOGPTR_NEXT : Fld := ⟨3, 0⟩
def f_HBM_CH_STATUS_TIMEOUTS : Fld := ⟨63, 48⟩
def f_HBM_CH_STATUS_RETRAINS : Fld := ⟨47, 32⟩
def f_HBM_CH_STATUS_STATE : Fld := ⟨3, 0⟩
def f_HBM_CH_CTL_OFFLINE : Fld := ⟨1, 1⟩
def f_HBM_CH_CTL_RETRAIN : Fld := ⟨0, 0⟩
def f_HBM_EYE_PASS : Fld := ⟨63, 0⟩
def f_HBM_REPAIR_VALID : Fld := ⟨63, 63⟩
def f_HBM_REPAIR_LINE : Fld := ⟨47, 6⟩
def f_HBM_WIN_VALID : Fld := ⟨63, 63⟩
def f_HBM_WIN_LIMIT : Fld := ⟨27, 16⟩
def f_HBM_WIN_BASE : Fld := ⟨11, 0⟩
def f_HBM_PART_INVARIANT : Fld := ⟨0, 0⟩
def f_PHX_CAL_STEP : Fld := ⟨31, 0⟩
def f_PHX_LASER_CTL_RETIRE : Fld := ⟨9, 9⟩
def f_PHX_LASER_CTL_BANK : Fld := ⟨8, 5⟩
def f_PHX_LASER_CTL_WAVE : Fld := ⟨4, 0⟩
def f_PHX_LASER_POWER : Fld := ⟨63, 48⟩
def f_PHX_LASER_BIAS : Fld := ⟨47, 32⟩
def f_PHX_LASER_WEAR : Fld := ⟨8, 8⟩
def f_PHX_LASER_COVERS : Fld := ⟨7, 4⟩
def f_PHX_LASER_STATE : Fld := ⟨3, 0⟩
def f_PHX_SLOT_TXPWR : Fld := ⟨63, 48⟩
def f_PHX_SLOT_RXPWR : Fld := ⟨47, 32⟩
def f_PHX_SLOT_TXHEAT : Fld := ⟨31, 24⟩
def f_PHX_SLOT_RXHEAT : Fld := ⟨23, 16⟩
def f_PHX_SLOT_LANE : Fld := ⟨15, 8⟩
def f_PHX_SLOT_STATE : Fld := ⟨3, 0⟩
def f_PHX_PORT_DISABLE : Fld := ⟨63, 63⟩
def f_PHX_PORT_PART : Fld := ⟨62, 58⟩
def f_PHX_PORT_PEER_NODE : Fld := ⟨57, 46⟩
def f_PHX_PORT_PEER_PORT : Fld := ⟨45, 41⟩
def f_PHX_PORT_LANES : Fld := ⟨40, 36⟩
def f_PHX_PORT_TARGET : Fld := ⟨35, 31⟩
def f_PHX_PORT_DARK : Fld := ⟨30, 14⟩
def f_PHX_PORT_GAP : Fld := ⟨13, 9⟩
def f_PHX_PORT_STATE : Fld := ⟨3, 0⟩
def f_PHX_PORT_EXP_NODE : Fld := ⟨17, 6⟩
def f_PHX_PORT_EXP_PORT : Fld := ⟨5, 1⟩
def f_PHX_PORT_EXP_CHECK : Fld := ⟨0, 0⟩
def f_PHX_PORT_CTL_RETRAIN : Fld := ⟨0, 0⟩
def f_LANE_STATUS_FAULTS : Fld := ⟨39, 32⟩
def f_LANE_STATUS_SLOT : Fld := ⟨20, 16⟩
def f_LANE_STATUS_PORT : Fld := ⟨13, 8⟩
def f_LANE_STATUS_POS : Fld := ⟨7, 4⟩
def f_LANE_STATUS_STATE : Fld := ⟨3, 0⟩
def f_LANE_CTL_PART : Fld := ⟨7, 3⟩
def f_LANE_CTL_ENABLE : Fld := ⟨2, 2⟩
def f_LANE_CTL_OFFLINE : Fld := ⟨1, 1⟩
def f_LANE_CTL_RETRAIN : Fld := ⟨0, 0⟩
def f_LANE_FEC_UNCORR : Fld := ⟨63, 32⟩
def f_LANE_FEC_CORR : Fld := ⟨31, 0⟩
def f_LANE_CW_COUNT : Fld := ⟨63, 0⟩
def f_LANE_EYE_EYE_LO : Fld := ⟨55, 48⟩
def f_LANE_EYE_EYE_MID : Fld := ⟨47, 40⟩
def f_LANE_EYE_EYE_HI : Fld := ⟨39, 32⟩
def f_LANE_EYE_SYMERR : Fld := ⟨15, 0⟩
def f_LANE_PLAN_COUNT : Fld := ⟨39, 0⟩
def f_LANE_PLANSEL_CUR : Fld := ⟨2, 0⟩
def f_LANE_SHORT_SHORT : Fld := ⟨7, 0⟩
def f_RTR_CTL_STARVE : Fld := ⟨15, 8⟩
def f_RTR_CTL_CWIN : Fld := ⟨7, 0⟩
def f_RTR_NODE_NODE : Fld := ⟨11, 0⟩
def f_RTR_STATUS_EJQ : Fld := ⟨47, 32⟩
def f_RTR_STATUS_TORN : Fld := ⟨23, 0⟩
def f_RTR_PORTDIM_DIM : Fld := ⟨3, 0⟩
def f_RTR_CRES_RESERVE : Fld := ⟨12, 0⟩
def f_RTR_COUNT_COUNT : Fld := ⟨63, 0⟩
def f_RTR_ROUTE_MASK : Fld := ⟨31, 0⟩
def f_COLL_CTL_NF1 : Fld := ⟨35, 34⟩
def f_COLL_CTL_NF0 : Fld := ⟨33, 32⟩
def f_COLL_CTL_GRACE : Fld := ⟨31, 0⟩
def f_COLL_STATUS_BUSY : Fld := ⟨63, 48⟩
def f_COLL_STATUS_DUPABORT : Fld := ⟨47, 32⟩
def f_COLL_STATUS_ABORT_RX : Fld := ⟨31, 16⟩
def f_COLL_STATUS_ABORT_TX : Fld := ⟨15, 0⟩
def f_COLL_SLOW_COUNT : Fld := ⟨31, 0⟩
def f_COLL_RECPTR_LOST : Fld := ⟨23, 16⟩
def f_COLL_RECPTR_NEXT : Fld := ⟨5, 0⟩
def f_COLL_EARLY_CID : Fld := ⟨63, 32⟩
def f_COLL_EARLY_CODE : Fld := ⟨31, 16⟩
def f_COLL_EARLY_PART : Fld := ⟨12, 8⟩
def f_COLL_EARLY_VALID : Fld := ⟨0, 0⟩
def f_COLL_EARLY_TIDE : Fld := ⟨63, 0⟩
def f_COLL_CTX_CID : Fld := ⟨63, 32⟩
def f_COLL_CTX_CODE : Fld := ⟨31, 16⟩
def f_COLL_CTX_STATE : Fld := ⟨3, 0⟩
def f_COLL_CTX_DEADLINE : Fld := ⟨63, 0⟩
def f_COLL_CTX_ARRIVE : Fld := ⟨63, 0⟩
def f_COLL_CTX_ATIDE : Fld := ⟨63, 0⟩
def f_TIDE_NOW_TIDE : Fld := ⟨63, 0⟩
def f_TIDE_STATUS_ROOTNODE : Fld := ⟨43, 32⟩
def f_TIDE_STATUS_DEPTH : Fld := ⟨31, 24⟩
def f_TIDE_STATUS_PORT : Fld := ⟨15, 10⟩
def f_TIDE_STATUS_STATE : Fld := ⟨3, 0⟩
def f_TIDE_CTL_ALT : Fld := ⟨21, 16⟩
def f_TIDE_CTL_PARENT : Fld := ⟨13, 8⟩
def f_TIDE_CTL_PTPSTEER : Fld := ⟨1, 1⟩
def f_TIDE_CTL_ROOT : Fld := ⟨0, 0⟩
def f_TIDE_OFFSET_RATE : Fld := ⟨63, 32⟩
def f_TIDE_OFFSET_OFFSET : Fld := ⟨31, 0⟩
def f_TIDE_DELAY_PTPOFF : Fld := ⟨63, 32⟩
def f_TIDE_DELAY_DELAY : Fld := ⟨31, 0⟩
def f_TIDE_SYNCCNT_UNLOCKS : Fld := ⟨63, 48⟩
def f_TIDE_SYNCCNT_HOLDOVERS : Fld := ⟨47, 32⟩
def f_TIDE_SYNCCNT_EXCHANGES : Fld := ⟨31, 0⟩
def f_TIDE_SCHED_REFUSED : Fld := ⟨63, 48⟩
def f_TIDE_SCHED_CONFLICTS : Fld := ⟨47, 32⟩
def f_TIDE_SCHED_CAP : Fld := ⟨31, 16⟩
def f_TIDE_SCHED_USED : Fld := ⟨15, 0⟩
def f_TIDE_SLIP_MAX : Fld := ⟨63, 32⟩
def f_TIDE_SLIP_COUNT : Fld := ⟨31, 0⟩
def f_TIDE_MGR_EPOCH : Fld := ⟨63, 32⟩
def f_TIDE_MGR_NODE : Fld := ⟨11, 0⟩
def f_TIDE_PUT_DATA : Fld := ⟨63, 0⟩
def f_TIDE_PRES_SLOTS : Fld := ⟨10, 0⟩
def f_TIDE_RING_BASE : Fld := ⟨47, 0⟩
def f_IMPO_CMD_PARTS : Fld := ⟨31, 8⟩
def f_IMPO_CMD_CMD : Fld := ⟨2, 0⟩
def f_IMPO_SRC_ADDR : Fld := ⟨47, 0⟩
def f_IMPO_STATUS_LOADS : Fld := ⟨63, 32⟩
def f_IMPO_STATUS_RESULT : Fld := ⟨7, 6⟩
def f_IMPO_STATUS_STATE : Fld := ⟨2, 0⟩
def f_IMPO_ERR_CODE : Fld := ⟨63, 48⟩
def f_IMPO_ERR_SECT : Fld := ⟨47, 40⟩
def f_IMPO_ERR_RECORD : Fld := ⟨39, 24⟩
def f_IMPO_ERR_OFFSET : Fld := ⟨23, 0⟩
def f_IMPO_LAST_IMAGE_ID : Fld := ⟨63, 0⟩
def f_IMPO_PSTATE_STATE : Fld := ⟨47, 0⟩
def f_IMPO_STAGED_PARTS : Fld := ⟨23, 0⟩
def f_CHK_CFG_SEXP : Fld := ⟨12, 8⟩
def f_CHK_CFG_LEVEL : Fld := ⟨1, 0⟩
def f_CHK_KEY_KEY : Fld := ⟨63, 0⟩
def f_CHK_PROOF_ABANDONED : Fld := ⟨63, 32⟩
def f_CHK_PROOF_STATE : Fld := ⟨1, 0⟩
def f_CHK_PROOF_DONE_TILES : Fld := ⟨63, 32⟩
def f_CHK_PROOF_DONE_VECTOR : Fld := ⟨31, 0⟩
def f_CHK_PROOF_SKIP_TILES : Fld := ⟨63, 32⟩
def f_CHK_PROOF_SKIP_VECTOR : Fld := ⟨31, 0⟩
def f_CHK_REH_COUNT_COUNT : Fld := ⟨31, 0⟩
def f_CHK_COUNT_COUNT : Fld := ⟨31, 0⟩
def f_CHK_LOGPTR_LOST : Fld := ⟨23, 16⟩
def f_CHK_LOGPTR_PENDING : Fld := ⟨8, 4⟩
def f_CHK_LOGPTR_NEXT : Fld := ⟨3, 0⟩
def f_CHK_PKEY_KEY : Fld := ⟨63, 0⟩
def f_CHK_QPOLICY_N : Fld := ⟨39, 32⟩
def f_CHK_QPOLICY_WINDOW : Fld := ⟨31, 0⟩
def f_CHK_QSTATUS_FULL : Fld := ⟨7, 7⟩
def f_CHK_QSTATUS_USED : Fld := ⟨6, 0⟩
def f_CHK_QCLR_ALL : Fld := ⟨7, 7⟩
def f_CHK_QCLR_ENTRY : Fld := ⟨5, 0⟩
def f_CHK_QUNIT_VALID : Fld := ⟨63, 63⟩
def f_CHK_QUNIT_UKIND : Fld := ⟨47, 44⟩
def f_CHK_QUNIT_DIE : Fld := ⟨43, 40⟩
def f_CHK_QUNIT_CORE : Fld := ⟨39, 36⟩
def f_CHK_QUNIT_SUB : Fld := ⟨35, 32⟩
def f_CHK_QUNIT_FAULTS : Fld := ⟨23, 16⟩
def f_CHK_QCOND_TIDE_S : Fld := ⟨63, 32⟩
def f_CHK_QCOND_COND : Fld := ⟨10, 0⟩
def f_FI_CTL_ENABLE : Fld := ⟨0, 0⟩
def f_FI_STATUS_REFUSED : Fld := ⟨63, 48⟩
def f_FI_STATUS_STARTED : Fld := ⟨47, 32⟩
def f_FI_STATUS_ACTIVE : Fld := ⟨15, 0⟩
def f_FI_RETIRE_GO : Fld := ⟨4, 4⟩
def f_FI_RETIRE_CORE : Fld := ⟨3, 0⟩
def f_FI_INJ_VALID : Fld := ⟨63, 63⟩
def f_FI_INJ_KIND : Fld := ⟨59, 56⟩
def f_FI_INJ_PART : Fld := ⟨52, 48⟩
def f_FI_INJ_TARGET : Fld := ⟨47, 40⟩
def f_FI_INJ_DURATION : Fld := ⟨31, 0⟩
def f_FI_INJ_PARAM : Fld := ⟨63, 0⟩
def f_PWR_MODE_LOSS : Fld := ⟨39, 32⟩
def f_PWR_MODE_CAP : Fld := ⟨31, 16⟩
def f_PWR_MODE_MODE : Fld := ⟨1, 0⟩
def f_PWR_STATUS_DRAW : Fld := ⟨63, 48⟩
def f_PWR_STATUS_DEMAND : Fld := ⟨47, 32⟩
def f_PWR_STATUS_CLOCK : Fld := ⟨23, 16⟩
def f_PWR_STATUS_FLOORCUT : Fld := ⟨4, 4⟩
def f_PWR_STATUS_BROWNOUT : Fld := ⟨3, 3⟩
def f_PWR_STATUS_RATE : Fld := ⟨2, 2⟩
def f_PWR_STATUS_THERMAL : Fld := ⟨1, 1⟩
def f_PWR_STATUS_BUDGET : Fld := ⟨0, 0⟩
def f_PWR_BUDGET_FLOOR : Fld := ⟨47, 32⟩
def f_PWR_BUDGET_AVAIL : Fld := ⟨31, 16⟩
def f_PWR_BUDGET_BUDGET : Fld := ⟨15, 0⟩
def f_PWR_RAMP_HOLD : Fld := ⟨39, 24⟩
def f_PWR_RAMP_WINC : Fld := ⟨23, 16⟩
def f_PWR_RAMP_HREASON : Fld := ⟨13, 12⟩
def f_PWR_RAMP_PREWARM : Fld := ⟨11, 11⟩
def f_PWR_RAMP_BALLAST : Fld := ⟨10, 5⟩
def f_PWR_RAMP_LEVEL : Fld := ⟨4, 0⟩
def f_PWR_RAMP_CNT_HELD : Fld := ⟨63, 32⟩
def f_PWR_RAMP_CNT_WAVES : Fld := ⟨31, 0⟩
def f_PWR_THERM_TRIP : Fld := ⟨47, 32⟩
def f_PWR_THERM_CLEAR : Fld := ⟨31, 16⟩
def f_PWR_THERM_THROTTLE : Fld := ⟨15, 0⟩
def f_PWR_SENSE_MAX : Fld := ⟨63, 48⟩
def f_PWR_SENSE_VOLT : Fld := ⟨47, 32⟩
def f_PWR_SENSE_RISE : Fld := ⟨31, 16⟩
def f_PWR_SENSE_TEMP : Fld := ⟨15, 0⟩
def f_PWR_THERM_HBM_TRIP : Fld := ⟨47, 32⟩
def f_PWR_THERM_HBM_CLEAR : Fld := ⟨31, 16⟩
def f_PWR_THERM_HBM_THROTTLE : Fld := ⟨15, 0⟩
def f_PWR_FLOOR_FLOOR : Fld := ⟨15, 0⟩
def f_PWR_SUPPLY_VIN : Fld := ⟨63, 48⟩
def f_PWR_SUPPLY_INPUT : Fld := ⟨47, 32⟩
def f_PWR_SUPPLY_VMIN : Fld := ⟨31, 16⟩
def f_PWR_SUPPLY_LOSS : Fld := ⟨15, 8⟩
def f_PWR_SUPPLY_STATE : Fld := ⟨3, 0⟩
def f_PWR_SUPPLY_CNT_HIGH : Fld := ⟨63, 48⟩
def f_PWR_SUPPLY_CNT_LOW : Fld := ⟨47, 32⟩
def f_PWR_SUPPLY_CNT_SLEWMAX : Fld := ⟨31, 16⟩
def f_PWR_HBMPACE_CAUSE : Fld := ⟨3, 2⟩
def f_PWR_HBMPACE_PACE : Fld := ⟨1, 0⟩
def f_CLK_STATUS_REF : Fld := ⟨4, 4⟩
def f_CLK_STATUS_LANEPLL : Fld := ⟨3, 3⟩
def f_CLK_STATUS_QUAYPLL : Fld := ⟨2, 2⟩
def f_CLK_STATUS_GALLEYPLL : Fld := ⟨1, 1⟩
def f_CLK_STATUS_MAINPLL : Fld := ⟨0, 0⟩
def f_CLK_PLLCNT_REFLOSS : Fld := ⟨31, 16⟩
def f_CLK_PLLCNT_UNLOCKS : Fld := ⟨15, 0⟩
def f_CLK_XCFG_MODE : Fld := ⟨16, 16⟩
def f_CLK_XCFG_TIMEOUT : Fld := ⟨15, 0⟩
def f_CLK_XSTAT_TIMEOUTS : Fld := ⟨63, 32⟩
def f_CLK_XSTAT_STOPS : Fld := ⟨31, 16⟩
def f_CLK_XSTAT_STOPPED : Fld := ⟨0, 0⟩
def f_PCIE_STATUS_MPS : Fld := ⟨15, 12⟩
def f_PCIE_STATUS_WIDTH : Fld := ⟨11, 7⟩
def f_PCIE_STATUS_SPEED : Fld := ⟨6, 4⟩
def f_PCIE_STATUS_FLIT : Fld := ⟨3, 3⟩
def f_PCIE_STATUS_STATE : Fld := ⟨2, 0⟩
def f_PCIE_RING_BASE_BASE : Fld := ⟨63, 12⟩
def f_PCIE_RING_CTL_EN : Fld := ⟨8, 8⟩
def f_PCIE_RING_CTL_LOG2SIZE : Fld := ⟨4, 0⟩
def f_PCIE_RING_HEAD_HEAD : Fld := ⟨31, 0⟩
def f_PCIE_RING_TAIL_LOST : Fld := ⟨63, 32⟩
def f_PCIE_RING_TAIL_TAIL : Fld := ⟨31, 0⟩
def f_PCIE_PREEMPT_DP : Fld := ⟨63, 0⟩
def f_PCIE_ERRCNT_POISONED : Fld := ⟨63, 48⟩
def f_PCIE_ERRCNT_HOSTFAULT : Fld := ⟨47, 32⟩
def f_PCIE_ERRCNT_DOORBELL : Fld := ⟨31, 16⟩
def f_PCIE_HMAP_HBASE : Fld := ⟨63, 12⟩
def f_PCIE_HMAP_VALID : Fld := ⟨11, 11⟩
def f_PCIE_HMAP_PART : Fld := ⟨10, 6⟩
def f_ETH_PORT_IP6_0 : Fld := ⟨63, 0⟩
def f_ETH_PORT_IP6_1 : Fld := ⟨63, 0⟩
def f_ETH_PORT_IP4 : Fld := ⟨63, 32⟩
def f_ETH_PORT_MAC_0 : Fld := ⟨63, 48⟩
def f_ETH_PORT_MAC_1 : Fld := ⟨31, 0⟩
def f_ETH_PORT_VLAN : Fld := ⟨47, 36⟩
def f_ETH_PORT_PRIO : Fld := ⟨35, 33⟩
def f_ETH_PORT_PFC : Fld := ⟨32, 32⟩
def f_ETH_PORT_PTPDOM : Fld := ⟨31, 24⟩
def f_ETH_PORT_STATE : Fld := ⟨19, 16⟩
def f_ETH_PORT_DISABLE : Fld := ⟨0, 0⟩
def f_ETH_CNT_COUNT : Fld := ⟨63, 0⟩
def f_ETH_MR_RKEY : Fld := ⟨63, 32⟩
def f_ETH_MR_PART : Fld := ⟨31, 27⟩
def f_ETH_MR_WRITE : Fld := ⟨26, 26⟩
def f_ETH_MR_VALID : Fld := ⟨25, 25⟩
def f_ETH_MR_BASE : Fld := ⟨63, 28⟩
def f_ETH_MR_SIZE : Fld := ⟨27, 0⟩
def f_ETH_QP_DQPN : Fld := ⟨63, 40⟩
def f_ETH_QP_NPSN : Fld := ⟨39, 16⟩
def f_ETH_QP_EPSN_0 : Fld := ⟨63, 56⟩
def f_ETH_QP_EPSN_1 : Fld := ⟨15, 0⟩
def f_ETH_QP_STATE : Fld := ⟨51, 48⟩
def f_ETH_QP_EN : Fld := ⟨47, 47⟩
def f_ETH_QP_PART : Fld := ⟨46, 42⟩
def f_ETH_QP_PORT : Fld := ⟨41, 41⟩
def f_ETH_QP_TO : Fld := ⟨40, 37⟩
def f_ETH_QP_RETRY : Fld := ⟨36, 34⟩
def f_ETH_QP_MTU : Fld := ⟨33, 32⟩
def f_ETH_QP_DIP_0 : Fld := ⟨63, 32⟩
def f_ETH_QP_DIP_1 : Fld := ⟨63, 0⟩
def f_ETH_QP_DIP_2 : Fld := ⟨31, 0⟩
def f_ETH_QP_SQBASE_0 : Fld := ⟨63, 48⟩
def f_ETH_QP_SQBASE_1 : Fld := ⟨31, 0⟩
def f_ETH_QP_SQLOG : Fld := ⟨47, 44⟩
def f_ETH_QP_RQBASE_0 : Fld := ⟨63, 60⟩
def f_ETH_QP_RQBASE_1 : Fld := ⟨43, 0⟩
def f_ETH_QP_RQLOG : Fld := ⟨59, 56⟩
def f_ETH_QP_CQBASE : Fld := ⟨55, 8⟩
def f_ETH_QP_CQLOG : Fld := ⟨7, 4⟩
def f_MGMT_BOOT_CODE : Fld := ⟨63, 48⟩
def f_MGMT_BOOT_HOLD : Fld := ⟨8, 8⟩
def f_MGMT_BOOT_STEP : Fld := ⟨7, 0⟩
def f_MGMT_STRAP_SLOT : Fld := ⟨7, 4⟩
def f_MGMT_STRAP_BOOT : Fld := ⟨3, 3⟩
def f_MGMT_STRAP_ROLE : Fld := ⟨1, 0⟩
def f_MGMT_ROLE_EPOCH : Fld := ⟨63, 32⟩
def f_MGMT_ROLE_HMNODE : Fld := ⟨31, 20⟩
def f_MGMT_ROLE_SBNODE : Fld := ⟨19, 8⟩
def f_MGMT_ROLE_HMV : Fld := ⟨3, 3⟩
def f_MGMT_ROLE_SBV : Fld := ⟨2, 2⟩
def f_MGMT_ROLE_ROLE : Fld := ⟨1, 0⟩
def f_MGMT_FW_SVN : Fld := ⟨47, 32⟩
def f_MGMT_FW_OSVN : Fld := ⟨31, 16⟩
def f_MGMT_FW_OVALID : Fld := ⟨8, 8⟩
def f_MGMT_FW_SLOT : Fld := ⟨0, 0⟩
def f_MGMT_FWCTL_SWAP : Fld := ⟨0, 0⟩
def f_MGMT_SEC_BURNING : Fld := ⟨16, 16⟩
def f_MGMT_SEC_SVN : Fld := ⟨15, 0⟩
def f_MGMT_FLASH_CTL_ADDR : Fld := ⟨31, 9⟩
def f_MGMT_FLASH_CTL_CMD : Fld := ⟨1, 0⟩
def f_MGMT_FLASH_STATUS_OPS : Fld := ⟨63, 32⟩
def f_MGMT_FLASH_STATUS_RESULT : Fld := ⟨2, 1⟩
def f_MGMT_FLASH_STATUS_BUSY : Fld := ⟨0, 0⟩
def f_MGMT_FLASH_BUF_DATA : Fld := ⟨63, 0⟩
def f_JRNL_STATUS_LOST : Fld := ⟨63, 32⟩
def f_JRNL_STATUS_LAST : Fld := ⟨31, 0⟩
def f_JRNL_RDPTR_READ : Fld := ⟨31, 0⟩
def f_UART_CFG_DIV : Fld := ⟨15, 0⟩
def f_UART_STATUS_RXLEVEL : Fld := ⟨24, 16⟩
def f_UART_STATUS_TXLEVEL : Fld := ⟨8, 0⟩
def f_UART_CNT_OVERRUN : Fld := ⟨63, 48⟩
def f_UART_CNT_BREAKS : Fld := ⟨47, 32⟩
def f_UART_CNT_FRAMING : Fld := ⟨31, 0⟩
def f_BLK_ID_VENDOR : Fld := ⟨63, 48⟩
def f_BLK_ID_DEVICE : Fld := ⟨47, 32⟩
def f_BLK_ID_STEP : Fld := ⟨31, 24⟩
def f_BLK_ID_BLOCK : Fld := ⟨23, 16⟩
def f_BLK_ID_DIE : Fld := ⟨15, 12⟩
def f_BLK_ID_REV : Fld := ⟨7, 0⟩
def f_BLK_LOCK_LOCKED : Fld := ⟨63, 63⟩
def f_BLK_LOCK_LTIDE : Fld := ⟨62, 0⟩
def f_BLK_VIOL_COUNT : Fld := ⟨31, 0⟩
def f_BLK_LASTERR_CODE : Fld := ⟨63, 48⟩
def f_BLK_LASTERR_IFACE : Fld := ⟨47, 40⟩
def f_BLK_LASTERR_AUX : Fld := ⟨39, 32⟩
def f_BLK_LASTERR_OFFSET : Fld := ⟨19, 0⟩

end Sys2Proof.Machine
end

