-- ==== Sys2Proof/Machine/State.lean ====
section
/-! DEFINITION. The state of the module as plain data, the reasons a step can stop, and the state after a cold reset. -/

namespace Sys2Proof.Machine
open Sys2Proof

/-- Why the machine could stop with a fault. The device faults nowhere: every error the spec names is a next state. -/
inductive Fault where
  /-- Raised by no meaning; kept so that the type is not empty. Safe: it never occurs. -/
  | none
deriving DecidableEq, Repr

/-- Why a command has no meaning. -/
inductive Refusal where
  /-- Raised by the dispatch for a row that has no meaning yet. Safe: nothing is claimed of the row. -/
  | notModelled (mnemonic : String)
deriving DecidableEq, Repr

/-! ### The core: pilot and vector unit (03_core_and_instruction_set.md) -/

/-- What a pilot is doing: PILOT_STATUS.STATE (R131). -/
inductive RunState where
  | running | halted | tkwait | waitev | pressStall | doubleTrap | retired
deriving DecidableEq, Repr

/-- The value PILOT_STATUS.STATE shows (R131). -/
def RunState.code : RunState → Nat
  | .running => 1 | .halted => 2 | .tkwait => 3 | .waitev => 4 | .pressStall => 5 | .doubleTrap => 6 | .retired => 7

/-- A store that waits in the store buffer (R554): its address and bytes. -/
structure StoreEnt where
  addr : Nat
  data : List Byte
deriving DecidableEq, Repr

/-- Where the data of an outstanding load goes (R94): a general register, a vector register or a mask. -/
inductive LoadDest where
  | g (rd : Fin 32) (size : Nat) (sext : Bool)
  | v (vd : Fin 32)
  | m (md : Fin 8)
deriving DecidableEq, Repr

/-- A load that is outstanding (R94): its address, where its data goes, and the data where the load has retired and only its result is
still to come; none for the load at pc itself, from register space or over a crossing whose clock stands, which lets nothing else issue. -/
structure LoadEnt where
  addr : Nat
  dest : LoadDest
  data : Option (List Byte)
deriving DecidableEq, Repr

/-- What WUMARK records (R126). -/
structure WorkUnit where
  id : Nat
  entry : Word
  regs : List Word
  tokens : Tbl Nat
  vct : Int
deriving DecidableEq, Repr

/-- A descriptor in a queue of a core (R118, R119): its bytes. -/
structure Desc where
  bytes : List Byte
deriving DecidableEq, Repr

/-- One core: pilot, vector unit, tokens and queues. The press and the lighter have tables of their own. -/
structure CoreState where
  /-- g1 to g31 (R88). -/
  g : Tbl Word
  pc : Word
  /-- Mode: true is Program (R95). -/
  prog : Bool
  run : RunState
  /-- A HALT waits for the current instruction to retire (R131). -/
  halting : Bool
  tvec : Word
  tepc : Word
  tcause : Word
  tval : Word
  tstatus : Word
  tscratch : Word
  evpend : Word
  evmask : Word
  tkevmask : Word
  tcmp : Word
  /-- TIMER may still fire for the last write of TCMP (R99). -/
  timerArmed : Bool
  vflags : Word
  vct : Int
  cycle : Word
  instret : Word
  stallMem : Word
  stallToken : Word
  wusave : Word
  wu : Option WorkUnit
  tkovf : Word
  qwater : Tbl Nat
  /-- The core's own data memory, 256 KiB (R89), and its error marks by 8-byte word: 1 single-bit, 2 double-bit (R92). -/
  pmem : Tbl Byte
  pmarks : Tbl Nat
  tokens : Tbl Nat
  v : Tbl (BitVec 2048)
  m : Tbl (BitVec 256)
  vs : Tbl Stick
  vsqe : Tbl Int
  /-- Queues 0x00 to 0x18 (R117) and their capacities from the imposition. -/
  queues : Tbl (List Desc)
  qcap : Tbl Nat
  stores : List StoreEnt
  loads : List LoadEnt
  /-- The token that a TKWAIT waits for (R121). -/
  waitTk : Option Nat
  /-- The classes of the last 4,096 instructions retired, newest first (R216). -/
  mix : List Nat
  /-- Instructions fetched ahead: address and word, oldest first (R93). -/
  fetched : List (Nat × Nat)
  /-- Lines the instruction cache holds (R93). -/
  icache : List Nat
  /-- The line it has asked for, and a line whose fetch failed, with the code. -/
  missing : Option Nat
  fetchBad : Option (Nat × Nat)
  lasttrap : Word
  /-- CORE_ID.ROLE of a stand-in, and the core it acts as (R129). -/
  standin : Option Nat
deriving DecidableEq, Repr

/-- A core after reset (R88): every word zero, halted in Firmware mode. -/
def CoreState.init : CoreState where
  g := []
  pc := 0
  prog := false
  run := .halted
  halting := false
  tvec := 0
  tepc := 0
  tcause := 0
  tval := 0
  tstatus := 0
  tscratch := 0
  evpend := 0
  evmask := 0
  tkevmask := 0
  tcmp := 0
  timerArmed := false
  vflags := 0
  vct := 0
  cycle := 0
  instret := 0
  stallMem := 0
  stallToken := 0
  wusave := 0
  wu := none
  tkovf := 0
  qwater := []
  pmem := []
  pmarks := []
  tokens := []
  v := []
  m := []
  vs := []
  vsqe := []
  queues := []
  qcap := []
  stores := []
  loads := []
  waitTk := none
  mix := []
  fetched := []
  icache := []
  missing := none
  fetchBad := none
  lasttrap := 0
  standin := none

/-! ### The press (02_press.md) -/

/-- A staged tile: format code, window and factors, row by row (R56, R60, R61). Absent rows and elements are zero. -/
structure Tile where
  fmt : Nat
  win : Window
  rows : List (List Factor)
deriving DecidableEq, Repr

/-- What a tile was staged from (R208): the staging descriptor, the FORME's place in program order, and by row the source bytes and the
scale bytes read. -/
structure FormeSrc where
  desc : Nat
  ord : Nat
  rows : List (List Byte × List Byte)
deriving DecidableEq, Repr

/-- A forme or activation slot: its tile, a forme's row sums once in place (R62), POISON (R64), and what the tile was staged from. -/
structure Slot where
  tile : Option Tile
  sums : Option (List Int)
  poison : Bool
  src : Option FormeSrc
deriving DecidableEq, Repr

/-- An empty slot. -/
def Slot.empty : Slot := ⟨none, none, false, none⟩

/-- A FORME in the staging queue: the descriptor of R58, its tokens, its place in program order, and whether it has taken its WAIT. -/
structure FormeEnt where
  desc : Nat
  wait : Nat
  raise : Nat
  ord : Nat
  taken : Bool
deriving DecidableEq, Repr

/-- How far a drain is: queued, its WAIT taken, holding its set (R75), or written and waiting for its proof (R209). -/
inductive DrainPhase where
  | queued | taken | held | proving
deriving DecidableEq, Repr

/-- A STICKRD in the drain queue (R74), its place in program order, and how far it is. -/
structure DrainEnt where
  desc : Nat
  wait : Nat
  raise : Nat
  ord : Nat
  phase : DrainPhase
deriving DecidableEq, Repr

/-- A STICKCLR that waits for its set (R72). -/
structure ClearEnt where
  set : Nat
  qe : Int
  ord : Nat
deriving DecidableEq, Repr

/-- A stream that names a stick set, from its ENQ to its release (R76, R355); `lost` once the press has halted or the set has
been cleared under it (R356), which releases the set. -/
structure StreamHold where
  queue : Nat
  ord : Nat
  set : Nat
  clear : Bool
  qe : Int
  held : Bool
  lost : Bool
deriving DecidableEq, Repr

/-- The operands of a PRESS: mask, forme slot, activation slot, token (R66). -/
structure PressOp where
  mask : Nat
  f : Nat
  a : Nat
  raise : Nat
deriving DecidableEq, Repr

/-- A PRESS that issued, with its sequence number (R70) and the slots it took its operands from: the forme slot, and by
platen the activation slot (R63). -/
structure PressRun where
  op : PressOp
  seq : Nat
  forme : Slot
  acts : List (Nat × Slot)
deriving DecidableEq, Repr

/-- What a comparison captured (R78): the PRESS, and its failing platens, rows and differences in order. -/
structure Compare where
  run : PressRun
  fails : List (Nat × Nat × Nat)
deriving DecidableEq, Repr

/-- One press. Slots: 0 and 1 the forme slots, 2 + 2p + a the activation slots of platen p. -/
structure PressState where
  slots : Tbl Slot
  staging : List FormeEnt
  /-- Forme slots whose row sums are on their way, with the token to raise (R62). -/
  sumsDue : List (Nat × Nat)
  drains : List DrainEnt
  /-- The descriptors and codes of the FORMEs and drains that ended with an error completion or were flushed (R124, R137, R211), the oldest
  first, which the spec gives no register. -/
  descErrs : List (Nat × Nat)
  clears : List ClearEnt
  streams : List StreamHold
  pending : Option PressOp
  running : Option PressRun
  compare : Option Compare
  halted : Bool
  /-- The 128 sticks of a row by set·128 + row (an unlisted row is zero), checksum sticks by set·128 + row (R66). -/
  sticks : Tbl (List Stick)
  csticks : Tbl Stick
  qe : Tbl Int
  ckv : Tbl Bool
  /-- Sequence number of the last PRESS into each set, for the drain check (R80). -/
  lastSeq : Tbl Nat
  seq : Nat
  ord : Nat
  /-- Set clears since core reset (R206). -/
  clearCount : Nat
deriving DecidableEq, Repr

/-- A press after cold reset: nothing staged, sets zero with QE 0 and CKV 0 (R86). -/
def PressState.init : PressState where
  slots := []
  staging := []
  sumsDue := []
  drains := []
  descErrs := []
  clears := []
  streams := []
  pending := none
  running := none
  compare := none
  halted := false
  sticks := []
  csticks := []
  qe := []
  ckv := []
  lastSeq := []
  seq := 0
  ord := 0
  clearCount := 0


/-! ### The galley, the case engines and the berth pool (04_galley_case_engines_berth_pool.md) -/

/-- What a running descriptor has gathered over its units: the engine's own running values. -/
structure EngAcc where
  unit : Nat
  a : Nat
  b : Nat
  c : Nat
deriving DecidableEq, Repr

/-- A descriptor that an engine runs (R140): the core's place on the die, the descriptor with its length in 16-byte
pieces, and how far it is. -/
structure EngRun where
  core : Nat
  desc : Nat
  acc : EngAcc
deriving DecidableEq, Repr

/-- A case engine: its running descriptor and the core it looks at first (R140). -/
structure EngState where
  run : Option EngRun
  ptr : Nat
deriving DecidableEq, Repr

def EngState.init : EngState := ⟨none, 0⟩

/-- A history slot (R156): its 16 entries, entry 0 the newest, and DEFAULT. -/
structure HistSlot where
  entries : List Nat
  dflt : Int
deriving DecidableEq, Repr

/-- A cleared slot. -/
def HistSlot.init : HistSlot := ⟨List.replicate 16 0, 0⟩

/-- A history slot range of a partition on a die (R156): first slot and count. -/
structure HistRange where
  first : Nat
  count : Nat
deriving DecidableEq, Repr

/-- A berth handed out (R170, R175): its owner on the die, the slot of pools it came from, and the tide of the grant. -/
structure BerthEnt where
  owner : Nat
  slot : Nat
  tide : Nat
deriving DecidableEq, Repr

/-- Which thresholds of an owner have fired and not rearmed (R175). -/
structure AuditState where
  count : Bool
  age : Bool
deriving DecidableEq, Repr

/-- A block that an add cache holds (08_memory_system.md R275): its address, whether it is poisoned, whether it is still to be written back, and
where its block word and check word lie, which it holds with it: address and bytes. -/
structure CacheBlk where
  block : Nat
  bad : Bool
  dirty : Bool
  near : List (Nat × Nat)
deriving DecidableEq, Repr

/-- A galley beside its memory: the bank pointers (R134), the next line the scrubber reads (R137), the cores whose formes the reducer has
accepted for their row sums, in that order (R155), and the add cache of its adder, newest first (08_memory_system.md R275). -/
structure GalleyState where
  ptrs : Tbl Nat
  scrub : Nat
  formes : List Nat
  cache : List CacheBlk
deriving DecidableEq, Repr

/-- A galley at reset. -/
def GalleyState.init : GalleyState := ⟨[], 0, [], []⟩

/-! ### Result checking (06_result_checking.md) -/

/-- The majority that an odd member of a replica vote has found (06_result_checking.md R226, R227): the node to copy from, and its tally. -/
structure OddVote where
  src : Nat
  u : Nat
deriving DecidableEq, Repr

/-- The last replica vote of a partition's member (R227): its step, whether that step has been replayed for want of a majority, and the
repair that an odd member still has before it. -/
structure Vote where
  step : Nat
  replayed : Bool
  odd : Option OddVote
deriving DecidableEq, Repr

/-- No vote taken. -/
def Vote.init : Vote := ⟨0, false, none⟩

/-- A detection on its way to the CHK block of a die (R214, R217). -/
structure Detection where
  die : Nat
  tide : Nat
  code : Nat
  origin : Nat
  ukind : Nat
  udie : Nat
  core : Nat
  sub : Nat
  part : Nat
  seq : Nat
  detail0 : Nat
  detail1 : Nat
  shared : Bool
  rep : Bool
deriving DecidableEq, Repr

/-- A record of the CHK log (R214). -/
structure ChkRec where
  rseq : Nat
  det : Detection
  rehearsal : Bool
  node : Nat
  temp : Nat
  volt : Nat
  clock : Nat
  lps : Nat
  wuid : Nat
deriving DecidableEq, Repr

/-- The registers, sticks with their QEs, masks, conversion scale and flags that a vector instruction can read or write. -/
structure VecRegs where
  g : Tbl Word
  v : Tbl (BitVec 2048)
  m : Tbl (BitVec 256)
  vs : Tbl Stick
  vsqe : Tbl Int
  vct : Int
  vflags : Word
deriving DecidableEq, Repr

/-- A sampled vector instruction that waits for its proof (R207, R210): core, INSTRET, word, the operands copied as it issued, what the
original made of them and what the proof core made of the copies. -/
structure VProof where
  core : Nat
  instret : Nat
  word : Nat
  ops : VecRegs
  orig : VecRegs
  proof : VecRegs
deriving DecidableEq, Repr

/-- The tile being proved (R208): core and set, the QE of the clear, the sample's place in program order, and the forme and activation
tiles of each PRESS into the set since, oldest first; once the set has been drained or streamed, the tally of the original's output
bytes and the descriptor, with whether it is a stream. -/
structure TProof where
  core : Nat
  set : Nat
  qe : Int
  ord : Nat
  jobs : List (Tile × Tile)
  /-- The tally, once taken. -/
  tally : Option Nat
  stream : Bool
  desc : Nat
  /-- Sequence number of the last PRESS into the set (R215). -/
  seq : Nat
deriving DecidableEq, Repr

/-- A sample of the conditions of a die (R216): its tide, TEMP, VOLT, CLOCK and the load-pattern word of each core. -/
structure CondSample where
  tide : Nat
  temp : Nat
  volt : Nat
  clock : Nat
  lps : Tbl Nat
deriving DecidableEq, Repr

/-- The CHK block of a die: record number, records not yet passed on (log entry and record), the condition samples, newest first, that a
record may still take (R216), and the proofs in hand (R207). -/
structure ChkState where
  rseq : Nat
  waiting : List (Nat × ChkRec)
  samples : List CondSample
  vproofs : List VProof
  tproof : Option TProof
  /-- Whether the proof core was found faulty, which ends proofing on the die until a restart (R429). -/
  proofLost : Bool
deriving DecidableEq, Repr

def ChkState.init : ChkState := ⟨0, [], [], [], none, false⟩

/-- What a unit's fault history keeps of a record (R219). -/
structure HistEnt where
  tide : Nat
  temp : Nat
  volt : Nat
  clock : Nat
  lps : Nat
deriving DecidableEq, Repr

/-- A unit: its last four records, and the lowest and highest TEMP, VOLT, CLOCK, PDUTY and TOGGLE seen (R219, R221). -/
structure UnitState where
  hist : List HistEnt
  ranges : List (Int × Int)
  quarantined : Bool
deriving DecidableEq, Repr

def UnitState.init : UnitState := ⟨[], [], false⟩

/-- An injection as the FI block names it to the CHK block: unit, start, end (R219). -/
structure Rehearsal where
  unit : Nat
  start : Nat
  stop : Nat
deriving DecidableEq, Repr

/-! ### The lighter and the fabric (10_tideway_fabric.md) -/

/-- A STREAM that has started (R355): its place among the core's streams and drains; once read, its block words, and the tally that
its proof is to meet, if its set is sampled (R209). `tally` says that linear tallies were on as it started (R196). -/
structure StreamRun where
  ord : Nat
  tally : Bool
  read : Bool
  words : List Nat
  proof : Option Nat
deriving DecidableEq, Repr

/-- A started descriptor of a lighter (R337): the cells it waits for and those acknowledged, what a LOAD has received with
both tallies, its first failure (code, unit, detail), and whether its completion signal is on its way. `quiet` is one whose
core was reset: it raises nothing (R124); `ghost` one whose core was replaced (R129);
`tallied` says that transfer tallies were on as it started (R196, R199); `host` a LOAD through the host window (R481); `stream` a STREAM
until it sends. -/
structure Request where
  queue : Nat
  desc : Nat
  len : Nat
  total : Nat
  acked : Nat
  own : Nat
  theirs : Nat
  fail : Option (Nat × Nat × Nat)
  signalling : Bool
  quiet : Bool
  ghost : Bool
  tallied : Bool
  host : Bool
  stream : Option StreamRun
deriving DecidableEq, Repr

/-- A lighter: its requests by RID, and the queue it looks at next (R337), and by queue the tide since
which its head could start (R450), and the tide + 1 since which it waits for memory (R277). -/
structure LighterState where
  reqs : Tbl (Option Request)
  next : Nat
  ready : Tbl Nat
  held : Tbl Nat
deriving DecidableEq, Repr

def LighterState.init : LighterState := ⟨[], 0, [], []⟩


/-! ### Photonics (09_pholux_photonics.md) -/

/-- A laser's monitor (R283, R286): power and drive current at its first lock, and bad samples in a row. -/
structure LaserState where
  first : Option (Nat × Nat)
  bad : Nat
deriving DecidableEq, Repr

def LaserState.init : LaserState := ⟨none, 0⟩

/-- A takeover on its way (R284): base die, slot, the active bank, whether it was retired, and when it was declared. -/
structure Takeover where
  die : Nat
  wave : Nat
  bank : Nat
  retired : Bool
  since : Nat
deriving DecidableEq, Repr

/-- A port beside its registers (R287 to R306): the step of bring-up it is in and since when, slots that no ring of this end can use,
the tide of its last dark change, the peer's dark mask with its tide, the masks in force, whether it rotates, the peer's STIDE, the
positions the peer fills, those this end has faulted, the peer's NODE, PORT and STEP as last seen, the last step boundary applied,
the end of a calibration hold, whether LINK_TRAIN_FAIL is told, and by slot since when its power is low, with those told. -/
structure PortState where
  step : Nat
  since : Nat
  untun : Nat
  ownAt : Nat
  peer : Nat
  peerAt : Nat
  effOwn : Nat
  effPeer : Nat
  rotating : Bool
  peerSync : Option Nat
  filled : Nat
  lfault : Nat
  ident : Option (Nat × Nat × Nat)
  boundary : Nat
  hold : Option Nat
  noLight : Bool
  low : Tbl Nat
  lowTold : Nat
  dim : Tbl Nat
  eyes : Tbl Nat
  calSeq : Nat
  calAt : Option Nat
deriving DecidableEq, Repr

def PortState.init : PortState := ⟨0, 0, 0, 0, 0, 0, 0, 0, false, none, 0, 0, none, 0, none, false, [], 0, [], [], 0, none⟩

/-- A lane engine beside its registers: the tides of its counted faults (R303), when a move ends (R296), since when it recovers
(R302), whether the FI block drops it (R450), the tides of its uncorrectable codewords and its corrected bytes of the last 1 ms, the
name of the last codeword received, its descrambler (R290), the cell, block and codeword it sends next, its scrambler, when the block it
sends began, the name of the last codeword taken (R328), MARKs missing in a row and the tide of the last block boundary (R301), the tides of
all its uncorrectable codewords of the last 1 ms (R304), and the cause of the fault that it recovers from, 0 where a RETRAIN has it
recalibrate. -/
structure LaneState where
  faults : List Nat
  due : Option Nat
  since : Nat
  dropped : Bool
  uncorr : List Nat
  corr : List (Nat × Nat)
  rxSeq : Nat
  rxIdx : Nat
  scr : Nat
  tx : Option Cell
  txSeq : Nat
  txIdx : Nat
  txScr : Nat
  txAt : Option Nat
  took : Nat × Nat
  marks : Nat
  markAt : Nat
  spoilt : List Nat
  cause : Nat
deriving DecidableEq, Repr

def LaneState.init : LaneState := ⟨[], none, 0, false, [], [], 0, 0, 0, none, 0, 1, 0, none, (0, 0), 0, 0, [], 0⟩

/-- The tide servo beside its registers (12_the_tide.md R378, R379): when it entered its state, exchanges in a row within the lock
bound, whether a first exchange has jumped the tide, the SYNC_REQ in hand (SEQ and T1), the next SEQ, whether TIDE_FAULT is told,
whether the root has jumped to PTP time, the root epoch it has heard, when it last sent, since when a partition is imposed, and the
partitions imposed since it entered FAULT. -/
structure Servo where
  since : Nat
  good : Nat
  first : Bool
  req : Option (Nat × Nat)
  seq : Nat
  told : Bool
  ptp : Bool
  epoch : Nat
  sent : Option Nat
  imposed : Nat
  fresh : Nat
deriving DecidableEq, Repr

def Servo.init : Servo := ⟨0, 0, false, none, 0, false, false, 0, none, 0, 0⟩

/-! ### Register access (00_scope.md R15, R16) -/

/-- A register write on its way to the end of its tide tick (R389): the interface, the register's address, which halves it
carries, and the value. -/
structure RegCmd where
  src : Source
  addr : Nat
  low : Bool
  high : Bool
  value : Word
deriving DecidableEq, Repr

/-- A half that an interface holds for a register (R15). -/
structure Half where
  addr : Nat
  half : Nat
deriving DecidableEq, Repr

/-! ### The configuration write journal (16_host_network_management.md R505, R506) -/

/-- An entry of the journal (R505). `origin` holds the sender node of a manager order, `kind` JKIND. -/
structure JEntry where
  tide : Nat
  jseq : Nat
  addr : Nat
  code : Nat
  iface : Nat
  aux : Nat
  origin : Nat
  kind : Nat
  epoch : Nat
  old : Word
  new : Word
deriving DecidableEq, Repr

/-- A command that took effect in this tide tick (R389): its unit and class. -/
structure Applied where
  unit : Nat
  cls : Nat
deriving DecidableEq, Repr

/-! ### The ramp governor and fault injection (15_power_clocks_crossings.md, 14_faults_checkpoint_recovery.md) -/

/-- A released slot (R464): its number, the platen that holds it (4 · core + platen) or none where it runs ballast, and the
tide its ballast started. -/
structure RampSlot where
  slot : Nat
  owner : Option Nat
  since : Nat
deriving DecidableEq, Repr

/-- A PREWARM ramp (R388): its schedule slot, due tide S, first boundary B with the holds so far, and the waves done. -/
structure Prewarm where
  entry : Nat
  due : Nat
  base : Nat
  waves : Nat
  done : Bool
deriving DecidableEq, Repr

/-- The governor of a compute die: its level, released slots and PREWARM ramps, until when the last PREWARM start keeps its level (R465), the
last wave boundary acted on, whether its wave was held, whether a wave was held since the last report (R459), and the clock set at the last
five boundaries, newest first. -/
structure RampState where
  level : Nat
  slots : List RampSlot
  prewarms : List Prewarm
  keep : Nat
  last : Nat
  asked : Bool
  held : Bool
  clocks : List Nat
deriving DecidableEq, Repr

def RampState.init : RampState := ⟨0, [], [], 0, 0, false, false, []⟩

/-- The supply monitor beside its registers (R453, R454): samples in a row below 38.0 V, above 60.0 V, and, in a hold, at or above 40.0 V;
the tide t0 of the first of those below, the last input current, and when a power-off is complete; whether t0 is that of a hold, which a new fall
within 5 ms of it continues (R455), and whether that hold began before READY (18_start_up.md R528). -/
structure SupplyState where
  low : Nat
  high : Nat
  good : Nat
  t0 : Nat
  current : Option Nat
  offAt : Option Nat
  kept : Bool
  early : Bool
deriving DecidableEq, Repr

def SupplyState.init : SupplyState := ⟨0, 0, 0, 0, none, none, false, false⟩

/-- An active injection (R449): its start, and whether its kind's own end is reached (R450). -/
structure Injection where
  start : Nat
  used : Bool
deriving DecidableEq, Repr


/-! ### The tide schedule (12_the_tide.md) -/

/-- A pending slot (R381, R384): the entry, its source (0 I, 1 M, 2 P), when it was accepted, how many of its actions are done, the
tide of the last slip record, whether its action has begun and not ended (a PREWARM ramp or a held PREFETCH), the descriptor that a
held PREFETCH keeps (R189), and whether the entry has come to its die: an entry for another die holds its slot from its acceptance (R382). -/
structure SchedSlot where
  entry : Nat
  source : Nat
  accepted : Nat
  done : Nat
  told : Option Nat
  busy : Bool
  held : Option (List Byte)
  known : Bool
deriving DecidableEq, Repr

/-- A COLLECTIVE entry passed to the COLL block (R382): core, counter, CID and deadline. -/
structure CollAsk where
  core : Nat
  ctr : Nat
  cid : Nat
  deadline : Nat
deriving DecidableEq, Repr

/-- An HBM_MAINT window (R382): stack, channel, and its end. -/
structure Maint where
  stack : Nat
  chan : Nat
  stop : Nat
deriving DecidableEq, Repr

/-- How a die's count follows (R374, R376): the part of a tide unit beyond the count in 2^−40, whether it has aligned with die 12, the
correction per tide unit in 2^−40 with its end, rate changes due, and when it last sent a PROBE. -/
structure Follow where
  frac : Nat
  aligned : Bool
  slew : Int
  until_ : Nat
  rates : List (Nat × Nat)
  sent : Option Nat
deriving DecidableEq, Repr

def Follow.init : Follow := ⟨0, false, 0, 0, [], none⟩

/-! ### Host records and what leaves the module (16_host_network_management.md) -/

/-- A status record (R482) as it waits to be written: fields in the record's order. -/
structure StatusRec where
  seq : Nat
  tide : Nat
  code : Nat
  bkind : Nat
  body : List Byte
  die : Nat
  part : Nat
  node : Nat
  rehearsal : Bool
  lostBefore : Bool
deriving DecidableEq, Repr

/-- The kinds of thing the module sends out of itself: at the PCIe endpoint, on a lane and on a port's calibration slot (codewords in PAM4
levels), on the Quay link, to a manager, and at the other interfaces and pins. -/
inductive OutKind where
  | hostWrite | hostRead | hostCompletion | hostMessage | lane | control | quay | manager | mctp | eth | uart | jtag | pin
deriving DecidableEq, Repr

/-- One thing sent: its kind, where to, and its fields. -/
structure Out where
  kind : OutKind
  dest : Nat
  data : List Nat
deriving DecidableEq, Repr

/-- Status records: the module's sequence, the buffer of R486, the last 256, and the drops not yet told. -/
structure RecState where
  seq : Nat
  buf : List StatusRec
  last : List StatusRec
  dropped : Nat
  markNext : Bool
  /-- For codes written at most once per second: the tide of the last one, by code and place. -/
  lastAt : Tbl Nat
deriving DecidableEq, Repr

def RecState.init : RecState := ⟨0, [], [], 0, false, []⟩


/-! ### Ethernet (16_host_network_management.md R488 to R495) -/

/-- A WQE taken from a send ring (R491, R492): its bits, its first PSN and how many packets it has, the tally of its bytes, and for one that
failed its check the code. -/
structure SendJob where
  wqe : Nat
  psn : Nat
  packets : Nat
  tally : Nat
  code : Nat
deriving DecidableEq, Repr

/-- A CQE that waits for room in its ring, with the signal it is to send: core, counter and increment (R492). -/
structure CqeWait where
  cqe : Nat
  signal : Option (Nat × Nat × Nat)
deriving DecidableEq, Repr

/-- An incoming message whose last packet has not come (R493): a WRITE (address of its next byte, bytes left) or a SEND (its RQE, bytes so
far). -/
inductive Incoming where
  | write (addr left : Nat)
  | recv (rqe got : Nat)
deriving DecidableEq, Repr

/-- A queue pair beside its registers: WQEs sent or refused and not completed, CQEs that wait, the next PSN to be acknowledged, failed attempts and
RNR NAKs in a row, when it last sent or was answered, its sending rate in bit/s with the tide of its last change (R494), the incoming message,
whether a sequence error has been answered, and the entries of the send and receive ring still to end with RDMA_ERROR (R494). -/
structure QpState where
  jobs : List SendJob
  cqes : List CqeWait
  una : Nat
  tries : Nat
  rnr : Nat
  since : Nat
  rate : Nat
  rateAt : Nat
  incoming : Option Incoming
  naked : Bool
  drain : Option (Nat × Nat)
deriving DecidableEq, Repr

def QpState.init : QpState := ⟨[], [], 0, 0, 0, 0, 400_000_000_000, 0, none, false, none⟩

/-- The PTP time receiver (R495): locked, Syncs in a row within 100 ns and beyond 500 ns, the tide of the last Sync, its offset in ns, the mean path delay, and the port and rank of the chosen time transmitter. -/
structure PtpState where
  locked : Bool
  good : Nat
  bad : Nat
  last : Nat
  offset : Int
  delay : Int
  chosen : Option (Nat × Nat)
deriving DecidableEq, Repr

def PtpState.init : PtpState := ⟨false, 0, 0, 0, 0, 0, none⟩


/-! ### Quay link, home directories, HBM (07_package_and_quay_link.md, 08_memory_system.md) -/

/-- Who sent a MEM.REQ packet: the PCIe endpoint (with its tag), the management processor (with how it is to answer), a pilot's
instruction fetch, a lighter or router with a cell, a lighter that writes what request `rid` brought, `n` units of it from offset `off`,
or another unit that writes and waits for no answer. -/
inductive Agent where
  | pcie (tag : Nat)
  | mgmt (kind : OutKind) (dest tag : Nat)
  | fetch (core : Nat)
  | cell (c : Cell)
  | lighter (core rid n off : Nat)
  | unit (qp : Option (Nat × Nat))
deriving DecidableEq, Repr

/-- A MEM.REQ packet (R236): source die, partition tag, sender, local address and length, and the bytes of a write. -/
structure MemReq where
  src : Nat
  part : Nat
  agent : Agent
  addr : Nat
  len : Nat
  data : Option (List Byte)
deriving DecidableEq, Repr

/-- A request accepted at its die: when it arrived, whether its invalidations have been sent, and the acknowledgements it waits
for by line and holder (R246, R247). Holders 0 to 11 are compute dies, 12 the management processor. -/
structure HomeEnt where
  req : MemReq
  since : Nat
  begun : Bool
  waits : List (Nat × Nat)
deriving DecidableEq, Repr

/-- A directory entry (R245): its line, state M or S, the presence vector, and whether SECDED has found it beyond repair, so that its whole
set is invalidated (R249). -/
structure DirEnt where
  line : Nat
  mod : Bool
  holders : Nat
  lost : Bool
deriving DecidableEq, Repr

/-- An invalidation or a recall on its way from a home to a holder of a line (R246). -/
structure Inval where
  home : Nat
  target : Nat
  line : Nat
  recalls : Bool
deriving DecidableEq, Repr

/-- A transfer context (R342): the requester and how many of its data cells have been dealt with. -/
structure TransferCtx where
  src : Nat
  core : Nat
  rid : Nat
  done : Nat
deriving DecidableEq, Repr

/-- A request that waits in a pseudo-channel scheduler (R261). -/
structure SchedReq where
  line : Nat
  write : Bool
  since : Nat
deriving DecidableEq, Repr

/-- A pseudo-channel scheduler: its requests oldest first, the open row of each bank, whether it drains writes, and the requests of the add
cache that wait for room among its 64 (R261). -/
structure Sched where
  reqs : List SchedReq
  rows : Tbl Nat
  drain : Bool
  wait : List SchedReq
deriving DecidableEq, Repr

def Sched.init : Sched := ⟨[], [], false, []⟩

/-- A stack's controller beside its registers: log entries not taken (R270), corrections by row (R269), the tide of each row's
last record, rows to scrub, the patrol's next line (R268), by channel the tide since which it is not Active, its failed retrains
in a row (R278), the add cache, newest first (R275), its schedulers, and the last refresh of each
bank (R264). -/
structure HbmState where
  pend : List Nat
  rows : Tbl Nat
  told : Tbl Nat
  scrubs : List Nat
  patrol : Nat
  since : Tbl Nat
  fails : Tbl Nat
  cache : List CacheBlk
  scheds : Tbl Sched
  refreshed : Tbl Nat
  /-- Since when the stack is at its throttle temperature, its pace for temperature and its pace for the budget (R461, R467). -/
  hotSince : Option Nat
  hotPace : Nat
  budgetPace : Nat
deriving DecidableEq, Repr

def HbmState.init : HbmState := ⟨[], [], [], [], 0, [], [], [], [], [], none, 0, 0⟩

/-- A Quay link's history: failed replays in a row, the tides of its failed retrains, and whether the retrain in hand was ordered
(R239, R240, R256). -/
structure LinkState where
  replays : Nat
  fails : List Nat
  ordered : Bool
deriving DecidableEq, Repr

def LinkState.init : LinkState := ⟨0, [], false⟩

/-! ### Routers (10_tideway_fabric.md) -/

/-- A cell that waits in a router, since when, whether it is not to be combined (NOCOMB, R331, or a cell that has passed uncombined,
R332), the partition of the port by which it came, if it came by one (R336), and the one port it may leave by, if it is bound to one (R346,
R377). -/
structure WaitCell where
  cell : Cell
  since : Nat
  nocomb : Bool
  via : Option Nat
  port : Option Nat
deriving DecidableEq, Repr

/-- A ticket of a combining entry (R332): the requester, the OFFSET of its READ, and how many cells it sent into the entry. -/
structure Ticket where
  src : Nat
  core : Nat
  rid : Nat
  offset : Nat
  cells : Nat
deriving DecidableEq, Repr

/-- A combining entry (R332 to R334): its cell so far, its tickets, the slots it has been open, whether its cell has gone, the
responses still due, and whether it counts against its partition's reserve. -/
structure Combo where
  cell : Cell
  tickets : List Ticket
  age : Nat
  sent : Bool
  left : Nat
  reserved : Bool
deriving DecidableEq, Repr

/-- A link entry that a receiver forms (R327, R328): its port, kind (true FAULT), position, block and index, when it was formed
and whether it has been carried. -/
structure LinkEnt where
  port : Nat
  fault : Bool
  pos : Nat
  bseq : Nat
  index : Nat
  since : Nat
  carried : Bool
deriving DecidableEq, Repr

/-- A codeword that a sender holds (R329): port, position, block, index, its cells (none in a control codeword, index 0), when it was
sent, and whether it has been replayed. -/
structure HeldWord where
  port : Nat
  pos : Nat
  bseq : Nat
  index : Nat
  cells : List Cell
  since : Nat
  done : Bool
deriving DecidableEq, Repr

/-- A cell that a lane has received: the engine, the cell, and whether its CRC is right (R316). -/
structure Arrival where
  lane : Nat
  cell : Cell
  good : Bool
deriving DecidableEq, Repr

/-- The name of a link entry that a sender has acted on (R329), and when. -/
structure ActedName where
  port : Nat
  fault : Bool
  pos : Nat
  bseq : Nat
  index : Nat
  since : Nat
deriving DecidableEq, Repr

/-- A router: cells from its lanes, held cells, arrivals over the Quay link, local cells, the ejection buffer, combining entries by number, link
entries it sends, codewords it holds, the entry names it has acted on, the ports on which STARVE is received, with whether
the last slot admitted local cells to them, and, with the base die they come from, cells that have crossed the Quay link to it since its last slot (R316 to R336). -/
structure RouterState where
  arr : List Arrival
  held : List WaitCell
  quay : List WaitCell
  loc : List WaitCell
  eject : List Cell
  combos : Tbl (Option Combo)
  ents : List LinkEnt
  words : List HeldWord
  acted : List ActedName
  starved : Tbl Bool
  crossing : List (Nat × WaitCell)
deriving DecidableEq, Repr

def RouterState.init : RouterState := ⟨[], [], [], [], [], [], [], [], [], [], []⟩


/-! ### Collectives (11_collectives_and_job_mapping.md) -/

/-- What a collective context gathers beside its registers (R365): tide of the first addition and of the firing, and the node and
core whose signal fired the counter. -/
structure CollCtx where
  first : Nat
  fire : Nat
  node : Nat
  core : Nat
  fired : Bool
deriving DecidableEq, Repr

def CollCtx.init : CollCtx := ⟨0, 0, 0, 0, false⟩

/-- A change of a completion counter (R344): a CCSET, or an addition with the node and core it comes from. -/
inductive CcChange where
  | set (c n count target token : Nat)
  | add (c n inc node who : Nat)
deriving DecidableEq, Repr

/-- An ABORT that a COLL block has acted on (R362, R363): its CID and partition, its code and tide, and when. -/
structure AbortSeen where
  cid : Nat
  part : Nat
  code : Nat
  tide : Nat
  at_ : Nat
deriving DecidableEq, Repr


/-! ### Harbourmasters and teardowns (14_faults_checkpoint_recovery.md, 16_host_network_management.md) -/

/-- A manager control message sent that waits for its ACK (R497): receiver, MKIND, MSGID, epoch, its bytes, when it was last sent and
how often. -/
structure MgrMsg where
  dest : Nat
  kind : Nat
  msgid : Nat
  epoch : Nat
  data : List Byte
  sent : Nat
  tries : Nat
deriving DecidableEq, Repr

/-- What heartbeats tell of another module (R433 to R435, R451): its role and slot, the tide of the last one, and until when its
losses are not counted. -/
structure Peer where
  role : Nat
  slot : Nat
  last : Nat
  pause : Nat
deriving DecidableEq, Repr

/-- The management processor's place on the board, beside MGMT_ROLE: when its heartbeat window opened, whether it holds a role or step 8
has ended without one, the epoch of its own claim and of its harbourmaster's, the modules heard, the next MSGID, messages without an
ACK, and by sender the MSGIDs acted on (R433, R497, R537). -/
structure MgrState where
  window : Option Nat
  settled : Bool
  own : Nat
  hmEpoch : Nat
  peers : Tbl (Option Peer)
  next : Nat
  out : List MgrMsg
  acted : Tbl (List Nat)
  /-- When heartbeats were last sent, and until when this module's own pause runs (R434, R451). -/
  beat : Option Nat
  pause : Nat
  /-- REPLY messages received: sender, the MSGID answered, CODE and data (R496). -/
  replies : List (Nat × Nat × Nat × List Byte)
  /-- COLL_DEADLINE aborts that a harbourmaster counts as rehearsals (R450). -/
  rehearsed : Nat
deriving DecidableEq, Repr

def MgrState.init : MgrState := ⟨none, false, 0, 0, [], 0, [], [], none, 0, [], 0⟩

/-- A pre-emption that this module leads (R443, R446): the job, the deadline Dp, the tide of the notice on the job's lead die, whether its MARK
entries are placed, whether its checkpoint is complete or has ended late, and whether Dp has come. -/
structure Preempt where
  job : JobMark
  deadline : Nat
  notice : Nat
  marked : Bool
  saved : Bool
  late : Bool
  past : Bool
deriving DecidableEq, Repr

/-- An interval of a COLL_DELAY injection of a partition (R450). -/
structure DelayRun where
  part : Nat
  start : Nat
  stop : Nat
deriving DecidableEq, Repr

/-- Pilot firmware (R451, 16_host_network_management.md R502, R504): its image in force by flash address, one that is staged, the cores that
have written WUMARK since, and the clusters that run the staged image, as masks. -/
structure PilotFw where
  image : Tbl Byte
  staged : Option (Tbl Byte)
  marked : Nat
  taken : Nat
deriving DecidableEq, Repr

def PilotFw.init : PilotFw := ⟨[], none, 0, 0⟩

/-- A teardown that a partition has had (R346, R438): when its first copy arrived, the lowest TIDE then CODE among the copies, the dead
node or 0x1000, and whether its record is written. -/
structure TornPart where
  first : Nat
  code : Nat
  tide : Nat
  node : Nat
  told : Bool
deriving DecidableEq, Repr


/-! ### The imposition loader (13_imposition_image.md) -/

/-- Why an image is refused (R415, R416): the code, the section's table index (0xFF for the header or table), the record (0xFFFF for
none) and the byte offset, where a field, an entry, a section or a record fails. -/
structure ImgBad where
  code : Nat
  sect : Nat
  record : Nat
  off : Option Nat
deriving DecidableEq, Repr

/-- A load in hand (R414 to R418): who loads, the copy of the image, what refuses it before it is read, the dies written, the ports whose
settings changed, and the die at which a write failed. -/
structure LoadRun where
  src : Source
  image : List Byte
  bad : Option ImgBad
  dies : List Nat
  ports : List Nat
  failed : Option Nat
deriving DecidableEq, Repr

/-- What a partition's last image gave it: clusters, ports and lane engines as masks (R399, R406, R407). -/
structure Claim where
  clusters : Nat
  ports : Nat
  engines : Nat
deriving DecidableEq, Repr

def Claim.init : Claim := ⟨0, 0, 0⟩


/-! ### Start-up (18_start_up.md) -/

/-- What start-up keeps beside MGMT_BOOT and MGMT_STRAP: the first strap sample, the tide of the last one that disagreed (R529), whether
step 6 is done, the quarantine entries that are not stored (R535), FLAGS of a good start-up record (R530), whether AUTOSTART has loaded,
whether the identity key could not be read and ATTESTATION_FAILED has been written (R502), and whether a reset waits for the end of a
brownout hold (R519); and the nanoseconds since t0 (R528), counted up to those by which die 12's PLLs have locked (R532). -/
structure BootState where
  sample : Option Nat
  again : Option Nat
  hbmDone : Bool
  unstored : List Nat
  flags : Nat
  auto : Bool
  keyBad : Bool
  attested : Bool
  resetWaits : Bool
  age : Nat
deriving DecidableEq, Repr

def BootState.init : BootState := ⟨none, none, false, [], 0, false, false, false, false, 0⟩


/-! ### Management (16_host_network_management.md R499 to R509, 19_register_address_map.md R548) -/

/-- An SPDM connection (R502): how far negotiation is (0 none, 1 version, 2 capabilities, 3 algorithms), and the version chosen. -/
structure SpdmConn where
  stage : Nat
  version : Nat
deriving DecidableEq, Repr

def SpdmConn.init : SpdmConn := ⟨0, 0⟩

/-- The instructions of the JTAG port (R509). -/
inductive TapInstr where
  | bypass | idcode | sample | extest | clamp | debug
deriving DecidableEq, Repr

/-- The UART beside its receive FIFO (R507): the transmit FIFO's bytes, until when the character being sent takes the line, and whether the
receiver looks for a start edge only after a high sample. -/
structure UartState where
  tx : List Byte
  busy : Option Nat
  high : Bool
deriving DecidableEq, Repr

def UartState.init : UartState := ⟨[], none, false⟩

/-- A Memory Read request to the host (R476, R481): the tag of its transfer, the window address that it reads, that address's place in the
transfer, its bytes, how many of them have come, and when it was sent, where it has been. -/
structure HostRead where
  tag : Nat
  addr : Nat
  off : Nat
  len : Nat
  got : Nat
  sent : Option Nat
deriving DecidableEq, Repr

/-- The configuration space of the PCIe function, as far as it can differ from its reset value (R476, R479): Command, the words of the BARs,
whether the function is in D3hot, Device Control, and the registers of Advanced Error Reporting: uncorrectable status, mask and severity,
correctable status and mask. Their reset values are those of PCIe (PRESUMED, log entry 21). -/
structure PcieFn where
  command : Nat
  bars : Tbl Nat
  d3hot : Bool
  devCtl : Nat
  uncorr : Nat
  uncorrMask : Nat
  uncorrSev : Nat
  corr : Nat
  corrMask : Nat
deriving DecidableEq, Repr

def PcieFn.init : PcieFn := ⟨0, [], false, 0x2000, 0, 0, 0x0046_2030, 0, 0x6000⟩

/-- The TAP controller: its instruction, and the boundary bits preloaded. -/
structure TapState where
  instr : TapInstr
  preload : Nat
deriving DecidableEq, Repr

/-- After TRST# the TAP holds IDCODE. -/
def TapState.init : TapState := ⟨.idcode, 0⟩

/-- A flash command in progress (R548): 1 READ, 2 PROGRAM, 3 ERASE; its address, and the buffer it programs. -/
structure FlashOp where
  cmd : Nat
  addr : Nat
  data : List Byte
deriving DecidableEq, Repr

/-! ### The module -/

/-- A manager message as it comes in, or an order over TCP (16_host_network_management.md R496, R497). -/
structure MgrIn where
  src : Nat
  msgid : Nat
  epoch : Nat
  body : Nat
  tcp : Bool
deriving DecidableEq, Repr

/-- Who reads a register, and by what the answer is named: PCIe, a 32-bit read by an interface, JTAG, MCTP, an order. -/
inductive RegReader where
  | pcie (tag : Nat)
  | half (src : Source) (tag : Nat)
  | jtag
  | mctp (tag : Nat)
  | order (m : MgrIn)
deriving DecidableEq, Repr

/-- A read of a register, of 8 bytes or of 4. -/
structure RegRead where
  reader : RegReader
  addr : Nat
  len : Nat
deriving DecidableEq, Repr

/-- The state of one GX12 module. Tables are sparse: an unlisted key reads as the table's reset entry. -/
structure State where
  /-- The commands that wait, first in, first out: the model's own field. -/
  pending : List Instr
  /-- Counts free values taken: the model's own field. -/
  freeCount : Nat
  /-- Bytes of HBM and galleys by local address (00_scope.md, Addresses). -/
  mem : Tbl Byte
  /-- Error marks: by galley word (address of its 8 bytes) or HBM line (address of its 64 bytes); 1 correctable, 2 not. -/
  marks : Tbl Nat
  /-- Registers of register space by address (R541), where they differ from their reset values. -/
  regs : Tbl Word
  /-- Register writes of this tide tick, in order of arrival (R389). -/
  gathered : List RegCmd
  /-- By interface: the latched high half of a read, and the held low half of a write (R15). -/
  latches : Tbl (Option Half)
  holds : Tbl (Option Half)
  /-- Whether the dies other than die 12 have left reset (R532), and the dies lost (R240). -/
  released : Bool
  lost : List Nat
  /-- The tide of each die (R374). -/
  tide : Tbl Nat
  cores : Tbl CoreState
  presses : Tbl PressState
  lighters : Tbl LighterState
  /-- Error-log records not read since they were written, by address (R167). -/
  unread : List Nat
  chk : Tbl ChkState
  units : Tbl UnitState
  rehearsals : List Rehearsal
  detections : List Detection
  /-- Stand-ins asked for: the core, and whether FI_RETIRE asked (R430). -/
  standAsks : List (Nat × Bool)
  /-- Teardowns that the management processor is to ask its harbourmaster for: partition and code (R431, R434). -/
  teardownAsks : List (Nat × Nat)
  recs : RecState
  /-- The journal by entry, its newest JSEQ, and the commands of this tick that took effect (R389, R505). -/
  journal : Tbl JEntry
  jseq : Nat
  applied : List Applied
  /-- Orders accepted in this tide tick: node and epoch (R391). -/
  ordersNow : List (Nat × Nat)
  /-- Configuration space of the PCIe function (R476, R479). -/
  pcie : PcieFn
  /-- The UART (R507). -/
  uart : UartState
  /-- Pilot firmware in force and staged (R451). -/
  pilotFw : PilotFw
  /-- The intervals of COLL_DELAY injections on this module (R450). -/
  delays : List DelayRun
  /-- By partition: the last step that it has replayed, as that step plus 2, 1 where no commit word gave its number, 0 for none (R432). -/
  replays : Tbl Nat
  /-- Register reads whose way to their die is not up: they wait there (07_package_and_quay_link.md R239). -/
  regReads : List RegRead
  /-- Writes of received RDMA data that ended with an error at their home after 2 ms: queue pair and PSN, which the Ethernet block acts on (08_memory_system.md R277, 16_host_network_management.md R494). -/
  unitErrs : List (Nat × Nat)
  /-- The homes whose next lookup for a unit of the device finds an entry that SECDED cannot correct (07_package_and_quay_link.md R249). -/
  dirBad : List Nat
  /-- Duties of members at marks that wait for the homes of their tensors, with the partition (07_package_and_quay_link.md R246, R247). -/
  duties : List (Nat × MemberMark)
  /-- OT fields written since cold reset, by address and place (R13). -/
  otDone : List (Nat × Nat)
  /-- By compute die. -/
  ramps : Tbl RampState
  /-- Active injections, by die · 16 + index. -/
  injections : Tbl (Option Injection)
  /-- Case engines, by die · 16 + engine. -/
  engines : Tbl EngState
  /-- History slots by die · 1,024 + slot, and the partitions' ranges by die · 32 + partition (R156). -/
  hist : Tbl HistSlot
  histRanges : Tbl HistRange
  /-- By compute die. -/
  galleys : Tbl GalleyState
  /-- Berths held, by die · 2^32 + handle (R170), and audit crossings by die · 256 + owner (R175). -/
  berths : Tbl (Option BerthEnt)
  audits : Tbl AuditState
  /-- Lanes that quarantine takes out of service: base die and lane engine (R222). -/
  laneAsks : List (Nat × Nat)
  /-- MEM.REQ packets on their way to a die, and requests accepted at it, in order of arrival (R237, R247). -/
  quay : Tbl (List MemReq)
  homes : Tbl (List HomeEnt)
  /-- Directory sets by base die · 8,192 + set, most recently used first (R248), and invalidations on their way (R246). -/
  dirs : Tbl (List DirEnt)
  invals : List Inval
  /-- Transfer contexts by base die (R342). -/
  ctxs : Tbl (List TransferCtx)
  /-- By stack. -/
  hbms : Tbl HbmState
  /-- By die · 8 + link. -/
  links : Tbl LinkState
  /-- Dies whose clocks have stopped: a PLL lost or a trip (R243, R467), and whether the reference is lost. -/
  clockLost : List Nat
  refLost : Bool
  /-- By base die, 12 to 15. -/
  routers : Tbl RouterState
  /-- By die · 512 + core · 32 + counter; and by die: arrival records written, the next early entry, ABORTs acted on (R362, R365). -/
  collCtxs : Tbl CollCtx
  collRecs : Tbl Nat
  collEarly : Tbl Nat
  collSeen : Tbl (List AbortSeen)
  /-- Changes of completion counters that come after a register write of the same tick (R344). -/
  ccHeld : List CcChange
  /-- ABORTs and TEARDOWNs that the node has forwarded: CID and tide; partition, code and tide (R346, R361). -/
  abortsFlooded : List (Nat × Nat)
  teardownsSeen : List (Nat × Nat × Nat)
  /-- Records that a die has said are waiting (RECORD_READY, R217). -/
  recordReady : Tbl Nat
  /-- Lasers by base die · 128 + 17 · bank + slot, takeovers on their way, and by base die · 32 + slot the tide of the last declaration (R284). -/
  lasers : Tbl LaserState
  takeovers : List Takeover
  declared : Tbl Nat
  /-- By base die: the slots whose wavelength is lost (R285). -/
  waves : Tbl Nat
  /-- By global port; and by lane. -/
  ports : Tbl PortState
  lanes : Tbl LaneState
  /-- The tide at which the module first set TSYNC (R297). -/
  stide : Option Nat
  /-- CONTROL and MGMT cells that have been taken from a port, with the port (R346, R361, R377). -/
  ctl : List (Nat × Cell)
  servo : Servo
  mgr : MgrState
  /-- By partition: the teardown since it was last imposed (R438). -/
  torn : Tbl (Option TornPart)
  /-- Pending slots by die · 1,024 + slot; words 0 to 2 of TIDE_PUT by die · 4 + word (R392). -/
  entries : Tbl (Option SchedSlot)
  puts : Tbl Nat
  collAsks : List CollAsk
  maints : List Maint
  /-- By die. -/
  follow : Tbl Follow
  preempts : List Preempt
  /-- By partition (06_result_checking.md R227). -/
  votes : Tbl Vote
  /-- Staged records by (type · 24 + partition) · 16 + die: 0 LANE, 1 TIDE, 2 CHECK (13_imposition_image.md R424). -/
  staged : Tbl (Option (List Nat))
  boot : BootState
  /-- The load in hand. -/
  loader : Option LoadRun
  /-- By partition: what its last image gave it. -/
  claims : Tbl Claim
  /-- By partition: a teardown whose record is not written yet when a load begins (R438). -/
  tornOld : Tbl (Option TornPart)
  /-- Whether power is off (R453, R454). -/
  off : Bool
  /-- Boot flash by byte address (R547); an unlisted byte is erased. -/
  flash : Tbl Byte
  /-- Bridges marked failed (R240): 0 and 1 the horizontal ones, 2 and 3 the vertical ones. -/
  broken : List Nat
  /-- The quarantine table as boot flash keeps it over a cold reset: the words of each entry (R223). -/
  flashQuar : List (Nat × Nat)
  /-- The supply monitor. -/
  supply : SupplyState
  /-- BODY of the last BUDGET message that a die holds of another, by receiver · 16 + sender; the T of the last one sent, by die; the T of the last allocation, by die (R459, R460). -/
  budgets : Tbl Nat
  budgetSent : Tbl Nat
  budgetDone : Tbl Nat
  /-- Intervals in a row with INPUT at most 97 % of E (R462). -/
  calm : Nat
  /-- Dies throttled by their own sensor, and base dies whose temperature rises (R466). -/
  hot : List Nat
  rising : List Nat
  /-- Since when a crossing's clock stands, by die · 16 + group, until it has timed out (R471). -/
  crossStops : Tbl (Option Nat)
  /-- Memory Reads of host memory, sent and waiting to be sent (R476, R481). -/
  hostReads : List HostRead
  /-- Deadlines written to PCIE_PREEMPT other than by the host, not yet passed on (R487). -/
  preemptDps : List Nat
  /-- Queue pairs, by number; by port, until when RoCEv2 frames pause (R488); and frames that wait for the pause's end. -/
  qps : Tbl QpState
  ethPause : Tbl Nat
  ethHeld : List (Nat × List Nat)
  ptp : PtpState
  /-- HCRC of the last image loaded or staged, beside IMPO_LAST (R502). -/
  lastHcrc : Nat
  /-- The MCTP endpoint id (R499), and SPDM connections: 0 over MCTP, 1 over PCIe DOE. -/
  eid : Nat
  spdm : Tbl SpdmConn
  /-- The receive FIFO of the UART (R507). -/
  uartRx : List Byte
  /-- The JTAG TAP controller (R509). -/
  tap : TapState
  /-- The flash command in progress (R548). -/
  flashOp : Option FlashOp
  /-- A firmware swap asked for by a register write and not yet verified (R549). -/
  swapAsk : Option Source
  /-- MOD_PG is released high (R520); a cold reset begins with it high (R528). -/
  modPg : Bool
  outbox : List Out
deriving DecidableEq, Repr

/-- The module right after a cold reset (R528). -/
def State.reset : State where
  pending := []
  freeCount := 0
  mem := []
  marks := []
  regs := []
  gathered := []
  latches := []
  holds := []
  released := false
  lost := []
  tide := []
  cores := []
  presses := []
  lighters := []
  unread := []
  chk := []
  units := []
  rehearsals := []
  detections := []
  standAsks := []
  teardownAsks := []
  recs := RecState.init
  journal := []
  jseq := 0
  applied := []
  ordersNow := []
  pcie := PcieFn.init
  uart := UartState.init
  pilotFw := PilotFw.init
  delays := []
  replays := []
  regReads := []
  unitErrs := []
  dirBad := []
  duties := []
  otDone := []
  ramps := []
  injections := []
  engines := []
  hist := []
  histRanges := []
  galleys := []
  berths := []
  audits := []
  laneAsks := []
  quay := []
  homes := []
  dirs := []
  invals := []
  ctxs := []
  hbms := []
  links := []
  clockLost := []
  refLost := false
  routers := []
  collCtxs := []
  collRecs := []
  collEarly := []
  collSeen := []
  ccHeld := []
  abortsFlooded := []
  teardownsSeen := []
  recordReady := []
  lasers := []
  takeovers := []
  declared := []
  waves := []
  ports := []
  lanes := []
  stide := none
  ctl := []
  servo := Servo.init
  mgr := MgrState.init
  torn := []
  entries := []
  puts := []
  collAsks := []
  maints := []
  follow := []
  preempts := []
  votes := []
  staged := []
  boot := BootState.init
  loader := none
  claims := []
  tornOld := []
  off := false
  flash := []
  broken := []
  flashQuar := []
  supply := SupplyState.init
  budgets := []
  budgetSent := []
  budgetDone := []
  calm := 0
  hot := []
  rising := []
  crossStops := []
  hostReads := []
  preemptDps := []
  qps := []
  ethPause := []
  ethHeld := []
  ptp := PtpState.init
  lastHcrc := 0
  eid := 0
  spdm := []
  uartRx := []
  tap := TapState.init
  flashOp := none
  swapAsk := none
  modPg := true
  outbox := []

end Sys2Proof.Machine
end

