-- ==== Sys2Proof/Machine/Ops.lean ====
section
/-! DEFINITION. The shared operations over the state: registers and their fields, memory with its error marks, tables of
units, status records, detections, events and tokens. -/

namespace Sys2Proof.Machine
open Sys2Proof

/-! ### Registers -/

/-- Where an offset falls in a register's repetition: the word it names, if any. -/
def dimsAt : List (Nat × Nat) → Nat → Nat → Option Nat
  | [], words, o => if o % 8 = 0 && decide (o / 8 < words) then some (o / 8) else none
  | (stride, count) :: r, words, o => if o / stride < count then dimsAt r words (o % stride) else none

/-- The word of register `d` that an offset names. -/
def RegDesc.wordAt (d : RegDesc) (off : Nat) : Option Nat :=
  if d.base ≤ off then dimsAt d.dims d.words (off - d.base) else none

/-- The first register of a list that holds an offset, with the word. -/
def findReg (die off : Nat) : List RegDesc → Option (RegDesc × Nat)
  | [] => none
  | d :: r => match d.wordAt off with
    | some w => if d.dies.has die then some (d, w) else findReg die off r
    | none => findReg die off r

/-- Whether an address lies in register space (R89, R477): die ids above 15 in it name no die, and their offsets are reserved (R542). -/
def inRegs (a : Nat) : Bool := decide (0xF0_0000_0000 ≤ a) && decide (a < 0x100_0000_0000)

/-- The die, block and offset of a register address (R541). -/
def regDie (a : Nat) : Nat := (a - 0xF0_0000_0000) / 0x1000_0000
def regBlock (a : Nat) : Nat := (a / 0x10_0000) % 256
def regOff (a : Nat) : Nat := a % 0x10_0000

/-- Whether a block is present on a die (R542): some register of it is. -/
def blockOn (block die : Nat) : Bool := (blockRegs block).any fun d => d.dies.has die

/-- Offsets that a table gives to some dies alone and reserves on others: the windows of Quay links that a die has not (R256), and on compute
dies the place of CHK_PKEY (R228), where entries 4 to 6 of CHK_LOG would lie. -/
def reservedPlace (die block off : Nat) : Bool :=
  (block == 7 && decide (off < 0x8000) && decide ((if die < 12 then 0x1000 else 0x5000) ≤ off))
    || (block == 15 && decide (die < 12) && decide (0x200 ≤ off) && decide (off < 0x2C0))

/-- The register and word at an address of register space; none is reserved (R14, R542). -/
def regAt (a : Nat) : Option (RegDesc × Nat) :=
  if inRegs a && blockOn (regBlock a) (regDie a) then
    match findReg (regDie a) (regOff a) commonRegs with
    | some r => some r
    | none => if reservedPlace (regDie a) (regBlock a) (regOff a) then none
      else findReg (regDie a) (regOff a) (blockRegs (regBlock a))
  else none

/-- The fields of word `w`. -/
def RegDesc.wordFields (d : RegDesc) (w : Nat) : List FieldDesc := d.fields.filter fun f => f.word == w

/-- The reset value that a register's fields give. -/
def resetOf (fs : List FieldDesc) : Word := fs.foldl (fun w f => f.fld.set w f.reset) 0

/-- The die at the far end of Quay link `l` of a die (R236): stack ports, then bridges. -/
def quayPeer (die l : Nat) : Nat :=
  if die < 12 then 12 + die / 3
  else if l < 3 then 3 * (die - 12) + l
  else if l = 3 then 12 + ((die - 12) ^^^ 1)
  else 12 + ((die - 12) ^^^ 2)

/-- Reset values that the tables give by place: BLK_ID (R544), QUAY_LSTATUS (R256), TIDE_SCHED (R392), PWR_THERM (R466), and PWR_STATUS,
whose CLOCK is a field of the compute dies and reads zero on the base dies (R474). -/
def resetByPlace (a : Nat) : Option Word :=
  let die := regDie a
  let blk := regBlock a
  let off := regOff a
  if off = 0xF_F000 then some (BitVec.ofNat 64 (0x1F6E_4712_A100_0001 + blk * 0x1_0000 + die * 0x1000))
  else if blk = 7 && decide (off < 0x8000) && off % 0x1000 == 0 then
    some (BitVec.ofNat 64 (quayPeer die (off / 0x1000) * 2 ^ 20 + (off / 0x1000) * 2 ^ 16))
  else if blk = 13 && off == 0x30 then some (BitVec.ofNat 64 ((if die < 12 then 1024 else 256) * 2 ^ 16))
  else if blk = 17 && off == 8 && decide (12 ≤ die) then some 0
  else if blk = 17 && off == 0x28 then
    some (if die < 12 then BitVec.ofNat 64 (1760 * 2 ^ 32 + 1552 * 2 ^ 16 + 1600) else
      BitVec.ofNat 64 (1680 * 2 ^ 32 + 1472 * 2 ^ 16 + 1520))
  else none

/-- What a register reads before anything has changed it. -/
def regReset (a : Nat) : Word :=
  match regAt a with
  | none => 0
  | some (d, w) => match resetByPlace a with
    | some v => v
    | none => resetOf (d.wordFields w)

/-- The held value of the register at an address. -/
def State.reg (s : State) (a : Nat) : Word := Tbl.get (regReset a) s.regs a

/-- Setting the held value of a register. -/
def State.setReg (s : State) (a : Nat) (v : Word) : State := { s with regs := Tbl.set (regReset a) s.regs a v }

/-- A field of the register at an address. -/
def State.fld (s : State) (a : Nat) (f : Fld) : Nat := f.get (s.reg a)

/-- Setting a field of a register. -/
def State.setFld (s : State) (a : Nat) (f : Fld) (v : Nat) : State := s.setReg a (f.set (s.reg a) v)

/-- Setting fields of one register in turn. -/
def State.setFlds (s : State) (a : Nat) (fs : List (Fld × Nat)) : State :=
  s.setReg a (fs.foldl (fun w p => p.1.set w p.2) (s.reg a))

/-- A counter field that holds at its largest value. -/
def State.bump (s : State) (a : Nat) (f : Fld) : State :=
  s.setFld a f (holdAt (2 ^ f.width - 1) (s.fld a f + 1))

/-- A counter field that wraps. -/
def State.bumpWrap (s : State) (a : Nat) (f : Fld) : State := s.setFld a f (s.fld a f + 1)

/-- A counter field raised by `n`, wrapping. -/
def State.addWrap (s : State) (a : Nat) (f : Fld) (n : Nat) : State := s.setFld a f (s.fld a f + n)

/-! ### Units by number -/

/-- Whether a die answers: it has left reset and is not lost (R543). -/
def State.dieUp (s : State) (die : Nat) : Bool := (die == 12 || s.released) && !s.lost.contains die && !s.off

/-- Whether the module is in a brownout hold, or powering off after one (R454). -/
def State.brownout (s : State) : Bool := decide (2 ≤ s.fld a_PWR_SUPPLY f_PWR_SUPPLY_STATE)

/-- Whether a die stands without clocks: a PLL or the reference lost (R243), or a compute die in a brownout hold (R454). -/
def State.stopped (s : State) (die : Nat) : Bool := s.clockLost.contains die || s.refLost || (decide (die < 12) && s.brownout)

/-- The tide of a die (R374). -/
def State.tideOf (s : State) (die : Nat) : Nat := Tbl.get 0 s.tide die

def State.core (s : State) (c : Nat) : CoreState := Tbl.get CoreState.init s.cores c
def State.setCore (s : State) (c : Nat) (k : CoreState) : State := { s with cores := Tbl.set CoreState.init s.cores c k }
def State.press (s : State) (c : Nat) : PressState := Tbl.get PressState.init s.presses c
def State.setPress (s : State) (c : Nat) (p : PressState) : State :=
  { s with presses := Tbl.set PressState.init s.presses c p }
def State.chkOf (s : State) (d : Nat) : ChkState := Tbl.get ChkState.init s.chk d
def State.setChk (s : State) (d : Nat) (k : ChkState) : State := { s with chk := Tbl.set ChkState.init s.chk d k }
def State.unit (s : State) (u : Nat) : UnitState := Tbl.get UnitState.init s.units u
def State.setUnit (s : State) (u : Nat) (k : UnitState) : State := { s with units := Tbl.set UnitState.init s.units u k }

/-- Changing one core. -/
def State.modCore (s : State) (c : Nat) (f : CoreState → CoreState) : State := s.setCore c (f (s.core c))

/-- Changing one press. -/
def State.modPress (s : State) (c : Nat) (f : PressState → PressState) : State := s.setPress c (f (s.press c))

/-- The compute die of a core, and its place on the die (00_scope.md, Identifiers). -/
def coreDie (c : Nat) : Nat := c / 13
def coreNo (c : Nat) : Nat := c % 13

/-- The base die (12 to 15) under a die. -/
def baseOf (die : Nat) : Nat := if die < 12 then 12 + die / 3 else die

/-- The core a core acts as: itself, or the failed core it stands in for (R129). -/
def State.logical (s : State) (c : Nat) : Nat :=
  match (s.core c).standin with
  | some f => f
  | none => c

/-- The core that answers for an identity: the proof core of the die where it stands in for it (R129). -/
def State.actor (s : State) (c : Nat) : Nat :=
  let p := 13 * coreDie c + 12
  if (s.core p).standin = some c then p else c

/-- The cluster of a core on its die: 0 for cores 0 to 5, 1 for the others. -/
def State.clusterOf (s : State) (c : Nat) : Nat := if coreNo (s.logical c) < 6 then 0 else 1

/-- The partition of a core: its cluster's galley window names it (R138). -/
def State.partOf (s : State) (c : Nat) : Nat :=
  s.fld (a_GALLEY_WIN (coreDie c) (s.clusterOf c)) f_GALLEY_WIN_PART

/-- The checking level of a core's cluster: 0 Off, 1 Lean, 2 Checked (R6, R228). -/
def State.levelOf (s : State) (c : Nat) : Nat := s.fld (a_CHK_CFG (coreDie c) (s.clusterOf c)) f_CHK_CFG_LEVEL

/-- Whether a partition runs Invariant mode (R2), as the adders of base die 12 hold it (R280). -/
def State.invariant (s : State) (part : Nat) : Bool := s.fld (a_HBM_PART 12 part) f_HBM_PART_INVARIANT == 1

/-- The module's node id (R310). -/
def State.nodeId (s : State) : Nat := s.fld (a_RTR_NODE 12) f_RTR_NODE_NODE

/-- A partition's state (13_imposition_image.md R412). -/
def State.pstate (s : State) (p : Nat) : Nat := bits (s.reg a_IMPO_PSTATE).toNat (2 * p + 1) (2 * p)

/-! ### Memory -/

/-- HBM: twelve stacks of 64 GiB, one after the other (00_scope.md, Addresses). -/
def isHbm (a : Nat) : Bool := decide (a < 0xC0_0000_0000)

/-- The galleys: 256 MiB for each compute die. -/
def isGalley (a : Nat) : Bool := decide (0xE0_0000_0000 ≤ a) && decide (a < 0xE0_C000_0000)

/-- The die of a galley address. -/
def galleyDie (a : Nat) : Nat := (a - 0xE0_0000_0000) / 0x1000_0000

/-- The first address of a die's galley. -/
def galleyBase (die : Nat) : Nat := 0xE0_0000_0000 + die * 0x1000_0000

/-- Whether `n` bytes from `a` all lie in the galley of a die. -/
def inGalley (die a n : Nat) : Bool := decide (galleyBase die ≤ a) && decide (a + n ≤ galleyBase (die + 1))

/-- Whether `n` bytes from `a` all lie in HBM. -/
def inHbm (a n : Nat) : Bool := decide (a + n ≤ 0xC0_0000_0000)

/-- A byte of memory; what nothing has written reads as zero. -/
def State.byte (s : State) (a : Nat) : Byte := Tbl.get 0 s.mem a

/-- Writing one byte. -/
def State.setByte (s : State) (a : Nat) (b : Byte) : State := { s with mem := Tbl.set 0 s.mem a b }

/-- `n` bytes from an address. -/
def State.bytes (s : State) (a : Nat) : Nat → List Byte
  | 0 => []
  | n + 1 => s.byte a :: s.bytes (a + 1) n

/-- Writing bytes from an address. -/
def memWrite (m : Tbl Byte) (a : Nat) : List Byte → Tbl Byte
  | [] => m
  | b :: r => memWrite (Tbl.set 0 m a b) (a + 1) r

/-- The address by which an address's error mark is kept: its galley word or HBM line. -/
def markKey (a : Nat) : Nat := if isGalley a then a - a % 8 else a - a % 64

/-- The error mark at an address: 0 none, 1 correctable, 2 uncorrectable. -/
def State.markAt (s : State) (a : Nat) : Nat := Tbl.get 0 s.marks (markKey a)

/-- Clearing the marks of every galley word that `n` bytes from `a` cover whole: a whole word written has fresh check bits. -/
def clearMarks (m : Tbl Nat) (a n : Nat) : Tbl Nat :=
  m.filter fun e => !(decide (a ≤ e.1) && decide (e.1 + (if isGalley e.1 then 8 else 64) ≤ a + n))

/-- Writing bytes from an address, whole words and lines with fresh check bits. -/
def State.writeBytes (s : State) (a : Nat) (bs : List Byte) : State :=
  { s with mem := memWrite s.mem a bs, marks := clearMarks s.marks a bs.length }

/-- Setting an error mark. -/
def State.setMark (s : State) (a n : Nat) : State := { s with marks := Tbl.set 0 s.marks (markKey a) n }

/-- The first address of `n` bytes from `a` whose word or line is uncorrectable. -/
def State.firstBad (s : State) (a : Nat) : Nat → Option Nat
  | 0 => none
  | n + 1 => if s.markAt a = 2 then some a else s.firstBad (a + 1) n

/-- A number of `n` bytes read from memory, least significant first (R10). -/
def State.num (s : State) (a n : Nat) : Nat := natLE (s.bytes a n)

/-- A number written to memory. -/
def State.writeNum (s : State) (a n v : Nat) : State := s.writeBytes a (bytesLE n v)

/-! ### Sending, records, detections -/

/-- Sending something out of the module. -/
def State.send (s : State) (k : OutKind) (dest : Nat) (data : List Nat) : State :=
  { s with outbox := s.outbox ++ [⟨k, dest, data⟩] }

/-- A step of start-up reached: MGMT_BOOT.STEP, and its line on the console (18_start_up.md R532, R533). -/
def State.toStep (s : State) (n : Nat) : State := (s.setFld a_MGMT_BOOT f_MGMT_BOOT_STEP n).send .uart 0 [n, 0]

/-- An exit of start-up: its code in MGMT_BOOT and on the console, with a hold where it is one (18_start_up.md R532). -/
def State.bootExit (s : State) (code : Nat) (hold : Bool) : State :=
  (s.setFlds a_MGMT_BOOT ((f_MGMT_BOOT_CODE, code) :: if hold then [(f_MGMT_BOOT_HOLD, 1)] else [])).send .uart 0
    [s.fld a_MGMT_BOOT f_MGMT_BOOT_STEP, code]

/-- The epoch a module gives in its messages (R496): a harbourmaster that of its claim, any other the highest it has seen. -/
def State.myEpoch (s : State) : Nat :=
  if s.fld a_MGMT_ROLE f_MGMT_ROLE_ROLE = 1 then s.mgr.own else s.fld a_MGMT_ROLE f_MGMT_ROLE_EPOCH

/-- A router, by its base die. -/
def State.router (s : State) (b : Nat) : RouterState := Tbl.get RouterState.init s.routers b
def State.setRouter (s : State) (b : Nat) (r : RouterState) : State := { s with routers := Tbl.set RouterState.init s.routers b r }
def State.modRouter (s : State) (b : Nat) (f : RouterState → RouterState) : State := s.setRouter b (f (s.router b))

/-- A cell of this node given to a router (R318). -/
def State.localCell (s : State) (b : Nat) (w : WaitCell) : State := s.modRouter b fun r => { r with loc := r.loc ++ [w] }

/-- The cells of a manager control message (R496): 32 bytes of it in each, with MKIND, index, count, the sender, MSGID and epoch. -/
def MgrMsg.cells (m : MgrMsg) (node tide : Nat) : List Cell :=
  let n := max 1 ((m.data.length + 31) / 32)
  (pieces 32 n m.data).zipIdx.map fun x =>
    let v := natLE x.1
    ⟨0xE, 31, m.dest, node, 0, 0, bits tide 15 8, 7, 0,
      m.kind + x.2 * 2 ^ 8 + (n - 1) * 2 ^ 16 + node * 2 ^ 24 + m.msgid * 2 ^ 64 + m.epoch % 2 ^ 32 * 2 ^ 96, v % 2 ^ 128, v / 2 ^ 128⟩

/-- A manager control message formed: its cells are local cells of base die 12's router, where the management processor stands
(R318, R496). -/
def State.sendMsg (s : State) (m : MgrMsg) : State :=
  (m.cells s.nodeId (s.tideOf 12)).foldl (fun t c => t.localCell 12 ⟨c, s.tideOf 12, true, none, none⟩) s

/-- A manager control message sent to a node; an ORDER or RECORD waits for its ACK (R496, R497). -/
def State.sendMgr (s : State) (dest kind : Nat) (data : List Byte) : State :=
  let m : MgrMsg := ⟨dest, kind, s.mgr.next % 2 ^ 32, s.myEpoch, data, s.tideOf 12, 1⟩
  { s with mgr := { s.mgr with next := s.mgr.next + 1, out := if kind = 0x11 || kind == 0x13 then s.mgr.out ++ [m] else s.mgr.out } }.sendMsg m

/-- A REPLY to the message `msgid` (R496). -/
def State.reply (s : State) (dest msgid code : Nat) (data : List Byte) : State :=
  s.sendMgr dest 0x12 (bytesLE 2 code ++ bytesLE 2 data.length ++ bytesLE 4 msgid ++ data)

/-- The harbourmaster that a module reports to: one that it knows and is not itself. -/
def State.master (s : State) : Option Nat :=
  let n := s.fld a_MGMT_ROLE f_MGMT_ROLE_HMNODE
  if s.fld a_MGMT_ROLE f_MGMT_ROLE_HMV = 1 && n != s.nodeId then some n else none

/-- The 128 bytes of a status record with a given PHASE (R482). -/
def StatusRec.bytes (r : StatusRec) (phase : Bool) : List Byte :=
  bytesLE 8 r.seq ++ bytesLE 8 r.tide ++ bytesLE 2 r.code ++ bytesLE 1 r.bkind ++ bytesLE 1 r.body.length
    ++ bytesLE 1 (r.die % 32) ++ bytesLE 1 r.part ++ bytesLE 2 r.node ++ bytesLE 1 (b2n r.rehearsal + 2 * b2n r.lostBefore)
    ++ List.replicate 7 0 ++ r.body ++ List.replicate (88 - r.body.length) 0 ++ bytesLE 8 (r.seq % 2 ^ 63 + 2 ^ 63 * b2n phase)

/-- A record as it stands outside the ring, where no pass gives its PHASE: a free value. -/
def StatusRec.sent (r : StatusRec) : List Byte := r.bytes (Config.recordPhase r.seq)

/-- The codes on which a harbourmaster declares a teardown (R436, with the rows of R429) when a record of a partition brings them. -/
def teardownCodes : List Nat :=
  [Code.GALLEY_DATA_ERROR, Code.HBM_CHANNEL_DOWN, Code.LINK_REPLAY_LOST, Code.COMPUTE_DIE_LOST, Code.QUAY_LINK_DOWN,
    Code.STANDIN_UNAVAILABLE, Code.COLL_LATE_ABORT, Code.NONFINITE_ABORT, Code.DIVERGENCE, Code.TIDE_FAULT, Code.REFERENCE_LOST,
    Code.SUPPLY_LOW, Code.SUPPLY_LOST]

/-- Core i of cluster k, and its cores (13_imposition_image.md R400). -/
def clusterCore (k i : Nat) : Nat := 13 * (k / 2) + 6 * (k % 2) + i
def clusterCores (k : Nat) : List Nat := (List.range 6).map (clusterCore k)

/-- The bytes of a region of boot flash that are not erased, by their place in it (19_register_address_map.md R547). -/
def State.flashRegion (s : State) (a n : Nat) : Tbl Byte :=
  (s.flash.filter fun e => decide (a ≤ e.1) && decide (e.1 < a + n)).map fun e => (e.1 - a, e.2)

/-- The pilot firmware and microcode images, and a slot of management firmware (R547). -/
def State.pilotImage (s : State) : Tbl Byte := s.flashRegion 0x100_0000 0x80_0000
def State.microImage (s : State) : Tbl Byte := s.flashRegion 0x180_0000 0x40_0000
def State.slotImage (s : State) (slot : Nat) : Tbl Byte := s.flashRegion (slot * 0x80_0000) 0x80_0000

/-- The clusters of the partitions that are IMPOSED, as a mask. -/
def State.imposedClusters (s : State) : Nat :=
  (List.range 24).foldl (fun m p => if s.fld a_IMPO_PSTATE ⟨2 * p + 1, 2 * p⟩ = 2 then m ||| (Tbl.get Claim.init s.claims p).clusters else m) 0

/-- The pilot firmware in force (14_faults_checkpoint_recovery.md R451, R502): a staged image once every imposed cluster has taken it. -/
def State.pilotInForce (s : State) : Tbl Byte :=
  match s.pilotFw.staged with
  | some im => if s.imposedClusters &&& s.pilotFw.taken = s.imposedClusters then im else s.pilotFw.image
  | none => s.pilotFw.image

/-- A COLL_DEADLINE abort whose ATIDE lies in a COLL_DELAY interval of its job, plus 1,000,000 tide units: a harbourmaster counts it as a
rehearsal (R450). -/
def State.countRehearsed (s : State) (code part atide : Nat) : State :=
  if code = Code.COLL_DEADLINE && s.fld a_MGMT_ROLE f_MGMT_ROLE_ROLE == 1
      && s.delays.any (fun d => d.part == part && decide (d.start ≤ atide) && decide (atide ≤ d.stop + 1_000_000)) then
    { s with mgr := { s.mgr with rehearsed := s.mgr.rehearsed + 1 } }
  else s

/-- A status record made (R482 to R486): it takes the module's next SEQ, goes to the buffer or is dropped, is kept among the
last 256, and goes to the harbourmaster; a module that is the harbourmaster looks at it itself (R436). -/
def State.recordAt (s : State) (tide code bkind : Nat) (body : List Byte) (die part : Nat) (rehearsal : Bool) : State :=
  let r : StatusRec := ⟨s.recs.seq + 1, tide, code, bkind, body, die, part, s.nodeId, rehearsal, false⟩
  let last := (s.recs.last ++ [r]).drop (s.recs.last.length - 255)
  let full := decide (256 ≤ s.recs.buf.length)
  let recs : RecState :=
    if full then { s.recs with seq := r.seq, last := last, dropped := s.recs.dropped + 1 }
    else { s.recs with seq := r.seq, last := last, buf := s.recs.buf ++ [r] }
  let s' := { s with recs := recs }
  let s'' := (if full then s'.bump a_PCIE_RING_TAIL f_PCIE_RING_TAIL_LOST else s').countRehearsed code part (natLE ((body.drop 8).take 8))
  match s.master with
  | some n => s''.sendMgr n 0x13 r.sent
  | none =>
    if s.fld a_MGMT_ROLE f_MGMT_ROLE_ROLE = 1 && teardownCodes.contains code then
      { s'' with teardownAsks := s''.teardownAsks ++ [(part, code)] }
    else s''

/-- A status record of an event that happens now. -/
def State.record (s : State) (code bkind : Nat) (body : List Byte) (die part : Nat) (rehearsal : Bool) : State :=
  s.recordAt (s.tideOf (if die < 16 then die else 12)) code bkind body die part rehearsal

/-- The arguments of a record: each in its own 64-bit word (R484). -/
def argBody (args : List Nat) : List Byte := args.flatMap fun a => bytesLE 8 a

/-- A status record with arguments. Die 16 stands for the module as a whole (R482). -/
def State.report (s : State) (code die part : Nat) (args : List Nat) : State :=
  s.record code 0 (argBody args) die part false

/-- A status record written at most once per second for one code and place. -/
def State.reportSlow (s : State) (place code die part : Nat) (args : List Nat) : State :=
  let key := code * 65536 + place
  let now := s.tideOf 12
  match Tbl.find s.recs.lastAt key with
  | some t => if now < t + 1_000_000_000 then s
    else { s.report code die part args with recs := { (s.report code die part args).recs with
      lastAt := Tbl.insert s.recs.lastAt key now } }
  | none => { s.report code die part args with recs := { (s.report code die part args).recs with
      lastAt := Tbl.insert s.recs.lastAt key now } }

/-- A detection handed to a die's CHK block, which takes it by a command of its own (R217). -/
def State.detect (s : State) (d : Detection) : State := { s with detections := s.detections ++ [d] }

/-- The header of a Quay packet (R236): channel, partition, source and destination die, what it carries, its data flits, BCAST. -/
def quayHead (ch part src dst what dlen : Nat) (bcast : Bool) : Nat :=
  b2n bcast * 2 ^ 484 + dlen * 2 ^ 485 + (Config.quayOpcode ch what).toNat * 2 ^ 488 + dst % 16 * 2 ^ 496 + src % 16 * 2 ^ 500
    + part % 32 * 2 ^ 504 + ch * 2 ^ 509

/-- The header of an event message: the device's own, in no partition; a BUDGET or a HALT is a copy of a broadcast (R236, R238). -/
def evtHead (src dst ekind : Nat) : Nat := quayHead 4 31 src dst ekind 0 (ekind == 1 || ekind == 5)

/-- An event message sent from die to die (R238): its header, EKIND, CORE, TIDE, BODY. -/
def State.sendEvt (s : State) (src dst ekind core body : Nat) : State :=
  s.send .quay dst [evtHead src dst ekind, ekind, core, s.tideOf src, body]

/-- A broadcast: one copy for every die of the package, the sender included (R238). -/
def State.sendAll (s : State) (src ekind body : Nat) : State :=
  (List.range 16).foldl (fun t d => t.sendEvt src d ekind 0xF body) s

/-- A detection that another block sends (ORIGIN 8) about no unit (R214, R218). -/
def State.detect8 (s : State) (die code core seq d0 d1 : Nat) : State :=
  s.detect ⟨die, s.tideOf die, code, 8, 7, die, core, 0xF, if core < 13 then s.partOf (13 * die + core) else 31,
    seq, d0, d1, false, false⟩

/-- A teardown of a partition asked for (R431, R434). -/
def State.askTeardown (s : State) (part code : Nat) : State :=
  if part < 24 then { s with teardownAsks := s.teardownAsks ++ [(part, code)] } else s

/-! ### The galley as a reader meets it (R136, R137) -/

/-- Whether `n` bytes from `a` lie in galley window `k` of a die (R136); a window past 256 MiB ends with the galley. -/
def State.inWindow (s : State) (die k a n : Nat) : Bool :=
  let base := s.fld (a_GALLEY_WIN die k) f_GALLEY_WIN_BASE * 0x10_0000
  let size := s.fld (a_GALLEY_WIN die k) f_GALLEY_WIN_SIZE * 0x10_0000
  inGalley die a n && decide (galleyBase die + base ≤ a) && decide (a + n ≤ galleyBase die + base + size)

/-- Whether a core may reach `n` galley bytes from `a`: within its cluster's window, the proof core within either (R136). -/
def State.galleyOk (s : State) (c a n : Nat) : Bool :=
  if coreNo c = 12 then s.inWindow (coreDie c) 0 a n || s.inWindow (coreDie c) 1 a n
  else s.inWindow (coreDie c) (s.clusterOf c) a n

/-- The single-bit words among `n` bytes from `a`, by their keys. -/
def State.softWords (s : State) (a n : Nat) : List Nat :=
  (s.marks.filter fun e => e.2 == 1 && decide (a < e.1 + 8) && decide (e.1 < a + n)).map Prod.fst

/-- The uncorrectable words that `n` bytes from `a` touch, by their keys. -/
def State.hardWords (s : State) (a n : Nat) : List Nat :=
  (s.marks.filter fun e => e.2 == 2 && decide (a < e.1 + (if isGalley e.1 then 8 else 64)) && decide (e.1 < a + n)).map Prod.fst

/-- Single-bit errors corrected and counted by a galley read (R137). -/
def State.galleyCorrect (s : State) (die a n : Nat) : State :=
  let ws := s.softWords a n
  let s' := { s with marks := ws.foldl (fun m w => Tbl.set 0 m w 0) s.marks }
  ws.foldl (fun t _ => t.bump (a_GALLEY_ECC die) f_GALLEY_ECC_CORR) s'

/-- The galley offset of an uncorrectable word captured, unless one is held (R137). -/
def State.galleyCapture (s : State) (die off : Nat) : State :=
  if s.fld (a_GALLEY_ERRADDR die) f_GALLEY_ERRADDR_VALID = 1 then s
  else s.setFlds (a_GALLEY_ERRADDR die) [(f_GALLEY_ERRADDR_VALID, 1), (f_GALLEY_ERRADDR_OFFSET, off)]

/-- A double-bit error met by a reader: counted, captured and sent to the CHK block (R137). `core` is the core's place on
the die or 0xF; `kind` the reader kind. -/
def State.galleyUncorr (s : State) (die core kind w : Nat) : State :=
  let off := w - galleyBase die
  ((s.bump (a_GALLEY_ECC die) f_GALLEY_ECC_UNCORR).galleyCapture die off).detect8 die Code.GALLEY_DATA_ERROR core 0 off kind

/-- A galley read of `n` bytes from `a` (R137): the state after, with every uncorrectable word it met counted and reported, and the first
of them. A read of no bytes reads no word. -/
def State.galleyRead (s : State) (die core kind a n : Nat) : State × Option Nat :=
  if n = 0 then (s, none)
  else
    let s1 := s.galleyCorrect die a n
    let ws := s1.hardWords a n
    (ws.foldl (fun t w => t.galleyUncorr die core kind w) s1, ws.head?)

/-- The words that `n` bytes from `a` touch without covering them whole. -/
def partWords (a n : Nat) : List Nat :=
  let first := a - a % 8
  let last := (a + n) - (a + n) % 8
  (if a % 8 = 0 then [] else [first]) ++ (if (a + n) % 8 = 0 || (last == first && a % 8 != 0) then [] else [last])

/-- Bytes written into a galley (R137) by the access of a core's place and reader kind: a word written in part is read, corrected and merged;
a poisoned one counts and is recorded as at any read, and keeps its poison and not the bytes. -/
def State.galleyWrite (s : State) (die core kind a : Nat) (bs : List Byte) : State :=
  if bs.isEmpty then s
  else
    let ws := partWords a bs.length
    let soft := ws.filter fun w => s.markAt w == 1
    let hard := ws.filter fun w => s.markAt w == 2
    let s1 := soft.foldl (fun t w => (t.setMark w 0).bump (a_GALLEY_ECC die) f_GALLEY_ECC_CORR) s
    let s2 := hard.foldl (fun t w => t.galleyUncorr die core kind w) s1
    let kept := bs.mapIdx fun i b => if hard.any fun w => decide (w ≤ a + i) && decide (a + i < w + 8) then s.byte (a + i) else b
    s2.writeBytes a kept

/-- The galley of a die beside its memory. -/
def State.galley (s : State) (die : Nat) : GalleyState := Tbl.get GalleyState.init s.galleys die
def State.setGalley (s : State) (die : Nat) (g : GalleyState) : State :=
  { s with galleys := Tbl.set GalleyState.init s.galleys die g }

/-! ### Events and tokens -/

/-- An event's pending bit set at a core (R99). -/
def CoreState.fire (k : CoreState) (n : Nat) : CoreState := { k with evpend := k.evpend ||| BitVec.ofNat 64 (2 ^ n) }

/-- An event fired at a core. -/
def State.fire (s : State) (c n : Nat) : State := s.modCore c fun k => k.fire n

/-- A token's count. -/
def CoreState.token (k : CoreState) (t : Nat) : Nat := Tbl.get 0 k.tokens t

/-- Setting a token's count, with event TOKEN when a watched token goes from zero to nonzero (R99). -/
def CoreState.setToken (k : CoreState) (t n : Nat) : CoreState :=
  let k' := { k with tokens := Tbl.set 0 k.tokens t n }
  if k.token t = 0 && n ≠ 0 && bit k.tkevmask.toNat t then k'.fire 0 else k'

/-- A unit's raise of a token; 0 is no token. At 65,535 the count stays, the token's bit of TKOVF is set and event
TOKEN_OVF fires (R121). -/
def CoreState.raise (k : CoreState) (t : Nat) : CoreState :=
  if t = 0 then k
  else if k.token t ≥ 65535 then { k with tkovf := k.tkovf ||| BitVec.ofNat 64 (2 ^ t) }.fire 11
  else k.setToken t (k.token t + 1)

/-- A unit's raise of a token of a core. -/
def State.raise (s : State) (c t : Nat) : State := s.modCore c fun k => k.raise t

/-- Whether the tokens a descriptor waits for are there: both, or two of one (R120). -/
def CoreState.canTake (k : CoreState) (w0 w1 : Nat) : Bool :=
  if w0 ≠ 0 && w0 == w1 then decide (2 ≤ k.token w0)
  else (w0 == 0 || k.token w0 != 0) && (w1 == 0 || k.token w1 != 0)

/-- Taking one count of a token; 0 is no token. -/
def CoreState.take (k : CoreState) (t : Nat) : CoreState := if t = 0 then k else k.setToken t (k.token t - 1)

/-- The capacity of a queue (R117): the staging and drain queues hold 4. -/
def CoreState.cap (k : CoreState) (q : Nat) : Nat := if q = 0x20 || q = 0x21 then 4 else Tbl.get 0 k.qcap q

/-- The entries of a queue. -/
def CoreState.queue (k : CoreState) (q : Nat) : List Desc := Tbl.get [] k.queues q

/-- Whether a queue id is one of R117. -/
def isQueue (q : Nat) : Bool := decide (q < 4) || (decide (0x10 ≤ q) && decide (q ≤ 0x18)) || q == 0x20 || q == 0x21

/-- Event QUEUE_LOW when a queue's depth falls from above its mark to at or below it (R99). -/
def CoreState.fell (k : CoreState) (q before now : Nat) : CoreState :=
  let w := Tbl.get 0 k.qwater q
  if w < before && now ≤ w then k.fire 1 else k

/-- The queue with its first entry taken out. -/
def CoreState.popQueue (k : CoreState) (q : Nat) : CoreState :=
  let l := k.queue q
  { k with queues := Tbl.set [] k.queues q l.tail }.fell q l.length (l.length - 1)

/-- A free value, and the state with the next one due. -/
def State.free (s : State) : Word × State := (Config.freeWord s.freeCount, { s with freeCount := s.freeCount + 1 })

/-- `n` bytes of free values, eight from each. -/
def State.freeBytes (s : State) (n : Nat) : List Byte × State :=
  (((List.range ((n + 7) / 8)).flatMap fun i => bytesLE 8 (Config.freeWord (s.freeCount + i)).toNat).take n,
    { s with freeCount := s.freeCount + (n + 7) / 8 })

/-! ### Pilot firmware -/

/-- Staged pilot firmware taking effect for a cluster, once (14_faults_checkpoint_recovery.md R451). -/
def State.fwTake (s : State) (k : Nat) : State :=
  if s.pilotFw.staged.isNone || bit s.pilotFw.taken k then s
  else { s with pilotFw := { s.pilotFw with taken := s.pilotFw.taken ||| 2 ^ k } }.report Code.FIRMWARE_UPDATED (k / 2) (s.partOf (clusterCore k 0)) []

end Sys2Proof.Machine
end

