-- ==== Sys2Proof/Machine/Operands.lean ====
section
/-! DEFINITION. Operand forms of the pilot and the vector unit: general registers, immediates, lanes and masks
(03_core_and_instruction_set.md R87, R102, R103, R111). -/

namespace Sys2Proof.Machine
open Sys2Proof

/-- g[i]: g0 reads as zero. -/
def CoreState.rg (k : CoreState) (i : Fin 32) : Word := if i.val = 0 then 0 else Tbl.get 0 k.g i.val

/-- Writing g[i]: g0 ignores writes. -/
def CoreState.setRg (k : CoreState) (i : Fin 32) (w : Word) : CoreState :=
  if i.val = 0 then k else { k with g := Tbl.set 0 k.g i.val w }

/-- imm14 and off14 sign-extended (R111). -/
def sext14 (i : BitVec 14) : Word := i.signExtend 64

/-- A load or store address: g[a] plus the immediate. -/
def CoreState.addr (k : CoreState) (ra : Fin 32) (imm : BitVec 14) : Word := k.rg ra + sext14 imm

/-- A vector address: g[a] plus 64 times the immediate (R114). -/
def CoreState.vaddr (k : CoreState) (ra : Fin 32) (imm : BitVec 14) : Word := k.rg ra + sext14 imm * 64

/-- The lane formats of TYPE (R102): a floating format or a two's-complement width; 6 and 7 are reserved. -/
inductive Lane where
  | fl (f : Fmt)
  | int (w : Nat)
deriving DecidableEq, Repr

/-- The lane format of a TYPE (R102). -/
def laneOf (ty : Nat) : Option Lane :=
  match ty with
  | 0 => some (.fl .b32)
  | 1 => some (.fl .bf16)
  | 2 => some (.fl .e4m3)
  | 3 => some (.fl .e5m2)
  | 4 => some (.int 32)
  | 5 => some (.int 8)
  | _ => none

/-- The lane width W (R102). -/
def Lane.width : Lane → Nat
  | .fl f => f.width
  | .int w => w

/-- How many lanes a register holds (R102). -/
def Lane.count (l : Lane) : Nat := 2048 / l.width

/-- The exact value in a lane. -/
def Lane.num : Lane → Nat → ElemVal
  | .fl f, b => f.decode b
  | .int w, b => intNum w b

/-- The output format of a lane (R34). -/
def Lane.out : Lane → OutFmt
  | .fl f => .fl f
  | .int w => if w = 8 then .i8 else .i32

/-- v[i]. -/
def CoreState.vr (k : CoreState) (i : Fin 32) : BitVec 2048 := Tbl.get 0 k.v i.val
def CoreState.setVr (k : CoreState) (i : Fin 32) (x : BitVec 2048) : CoreState := { k with v := Tbl.set 0 k.v i.val x }

/-- m[i]. -/
def CoreState.mr (k : CoreState) (i : Fin 8) : BitVec 256 := Tbl.get 0 k.m i.val
def CoreState.setMr (k : CoreState) (i : Fin 8) (x : BitVec 256) : CoreState := { k with m := Tbl.set 0 k.m i.val x }

/-- Vector stick i and its QE. -/
def CoreState.stick (k : CoreState) (i : Fin 8) : Stick := Tbl.get 0 k.vs i.val
def CoreState.stickQe (k : CoreState) (i : Fin 8) : Int := Tbl.get 0 k.vsqe i.val
def CoreState.setStick (k : CoreState) (i : Fin 8) (x : Stick) : CoreState := { k with vs := Tbl.set 0 k.vs i.val x }
def CoreState.setStickQe (k : CoreState) (i : Fin 8) (q : Int) : CoreState := { k with vsqe := Tbl.set 0 k.vsqe i.val q }

/-- Lane i of a register value. -/
def laneAt (w i : Nat) (x : Nat) : Nat := (x / 2 ^ (w * i)) % 2 ^ w

/-- The lanes of a register value, lane 0 first. -/
def lanesOf (w n : Nat) (x : BitVec 2048) : List Nat := (List.range n).map fun i => laneAt w i x.toNat

/-- A register value from its lanes, lane 0 first. -/
def ofLanes (w : Nat) (l : List Nat) : BitVec 2048 := BitVec.ofNat 2048 (l.foldr (fun b r => b % 2 ^ w + 2 ^ w * r) 0)

/-- Whether MASK names lane i (R103). -/
def CoreState.active (k : CoreState) (mask : Fin 8) (i : Nat) : Bool :=
  if mask.val = 0 then true else (k.mr mask).getLsbD i

/-- A register computed lane by lane: an active lane takes the new bits, another keeps the old (R103). -/
def CoreState.mapLanes (k : CoreState) (l : Lane) (mask : Fin 8) (old : BitVec 2048) (f : Nat → Nat) : BitVec 2048 :=
  ofLanes l.width ((List.range l.count).map fun i =>
    if k.active mask i then f i else laneAt l.width i old.toNat)

/-- The indices of the active lanes. -/
def CoreState.activeLanes (k : CoreState) (l : Lane) (mask : Fin 8) : List Nat :=
  (List.range l.count).filter fun i => k.active mask i

/-! ### The registers an instruction names (R94) -/

/-- General, vector and mask registers under one number: g[i] is i, v[i] is 32 + i, m[i] is 64 + i. -/
def gReg (i : Fin 32) : Nat := i.val
def vReg (i : Fin 32) : Nat := 32 + i.val
def mReg (i : Fin 8) : Nat := 64 + i.val

/-- The mask register that a MASK field names: none for 0 (R103). -/
def maskReg (i : Fin 8) : List Nat := if i.val = 0 then [] else [mReg i]

/-- The general, vector and mask registers that an instruction reads or writes: it cannot issue before an outstanding load has filled
them (R94). A write of WUMARK reads g1 to g7 (R126). -/
def pilotRegs : Instr → List Nat
  | .add _ rd ra rb | .sub _ rd ra rb | .and _ rd ra rb | .or _ rd ra rb | .xor _ rd ra rb | .andn _ rd ra rb | .shl _ rd ra rb
  | .shr _ rd ra rb | .sra _ rd ra rb | .ror _ rd ra rb | .slt _ rd ra rb | .sltu _ rd ra rb | .min _ rd ra rb | .max _ rd ra rb
  | .minu _ rd ra rb | .maxu _ rd ra rb | .addw _ rd ra rb | .subw _ rd ra rb | .mul _ rd ra rb | .mulh _ rd ra rb
  | .mulhu _ rd ra rb | .div _ rd ra rb | .divu _ rd ra rb | .rem _ rd ra rb | .remu _ rd ra rb => [gReg rd, gReg ra, gReg rb]
  | .clz _ rd ra | .ctz _ rd ra | .popc _ rd ra => [gReg rd, gReg ra]
  | .sel _ rd ra rb rc | .madd _ rd ra rb rc => [gReg rd, gReg ra, gReg rb, gReg rc]
  | .addi _ rd ra _ | .andi _ rd ra _ | .ori _ rd ra _ | .xori _ rd ra _ | .slti _ rd ra _ | .sltiu _ rd ra _ => [gReg rd, gReg ra]
  | .shi _ rd ra _ _ => [gReg rd, gReg ra]
  | .movz _ rd _ _ | .movk _ rd _ _ | .movn _ rd _ _ => [gReg rd]
  | .lb _ rd ra _ | .lh _ rd ra _ | .lw _ rd ra _ | .ld _ rd ra _ | .lbu _ rd ra _ | .lhu _ rd ra _ | .lwu _ rd ra _ => [gReg rd, gReg ra]
  | .sb _ rs ra _ | .sh _ rs ra _ | .sw _ rs ra _ | .sd _ rs ra _ => [gReg rs, gReg ra]
  | .beq _ ra rb _ | .bne _ ra rb _ | .blt _ ra rb _ | .bge _ ra rb _ | .bltu _ ra rb _ | .bgeu _ ra rb _ => [gReg ra, gReg rb]
  | .jl _ _ => [31]
  | .csrr _ rd _ => [gReg rd]
  | .csrw _ rd ra idx | .csrs _ rd ra idx | .csrc _ rd ra idx =>
    if idx = 0x050 then [gReg rd, gReg ra, 1, 2, 3, 4, 5, 6, 7] else [gReg rd, gReg ra]
  | .wumark _ _ rd ra => [gReg rd, gReg ra, 1, 2, 3, 4, 5, 6, 7]
  | .jr _ ra => [gReg ra]
  | .jlr _ rd ra => [gReg rd, gReg ra]
  | .waitev _ rd => [gReg rd]
  | .vadd _ _ mask vd va vb _ | .vsub _ _ mask vd va vb _ | .vmul _ _ mask vd va vb _ | .vfma _ _ mask vd va vb _
  | .vfnma _ _ mask vd va vb _ => [vReg vd, vReg va, vReg vb] ++ maskReg mask
  | .vdiv _ _ mask vd va vb | .vmin _ _ mask vd va vb | .vmax _ _ mask vd va vb | .vand _ _ mask vd va vb | .vor _ _ mask vd va vb
  | .vxor _ _ mask vd va vb | .vshl _ _ mask vd va vb | .vshr _ _ mask vd va vb | .vsra _ _ mask vd va vb | .vperm _ _ mask vd va vb
  | .vsel _ _ mask vd va vb => [vReg vd, vReg va, vReg vb] ++ maskReg mask
  | .vsqrt _ _ mask vd va | .vabs _ _ mask vd va | .vrcp _ _ mask vd va | .vrsqrt _ _ mask vd va | .vexp _ _ mask vd va
  | .vlog _ _ mask vd va | .vsig _ _ mask vd va | .vtanh _ _ mask vd va | .vmov _ _ mask vd va | .vrmax _ _ mask vd va
  | .vrmin _ _ mask vd va => [vReg vd, vReg va] ++ maskReg mask
  | .vneg _ _ mask vd va _ => [vReg vd, vReg va] ++ maskReg mask
  | .vld _ vd ra _ | .vst _ vd ra _ => [vReg vd, gReg ra]
  | .vldm _ md ra _ | .vstm _ md ra _ => [mReg md, gReg ra]
  | .vcvt _ _ mask vd va _ _ => [vReg vd, vReg va] ++ maskReg mask
  | .vbcast _ _ mask vd ra => [vReg vd, gReg ra] ++ maskReg mask
  | .vextr _ _ rd va rb => [gReg rd, vReg va, gReg rb]
  | .vins _ _ vd ra rb => [vReg vd, gReg ra, gReg rb]
  | .viota _ _ mask vd => vReg vd :: maskReg mask
  | .vsclr _ _ ra => [gReg ra]
  | .vsadd _ _ mask _ va _ => vReg va :: maskReg mask
  | .vsdot _ _ mask _ va vb _ => [vReg va, vReg vb] ++ maskReg mask
  | .vsrd _ _ rd _ rb => [gReg rd, gReg rb]
  | .vsraw _ rd _ _ => [gReg rd]
  | .vswraw _ _ ra _ => [gReg ra]
  | .vcmpeq _ _ mask md va vb | .vcmplt _ _ mask md va vb | .vcmple _ _ mask md va vb | .vcmpun _ _ mask md va vb =>
    [mReg md, vReg va, vReg vb] ++ maskReg mask
  | .mand _ md ma mb | .mor _ md ma mb | .mxor _ md ma mb => [mReg md, mReg ma, mReg mb]
  | .mnot _ md ma => [mReg md, mReg ma]
  | .mpopc _ _ rd ma => [gReg rd, mReg ma]
  | .forme _ _ _ ra | .stickrd _ _ _ ra | .stickclr _ _ ra | .enq _ _ ra | .tkset _ _ ra => [gReg ra]
  | .tktry _ rd _ | .tkread _ rd _ => [gReg rd]
  | _ => []

/-- The class of an instruction word for MIX (R216): the row of its major opcode in R112's table, from 0; 0x19 and 0x1A are both class 15. -/
def wordClass (w : Nat) : Nat :=
  match bits w 31 27 with
  | 0x01 => 0
  | 0x02 => 1
  | 0x03 => 2
  | 0x04 => 3
  | 0x05 => 4
  | 0x06 => 5
  | 0x07 => 6
  | 0x09 => 7
  | 0x0C => 8
  | 0x10 => 9
  | 0x11 => 10
  | 0x12 => 11
  | 0x13 => 12
  | 0x14 => 13
  | 0x18 => 14
  | _ => 15

end Sys2Proof.Machine
end

