-- ==== Sys2Proof/Machine/Flags.lean ====
section
/-! DEFINITION. The sticky flag word VFLAGS (R108): flags are collected, never cleared by hardware. -/

namespace Sys2Proof.Machine
open Sys2Proof

/-- VFLAGS with more flags collected (R108). -/
def CoreState.collect (k : CoreState) (fl : Nat) : CoreState := { k with vflags := k.vflags ||| BitVec.ofNat 64 fl }

/-- The flags of many results. -/
def flagsOf (rs : List Res) : Nat := rs.foldl (fun a r => a ||| r.fl) 0

end Sys2Proof.Machine
end

