-- ==== Sys2Proof/Machine/Issue.lean ====
section
/-! DEFINITION. How a pilot issues an instruction: traps and events (R95 to R101), retiring, stalling. Taking a trap is one
operation, used by every meaning; returning from one stands beside it. -/

namespace Sys2Proof.Machine
open Sys2Proof

/-- A command of a die's own units: nothing happens while the die stands without clocks (R243, R454). -/
def State.ifClock (s : State) (die : Nat) (o : Host.Outcome State Fault Refusal) : Host.Outcome State Fault Refusal :=
  if s.stopped die then .next s else o

/-- Bits of TSTATUS (R125). -/
def tsEVEN : Nat := 1
def tsPMODE : Nat := 4
def tsINTRAP : Nat := 8
def tsPEVEN : Nat := 16

/-- TSTATUS on taking a trap from a mode (R97). -/
def trapStatus (ts : Word) (prog : Bool) : Word :=
  BitVec.ofNat 64 (tsINTRAP + (if prog then tsPMODE else 0) + (if bit ts.toNat 0 then tsPEVEN else 0))

/-- A trap as a core takes it, all in one step (R97): the saved words, the mode, the cause, the pc; what was fetched ahead is
discarded (R93). A load whose data is still to come has retired and stays outstanding; one that has not is given up. -/
def CoreState.takeTrap (k : CoreState) (cause code : Nat) (tval epc : Word) : CoreState :=
  { k with
    tstatus := trapStatus k.tstatus k.prog
    prog := false
    tcause := BitVec.ofNat 64 (cause * 2 ^ 16 + code)
    tval := tval
    tepc := epc
    pc := k.tvec
    run := if k.halting then .halted else .running
    halting := false
    fetched := []
    loads := k.loads.filter fun e => e.data.isSome
    waitTk := none
    lasttrap := BitVec.ofNat 64 (code * 2 ^ 48 + epc.toNat % 2 ^ 48) }

/-- A trap that finds INTRAP set is not taken: the core stops in DOUBLE_TRAP (R98). -/
def CoreState.doubleTrap (k : CoreState) (at_ : Word) : CoreState :=
  { k with
    run := .doubleTrap
    loads := k.loads.filter fun e => e.data.isSome
    waitTk := none
    lasttrap := BitVec.ofNat 64 (Code.DOUBLE_TRAP * 2 ^ 48 + at_.toNat % 2 ^ 48) }

/-- Taking a trap (R97), or stopping on a double trap with its record to the CHK block (R98). `at_` is the address of the
instruction whose trap it is, `epc` what TEPC is to hold. -/
def State.trapAs (s : State) (c cause code : Nat) (tval at_ epc : Word) : State :=
  let k := s.core c
  if bit k.tstatus.toNat 3 then
    (s.setCore c (k.doubleTrap at_)).detect8 (coreDie c) Code.DOUBLE_TRAP (coreNo c)
      (k.instret.toNat % 2 ^ 48) code at_.toNat
  else s.setCore c (k.takeTrap cause code tval epc)

/-- A precise trap of the instruction at pc (R96). -/
def State.trap (s : State) (c code : Nat) (tval : Word) : State :=
  s.trapAs c 0 code tval (s.core c).pc (s.core c).pc

/-- Returning from a trap (ERET, R97). Bits [1:0] of pc are always zero. -/
def CoreState.eret (k : CoreState) : CoreState :=
  let ts := k.tstatus.toNat
  { k with
    prog := bit ts 2
    tstatus := BitVec.ofNat 64 ((if bit ts 4 then tsEVEN + tsPEVEN else 0) + (if bit ts 2 then tsPMODE else 0))
    pc := BitVec.ofNat 64 (k.tepc.toNat - k.tepc.toNat % 4)
    fetched := [] }

/-- The lowest event that is pending and unmasked (R99, R100). -/
def CoreState.lowestEvent (k : CoreState) : Option Nat :=
  (List.range 64).find? fun n => bit (k.evpend &&& k.evmask).toNat n

/-- Whether the pilot takes an event before its next instruction (R99). -/
def CoreState.takeable (k : CoreState) : Bool := bit k.tstatus.toNat 0 && k.lowestEvent.isSome

/-- An event taken as a trap: cause EVENT, its number in TCAUSE.EVNUM and TVAL; the pending bit stays (R99). A PRESS that
waited for its issue has not issued and is run again (R101). -/
def State.takeEvent (s : State) (c : Nat) : State :=
  match (s.core c).lowestEvent with
  | none => s
  | some n =>
    let s' := if (s.core c).run = .pressStall then s.modPress c fun p => { p with pending := none } else s
    let k := s'.core c
    s'.trapAs c n Code.EVENT (BitVec.ofNat 64 n) k.pc k.pc

/-- An instruction of class `cls` retires (R87): it counts, also among the last 4,096 by class (R216), the fetched-ahead list moves on,
and the core runs, or halts where a HALT waited for it (R131). -/
def CoreState.retire (k : CoreState) (cls : Nat) (pc : Word) : CoreState :=
  { k with
    pc := pc
    instret := k.instret + 1
    run := if k.halting then .halted else .running
    halting := false
    waitTk := none
    mix := (cls :: k.mix).take 4096
    fetched := k.fetched.tail }

/-- A taken branch or a jump retires: what was fetched ahead is discarded (R93). -/
def CoreState.retireJump (k : CoreState) (cls : Nat) (pc : Word) : CoreState := { k.retire cls pc with fetched := [] }

/-- What an instruction does when it issues. -/
inductive Act where
  /-- It retires, and pc moves on by 4. -/
  | go (s : State)
  /-- It retires and pc takes a target. -/
  | jump (s : State) (pc : Word)
  /-- It traps precisely; `s` holds what the trap's cause counted. -/
  | trap (s : State) (code : Nat) (tval : Word)
  /-- It waits: nothing retires. -/
  | wait (s : State)
  /-- It retires and the pilot halts after it (R198). -/
  | halt (s : State)

/-- Carrying out the act of an instruction of class `cls`. -/
def Act.run (a : Act) (c cls : Nat) : State :=
  match a with
  | .go s => s.modCore c fun k => k.retire cls (k.pc + 4)
  | .jump s pc => s.modCore c fun k => k.retireJump cls pc
  | .trap s code tval => s.trap c code tval
  | .wait s => s
  | .halt s => s.modCore c fun k => { k.retire cls (k.pc + 4) with run := .halted }

/-- A trap whose TVAL the spec does not state (R98): a free value. -/
def State.trapOpen (s : State) (code : Nat) : Act := .trap s.free.2 code s.free.1

/-- Whether a core can issue the instruction: it runs and no HALT waits for its loads, or it waits at this same instruction. -/
def CoreState.canIssue (k : CoreState) (w : RunState) : Bool :=
  (decide (k.run = .running) && !k.halting) || (w != .running && decide (k.run = w))

/-- The register a load fills, as `pilotRegs` numbers them. -/
def LoadDest.reg : LoadDest → Nat
  | .g rd _ _ => gReg rd
  | .v vd => vReg vd
  | .m md => mReg md

/-- Whether the load at pc itself is outstanding, which blocks issue until it is done (R94). -/
def CoreState.loadBlocks (k : CoreState) : Bool := k.loads.any fun e => e.data.isNone

/-- Whether an instruction that names the registers `l` waits for an outstanding load: one of them is still to be filled (R94). A load
into g0 fills nothing. -/
def CoreState.loadWait (k : CoreState) (l : List Nat) : Bool := k.loads.any fun e => e.dest.reg != 0 && l.contains e.dest.reg

/-- Issuing instruction `i` at a core: a halted or stopped core, or one without clocks, does nothing, nor one whose load blocks issue (R94);
an event that may be taken is taken first (R99, R101); a full store buffer stalls issue (R554), and so does the first use of a register
whose load is outstanding (R94); then the instruction acts. -/
def State.issueW (s : State) (c : Nat) (w : RunState) (i : Instr) (f : CoreState → Act) : State :=
  let k := s.core c
  if !k.canIssue w || s.stopped (coreDie c) || k.loadBlocks then s
  else if k.takeable && !decide (k.run = .waitev) then s.takeEvent c
  else if decide (8 ≤ k.stores.length) || k.loadWait (pilotRegs i) then s
  else (f k).run c (wordClass (pilotWord i))

/-- Issuing an instruction that never waits in a state of its own. -/
def State.issue (s : State) (c : Nat) (i : Instr) (f : CoreState → Act) : State := s.issueW c .running i f

/-- A scalar instruction: it changes its own core alone and retires. -/
def State.scalar (s : State) (c : Nat) (i : Instr) (f : CoreState → CoreState) : State :=
  s.issue c i fun k => .go (s.setCore c (f k))

end Sys2Proof.Machine
end

