-- ==== Sys2Proof/Machine/Registers.lean ====
section
/-! DEFINITION. Reading registers: the views that show a unit's state, 32-bit halves and their latches (R12, R14, R15, R543);
and a write on its way to the end of its tide tick (R389). -/

namespace Sys2Proof.Machine
open Sys2Proof

/-- The base die of a stack, and its register window there (R229, R280). -/
def stackBase (st : Nat) : Nat := 12 + st / 3
def stackWin (st : Nat) : Nat := st % 3

/-- A slot of a press: 0 and 1 forme slots, 2 + 2p + a activation slots. -/
def PressState.slot (p : PressState) (n : Nat) : Slot := Tbl.get Slot.empty p.slots n

/-- The slot a staging descriptor names (R58). -/
def formeSlot (desc : Nat) : Nat :=
  if bit desc 239 then 2 + 2 * bits desc 237 236 + bits desc 232 232 else bits desc 232 232

/-- Whether a FORME to a slot is queued (R63). -/
def PressState.formeQueued (p : PressState) (n : Nat) : Bool := p.staging.any fun e => formeSlot e.desc == n

/-- Whether a slot's tile is in place: that of the last FORME to it (R63), so not while another FORME to the slot is queued. -/
def PressState.tileIn (p : PressState) (n : Nat) : Bool := (p.slot n).tile.isSome && !p.formeQueued n

/-- Whether a drain or stream holds set n, from its retire to its release (R68, R86). -/
def PressState.heldSet (p : PressState) (n : Nat) : Bool :=
  p.drains.any (fun d => bits d.desc 183 182 == n && d.phase != .proving) || p.streams.any fun d => d.set == n && !d.lost

/-- PRESS_STATUS (R86). FORME_VALID shows a forme slot whose tile and row sums are both in place: residency, which R62 makes depend on the
PRESS, in its strict sense (DESIGN CHOICE, log entry 25). -/
def PressState.statusWord (p : PressState) : Word :=
  let flag (b : Bool) (i : Nat) : Nat := if b then 2 ^ i else 0
  let four (f : Nat → Bool) (lo : Nat) : Nat := ((List.range 4).map fun n => flag (f n) (lo + n)).sum
  BitVec.ofNat 64
    (four (fun n => Tbl.get false p.ckv n) 26 + four p.heldSet 22 + p.staging.length * 2 ^ 19 + p.drains.length * 2 ^ 16
      + ((List.range 8).map fun n => flag (p.tileIn (2 + n)) (8 + n)).sum
      + ((List.range 2).map fun n => flag (p.tileIn n && (p.slot n).sums.isSome) (6 + n)).sum
      + flag ((List.range 10).any fun n => (p.slot n).poison) 5
      + flag p.compare.isSome 2 + flag p.running.isSome 1 + flag p.halted 0)

/-- PRESS_QE (R86): the QE each set holds. -/
def PressState.qeWord (p : PressState) : Word :=
  BitVec.ofNat 64 (((List.range 4).map fun n => unsigned 12 (Tbl.get 0 p.qe n) * 2 ^ (12 * n)).sum)

/-- Registers that show the state of a core's units (R86, R131). -/
def State.liveCore (s : State) (blk c off : Nat) : Option Word :=
  let k := s.core c
  let p := s.press c
  match blk, off with
  | 0, 0x08 => some (BitVec.ofNat 64 k.run.code)
  | 0, 0x10 => some k.pc
  | 0, 0x20 => some k.lasttrap
  | 1, 0x08 => some p.statusWord
  | 1, 0x10 => some (BitVec.ofNat 64 p.seq)
  | 1, 0x18 => some p.qeWord
  | _, _ => none

/-- The berths held on a die: handle and entry. -/
def State.berthsOf (s : State) (die : Nat) : List (Nat × BerthEnt) :=
  s.berths.filterMap fun e => if e.1 / 2 ^ 32 = die then e.2.map fun b => (e.1 % 2 ^ 32, b) else none

/-- The berths that an owner holds on a die: how many, and the tide of the oldest, 0 when it holds none (R175, R176). -/
def State.ownerHeld (s : State) (die o : Nat) : Nat := ((s.berthsOf die).filter fun b => b.2.owner == o).length
def State.ownerOldest (s : State) (die o : Nat) : Nat :=
  match ((s.berthsOf die).filter fun b => b.2.owner == o).map fun b => b.2.tide with
  | [] => 0
  | t :: r => r.foldl min t

/-- Registers that show the berth pool of a die (R176). -/
def State.liveBerth (s : State) (die off : Nat) : Option Word :=
  if decide (0x200 ≤ off) && decide (off < 0x250) then
    let i := (off - 0x200) / 8
    let used := ((s.berthsOf die).filter fun b => b.2.slot == i / 5 && bits b.1 26 24 == i % 5).length
    some (BitVec.ofNat 64 (s.fld (a_BERTH_POOL die (i / 5) (i % 5)) f_BERTH_POOL_COUNT - used))
  else if decide (0x1000 ≤ off) && decide (off < 0x1000 + 8 * 182) then
    some (BitVec.ofNat 64 (s.ownerHeld die ((off - 0x1000) / 8)))
  else if decide (0x2000 ≤ off) && decide (off < 0x2000 + 8 * 182) then
    some (BitVec.ofNat 64 (s.ownerOldest die ((off - 0x2000) / 8)))
  else none

/-- ENG_STATUS (R167). -/
def State.engStatus (s : State) (die e : Nat) : Word :=
  match (Tbl.get EngState.init s.engines (die * 16 + e)).run with
  | some r => BitVec.ofNat 64 (0x1_0000 + 13 * die + r.core)
  | none => 0xFF

/-- CHK_PROOF.STATE (R228): 2 standing in, 3 disabled by quarantine or by SEXP 0 in both clusters, 1 proving, 0 idle. -/
def State.proofState (s : State) (die : Nat) : Nat :=
  let k := Tbl.get ChkState.init s.chk die
  let quar (sub : Nat) : Bool := (s.unit (0x4000 + die * 0x100 + 0xC0 + sub)).quarantined
  if (s.core (13 * die + 12)).standin.isSome then 2
  else if quar 0xF || (List.range 4).any quar || (List.range 2).all fun i => s.fld (a_CHK_CFG die i) f_CHK_CFG_SEXP == 0 then 3
  else if k.tproof.isSome || !k.vproofs.isEmpty then 1
  else 0

/-- DIR_STATUS (R256): entries in state M, and entries in use. -/
def State.dirStatus (s : State) (base : Nat) : Word :=
  let es := (s.dirs.filter fun e => e.1 / 8192 + 12 == base).flatMap Prod.snd
  BitVec.ofNat 64 ((es.filter fun e => e.mod).length * 2 ^ 18 + es.length)

/-- OUTSTANDING of a lighter (R348): its requests in flight. -/
def State.outstanding (s : State) (c : Nat) : Nat :=
  ((Tbl.get LighterState.init s.lighters (s.logical c)).reqs.filter fun e => e.2.isSome).length

/-- USED of a die's schedule, and word `w` of a pending slot: zero when it is free (R392). -/
def State.slotsUsed (s : State) (die : Nat) : Nat := (s.entries.filter fun e => e.1 / 1024 == die && e.2.isSome).length
def State.entryWord (s : State) (die i w : Nat) : Word :=
  match Tbl.get none s.entries (die * 1024 + i) with
  | some x => BitVec.ofNat 64 (x.entry / 2 ^ (64 * w))
  | none => 0

/-- Word `w` of a journal entry (R505, R512). -/
def JEntry.word (e : JEntry) (w : Nat) : Word :=
  match w with
  | 0 => BitVec.ofNat 64 e.tide
  | 1 => BitVec.ofNat 64 e.jseq
  | 2 => BitVec.ofNat 64 (e.addr % 2 ^ 48 + e.code * 2 ^ 48)
  | 3 => BitVec.ofNat 64 (e.iface + e.aux * 2 ^ 8 + e.origin * 2 ^ 16 + e.kind * 2 ^ 28 + e.epoch * 2 ^ 32)
  | 4 => e.old
  | 5 => e.new
  | _ => 0

/-! ### Routes -/

/-- The links that a walk over the bridges crosses, from base b by neighbour masks (R229). -/
def hopLinks : Nat → List Nat → List (Nat × Nat)
  | _, [] => []
  | b, m :: r => (12 + b, if m = 1 then 3 else 4) :: hopLinks (b ^^^ m) r

/-- The state of a link (R256). -/
def State.linkState (s : State) (die l : Nat) : Nat := s.fld (a_QUAY_LSTATUS die l) f_QUAY_LSTATUS_STATE

/-- The number of the bridge that a base die has as link `l`: 0 and 1 the horizontal ones, 2 and 3 the vertical ones (R229). -/
def bridgeNo (die l : Nat) : Nat := if l = 3 then (die - 12) / 2 else 2 + die % 2

/-- The bridges a packet takes between two base dies (R231): horizontal before vertical, and the other way round the ring where
that meets a bridge marked failed (R240). -/
def State.bridges (s : State) (b b' : Nat) : List (Nat × Nat) :=
  let x := b ^^^ b'
  if x = 0 then []
  else
    let way := hopLinks b (if x = 3 then [1, 2] else [x])
    let other := hopLinks b (if x = 3 then [2, 1] else [3 - x, x, 3 - x])
    if way.any fun p => s.broken.contains (bridgeNo p.1 p.2) then other else way

/-- The links a packet takes from die to die (R231), each by the die that sends on it. -/
def State.route (s : State) (src dst : Nat) : List (Nat × Nat) :=
  if src = dst then []
  else
    (if src < 12 then [(src, 0)] else []) ++ s.bridges (baseOf src - 12) (baseOf dst - 12)
      ++ (if dst < 12 then [(baseOf dst, dst % 3)] else [])

/-- Whether every link of a route is up. -/
def State.routeUp (s : State) (src dst : Nat) : Bool := (s.route src dst).all fun p => s.linkState p.1 p.2 == 2

/-- The flits of a transaction that carries `n` bytes of data: packets of one header flit and up to four data flits (R230, R236). -/
def flitsOf (n : Nat) : Nat := (n + 63) / 64 + max 1 ((n + 255) / 256)

/-- A packet of `n` flits on channel v along its route, counted at each link (R256). -/
def State.carry (s : State) (src dst v n : Nat) : State :=
  (s.route src dst).foldl (fun t p => t.addWrap (a_QUAY_FLITS p.1 p.2 v) f_QUAY_FLITS_COUNT n) s

/-- The die at which an interface stands; the device's own writes start where they act. -/
def Source.die (src : Source) (a : Nat) : Nat :=
  match src with
  | .pilot c => c / 13
  | .device => regDie a
  | _ => 12

/-- Whether a register access of an interface can reach its register now (R239): the way is up, or there is no die to answer. -/
def State.wayOpen (s : State) (src : Source) (a : Nat) : Bool :=
  !inRegs a || !s.dieUp (regDie a) || (s.routeUp (Source.die src a) (regDie a) && s.routeUp (regDie a) (Source.die src a))

/-- The flits of a register access of an interface that sends `n` bytes and gets `m` back: on MEM.REQ and MEM.RSP, those of JTAG on DBG
(R232). -/
def State.regFlits (s : State) (src : Source) (a n m : Nat) : State :=
  if !inRegs a || !s.dieUp (regDie a) then s
  else
    let ch := if src = .jtag then (5, 5) else (0, 1)
    (s.carry (Source.die src a) (regDie a) ch.1 (flitsOf n)).carry (regDie a) (Source.die src a) ch.2 (flitsOf m)

/-- Whether a cell is a response (R314). -/
def cellResponse (c : Cell) : Bool := c.kind == 2 || c.kind == 0xA || c.kind == 0xB

/-- The bytes of data that a packet carries: those of a write, or a cell's (R236). -/
def MemReq.dataBytes (r : MemReq) : Nat :=
  match r.agent, r.data with
  | .cell _, _ => 48
  | _, some bs => bs.length
  | _, none => 0

/-- The channel of a packet (R232): 1 MEM.RSP for a response cell, else 0 MEM.REQ. -/
def MemReq.channel (r : MemReq) : Nat :=
  match r.agent with
  | .cell c => if cellResponse c then 1 else 0
  | _ => 0

/-- The flits of requests that have arrived over a link on a channel and are not yet served: they fill the buffer at its far end (R232, R261). -/
def State.homeLoad (s : State) (die l ch : Nat) : Nat :=
  ((s.homes.flatMap fun e => e.2.map fun h => (e.1, h.req)).map fun (x : Nat × MemReq) =>
    if x.2.channel == ch && (s.route x.2.src x.1).getLast? == some (die, l) then flitsOf x.2.dataBytes else 0).sum

/-- Whether the buffer at the end of a route has room for a packet of `n` flits on channel 0 or 1; an empty one takes any (R232). -/
def State.landRoom (s : State) (src dst ch n : Nat) : Bool :=
  match (s.route src dst).getLast? with
  | none => true
  | some p =>
    let held := s.homeLoad p.1 p.2 ch
    held == 0 || decide (held + n ≤ 128)

/-- The flits on their way over a link on a channel, each holding a credit of it (R232). A request that has arrived keeps its credits of the
last link until it is served (R261), a cell that crosses between routers until the other router takes it (R323). -/
def State.linkLoad (s : State) (die l ch : Nat) : Nat :=
  if ch < 2 then
    ((s.quay.flatMap fun e => e.2.map fun r => (e.1, r)).map fun (x : Nat × MemReq) =>
      if x.2.channel == ch && (s.route x.2.src x.1).contains (die, l) then flitsOf x.2.dataBytes else 0).sum
    + s.homeLoad die l ch
    + (if ch = 0 then ((s.routers.flatMap fun e => e.2.crossing.map fun w => (e.1, w.1)).map fun (x : Nat × Nat) =>
      if (s.route x.2 x.1).contains (die, l) then flitsOf 48 else 0).sum else 0)
  else if ch = 2 then (s.invals.filter fun v => (s.route v.home v.target).contains (die, l)).length
  else 0

/-- The credits held for a channel of a link (R232). -/
def State.credit (s : State) (die l ch : Nat) : Nat :=
  (if ch < 2 then 128 else if ch < 4 then 32 else 16) - s.linkLoad die l ch

/-- QUAY_CREDIT (R256). -/
def State.creditWord (s : State) (die l : Nat) : Word :=
  BitVec.ofNat 64 ((List.range 6).map fun ch => s.credit die l ch * 2 ^ (8 * ch)).sum

/-- Registers that show the state of a unit. -/
def State.live (s : State) (a : Nat) : Option Word :=
  let die := regDie a
  let blk := regBlock a
  let off := regOff a
  if blk < 3 && decide (die < 12) && decide (off / 0x10000 < 13) then
    s.liveCore blk (13 * die + off / 0x10000) (off % 0x10000)
  else if blk = 4 && off % 0x10000 == 0 then some (s.engStatus die (off / 0x10000))
  else if blk = 5 then s.liveBerth die off
  else if blk = 6 && decide (off / 0x10000 < 13) && off % 0x10000 == 0 then
    some (f_LTR_STATUS_OUTSTANDING.set (s.reg a) (s.outstanding (13 * die + off / 0x10000)))
  else if blk = 7 && off % 0x1000 == 0x18 && decide (off < (if die < 12 then 0x1000 else 0x5000)) then
    some (s.creditWord die (off / 0x1000))
  else if blk = 7 && off == 0x9000 && decide (12 ≤ die) then some (s.dirStatus die)
  else if blk = 10 && off % 0x40 == 0x20 && decide (off < 0x1800) && decide (12 ≤ die) then
    let x := Tbl.get LaneState.init s.lanes (96 * (die - 12) + off / 0x40)
    let now := s.tideOf die
    some (f_LANE_EYE_SYMERR.set (s.reg a) (min 65535 ((x.corr.filter fun t => decide (now < t.1 + 1_000_000)).map Prod.snd).sum))
  else if blk = 11 && off == 0x10 && decide (12 ≤ die) then
    some (f_RTR_STATUS_EJQ.set (s.reg a) (Tbl.get RouterState.init s.routers die).eject.length)
  else if blk = 15 && off == 0x20 && decide (die < 12) then
    some (f_CHK_PROOF_STATE.set (s.reg a) (s.proofState die))
  else if blk = 17 && off == 0x18 && decide (die < 12) then
    let r := Tbl.get RampState.init s.ramps die
    some (f_PWR_RAMP_LEVEL.set (f_PWR_RAMP_BALLAST.set
      (f_PWR_RAMP_PREWARM.set (s.reg a) (b2n (!r.prewarms.isEmpty || decide (s.tideOf die < r.keep))))
        (r.slots.filter fun x => x.owner.isNone).length) r.level)
  else if blk = 13 && off == 0 then some (BitVec.ofNat 64 (s.tideOf die))
  else if blk = 13 && off == 0x30 then some (f_TIDE_SCHED_USED.set (s.reg a) (s.slotsUsed die))
  else if blk = 13 && decide (0x1_0000 ≤ off) && decide (off < 0x1_8000) then some (s.entryWord die ((off - 0x1_0000) / 32) (off % 32 / 8))
  else if blk = 20 && (off == 0 || off == 0x40) then
    some (if f_ETH_PORT_DISABLE.get (s.reg a) = 1 then f_ETH_PORT_STATE.set (s.reg a) 2 else s.reg a)
  else if blk = 22 && decide (0x1_0000 ≤ off) && decide (off < 0x5_0000) then
    some (match Tbl.find s.journal ((off - 0x1_0000) / 0x40) with
      | some e => e.word (off % 0x40 / 8)
      | none => 0)
  else if blk = 23 && off == 8 then some (f_UART_STATUS_TXLEVEL.set (f_UART_STATUS_RXLEVEL.set 0 s.uartRx.length) s.uart.tx.length)
  else none

/-- What a 64-bit read of register space returns (R12, R14, R15). -/
def State.readReg (s : State) (a : Nat) : Word :=
  match regAt a with
  | none => 0
  | some _ => match s.live a with
    | some w => w
    | none => s.reg a

/-- The number of an interface: each keeps its own latch and held half, and each pilot is one of its own (R15). -/
def Source.iface : Source → Nat
  | .manager _ _ => 0
  | .pcie => 1
  | .mctp => 2
  | .jtag => 3
  | .device => 5
  | .pilot c => 16 + c

/-- A 32-bit read by an interface (R15): a low half latches the high half; a high half uses up a latch of its register. -/
def State.readHalf (s : State) (i a : Nat) : Nat × State :=
  let r := a - a % 8
  let w := (s.readReg r).toNat
  if a % 8 = 0 then (w % 2 ^ 32, { s with latches := Tbl.set none s.latches i (some ⟨r, w / 2 ^ 32⟩) })
  else match Tbl.get none s.latches i with
    | some h => if h.addr = r then (h.half, { s with latches := Tbl.set none s.latches i none }) else (w / 2 ^ 32, s)
    | none => (w / 2 ^ 32, s)

/-- A record of an error log counts as read once one of its words has been read (R167). -/
def State.touch (s : State) (a : Nat) : State := { s with unread := s.unread.filter fun r => r != a - a % 32 }

/-- A register write arriving from an interface: it waits for the end of the tide tick (R389). -/
def State.gather (s : State) (w : RegCmd) : State := { s with gathered := s.gathered ++ [w] }

/-- The half of a register that an interface holds (R15). -/
def State.heldHalf (s : State) (i a : Nat) : Option Nat :=
  match Tbl.get none s.holds i with
  | some h => if h.addr = a then some h.half else none
  | none => none

/-- A write of `size` bytes on its way to the journal (R15, R389): a low half is held, a high half goes with the low half its interface
holds; an access of another width or alignment is journaled at the tick's end. -/
def State.arrive (s : State) (src : Source) (a size : Nat) (v : Word) : State :=
  let i := Source.iface src
  if size = 8 && a % 8 == 0 then s.gather ⟨src, a, true, true, v⟩
  else if size = 4 && a % 8 == 0 then { s with holds := Tbl.set none s.holds i (some ⟨a, v.toNat % 2 ^ 32⟩) }
  else if size = 4 && a % 8 == 4 then
    match s.heldHalf i (a - 4) with
    | some h => { s with holds := Tbl.set none s.holds i none }.gather ⟨src, a - 4, true, true, BitVec.ofNat 64 (h + v.toNat % 2 ^ 32 * 2 ^ 32)⟩
    | none => s.gather ⟨src, a - 4, false, true, BitVec.ofNat 64 (v.toNat % 2 ^ 32 * 2 ^ 32)⟩
  else s.gather ⟨src, a, false, false, v⟩

end Sys2Proof.Machine
end

