-- ==== Sys2Proof/Machine/ErrLog.lean ====
section
/-! DEFINITION. The error logs of the case engines and of the lighters: rings of eight records per core
(04_galley_case_engines_berth_pool.md R145, R167; 10_tideway_fabric.md R343), and the header of a descriptor (R118). -/

namespace Sys2Proof.Machine
open Sys2Proof

/-! Fields of the 16-byte header (R118). -/
def hdTag (d : Nat) : Nat := bits d 127 64
def hdRaise (d : Nat) : Nat := bits d 39 34
def hdWait1 (d : Nat) : Nat := bits d 33 28
def hdWait0 (d : Nat) : Nat := bits d 27 22
def hdOrd (d : Nat) : Bool := bit d 15
def hdLen (d : Nat) : Nat := bits d 12 8
def hdOp (d : Nat) : Nat := bits d 7 0

/-- Whether a reserved bit of a header is set (R118). -/
def hdReserved (d : Nat) : Bool := bits d 63 40 != 0 || bits d 21 16 != 0 || bits d 14 13 != 0

/-- A descriptor as one number, bit 0 first (R146). -/
def Desc.num (d : Desc) : Nat := natLE d.bytes

/-- An error record appended to a log whose ring pointer is at `ptr` and whose record n lies at `log n` (R167). -/
def State.errRecord (s : State) (ptr : Nat) (log : Nat → Nat) (code op queue unit tag detail tide : Nat) : State :=
  let n := s.fld ptr f_ENG_ERRPTR_NEXT
  let a := log n
  let s1 := if s.unread.contains a then s.bump ptr f_ENG_ERRPTR_LOST else s
  let s2 := ((s1.setReg a (BitVec.ofNat 64 tag)).setReg (a + 8)
    (BitVec.ofNat 64 (code % 2 ^ 16 * 2 ^ 48 + op % 2 ^ 8 * 2 ^ 40 + queue % 2 ^ 8 * 2 ^ 32 + unit % 2 ^ 32))).setReg (a + 16) (BitVec.ofNat 64 tide)
  let s3 := s2.setReg (a + 24) (BitVec.ofNat 64 detail)
  { s3.setFld ptr f_ENG_ERRPTR_NEXT (n + 1) with unread := a :: s3.unread.filter fun r => r != a }

/-- An error completion of case engine `e` for a descriptor of core c (R145). -/
def State.engineError (s : State) (c e d code unit detail : Nat) : State :=
  let die := coreDie c
  let s1 := s.errRecord (a_ENG_ERRPTR die e (coreNo c)) (fun n => a_ERRLOG die e (coreNo c) n 0) code (hdOp d) (0x10 + e) unit
    (hdTag d) detail (s.tideOf die)
  (s1.bump (a_ENG_ERRCNT die e) f_ENG_ERRCNT_COUNT).fire c 6

/-- An error completion of core c's lighter (R343). -/
def State.lighterError (s : State) (c queue d code unit detail : Nat) : State :=
  let die := coreDie c
  let s1 := s.errRecord (a_LTR_ERRPTR die (coreNo c)) (fun n => a_LTR_ERRLOG die (coreNo c) n 0) code (hdOp d) queue unit
    (hdTag d) detail (s.tideOf die)
  (s1.bump (a_LTR_ERRCNT die (coreNo c)) f_LTR_ERRCNT_COUNT).fire c 7

/-- A lighter. -/
def State.lighter (s : State) (c : Nat) : LighterState := Tbl.get LighterState.init s.lighters c
def State.setLighter (s : State) (c : Nat) (l : LighterState) : State :=
  { s with lighters := Tbl.set LighterState.init s.lighters c l }

/-- The lighter of a core, by the identity it answers to (R129). -/
def State.ltr (s : State) (c : Nat) : LighterState := s.lighter (s.logical c)
def State.modLtr (s : State) (c : Nat) (f : LighterState → LighterState) : State := s.setLighter (s.logical c) (f (s.ltr c))

/-- A request of a lighter. -/
def State.request (s : State) (c rid : Nat) : Option Request := Tbl.get none (s.ltr c).reqs rid
def State.setRequest (s : State) (c rid : Nat) (r : Option Request) : State :=
  s.modLtr c fun l => { l with reqs := Tbl.set none l.reqs rid r }

/-- The target global address of a descriptor, for its error record (R339, R343). -/
def targetOf (d : Nat) : Nat :=
  match hdOp d with
  | 0x01 => bits d 319 256
  | 0x02 => bits d 319 256
  | 0x03 => bits d 255 192
  | 0x10 => bits d 479 416
  | 0x11 => bits d 479 416
  | 0x28 => bits d 479 416
  | 0x18 => bits d 255 192
  | 0x20 => bits d 255 244 * 2 ^ 48
  | _ => 0

/-- The byte offset in its descriptor's transfer of the cell that an offset lies in (R314, R338, R343): cells of 48 bytes, READ cells of 768,
RL add cells of 32 or 16, and one for anything else. -/
def cellOffset (d off : Nat) : Nat :=
  match hdOp d with
  | 0x01 => off - off % 768
  | 0x02 => off - off % 48
  | 0x03 => off - off % 48
  | 0x10 => off - off % 32
  | 0x28 => off - off % 32
  | 0x11 => off - off % 16
  | _ => 0

/-- A failure noted: of several the one at the lowest offset stands (R343). -/
def Request.failed (r : Request) (code unit detail : Nat) : Request :=
  match r.fail with
  | some f => if unit < f.2.1 then { r with fail := some (code, unit, detail) } else r
  | none => { r with fail := some (code, unit, detail) }

end Sys2Proof.Machine
end

