-- ==== Sys2Proof/Machine/Tokens.lean ====
section
/-! DEFINITION. The order in which the consumers of a core's tokens are served (03_core_and_instruction_set.md R120, R121). -/

namespace Sys2Proof.Machine
open Sys2Proof

/-- Whether the head of a lighter queue may start by ORD: no earlier descriptor of its queue is unfinished (R120). -/
def State.ltrOrdered (s : State) (c q d : Nat) : Bool :=
  !hdOrd d || !(s.lighter (s.logical c)).reqs.any fun e => match e.2 with
    | some r => r.queue == q && !r.ghost
    | none => false

/-- Whether an engine of a core's die is free: it runs one descriptor at a time (R140), so ORD is then met too (R120). -/
def State.engFree (s : State) (c e : Nat) : Bool := (Tbl.get EngState.init s.engines (coreDie c * 16 + e)).run.isNone

/-- What waits for tokens of a core, in R121's order of service: its rank and the two tokens that it takes together. Rank 0 is the pilot at
a TKWAIT, 1 the head of the staging queue, 2 that of the drain queue, 3 to 6 the lighter queues, 7 to 15 the engine queues. -/
def State.consumers (s : State) (c : Nat) : List (Nat × Nat × Nat) :=
  let k := s.core c
  let p := s.press c
  let pilot := if k.run = .tkwait then k.waitTk.toList.map fun t => (0, t, 0) else []
  let stage := (p.staging.head?.toList.filter fun e => !e.taken).map fun e => (1, e.wait, 0)
  let drain := ((p.drains.find? fun d => d.phase != .proving).toList.filter fun d => d.phase == .queued).map fun d => (2, d.wait, 0)
  let ltr := (List.range 4).flatMap fun q => ((k.queue q).head?.toList.filter fun d => s.ltrOrdered c q d.num).map fun d =>
    (3 + q, hdWait0 d.num, hdWait1 d.num)
  let eng := (List.range 9).flatMap fun e => ((k.queue (0x10 + e)).head?.toList.filter fun _ => s.engFree c e).map fun d =>
    (7 + e, hdWait0 d.num, hdWait1 d.num)
  pilot ++ stage ++ drain ++ ltr ++ eng

/-- Whether the consumer of rank `rank` may take tokens `w0` and `w1` now: they are there once every consumer that R121 serves before it has
taken its own. -/
def State.mayTake (s : State) (c rank w0 w1 : Nat) : Bool :=
  (((s.consumers c).filter fun x => decide (x.1 < rank)).foldl (fun k x =>
    if k.canTake x.2.1 x.2.2 then (k.take x.2.1).take x.2.2 else k) (s.core c)).canTake w0 w1

end Sys2Proof.Machine
end

