-- ==== Sys2Proof/Machine/Check.lean ====
section
/-! DEFINITION. Sampling for proof (06_result_checking.md R206, R207, R210, R212, R213), shared by the vector unit, the press and the
lighter's streams, and the queues of the press. -/

namespace Sys2Proof.Machine
open Sys2Proof

/-- A descriptor of a lighter queue that is a STREAM and so names its set from its ENQ on (11_collectives_and_job_mapping.md R354, R355). -/
def isStream (d : Nat) : Bool := hdOp d == 0x28 && hdLen d == 5

/-- Whether the proof core of a die stands in for a core (R129, R213). -/
def State.standingIn (s : State) (die : Nat) : Bool := (s.core (13 * die + 12)).standin.isSome

/-- The number by which the quarantine knows a unit: kind, die, core and sub-unit (R214). -/
def unitId (ukind die core sub : Nat) : Nat := ukind * 0x1000 + die * 0x100 + core * 0x10 + sub

/-- Whether proofing is off on a die: its proof core is quarantined or stands in (R213, R222). -/
def State.proofOff (s : State) (die : Nat) : Bool :=
  s.standingIn die || (s.unit (unitId 4 die 12 0xF)).quarantined
    || (List.range 4).any fun p => (s.unit (unitId 4 die 12 p)).quarantined

/-- Proofing on a die ended until the next restart, by the verdict that its proof core is faulty (R211, R429). CHK_PROOF.STATE, whose value 3
R228 gives to a quarantine and to SEXP alone, does not show it (DEDUCED, log entry 27). -/
def State.proofEnd (s : State) (die : Nat) : State := s.setChk die { s.chkOf die with proofLost := true }

/-- The sample test of R206 at core c for count n. -/
def State.sampled (s : State) (c n : Nat) : Bool :=
  let die := coreDie c
  let k := s.clusterOf c
  let S := s.fld (a_CHK_CFG die k) f_CHK_CFG_SEXP
  s.levelOf c == 2 && S != 0 && coreNo c != 12 && !s.proofOff die && !(s.chkOf die).proofLost
    && decide ((rng64 (s.reg (a_CHK_KEY die k)) c (BitVec.ofNat 64 n)).toNat / 2 ^ (64 - S) = 0)

/-- The registers that a vector instruction can use, with no flag raised. -/
def CoreState.vecRegs (k : CoreState) : VecRegs := ⟨k.g, k.v, k.m, k.vs, k.vsqe, k.vct, 0⟩

/-- A vector unit that holds given registers. -/
def VecRegs.core (x : VecRegs) : CoreState :=
  { CoreState.init with g := x.g, v := x.v, m := x.m, vs := x.vs, vsqe := x.vsqe, vct := x.vct, vflags := x.vflags }

/-- The difference of two results (R210): the destination is the one register, mask, stick or general register in which they can differ;
a stick's QE stands above its bits. -/
def VecRegs.diff (x y : VecRegs) : BitVec 2048 :=
  let v := (List.range 32).foldl (fun a i => a ^^^ Tbl.get 0 x.v i ^^^ Tbl.get 0 y.v i) (0 : BitVec 2048)
  let m := (List.range 8).foldl (fun a i => a ^^^ Tbl.get 0 x.m i ^^^ Tbl.get 0 y.m i) (0 : BitVec 256)
  let g := (List.range 32).foldl (fun a i => a ^^^ Tbl.get 0 x.g i ^^^ Tbl.get 0 y.g i) (0 : Word)
  let st := (List.range 8).foldl (fun a i => a ^^^ Tbl.get 0 x.vs i ^^^ Tbl.get 0 y.vs i) (0 : Stick)
  let qe := (List.range 8).foldl (fun a i => a ^^^ unsigned 12 (Tbl.get 0 x.vsqe i) ^^^ unsigned 12 (Tbl.get 0 y.vsqe i)) 0
  v ^^^ m.setWidth 2048 ^^^ g.setWidth 2048 ^^^ BitVec.ofNat 2048 (st.toNat + qe * 2 ^ 128)

/-- The bits of the destination that are compared (R210): those of the lanes that the mask names, for an instruction of MAJ 0x10, 0x12 or 0x14
that acts lane by lane; all of them for any other. -/
def VecRegs.compared (x : VecRegs) (word : Nat) : BitVec 2048 :=
  let maj := bits word 31 27
  let fn := bits word 26 21
  let on (i : Nat) : Bool := (Tbl.get 0 x.m (bits word 17 15)).getLsbD i
  let bitsOf (ty : Nat) (act : Nat → Bool) : BitVec 2048 :=
    match laneOf ty with
    | some l => ofLanes l.width ((List.range l.count).map fun i => if act i then 2 ^ l.width - 1 else 0)
    | none => BitVec.allOnes 2048
  let ty := bits word 20 18
  if bits word 17 15 = 0 then BitVec.allOnes 2048
  else if maj = 0x10 || (maj == 0x12 && (fn == 0 || fn == 2 || fn == 5 || fn == 7)) then bitsOf ty on
  else if maj = 0x12 && fn == 1 then
    match laneOf ty, laneOf (bits word 12 10) with
    | some a, some b => bitsOf (bits word 12 10) fun j =>
      if a.count < b.count then j / a.count == bits word 14 13 && on (j % a.count) else on j
    | _, _ => BitVec.allOnes 2048
  else if maj = 0x14 && fn < 4 then (Tbl.get 0 x.m (bits word 17 15)).setWidth 2048
  else BitVec.allOnes 2048

/-- A vector instruction that issues at core c: where it is sampled it joins the waiting ones with the operands copied, what the original
made of them and what the proof core makes of the copies, or is skipped with 16 of them waiting (R206, R207, R210). -/
def State.sampleVector (s : State) (c n word : Nat) (ops orig proof : VecRegs) : State :=
  if s.sampled c n then
    let die := coreDie c
    let k := s.chkOf die
    if 16 ≤ k.vproofs.length then s.bump (a_CHK_PROOF_SKIP die) f_CHK_PROOF_SKIP_VECTOR
    else s.setChk die { k with vproofs := k.vproofs ++ [⟨c, n, word, ops, orig, proof⟩] }
  else s

/-- Whether the tile of set p of core c is the one being proved. -/
def State.proving (s : State) (c p : Nat) : Bool :=
  match (s.chkOf (coreDie c)).tproof with
  | some t => t.core == c && t.set == p
  | none => false

/-- A change of a press in which entries can leave its queues: event QUEUE_LOW where a depth falls to its mark (R99). -/
def State.pressQueues (s : State) (c : Nat) (f : PressState → PressState) : State :=
  let p := s.press c
  let q := f p
  (s.setPress c q).modCore c fun k =>
    (k.fell 0x20 p.staging.length q.staging.length).fell 0x21 p.drains.length q.drains.length

/-- Whether a drain waits for the proof of set p (R209). -/
def DrainEnt.proves (d : DrainEnt) (p : Nat) : Bool := d.phase == .proving && bits d.desc 183 182 == p

/-- The drain that a proof held back leaves the queue, and its token is raised (R209). -/
def State.proofRelease (s : State) (c p : Nat) : State :=
  let mine := (s.press c).drains.filter fun d => d.proves p
  mine.foldl (fun t d => t.raise c d.raise) (s.pressQueues c fun q => { q with drains := q.drains.filter fun d => !d.proves p })

/-- The proof of a tile given up (R212): counted, and nothing waits for it any more. -/
def State.abandonTile (s : State) (die : Nat) : State :=
  match (s.chkOf die).tproof with
  | none => s
  | some t => ((s.setChk die { s.chkOf die with tproof := none }).bump (a_CHK_PROOF die) f_CHK_PROOF_ABANDONED).proofRelease
      t.core t.set

/-- Waiting vector proofs of a die of which `mine` holds given up, each counted (R212). -/
def State.abandonVectors (s : State) (die : Nat) (mine : VProof → Bool) : State :=
  ((s.chkOf die).vproofs.filter mine).foldl (fun t _ => t.bump (a_CHK_PROOF die) f_CHK_PROOF_ABANDONED)
    (s.setChk die { s.chkOf die with vproofs := (s.chkOf die).vproofs.filter fun v => !mine v })

/-- Proofs of core c given up (R212): its tile, and its waiting vector instructions. -/
def State.abandonCore (s : State) (c : Nat) : State :=
  let die := coreDie c
  let s2 := s.abandonVectors die fun v => v.core == c
  match (s2.chkOf die).tproof with
  | some t => if t.core = c then s2.abandonTile die else s2
  | none => s2

/-- The sticks and checksum sticks of a set zero, with its QE and CKV (R72). -/
def PressState.clear (p : PressState) (set : Nat) (qe : Int) (ckv : Bool) : PressState :=
  let keep {α : Type} (m : Tbl α) : Tbl α := m.filter fun e => e.1 / 128 != set
  { p with sticks := keep p.sticks, csticks := keep p.csticks, qe := Tbl.set 0 p.qe set qe, ckv := Tbl.set false p.ckv set ckv }

/-- The proof core of a die. -/
def proofCore (die : Nat) : Nat := 13 * die + 12

/-- A set clear at core c (R206): the proof of an undrained tile of that set is given up (R212), the clear is counted, and
the set is sampled or skipped. For a sample the proof core clears its own set with the same QE (R208 step 1). -/
def State.sampleClear (s : State) (c p : Nat) (qe : Int) : State :=
  let die := coreDie c
  let s1 := match (s.chkOf die).tproof with
    | some t => if t.core = c && t.set == p && t.tally.isNone then s.abandonTile die else s
    | none => s
  let n := (s1.press c).clearCount
  let s2 := s1.modPress c fun q => { q with clearCount := n + 1 }
  if s2.sampled c n then
    match (s2.chkOf die).tproof with
    | some _ => s2.bump (a_CHK_PROOF_SKIP die) f_CHK_PROOF_SKIP_TILES
    | none =>
      let q := s2.press c
      let s3 := (s2.setChk die { s2.chkOf die with tproof := some ⟨c, p, qe, q.ord, [], none, false, 0, 0⟩ }).setPress c
        { q with ord := q.ord + 1 }
      s3.modPress (proofCore die) fun x => x.clear p qe true
  else s2

end Sys2Proof.Machine
end

