-- ==== Sys2Proof/Machine/Home.lean ====
section
/-! DEFINITION. Where memory is and how it is reached: routes over the Quay link (07_package_and_quay_link.md R229 to R237), HBM
reads and writes with the symbol code, poison and its log (08_memory_system.md R259 to R270), and the home directory
(R244 to R249). -/

namespace Sys2Proof.Machine
open Sys2Proof

/-! ### HBM addresses -/

/-- The stack of an HBM address, and its home base die (R244). -/
def stackOf (a : Nat) : Nat := a / 2 ^ 36
def homeOf (a : Nat) : Nat := 12 + stackOf a / 3

/-- Channel, and pseudo-channel by channel · 2 + PC (R259). -/
def chanOf (a : Nat) : Nat := bits a 13 9
def pchanOf (a : Nat) : Nat := bits a 13 8

/-- The bank of an address within its pseudo-channel: SID, bank group, bank (R259). -/
def bankOf (a : Nat) : Nat := bits a 21 20 * 16 + bits a 15 14 * 4 + bits a 17 16

/-- The first line of the page (row of a bank) that holds an address: column bits cleared (R259). -/
def pageOf (a : Nat) : Nat := a - bits a 7 0 - bits a 19 18 * 2 ^ 18

/-- The line of an address within its page, and the address of line n of a page. -/
def lineNo (a : Nat) : Nat := bits a 19 18 * 4 + bits a 7 6
def pageLine (page n : Nat) : Nat := page + n / 4 * 2 ^ 18 + n % 4 * 64

/-- The lines that `n` bytes from `a` touch. -/
def linesOf (a n : Nat) : List Nat := (List.range ((a % 64 + n + 63) / 64)).map fun i => a - a % 64 + 64 * i

/-- A stack's controller. -/
def State.hbm (s : State) (st : Nat) : HbmState := Tbl.get HbmState.init s.hbms st
def State.setHbm (s : State) (st : Nat) (h : HbmState) : State := { s with hbms := Tbl.set HbmState.init s.hbms st h }
def State.modHbm (s : State) (st : Nat) (f : HbmState → HbmState) : State := s.setHbm st (f (s.hbm st))

/-- The state of the channel of an HBM address (R276). -/
def State.chanState (s : State) (a : Nat) : Nat :=
  s.fld (a_HBM_CH_STATUS (homeOf a) (stackWin (stackOf a)) (chanOf a)) f_HBM_CH_STATUS_STATE

/-- Whether some channel that `n` bytes from `a` use is FAILED, or holds its requests (R276 to R278). -/
def State.hbmDown (s : State) (a n : Nat) : Bool := isHbm a && (linesOf a n).any fun l => s.chanState l == 5
def State.hbmHeld (s : State) (a n : Nat) : Bool := isHbm a && (linesOf a n).any fun l => s.chanState l != 2 && s.chanState l != 5

/-! ### The schedulers (R261) -/

/-- The scheduler of a line's pseudo-channel. -/
def State.sched (s : State) (line : Nat) : Sched := Tbl.get Sched.init (s.hbm (stackOf line)).scheds (pchanOf line)

/-- Whether the schedulers of lines have room for them all; a FAILED channel takes none (R278). -/
def State.schedRoom (s : State) (ls : List Nat) : Bool :=
  ls.all fun l => s.chanState l == 5 || ((s.sched l).wait.isEmpty
    && decide ((s.sched l).reqs.length + (ls.filter fun x => stackOf x == stackOf l && pchanOf x == pchanOf l).length ≤ 64))

/-- A request put to a scheduler: it waits at the home while 64 are held (R261). -/
def Sched.put (q : Sched) (r : SchedReq) : Sched :=
  if decide (64 ≤ q.reqs.length) || !q.wait.isEmpty then { q with wait := q.wait ++ [r] } else { q with reqs := q.reqs ++ [r] }

/-- Lines put to their schedulers, those that find them full behind one another (R261); one of a FAILED channel is refused, and goes to none
(R278). -/
def State.schedule (s : State) (write : Bool) (ls : List Nat) : State :=
  (ls.filter fun l => s.chanState l != 5).foldl (fun t l => t.modHbm (stackOf l) fun h =>
    let q := (Tbl.get Sched.init h.scheds (pchanOf l)).put ⟨l, write, s.tideOf (homeOf l)⟩
    { h with scheds := Tbl.set Sched.init h.scheds (pchanOf l) q }) s

/-! ### The HBM log and the repair list -/

/-- A log entry (R270). -/
def hbmEntry (tide code line mask err count : Nat) : Nat :=
  tide % 2 ^ 64 * 2 ^ 192 + code * 2 ^ 176 + stackOf line * 2 ^ 172 + chanOf line * 2 ^ 167 + bits line 8 8 * 2 ^ 166
    + bits line 21 20 * 2 ^ 164 + bits line 15 14 * 2 ^ 162 + bits line 17 16 * 2 ^ 160 + bits line 35 22 * 2 ^ 146
    + lineNo line * 2 ^ 142 + mask * 2 ^ 100 + err * 2 ^ 84 + count * 2 ^ 64 + (line - line % 64)

/-- A log entry of a channel: TIDE, CODE, STACK and CH alone (R270). -/
def chanEntry (tide code st ch : Nat) : Nat := tide % 2 ^ 64 * 2 ^ 192 + code * 2 ^ 176 + st * 2 ^ 172 + ch * 2 ^ 167

/-- An entry written into a stack's log (R270). -/
def State.hbmLog (s : State) (st e : Nat) : State :=
  let b := stackBase st
  let j := stackWin st
  let ptr := a_HBM_LOGPTR b j
  let n := s.fld ptr f_HBM_LOGPTR_NEXT
  let s1 := (List.range 4).foldl (fun t w => t.setReg (a_HBM_ERRLOG b j n w) (BitVec.ofNat 64 (e / 2 ^ (64 * w)))) s
  let old := (s1.hbm st).pend
  let s2 := if old.contains n then s1.bump ptr f_HBM_LOGPTR_LOST else s1
  let pend := (old.filter fun k => k != n) ++ [n]
  (s2.modHbm st fun h => { h with pend := pend }).setFlds ptr
    [(f_HBM_LOGPTR_NEXT, n + 1), (f_HBM_LOGPTR_PENDING, min 15 pend.length)]

/-- The corrections counted in an address's row (R269). -/
def State.rowCount (s : State) (a : Nat) : Nat := Tbl.get 0 (s.hbm (stackOf a)).rows (pageOf a)

/-- Whether entry n of a stack's repair list holds a row. -/
def State.repairHas (s : State) (st n page : Nat) : Bool :=
  let a := a_HBM_REPAIR (stackBase st) (stackWin st) n
  s.fld a f_HBM_REPAIR_VALID == 1 && pageOf (s.fld a f_HBM_REPAIR_LINE * 64) == page

/-- A row that meets a listing condition (R269): logged and listed, unless it is on the list; only logged when the list is full. -/
def State.rowRepair (s : State) (line : Nat) : State :=
  let st := stackOf line
  if (List.range 8).any fun n => s.repairHas st n (pageOf line) then s
  else
    let s1 := s.hbmLog st (hbmEntry (s.tideOf (homeOf line)) Code.HBM_ROW_REPAIR line 0 0 (s.rowCount line))
    match (List.range 8).find? fun n => s1.fld (a_HBM_REPAIR (stackBase st) (stackWin st) n) f_HBM_REPAIR_VALID == 0 with
    | none => s1
    | some n => s1.setFlds (a_HBM_REPAIR (stackBase st) (stackWin st) n)
        [(f_HBM_REPAIR_VALID, 1), (f_HBM_REPAIR_LINE, line / 64)]

/-- A symbol corrected in a line (R266): counted, logged, and its row set down for a scrub and, at its fourth, for repair. -/
def State.hbmCorrected (s : State) (line pos err : Nat) : State :=
  let st := stackOf line
  let s1 := s.bump (a_HBM_ECC (stackBase st) (stackWin st)) f_HBM_ECC_CORR
  let n := holdAt (2 ^ 20 - 1) (s1.rowCount line + 1)
  let s2 := s1.modHbm st fun h => { h with
    rows := Tbl.set 0 h.rows (pageOf line) n
    scrubs := if h.scrubs.contains (pageOf line) then h.scrubs else h.scrubs ++ [pageOf line] }
  let s3 := s2.hbmLog st (hbmEntry (s2.tideOf (homeOf line)) Code.HBM_SYMBOL_CORRECTED line (2 ^ pos) err n)
  if n = 4 then s3.rowRepair line else s3

/-- The log entry of an uncorrectable read (R266). -/
def State.hbmDataLog (s : State) (line : Nat) : State :=
  s.hbmLog (stackOf line) (hbmEntry (s.tideOf (homeOf line)) Code.HBM_DATA_ERROR line 0 0 (s.rowCount line))

/-- An uncorrectable read of a line (R266, R267): the line poisoned, counted, captured, logged, its row listed. -/
def State.hbmUncorr (s : State) (line : Nat) : State :=
  let b := homeOf line
  let j := stackWin (stackOf line)
  let s1 := (s.setMark line 2).bump (a_HBM_ECC b j) f_HBM_ECC_UNCORR
  let s2 := if s1.fld (a_HBM_ERRADDR b j) f_HBM_ERRADDR_VALID = 1 then s1
    else s1.setFlds (a_HBM_ERRADDR b j) [(f_HBM_ERRADDR_VALID, 1), (f_HBM_ERRADDR_LINE, line / 64)]
  (s2.hbmDataLog line).rowRepair line

/-! ### The symbol code (R265, R266) -/

/-- A product in GF(2^16) with polynomial 0x1100B; `n` bits of the second factor are still to come. -/
def gfMulGo : Nat → Nat → Nat → Nat
  | 0, _, _ => 0
  | n + 1, a, b =>
    let a2 := if a * 2 < 65536 then a * 2 else (a * 2) ^^^ 0x1100B
    (if b % 2 = 1 then a else 0) ^^^ gfMulGo n a2 (b / 2)

def gfMul (a b : Nat) : Nat := gfMulGo 16 a b

/-- α to the power n. -/
def gfPow : Nat → Nat
  | 0 => 1
  | n + 1 => gfMul (gfPow n) 2

/-- The symbols of a line: bytes 2i and 2i + 1, the least significant first (R265). -/
def symbolsOf (bs : List Byte) : List Nat := (List.range 32).map fun i => natLE ((bs.drop (2 * i)).take 2)

/-- One step of the division by g(x) = (x − 1)(x − α)(x − α²)(x − α³) (R265): the remainder so far, lowest coefficient first, takes the next
symbol of d(x). The coefficients of g are α⁶, α³ + α⁴ + α⁵ + α⁶, α + α² + α⁴ + α⁵ and 1 + α + α² + α³. -/
def checkStep (r : List Nat) (d : Nat) : List Nat :=
  let top := d ^^^ r.getD 3 0
  let g (c : Nat) : Nat := gfMulGo 7 top c
  [g 0x40, r.getD 0 0 ^^^ g 0x78, r.getD 1 0 ^^^ g 0x36, r.getD 2 0 ^^^ g 0xF]

/-- The check symbols c0 to c3 of a line's data symbols: the remainder of d(x) · x⁴ by g(x) (R265). -/
def checkSymbols (ds : List Nat) : List Nat := ds.reverse.foldl checkStep [0, 0, 0, 0]

/-- The codeword that the controller stores for a line: c_j at position j, d_i at position i + 4 (R265). -/
def codeword (bs : List Byte) : List Nat := checkSymbols (symbolsOf bs) ++ symbolsOf bs

/-- A codeword as it comes back with symbol errors. -/
def withErrors (w : List Nat) (errs : List SymErr) : List Nat := errs.foldl (fun l e => l.modify e.pos fun x => x ^^^ e.err.toNat) w

/-- Syndrome k of a word: its polynomial at α^k (R266). -/
def wordSyndrome (w : List Nat) (k : Nat) : Nat := w.reverse.foldl (fun x c => gfMulGo (k + 1) x (2 ^ k) ^^^ c) 0

/-- What the decoder finds. -/
inductive Decoded where
  | clean
  | corrected (pos err : Nat)
  | uncorrectable
deriving DecidableEq, Repr

/-- The decoder (R266): all syndromes zero, consistent with one symbol in error, or neither. -/
def decodeWord (w : List Nat) : Decoded :=
  let x := (List.range 4).map (wordSyndrome w)
  let g (k : Nat) : Nat := x.getD k 0
  if x.all fun v => v == 0 then .clean
  else match (List.range 36).find? fun p => g 0 != 0 && g 1 == gfMul (g 0) (gfPow p) && g 2 == gfMul (g 1) (gfPow p)
      && g 3 == gfMul (g 2) (gfPow p) with
    | some p => .corrected p (g 0)
    | none => .uncorrectable

/-- A line's bytes with symbol errors in its data symbols (R265: d_i is bytes 2i and 2i + 1 at position i + 4). -/
def flipLine (bs : List Byte) (errs : List SymErr) : List Byte :=
  errs.foldl (fun l (e : SymErr) =>
    if e.pos < 4 then l
    else
      let i := 2 * (e.pos - 4)
      (l.modify i fun b => b ^^^ BitVec.setWidth 8 e.err).modify (i + 1) fun b => b ^^^ BitVec.setWidth 8 (e.err >>> 8)) bs

/-- A read of one line whose codeword comes back with errors (R266, R267); a scrubber that meets a poisoned line only logs it. -/
def State.decodeLine (s : State) (line : Nat) (errs : List SymErr) (scrubber : Bool) : State :=
  if s.markAt line = 2 then (if scrubber then s.hbmDataLog line else s.hbmUncorr line)
  else match decodeWord (withErrors (codeword (s.bytes line 64)) errs) with
    | .clean => s
    | .corrected p v =>
      let fixed := flipLine (s.bytes line 64) (errs ++ [⟨p, BitVec.ofNat 16 v⟩])
      ({ s with mem := memWrite s.mem line fixed }).hbmCorrected line p v
    | .uncorrectable => s.hbmUncorr line

/-- The first line that a read of HBM finds poisoned. -/
def State.hbmBad (s : State) (a n : Nat) : Option Nat := (linesOf a n).find? fun l => s.markAt l == 2

/-- A read of HBM: every poisoned line it touches decodes as uncorrectable again (R267). -/
def State.hbmRead (s : State) (a n : Nat) : State :=
  ((linesOf a n).filter fun l => s.markAt l == 2).foldl (fun t l => t.hbmUncorr l) s

/-- Whether `n` HBM bytes from `a` lie in the windows of a partition, every 256 MiB unit in some valid window of its own home (R260). -/
def State.hbmWinOk (s : State) (part a n : Nat) : Bool :=
  inHbm a n
    && (List.range ((a + n - 1) / 2 ^ 28 - a / 2 ^ 28 + 1)).all fun i =>
      let u := a / 2 ^ 28 + i
      (List.range 4).any fun w =>
        let r := a_HBM_WIN (homeOf (u * 2 ^ 28)) part w
        s.fld r f_HBM_WIN_VALID == 1 && decide (s.fld r f_HBM_WIN_BASE ≤ u) && decide (u ≤ s.fld r f_HBM_WIN_LIMIT)

/-- The partitions with a window over a line: an uncorrectable line that a job reads has them torn down (R429). -/
def State.lineParts (s : State) (l : Nat) : List Nat := (List.range 24).filter fun p => s.hbmWinOk p l 64

/-! ### Reading and writing memory wherever it lies -/

/-- What a memory access answers: the state, 0 or its error code, the address at fault, and the bytes of a read. -/
structure MemAns where
  st : State
  code : Nat
  at_ : Nat
  bytes : List Byte

/-- A read of HBM or a galley by a reader of kind `kind` (R137) for a core's place on its die. -/
def State.readMem (s : State) (a n core kind : Nat) : MemAns :=
  if isGalley a then
    let q := s.galleyRead (galleyDie a) core kind a n
    match q.2 with
    | some w => ⟨q.1, Code.GALLEY_DATA_ERROR, w, []⟩
    | none => ⟨q.1, 0, 0, q.1.bytes a n⟩
  else if s.hbmDown a n then ⟨s, Code.HBM_CHANNEL_DOWN, a, []⟩
  else match s.hbmBad a n with
    | some l => ⟨(s.lineParts l).foldl (fun t p => t.askTeardown p Code.HBM_DATA_ERROR) (s.hbmRead a n), Code.HBM_DATA_ERROR, l, []⟩
    | none => ⟨s, 0, 0, s.bytes a n⟩

/-- Lines that a write covers in part and that are poisoned: the write is refused (R267). -/
def State.partBad (s : State) (a n : Nat) : Option Nat :=
  (linesOf a n).find? fun l => s.markAt l == 2 && !(decide (a ≤ l) && decide (l + 64 ≤ a + n))

/-- A write of HBM or a galley, by the access of a core's place and reader kind (R137). -/
def State.writeMem (s : State) (a : Nat) (bs : List Byte) (core kind : Nat) : MemAns :=
  if isGalley a then ⟨s.galleyWrite (galleyDie a) core kind a bs, 0, 0, []⟩
  else if s.hbmDown a bs.length then ⟨s, Code.HBM_CHANNEL_DOWN, a, []⟩
  else match s.partBad a bs.length with
    | some l => ⟨s.hbmUncorr l, Code.HBM_DATA_ERROR, l, []⟩
    | none => ⟨s.writeBytes a bs, 0, 0, []⟩

/-! ### The home directory -/

/-- The directory set of a line (R248). -/
def dirKey (line : Nat) : Nat := (homeOf line - 12) * 8192 + bits (line - (homeOf line - 12) * 3 * 2 ^ 36) 18 6

def State.dirSet (s : State) (k : Nat) : List DirEnt := Tbl.get [] s.dirs k

/-- A line's entry. -/
def State.dirEnt (s : State) (line : Nat) : Option DirEnt := (s.dirSet (dirKey line)).find? fun e => e.line == line

/-- A line's entry put in front of its set, as the one used last. -/
def State.putDir (s : State) (e : DirEnt) : State :=
  let k := dirKey e.line
  { s with dirs := Tbl.set [] s.dirs k (e :: (s.dirSet k).filter fun x => x.line != e.line) }

/-- A line's entry taken out. -/
def State.dropDir (s : State) (line : Nat) : State :=
  let k := dirKey line
  { s with dirs := Tbl.set [] s.dirs k ((s.dirSet k).filter fun x => x.line != line) }

/-- The holders of an entry that must answer: those of its presence vector, dies lost counting as having answered (R240). -/
def State.holders (s : State) (e : DirEnt) : List Nat :=
  if e.mod && !e.lost then [12] else (List.range 13).filter fun h => bit e.holders h && !(decide (h < 12) && s.lost.contains h)

/-- Invalidations, or a recall, of a line sent to its holders (R246). -/
def State.sendInvals (s : State) (e : DirEnt) : State :=
  { s with invals := s.invals ++ (s.holders e).map fun h => ⟨homeOf e.line, h, e.line, e.mod⟩ }

/-- A line dropped from every instruction cache of a die (R245). -/
def State.dropLine (s : State) (die line : Nat) : State :=
  (List.range 13).foldl (fun t n =>
    let c := 13 * die + n
    if (t.core c).icache.contains line then t.modCore c fun k => { k with icache := k.icache.erase line } else t) s

/-! ### Windows -/

/-- Whether `n` galley bytes from `a` lie in a galley window of a partition (R136, R237). -/
def State.galleyWinOk (s : State) (part a n : Nat) : Bool :=
  let die := galleyDie a
  (List.range 2).any fun k => s.fld (a_GALLEY_WIN die k) f_GALLEY_WIN_PART == part && s.inWindow die k a n

/-- Whether a partition's cores may write a register: it lies in the own window of one of them (R91, R237). -/
def State.regWinOk (s : State) (part a : Nat) : Bool :=
  let c := 13 * regDie a + regOff a / 0x10000
  decide (regDie a < 12) && decide (regOff a / 0x10000 < 13)
    && (regBlock a == 0 || regBlock a == 1 || regBlock a == 6) && s.partOf c == part

/-- The same of every register that `n` bytes from `a` reach. -/
def State.regsWinOk (s : State) (part a n : Nat) : Bool :=
  (List.range ((a % 8 + n + 7) / 8)).all fun i => s.regWinOk part (a - a % 8 + 8 * i)

/-- The check of R237 on `n` bytes from `a`: a tag of 31 passes wherever there is memory, 24 to 30 never pass. -/
def State.tagOk (s : State) (part a n : Nat) (write : Bool) : Bool :=
  let there := inHbm a n || (isGalley a && inGalley (galleyDie a) a n) || (inRegs a && inRegs (a + n - 1))
  if part = 31 then there
  else if 24 ≤ part then false
  else there && (if isHbm a then s.hbmWinOk part a n else if isGalley a then s.galleyWinOk part a n
    else !write || s.regsWinOk part a n)

end Sys2Proof.Machine
end

