-- ==== Sys2Proof/Machine/Lanes.lean ====
section
/-! DEFINITION. Lanes and ports by number, with what their registers show (07_package_and_quay_link.md R229, 09_pholux_photonics.md
R289, R308, R309), and cells given to a router of this node (10_tideway_fabric.md R318). -/

namespace Sys2Proof.Machine
open Sys2Proof

/-- A lane's base die and engine; a port's base die and local number (R229, R289). -/
def laneDie (l : Nat) : Nat := 12 + l / 96
def laneNo (l : Nat) : Nat := l % 96
def portDie (p : Nat) : Nat := 12 + p / 8
def portNo (p : Nat) : Nat := p % 8

/-- The lanes of a base die, and its ports. -/
def dieLanes (b : Nat) : List Nat := upFrom (96 * (b - 12)) 96
def diePorts (b : Nat) : List Nat := upFrom (8 * (b - 12)) 8

def a_stat (l : Nat) : Nat := a_LANE_STATUS (laneDie l) (laneNo l)
def a_lctl (l : Nat) : Nat := a_LANE_CTL (laneDie l) (laneNo l)
def a_port (p : Nat) : Nat := a_PHX_PORT (portDie p) (portNo p)

def State.lane (s : State) (l : Nat) : LaneState := Tbl.get LaneState.init s.lanes l
def State.modLane (s : State) (l : Nat) (f : LaneState → LaneState) : State :=
  { s with lanes := Tbl.set LaneState.init s.lanes l (f (s.lane l)) }
def State.port (s : State) (p : Nat) : PortState := Tbl.get PortState.init s.ports p
def State.modPort (s : State) (p : Nat) (f : PortState → PortState) : State :=
  { s with ports := Tbl.set PortState.init s.ports p (f (s.port p)) }

/-- LANE_STATUS.STATE: 0 idle, 1 acquiring, 2 in service, 3 moving, 4 recovering, 5 FAILED, 6 OFFLINE (R309). -/
def State.laneSt (s : State) (l : Nat) : Nat := s.fld (a_stat l) f_LANE_STATUS_STATE
def State.lanePort (s : State) (l : Nat) : Nat := s.fld (a_stat l) f_LANE_STATUS_PORT
def State.lanePos (s : State) (l : Nat) : Nat := s.fld (a_stat l) f_LANE_STATUS_POS
def State.laneSlot (s : State) (l : Nat) : Nat := s.fld (a_stat l) f_LANE_STATUS_SLOT
def State.setLaneSt (s : State) (l st : Nat) : State := s.setFld (a_stat l) f_LANE_STATUS_STATE st

/-- PHX_PORT.STATE and PART (R308). -/
def State.portSt (s : State) (p : Nat) : Nat := s.fld (a_port p) f_PHX_PORT_STATE
def State.portPart (s : State) (p : Nat) : Nat := s.fld (a_port p) f_PHX_PORT_PART

/-- The engines on a port, and the one that fills a position. -/
def State.portLanes (s : State) (p : Nat) : List Nat := (dieLanes (portDie p)).filter fun l => s.lanePort l == p
def State.laneAt (s : State) (p j : Nat) : Option Nat := (s.portLanes p).find? fun l => s.lanePos l == j

/-- The lanes of a port in service. -/
def State.serving (s : State) (p : Nat) : List Nat := (s.portLanes p).filter fun l => s.laneSt l == 2

/-- What a die's tide follows, and its count in units of 1/16 ns, modulo 2^64 (12_the_tide.md R376, R377). -/
def State.followOf (s : State) (die : Nat) : Follow := Tbl.get Follow.init s.follow die
def State.stamp (s : State) (die : Nat) : Nat := (s.tideOf die * 16 + (s.followOf die).frac / 2 ^ 36) % 2 ^ 64

/-- The node at the far end of a port, as the imposition names it (R308). -/
def State.farNode (s : State) (p : Nat) : Nat := s.fld (a_PHX_PORT_EXP (portDie p) (portNo p)) f_PHX_PORT_EXP_NODE

/-- A cell bound to a port, given to that port's router as a local cell (R346, R377). -/
def State.portCell (s : State) (p : Nat) (c : Cell) : State :=
  s.localCell (portDie p) ⟨c, s.tideOf (portDie p), true, none, some p⟩

end Sys2Proof.Machine
end

