-- ==== Sys2Proof/Machine/Collect.lean ====
section
/-! DEFINITION. The COLL block (11_collectives_and_job_mapping.md R358 to R366) and the completion counters of a lighter
(10_tideway_fabric.md R344). -/

namespace Sys2Proof.Machine
open Sys2Proof

/-- What a context has gathered. -/
def State.collCtx (s : State) (die c n : Nat) : CollCtx := Tbl.get CollCtx.init s.collCtxs (die * 512 + c * 32 + n)
def State.setCollCtx (s : State) (die c n : Nat) (x : CollCtx) : State :=
  { s with collCtxs := Tbl.set CollCtx.init s.collCtxs (die * 512 + c * 32 + n) x }

/-- The state of a context (R359). -/
def State.collState (s : State) (die c n : Nat) : Nat := s.fld (a_COLL_CTX die c n 0) f_COLL_CTX_STATE

/-- The ports of a partition (R252, R336): those whose PHX_PORT.PART names it. -/
def State.partPorts (s : State) (part : Nat) : List Nat :=
  (List.range 32).filter fun p => s.fld (a_PHX_PORT (12 + p / 8) (p % 8)) f_PHX_PORT_PART == part

/-- The compute dies that hold a cluster of a partition. -/
def State.partDies (s : State) (part : Nat) : List Nat :=
  (List.range 12).filter fun d => (List.range 2).any fun k =>
    s.fld (a_GALLEY_WIN d k) f_GALLEY_WIN_PART == part && s.fld (a_GALLEY_WIN d k) f_GALLEY_WIN_SIZE != 0

/-- One copy of a control cell on every port of its partition that has a lane in service, each to the neighbour there (R346, R361). -/
def State.flood (s : State) (c : Cell) : State :=
  ((s.partPorts c.part).filter fun p => !(s.serving p).isEmpty).foldl (fun t p => t.portCell p { c with dst := s.farNode p }) s

/-- A CONTROL cell's granule 0 (R314): SUBKIND, CODE, NODE with NODEV, TIDE. -/
def controlWord (subkind code : Nat) (node : Option Nat) (tide : Nat) : Nat :=
  subkind + code * 2 ^ 8 + (match node with
    | some n => n * 2 ^ 24 + 2 ^ 36
    | none => 0) + tide % 2 ^ 64 * 2 ^ 64

/-- An error record of the COLL block in a lighter's log, with TAG the CID (R358, R360). OP, QUEUE, UNIT and DETAIL, which the
rule does not give, are free values. -/
def State.collError (s : State) (die c code cid : Nat) : State :=
  let w := s.free.1.toNat
  let d := s.free.2.free.1.toNat
  let s1 := s.free.2.free.2.errRecord (a_LTR_ERRPTR die c) (fun n => a_LTR_ERRLOG die c n 0) code (w % 256) (w / 256 % 256)
    (w / 2 ^ 32) cid d (s.tideOf die)
  (s1.bump (a_LTR_ERRCNT die c) f_LTR_ERRCNT_COUNT).fire (13 * die + c) 7

/-- The 32 bytes of a context's arrival record, with a state (R365). -/
def State.arrivalNum (s : State) (die c n st : Nat) : Nat :=
  let x := s.collCtx die c n
  s.fld (a_COLL_CTX die c n 0) f_COLL_CTX_CID * 2 ^ 224 + (s.reg (a_COLL_CTX die c n 2)).toNat * 2 ^ 160 + x.first % 2 ^ 64 * 2 ^ 96
    + x.fire % 2 ^ 64 * 2 ^ 32 + x.node * 2 ^ 20 + x.core * 2 ^ 12 + st * 2 ^ 8 + b2n x.fired * 2 ^ 7

/-- The arrival record of a context that an ABORT finds in the tick in which it became FINAL: what the ring holds of it shows ABORTED, and it
counts no second time (R363, R365). -/
def State.arrivalAgain (s : State) (die c n : Nat) : State :=
  let w (k : Nat) : Nat := ((List.range 4).map fun i => (s.reg (a_COLL_REC die k i)).toNat * 2 ^ (64 * i)).sum
  match (List.range 64).find? fun k => w k == s.arrivalNum die c n 3 with
  | some k => s.setReg (a_COLL_REC die k 0) (BitVec.ofNat 64 (s.arrivalNum die c n 4))
  | none => s

/-- The arrival record of a context that has entered FINAL or ABORTED (R365, R366). -/
def State.arrival (s : State) (die c n : Nat) : State :=
  let x := s.collCtx die c n
  let w := s.arrivalNum die c n (s.collState die c n)
  let ptr := a_COLL_RECPTR die
  let k := s.fld ptr f_COLL_RECPTR_NEXT
  let s1 := (List.range 4).foldl (fun t i => t.setReg (a_COLL_REC die k i) (BitVec.ofNat 64 (w / 2 ^ (64 * i)))) s
  let count := Tbl.get 0 s1.collRecs die
  let s2 := if 64 ≤ count then s1.bump ptr f_COLL_RECPTR_LOST else { s1 with collRecs := Tbl.set 0 s1.collRecs die (count + 1) }
  let s3 := s2.setFld ptr f_COLL_RECPTR_NEXT (k + 1)
  if x.fired then
    let i := if x.node / 16 = s.nodeId / 16 then x.node % 16 else 16
    s3.bump (a_COLL_SLOW die i) f_COLL_SLOW_COUNT
  else s3

/-- A context ended by an abort (R360 steps 1, 2, 4 and 5): an OPEN one's counter is disarmed. -/
def State.collAbortCtx (s : State) (die c n code atide : Nat) : State :=
  let s1 := if s.collState die c n = 1 then s.setFld (a_LTR_CCCFG die c n) f_LTR_CCCFG_ARMED 0 else s
  let s2 := s1.setFlds (a_COLL_CTX die c n 0) [(f_COLL_CTX_STATE, 4), (f_COLL_CTX_CODE, code)]
  let s3 := s2.setReg (a_COLL_CTX die c n 3) (BitVec.ofNat 64 atide)
  let cid := s.fld (a_COLL_CTX die c n 0) f_COLL_CTX_CID
  let s4 := s3.collError die c code cid
  (if s.collState die c n = 3 then s4.arrivalAgain die c n else s4.arrival die c n).report code die (s.partOf (13 * die + c)) [cid, atide]

/-- An entry of the early list that holds a CID of a partition (R362). -/
def State.earlyOf (s : State) (die cid part : Nat) : Option Nat :=
  (List.range 16).find? fun e =>
    let a := a_COLL_EARLY die e 0
    s.fld a f_COLL_EARLY_VALID == 1 && s.fld a f_COLL_EARLY_CID == cid && s.fld a f_COLL_EARLY_PART == part

/-- The deadline of an OPEN context (R360): aborted with COLL_DEADLINE, and an ABORT sent. -/
def State.collDeadline (s : State) (die c n : Nat) : State :=
  let d := (s.reg (a_COLL_CTX die c n 1)).toNat
  let part := s.partOf (13 * die + c)
  let cid := s.fld (a_COLL_CTX die c n 0) f_COLL_CTX_CID
  let cell : Cell := ⟨0xD, part, 0, s.nodeId, 0, 0, bits (s.tideOf die) 15 8, 7, 0,
    controlWord 2 Code.COLL_DEADLINE (some s.nodeId) d, cid, 0⟩
  ((s.flood cell).bump (a_COLL_STATUS die) f_COLL_STATUS_ABORT_TX).collAbortCtx die c n Code.COLL_DEADLINE d

/-- A context opened (R358): refused with COLL_BUSY where it is OPEN or DONE; aborted at once, its counter left as it is, where the early
list holds its CID (R362); aborted at once by its deadline, where that has passed (R385). -/
def State.collOpen (s : State) (die c n cid deadline : Nat) : State :=
  let st := s.collState die c n
  if st = 1 || st == 2 then (s.bump (a_COLL_STATUS die) f_COLL_STATUS_BUSY).collError die c Code.COLL_BUSY cid
  else
    let s1 := s.setFlds (a_COLL_CTX die c n 0) [(f_COLL_CTX_STATE, 1), (f_COLL_CTX_CID, cid), (f_COLL_CTX_CODE, 0)]
    let s2 := ((s1.setReg (a_COLL_CTX die c n 1) (BitVec.ofNat 64 deadline)).setReg (a_COLL_CTX die c n 2)
      (BitVec.ofNat 64 (s.tideOf die))).setReg (a_COLL_CTX die c n 3) 0
    let s3 := s2.setCollCtx die c n CollCtx.init
    match s3.earlyOf die cid (s.partOf (13 * die + c)) with
    | none => if deadline ≤ s3.tideOf die then s3.collDeadline die c n else s3
    | some e => (s3.setFld (a_COLL_CTX die c n 0) f_COLL_CTX_STATE 0).collAbortCtx die c n (s3.fld (a_COLL_EARLY die e 0) f_COLL_EARLY_CODE)
        (s3.reg (a_COLL_EARLY die e 1)).toNat

/-- The contexts of a die that hold a CID in a partition. -/
def State.ctxsOf (s : State) (die cid part : Nat) : List (Nat × Nat) :=
  ((List.range 416).filter fun i =>
    s.collState die (i / 32) (i % 32) != 0 && s.fld (a_COLL_CTX die (i / 32) (i % 32) 0) f_COLL_CTX_CID == cid
      && s.partOf (13 * die + i / 32) == part).map fun i => (i / 32, i % 32)

/-- An ABORT kept in the early list, in place of the oldest (R362). -/
def State.keepEarly (s : State) (die cid code tide part : Nat) : State :=
  let e := Tbl.get 0 s.collEarly die
  let s1 := s.setFlds (a_COLL_EARLY die e 0)
    [(f_COLL_EARLY_VALID, 1), (f_COLL_EARLY_CID, cid), (f_COLL_EARLY_CODE, code), (f_COLL_EARLY_PART, part)]
  let s2 := s1.setReg (a_COLL_EARLY die e 1) (BitVec.ofNat 64 tide)
  { s2 with collEarly := Tbl.set 0 s2.collEarly die ((e + 1) % 16) }

/-- A COLL block acting on an ABORT for one of its contexts (R362). FINAL in the very tick of the ABORT counts as DONE (R363). -/
def State.collActOn (s : State) (die code tide part : Nat) (cn : Nat × Nat) : State :=
  let st := s.collState die cn.1 cn.2
  let final := (s.reg (a_COLL_CTX die cn.1 cn.2 1)).toNat + s.fld (a_COLL_CTL die) f_COLL_CTL_GRACE
  if st = 1 || st == 2 || (st == 3 && s.tideOf die == final) then s.collAbortCtx die cn.1 cn.2 code tide
  else if st = 3 then s.askTeardown part Code.COLL_LATE_ABORT
  else s

/-- What an ABORT has left of a context, put as another of the same tick has it (R363): CODE and ATIDE, the error record and the status record. -/
def State.collRetell (s : State) (die : Nat) (a : AbortSeen) (code tide : Nat) (cn : Nat × Nat) : State :=
  let ctx := a_COLL_CTX die cn.1 cn.2
  if !(s.collState die cn.1 cn.2 == 4 && s.fld (ctx 0) f_COLL_CTX_CODE == a.code && s.reg (ctx 3) == BitVec.ofNat 64 a.tide) then s
  else
    let s1 := (s.setFld (ctx 0) f_COLL_CTX_CODE code).setReg (ctx 3) (BitVec.ofNat 64 tide)
    let told (n : Nat) : Bool :=
      let e := a_LTR_ERRLOG die cn.1 n 0
      s.reg e == BitVec.ofNat 64 a.cid && bits (s.reg (e + 8)).toNat 63 48 == a.code && s.reg (e + 16) == BitVec.ofNat 64 a.at_
    let s2 := ((List.range 8).filter told).foldl (fun t n =>
      let e := a_LTR_ERRLOG die cn.1 n 0
      t.setReg (e + 8) (BitVec.ofNat 64 (bits (t.reg (e + 8)).toNat 47 0 + code * 2 ^ 48))) s1
    let f (r : StatusRec) : StatusRec :=
      if r.code = a.code && r.tide == a.at_ && r.die == die && r.body == argBody [a.cid, a.tide] then { r with code := code, body := argBody [a.cid, tide] }
      else r
    { s2 with recs := { s2.recs with buf := s2.recs.buf.map f, last := s2.recs.last.map f } }

/-- What the early list holds of an ABORT, put as another of the same tick has it (R362, R363). -/
def State.earlyRetell (s : State) (die : Nat) (a : AbortSeen) (code tide : Nat) : State :=
  let mine (e : Nat) : Bool :=
    let r := a_COLL_EARLY die e 0
    s.fld r f_COLL_EARLY_VALID == 1 && s.fld r f_COLL_EARLY_CID == a.cid && s.fld r f_COLL_EARLY_PART == a.part
      && s.fld r f_COLL_EARLY_CODE == a.code && s.reg (a_COLL_EARLY die e 1) == BitVec.ofNat 64 a.tide
  ((List.range 16).filter mine).foldl (fun t e =>
    (t.setFld (a_COLL_EARLY die e 0) f_COLL_EARLY_CODE code).setReg (a_COLL_EARLY die e 1) (BitVec.ofNat 64 tide)) s

/-- A COLL block receiving an ABORT (R362, R363): the first copy for a CID acts; of two in one tick with different contents the
lower TIDE, then the lower CODE, stands. -/
def State.collAbort (s : State) (die cid code tide part : Nat) : State :=
  let now := s.tideOf die
  let seen := Tbl.get [] s.collSeen die
  match seen.find? fun a => a.cid == cid && a.part == part && decide (a.tide < tide + 100_000_000) && decide (tide < a.tide + 100_000_000) with
  | some a =>
    let s1 := s.bump (a_COLL_STATUS die) f_COLL_STATUS_DUPABORT
    if a.at_ = now && (decide (tide < a.tide) || (tide == a.tide && decide (code < a.code))) then
      let s2 := (s1.ctxsOf die cid part).foldl (fun t cn => t.collRetell die a code tide cn) (s1.earlyRetell die a code tide)
      { s2 with collSeen := Tbl.set [] s2.collSeen die (⟨cid, part, code, tide, now⟩ :: seen.erase a) }
    else s1
  | none =>
    let s1 := s.bump (a_COLL_STATUS die) f_COLL_STATUS_ABORT_RX
    let s2 := { s1 with collSeen := Tbl.set [] s1.collSeen die (⟨cid, part, code, tide, now⟩ :: seen) }
    match s2.ctxsOf die cid part with
    | [] => s2.keepEarly die cid code tide part
    | l => l.foldl (fun t cn => t.collActOn die code tide part cn) s2

/-- The slowest member of a collective (R366): of those whose arrival records have its CID, by node, the one of the largest ARRIVE, the lower
node id on a tie. `recs` are the nodes and the 32 bytes of their records. -/
def slowestMember (cid : Nat) (recs : List (Nat × Nat)) : Option Nat :=
  ((recs.filter fun x => bits x.2 255 224 == cid).foldl (fun (a : Option (Nat × Nat)) x =>
    let arrive := bits x.2 223 160
    match a with
    | none => some (x.1, arrive)
    | some (n, t) => if t < arrive || (t == arrive && decide (x.1 < n)) then some (x.1, arrive) else a) none).map Prod.fst

/-! ### Completion counters -/

/-- Whether a register write to counter n of core c waits for the end of this tick (R389): what changes the counter after it within the
tick then waits too, since the register write comes first (R344). -/
def State.ccWritten (s : State) (c n : Nat) : Bool :=
  s.gathered.any fun w => w.addr == a_LTR_CC (coreDie c) (coreNo c) n || w.addr == a_LTR_CCCFG (coreDie c) (coreNo c) n

/-- An addition to counter n of core c by a signal of a node and core (R344, R359, R365): the firing of an armed counter that
reaches TARGET raises its token and event LIGHTER_CC, and makes an OPEN context DONE before its deadline. -/
def State.addNow (s : State) (c n inc node who : Nat) : State :=
  let die := coreDie c
  let k := coreNo c
  let a := a_LTR_CC die k n
  let cfg := a_LTR_CCCFG die k n
  let old := s.fld a f_LTR_CC_COUNT
  let target := s.fld a f_LTR_CC_TARGET
  let now := s.tideOf die
  let x := s.collCtx die k n
  let open_ := s.collState die k n == 1
  let s1 := s.setFld a f_LTR_CC_COUNT (old + inc)
  let s2 := if (open_ || s.collState die k n == 2) && x.first == 0 then s1.setCollCtx die k n { x with first := now } else s1
  if s.fld cfg f_LTR_CCCFG_ARMED = 1 && decide (old < target) && decide (target ≤ old + inc) then
    let s3 := s2.setFlds cfg [(f_LTR_CCCFG_ARMED, 0), (f_LTR_CCCFG_FIRED, 1)]
    let s4 := (s3.raise c (s.fld cfg f_LTR_CCCFG_TOKEN)).fire c 2
    if open_ && decide (now < (s.reg (a_COLL_CTX die k n 1)).toNat) then
      (s4.setFld (a_COLL_CTX die k n 0) f_COLL_CTX_STATE 2).setCollCtx die k n
        { s2.collCtx die k n with fire := now, node := node, core := who, fired := true }
    else s4
  else s2

/-- An addition, in its turn. -/
def State.ccAdd (s : State) (c n inc node who : Nat) : State :=
  if s.ccWritten c n then { s with ccHeld := s.ccHeld ++ [.add c n inc node who] } else s.addNow c n inc node who

/-- CCSET's change of a counter (R344). -/
def State.setNow (s : State) (c n count target token : Nat) : State :=
  let die := coreDie c
  let k := coreNo c
  (s.setFlds (a_LTR_CC die k n) [(f_LTR_CC_COUNT, count), (f_LTR_CC_TARGET, target)]).setFlds (a_LTR_CCCFG die k n)
    [(f_LTR_CCCFG_TOKEN, token), (f_LTR_CCCFG_ARMED, 1)]

/-- CCSET, in its turn. -/
def State.ccSet (s : State) (c n count target token : Nat) : State :=
  if s.ccWritten c n then { s with ccHeld := s.ccHeld ++ [.set c n count target token] } else s.setNow c n count target token

/-- The changes of counters that waited for register writes: CCSETs, then additions (R344). -/
def State.ccLate (s : State) : State :=
  let s1 := s.ccHeld.foldl (fun t x => match x with
    | .set c n count target token => t.setNow c n count target token
    | .add _ _ _ _ _ => t) { s with ccHeld := [] }
  s.ccHeld.foldl (fun t x => match x with
    | .set _ _ _ _ _ => t
    | .add c n inc node who => t.addNow c n inc node who) s1

/-- The collective contexts of a core that another takes over (R129, R358). -/
def State.moveContexts (s : State) (die src dst : Nat) : State :=
  (List.range 32).foldl (fun t n =>
    let t1 := (List.range 4).foldl (fun u w =>
      (u.setReg (a_COLL_CTX die dst n w) (u.reg (a_COLL_CTX die src n w))).setReg (a_COLL_CTX die src n w) 0) t
    (t1.setCollCtx die dst n (t1.collCtx die src n)).setCollCtx die src n CollCtx.init) s

/-- The contexts of a core after a core reset: FREE (R359). -/
def State.freeContexts (s : State) (die k : Nat) : State :=
  (List.range 32).foldl (fun t n =>
    ((List.range 4).foldl (fun u w => u.setReg (a_COLL_CTX die k n w) 0) t).setCollCtx die k n CollCtx.init) s

end Sys2Proof.Machine
end

