-- ==== Sys2Proof/Machine/Engine.lean ====
section
/-! DEFINITION. What the case engines share (04_galley_case_engines_berth_pool.md R139 to R145): tensor references, the checks
of a descriptor, work in whole units, completion and error. -/

namespace Sys2Proof.Machine
open Sys2Proof

/-! ### Tensor references -/

/-- A tensor reference (R142). -/
structure Tref where
  addr : Nat
  rows : Nat
  cols : Nat
  stride : Nat
  et : Nat
  t : Int
  bad : Bool
deriving DecidableEq, Repr

/-- Reading a TREF from its 128 bits (R142). -/
def trefOf (x : Nat) : Tref :=
  ⟨bits x 47 0, bits x 95 80 + 1, bits x 111 96 + 1, bits x 127 112, bits x 67 64, signed 16 (bits x 63 48), bits x 79 68 != 0⟩

/-- Bits of an element type (R143). -/
def etBits (et : Nat) : Nat :=
  if et = 1 then 4 else if et < 7 then 8 else if et = 7 then 16 else if et = 0xE then 64 else if et = 0xF then 128 else 32

/-- Bytes of an element that has whole bytes. -/
def etBytes (et : Nat) : Nat := etBits et / 8

/-- A whole number of pieces of `n`, rounded up. -/
def ceilDiv (a n : Nat) : Nat := (a + n - 1) / n

def Tref.rowBytes (t : Tref) : Nat := ceilDiv (t.cols * etBits t.et) 8

/-- The distance of rows (R142). -/
def Tref.pitch (t : Tref) : Nat := if t.stride = 0 then 16 * ceilDiv t.rowBytes 16 else 16 * t.stride

def Tref.rowAddr (t : Tref) (r : Nat) : Nat := t.addr + r * t.pitch

/-- The address of element (r, c), of whole bytes. -/
def Tref.elemAddr (t : Tref) (r c : Nat) : Nat := t.rowAddr r + c * etBytes t.et

/-- How many elements. -/
def Tref.size (t : Tref) : Nat := t.rows * t.cols

/-- The address of element k in row-major order. -/
def Tref.place (t : Tref) (k : Nat) : Nat := t.elemAddr (k / t.cols) (k % t.cols)

/-- A stretch of memory: address and length. -/
abbrev Span := Nat × Nat

/-- The rows of a tensor. -/
def Tref.spans (t : Tref) : List Span := (List.range t.rows).map fun r => (t.rowAddr r, t.rowBytes)

/-- The stretches of the elements `lo` up to `hi` in row-major order, row by row. -/
def Tref.part (t : Tref) (lo hi : Nat) : List Span :=
  (upFrom (lo / t.cols) (ceilDiv hi t.cols - lo / t.cols)).map fun r =>
    let a := max lo (r * t.cols)
    let b := min hi ((r + 1) * t.cols)
    let first := (a % t.cols) * etBits t.et / 8
    (t.rowAddr r + first, ceilDiv ((a % t.cols + (b - a)) * etBits t.et) 8 - first)

/-- Whether two stretches share a byte. -/
def Span.meets (x y : Span) : Bool := decide (x.1 < y.1 + y.2) && decide (y.1 < x.1 + x.2)

/-- Whether any stretch of one list meets one of the other. -/
def spansMeet (xs ys : List Span) : Bool := xs.any fun x => ys.any fun y => Span.meets x y

/-- The element at a place, two E2M1 elements a byte, the lower one in the low bits. -/
def State.elem (s : State) (t : Tref) (r c : Nat) : Nat :=
  if t.et = 1 then
    let b := (s.byte (t.rowAddr r + c / 2)).toNat
    if c % 2 = 0 then b % 16 else b / 16
  else s.num (t.elemAddr r c) (etBytes t.et)

/-- The exact value of an element before scales (R19, R143); a stick or an RL element has none here. -/
def etNum (et b : Nat) : ElemVal :=
  match et with
  | 1 => Fmt.e2m1.decode b
  | 2 => Fmt.e4m3.decode b
  | 3 => Fmt.e5m2.decode b
  | 4 => Fmt.e4m3.decode b
  | 5 => Fmt.e5m2.decode b
  | 6 => intNum 8 b
  | 7 => Fmt.bf16.decode b
  | 0xA => Fmt.b32.decode b
  | 0xB => intNum 32 b
  | _ => .fin false b 0

/-- The output format of an element type (R34). -/
def etOut (et : Nat) : OutFmt :=
  match et with
  | 1 => .fl .e2m1
  | 2 => .fl .e4m3
  | 3 => .fl .e5m2
  | 4 => .fl .e4m3
  | 5 => .fl .e5m2
  | 6 => .i8
  | 7 => .fl .bf16
  | 0xA => .fl .b32
  | _ => .i32

/-- Types that hold plain bits: R147's list. -/
def etPlain (et : Nat) : Bool := (decide (4 ≤ et) && decide (et ≤ 7)) || (decide (0xA ≤ et) && decide (et ≤ 0xF))

/-- The floating types the transcendental engine takes (R150). -/
def etFloat (et : Nat) : Bool := et == 4 || et == 5 || et == 7 || et == 0xA

/-- The numeric types of SUM (R154). -/
def etSum (et : Nat) : Bool := (decide (4 ≤ et) && decide (et ≤ 7)) || et == 0xA || et == 0xB

/-- A scale exponent within R20. -/
def scaleOk (t : Int) : Bool := decide (-1024 ≤ t) && decide (t ≤ 1023)

/-- A G and guard within R37 and R38, for RL elements of `w` bits. -/
def guardOk (w : Nat) (G : Int) (g : Nat) : Bool :=
  decide (-2048 ≤ G) && decide (G ≤ 2047) && decide (g ≤ if w = 64 then 32 else 16)

/-! ### Units of work -/

/-- An error of a descriptor: code and DETAIL (R145, R167). -/
abbrev EngErr := Nat × Nat

/-- One unit (R141): what it reads; from the state in which it was read and checked, what it writes and the running values
after it, or its error; and what it changes beside memory. -/
structure EngUnit where
  reads : State → List Span
  side : State → State := fun s => s
  result : State → Except EngErr (List (Nat × List Byte) × EngAcc)

/-- What a descriptor comes to (R141, R144): the first check it fails; how many units are left (2 for two or more), its next
unit, and what its end writes and changes beside. `stop` is what an error of its own writes first (R164). -/
structure EngJob where
  check : Option EngErr
  left : EngAcc → State → Nat
  unit : EngAcc → EngUnit
  last : EngAcc → State → State
  stop : Nat → EngAcc → State → State

/-- A job with `n` units, nothing at its end and nothing at an error. -/
def EngJob.plain (check : Option EngErr) (n : Nat) (unit : EngAcc → EngUnit) : EngJob where
  check := check
  left := fun x _ => n - x.unit
  unit := unit
  last := fun _ s => s
  stop := fun _ _ s => s

/-- The next unit counted. -/
def EngAcc.next (x : EngAcc) : EngAcc := { x with unit := x.unit + 1 }

/-- A unit of a job without running values: it writes what `f` gives. -/
def EngUnit.pure (x : EngAcc) (reads : List Span) (f : State → List (Nat × List Byte)) : EngUnit where
  reads := fun _ => reads
  result := fun s => .ok (f s, x.next)

/-- An engine on a die. -/
def State.engine (s : State) (die e : Nat) : EngState := Tbl.get EngState.init s.engines (die * 16 + e)
def State.setEngine (s : State) (die e : Nat) (x : EngState) : State :=
  { s with engines := Tbl.set EngState.init s.engines (die * 16 + e) x }

/-- The reader kind of engine e (R137). -/
def engKind (e : Nat) : Nat := 3 + 256 * e

/-- Reading stretches in turn, the whole of them with every word checked (R137, R141): the first uncorrectable word, if one is met. -/
def State.engRead (s : State) (die core e : Nat) : List Span → State × Option Nat
  | [] => (s, none)
  | (a, n) :: r =>
    let q := s.galleyRead die core (engKind e) a n
    let u := q.1.engRead die core e r
    (u.1, q.2.or u.2)

/-- Writing stretches in turn. -/
def State.engWrite (s : State) (die core e : Nat) : List (Nat × List Byte) → State
  | [] => s
  | (a, bs) :: r => (s.galleyWrite die core (engKind e) a bs).engWrite die core e r

/-- The units of a job done while more than `keep` are left: the state, the running values, and the error that ended it. -/
def EngJob.work (j : EngJob) (die core e keep : Nat) : Nat → EngAcc → State → State × EngAcc × Option EngErr
  | 0, x, s => (s, x, none)
  | fuel + 1, x, s =>
    if j.left x s ≤ keep then (s, x, none)
    else
      let u := j.unit x
      let q := s.engRead die core e (u.reads s)
      match q.2 with
      | some w => (q.1, x, some (Code.GALLEY_DATA_ERROR, w))
      | none => match u.result q.1 with
        | .error er => (j.stop er.1 x q.1, x, some er)
        | .ok (ws, x') => j.work die core e keep fuel x' ((u.side q.1).engWrite die core e ws)

/-- More units than any descriptor has: a galley holds fewer bytes. -/
def engFuel : Nat := 0x1000_0000

/-- The first failing check. -/
def firstBad : List (Bool × Nat × Nat) → Option EngErr
  | [] => none
  | (true, c, d) :: _ => some (c, d)
  | (false, _, _) :: r => firstBad r

/-- The first stretch that is misaligned or leaves the core's galley window (R136, R144). -/
def State.spanBad (s : State) (c : Nat) : List (Span × Nat) → Option Nat
  | [] => none
  | ((a, n), al) :: r => if a % al ≠ 0 || !s.galleyOk c a n then some a else s.spanBad c r

/-- Rows of a tensor as stretches to check. -/
def Tref.rows16 (t : Tref) : List (Span × Nat) := t.spans.map fun x => (x, 16)

/-- The checks of R144 in their order: `lenOk` LEN and reserved bits, `fmt` formats and shapes, `src` and `dst` the operands
with their alignment, `scale` whether scales are in range, `hist` whether history slots are. -/
def State.engCheck (s : State) (c : Nat) (lenBad fmtBad : Bool) (src dst : List (Span × Nat)) (scaleBad histBad : Bool) :
    Option EngErr :=
  if lenBad then some (Code.BAD_DESCRIPTOR, 0)
  else if fmtBad then some (Code.ENGINE_BAD_FORMAT, 0)
  else match s.spanBad c (src ++ dst) with
    | some a => some (Code.BAD_ADDRESS, a)
    | none =>
      if spansMeet (src.map Prod.fst) (dst.map Prod.fst) then
        some (Code.BAD_ADDRESS, match dst with
          | x :: _ => x.1.1
          | [] => 0)
      else if scaleBad then some (Code.BAD_SCALE, 0)
      else if histBad then some (Code.HIST_RANGE, 0)
      else none

/-! ### Starting and ending a descriptor -/

/-- The OPs of an engine: its lowest undefined ones are ended by the row of its first OP. -/
def engOps (e : Nat) : Nat :=
  match e with
  | 0 => 1 | 1 => 3 | 2 => 6 | 3 => 2 | 4 => 8 | 5 => 7 | 6 => 4 | 7 => 2 | _ => 1

/-- Whether an OP is defined for an engine (R144). -/
def engOpOk (e op : Nat) : Bool := decide (1 ≤ op) && decide (op ≤ engOps e)

/-- Whether the head of a core's queue of engine e may start (R120, R121). -/
def State.engReady (s : State) (die e n : Nat) : Bool :=
  match (s.core (13 * die + n)).queue (0x10 + e) with
  | [] => false
  | d :: _ => s.mayTake (13 * die + n) (7 + e) (hdWait0 d.num) (hdWait1 d.num)

/-- The core that engine e serves next (R140). -/
def State.engPick (s : State) (die e : Nat) : Option Nat :=
  ((List.range 13).map fun i => ((s.engine die e).ptr + i) % 13).find? fun n => s.engReady die e n

/-- A descriptor ended with an error, the engine free again (R145). -/
def State.engFail (s : State) (die e n d unit : Nat) (er : EngErr) : State :=
  (s.setEngine die e { s.engine die e with run := none }).engineError (13 * die + n) e d er.1 unit er.2

/-- A descriptor that the engine starts (R140, R144): checked, and worked up to its last unit. -/
def State.engBegin (s : State) (die e n d : Nat) (job : State → Nat → EngJob) : State :=
  if !engOpOk e (hdOp d) then s.engFail die e n d 0 (Code.ENGINE_BAD_OP, 0)
  else
    let j := job s d
    match j.check with
    | some er => s.engFail die e n d 0 er
    | none =>
      let w := j.work die n e 1 engFuel ⟨0, 0, 0, 0⟩ s
      match w.2.2 with
      | some er => w.1.engFail die e n d w.2.1.unit er
      | none => w.1.setEngine die e { w.1.engine die e with run := some ⟨n, d, w.2.1⟩ }

/-- The engine looks at its queues and starts core c's head, if that is the one it takes and `mine` is its OP (R120, R140). -/
def State.engStart (s : State) (c e : Nat) (mine : Nat → Bool) (job : State → Nat → EngJob) : State :=
  let die := coreDie c
  let n := coreNo c
  if (s.engine die e).run.isSome || s.engPick die e != some n then s
  else match (s.core c).queue (0x10 + e) with
    | [] => s
    | d :: _ =>
      let x := d.num
      if !mine (hdOp x) then s
      else
        let s1 := s.modCore c fun k => ((k.take (hdWait0 x)).take (hdWait1 x)).popQueue (0x10 + e)
        (s1.setEngine die e { s1.engine die e with ptr := (n + 1) % 13 }).engBegin die e n x job

/-- The running descriptor brought to its end: its last unit, then its results, its RAISE token and ENG_DONE (R122, R141, R167). -/
def State.engComplete (s : State) (die e : Nat) (job : State → Nat → EngJob) : State :=
  match (s.engine die e).run with
  | none => s
  | some r =>
    let j := job s r.desc
    let w := j.work die r.core e 0 engFuel r.acc s
    match w.2.2 with
    | some er => w.1.engFail die e r.core r.desc w.2.1.unit er
    | none =>
      let s1 := j.last w.2.1 w.1
      let s2 := s1.setEngine die e { s1.engine die e with run := none }
      (s2.bumpWrap (a_ENG_DONE die e) f_ENG_DONE_COUNT).raise (13 * die + r.core) (hdRaise r.desc)

/-- A core reset or stand-in at an engine (R124, R145): its running descriptor of that core finishes the unit in progress and
ends with QUEUE_FLUSHED. -/
def State.engFlush (s : State) (c e : Nat) (job : State → Nat → EngJob) : State :=
  let die := coreDie c
  match (s.engine die e).run with
  | none => s
  | some r =>
    if r.core ≠ coreNo c then s
    else
      let w := (job s r.desc).work die r.core e 0 engFuel r.acc s
      match w.2.2 with
      | some er => w.1.engFail die e r.core r.desc w.2.1.unit er
      | none => w.1.engFail die e r.core r.desc w.2.1.unit (Code.QUEUE_FLUSHED, 0)

end Sys2Proof.Machine
end

