-- ==== Sys2Proof/Machine/EngineMath.lean ====
section
/-! DEFINITION. The engines that compute (04_galley_case_engines_berth_pool.md): transcendental engine, reducer and scale
engine with its history slots. -/

namespace Sys2Proof.Machine
open Sys2Proof

/-! ### Transcendental engine -/

/-- The function of an OP, written at output scale exponent t (R49 to R54, R150). -/
def transFn (op : Nat) (f : Fmt) (t : Int) (x : ElemVal) : Res :=
  match op with
  | 1 => f.exp t x
  | 2 => f.log t x
  | 3 => f.rcp t x
  | 4 => f.rsqrt t x
  | 5 => f.sig t x
  | _ => f.tanh t x

/-- The floating format of an element type the engine takes. -/
def etFmt (et : Nat) : Fmt :=
  match et with
  | 4 => .e4m3
  | 5 => .e5m2
  | 7 => .bf16
  | _ => .b32

/-- One element (R150): x′ rounded to binary32, z = A·x′ + B fused, then the function; the flags of all three. -/
def transElem (op : Nat) (src dst : Tref) (a b : Nat) (e : Nat) : Res :=
  let x := Fmt.b32.ofNum (((etFmt src.et).decode e).scale src.t)
  let z := Fmt.b32.fma (Fmt.b32.decode a) (Fmt.b32.decode x.bits) (Fmt.b32.decode b)
  let r := transFn op (etFmt dst.et) dst.t (Fmt.b32.decode z.bits)
  ⟨r.bits, r.fl ||| z.fl ||| x.fl⟩

/-- EXP, LOG, RCP, RSQRT, SIG and TANH (R150): units of 4 KiB of output; `a` gathers the flags. -/
def jobTrans (c op : Nat) (s : State) (d : Nat) : EngJob :=
  let die := coreDie c
  let src := trefOf (bits d 255 128)
  let dst := trefOf (bits d 383 256)
  let res := bits d 495 448
  let w := etBytes dst.et
  let per := 4096 / max 1 w
  let check := s.engCheck c (hdLen d != 4 || hdReserved d || src.bad || dst.bad || bits d 511 496 != 0)
    (!etFloat src.et || !etFloat dst.et || src.rows != dst.rows || src.cols != dst.cols) src.rows16
    (dst.rows16 ++ if res = 0 then [] else [((res, 8), 8)]) (!scaleOk src.t || !scaleOk dst.t) false
  { EngJob.plain check (ceilDiv dst.size per) fun x =>
      let lo := x.unit * per
      let hi := min dst.size (lo + per)
      { reads := fun _ => src.part lo hi
        result := fun t =>
          let rs := (upFrom lo (hi - lo)).map fun k =>
            (dst.place k, transElem op src dst (bits d 415 384) (bits d 447 416) (t.elem src (k / src.cols) (k % src.cols)))
          .ok (rs.map fun r => (r.1, bytesLE w r.2.bits), { x.next with a := rs.foldl (fun f r => f ||| r.2.fl) x.a }) } with
    last := fun x t => if res = 0 then t else t.galleyWrite die (coreNo c) (engKind 2) res (bytesLE 8 x.a) }

/-! ### Reducer -/

/-- A reducer descriptor (R153). -/
structure Reduce where
  op : Nat
  src : Tref
  dst : Tref
  src2 : Nat
  bw : Nat
  planes : Nat
  axis : Nat
  okind : Nat
  qe : Int
  pstride : Nat
  G : Int
  guard : Nat
deriving DecidableEq, Repr

def reduceOf (op d : Nat) : Reduce :=
  ⟨op, trefOf (bits d 255 128), trefOf (bits d 383 256), bits d 431 384, bits d 479 432, bits d 495 480 + 1, bits d 497 496,
    bits d 499 498, signed 12 (bits d 511 500), 16 * bits d 543 512, signed 16 (bits d 559 544), bits d 565 560⟩

/-- How many outputs: the elements of the dimensions that remain. -/
def Reduce.outs (r : Reduce) : Nat :=
  match r.axis with
  | 0 => r.planes * r.src.rows
  | 1 => r.planes * r.src.cols
  | _ => r.src.rows * r.src.cols

/-- How many elements one output reduces. -/
def Reduce.depth (r : Reduce) : Nat :=
  match r.axis with
  | 0 => r.src.cols
  | 1 => r.src.rows
  | _ => r.planes

/-- Element i of output k: plane, row and column. -/
def Reduce.spot (r : Reduce) (k i : Nat) : Nat × Nat × Nat :=
  match r.axis with
  | 0 => (k / r.src.rows, k % r.src.rows, i)
  | 1 => (k / r.src.cols, i, k % r.src.cols)
  | _ => (i, k / r.src.cols, k % r.src.cols)

/-- Plane p of the array that starts at `base`. -/
def Reduce.plane (r : Reduce) (base p : Nat) : Tref := { r.src with addr := base + p * r.pstride }

/-- An element of output k from the array at `base`. -/
def State.redElem (s : State) (r : Reduce) (base k i : Nat) : Nat :=
  let x := r.spot k i
  s.elem (r.plane base x.1) x.2.1 x.2.2

/-- Where an element of output k lies. -/
def Reduce.spanOf (r : Reduce) (base k i : Nat) : Span :=
  let x := r.spot k i
  ((r.plane base x.1).elemAddr x.2.1 x.2.2, etBytes r.src.et)

/-- The maximum or minimum of integers or floating elements by R45, as an encoding. -/
def redPick (et : Nat) (least : Bool) (a b : Nat) : Nat :=
  if et = 6 || et = 0xB then
    let w := etBits et
    if (if least then decide (signed w b < signed w a) else decide (signed w a < signed w b)) then b else a
  else
    let f := etFmt et
    if least then (f.min (f.decode a) (f.decode b)).bits else (f.max (f.decode a) (f.decode b)).bits

/-- The magnitude of a value. -/
def ElemVal.mag : ElemVal → ElemVal
  | .fin _ m e => .fin false m e
  | .inf _ => .inf false
  | v => v

/-- The larger magnitude of two encodings, the positive one of a pair of one magnitude; a NaN gives NaN (R154). -/
def redAmax (et a b : Nat) : Nat :=
  let x := etNum et a
  let y := etNum et b
  if x.isNan || y.isNan then (etFmt et).nanBits
  else if x.mag.lt y.mag then b
  else if y.mag.lt x.mag then a
  else if x.isNeg then b else a

/-- The stick of output k (R154). -/
def State.redStick (s : State) (r : Reduce) (k : Nat) : Stick :=
  let val (base i : Nat) : ElemVal := (etNum r.src.et (s.redElem r base k i)).scale r.src.t
  (List.range r.depth).foldl (fun st i =>
    match r.op with
    | 1 => stickAddNum r.qe st (val r.src.addr i)
    | 2 => stickAddNum r.qe st ((val r.src.addr i).mul (val r.src.addr i))
    | 3 => stickAddNum r.qe st ((val r.src.addr i).mul (val r.src2 i))
    | _ => stickJoin st (stickIn (s.redElem r r.src.addr k i))) 0

/-- The encoding of output k of MAX, MIN, AMAX and TALLYSUM. -/
def State.redSelf (s : State) (r : Reduce) (k : Nat) : Nat :=
  let xs := (List.range r.depth).map fun i => s.redElem r r.src.addr k i
  let x0 := xs.headD 0
  match r.op with
  | 4 => xs.foldl (redPick r.src.et false) x0
  | 5 => xs.foldl (redPick r.src.et true) x0
  | 6 => xs.foldl (redAmax r.src.et) x0
  | _ => xs.sum % 2 ^ 64

/-- Whether an OP writes a source value itself. -/
def redSelfOp (op : Nat) : Bool := op == 4 || op == 5 || op == 6 || op == 8

/-- Bits of an RL element. -/
def rlBits (et : Nat) : Nat := if et = 0xE then 64 else 32

/-- One output: its encoding and the flags it brings to its block word. -/
def State.redOut (s : State) (r : Reduce) (k : Nat) : Nat × Nat :=
  if redSelfOp r.op then (s.redSelf r k, 0)
  else
    let st := s.redStick r k
    match r.okind with
    | 0 => (st.toNat, 0)
    | 1 => ((stickRead (etOut r.dst.et) r.qe r.dst.t st).bits, 0)
    | _ =>
      let w := rlBits r.dst.et
      let x := stickToRL w r.G r.guard r.qe st
      (unsigned w x.1, x.2)

/-- A block word of a G and flags (R37). -/
def blockWord (G : Int) (fl : Nat) : Nat := fl * 2 ^ 16 + unsigned 16 G

/-- Whether a pairing of OP, types and OKIND is one of R154. -/
def Reduce.formatOk (r : Reduce) : Bool :=
  let srcOk := if r.op = 7 then r.src.et == 0xF else if r.op = 8 then r.src.et == 0xE else etSum r.src.et
  let out := if redSelfOp r.op then r.okind == 1 && r.dst.et == r.src.et
    else match r.okind with
      | 0 => r.dst.et == 0xF
      | 1 => etSum r.dst.et
      | 2 => r.dst.et == 0xD
      | _ => r.dst.et == 0xE
  srcOk && out && decide (r.axis < 3) && r.dst.stride == 0 && r.dst.rows == 1 && r.dst.cols == 1

/-- The reducer's OPs (R153, R154): a unit is an output block with every source element it depends on (R555). -/
def jobReduce (c op : Nat) (s : State) (d : Nat) : EngJob :=
  let r := reduceOf op d
  let w := etBytes r.dst.et
  let per := 4096 / max 1 w
  let rl := decide (2 ≤ r.okind)
  let bases := if op = 3 then [r.src.addr, r.src2] else [r.src.addr]
  let srcs := bases.flatMap fun b => (List.range r.planes).flatMap fun p => (r.plane b p).rows16
  let dsts : List (Span × Nat) := ((r.dst.addr, r.outs * w), 16) :: if rl then [((r.bw, 4 * ceilDiv r.outs per), 4)] else []
  let scaleBad := !scaleOk r.src.t || !scaleOk r.dst.t || (rl && !guardOk (rlBits r.dst.et) r.G r.guard)
  let check := s.engCheck c (hdLen d != 5 || hdReserved d || r.src.bad || r.dst.bad || bits d 639 566 != 0) (!r.formatOk)
    srcs dsts scaleBad false
  EngJob.plain check (ceilDiv r.outs per) fun x =>
    let lo := x.unit * per
    let ks := upFrom lo (min per (r.outs - lo))
    EngUnit.pure x (bases.flatMap fun b => ks.flatMap fun k => (List.range r.depth).map fun i => r.spanOf b k i) fun t =>
      let os := ks.map fun k => t.redOut r k
      (r.dst.addr + lo * w, os.flatMap fun o => bytesLE w o.1) ::
        if rl then [(r.bw + 4 * x.unit, bytesLE 4 (blockWord r.G (os.foldl (fun f o => f ||| o.2) 0)))] else []

/-! ### Scale engine -/

/-- VALID, NF and ZERO of a history entry (R156). -/
def heVALID : Nat := 2 ^ 31
def heNF : Nat := 2 ^ 30
def heZERO : Nat := 2 ^ 29

/-- The smallest E with 2^E ≥ m·2^e of a positive m, saturated (R156). -/
def expOf (m : Nat) (e : Int) : Int :=
  let k := (Nat.log2 m : Int) + (if 2 ^ Nat.log2 m = m then 0 else 1) + e
  max (-2048) (min 2047 k)

/-- The entry of one magnitude (R156, R158). -/
def entryOf : ElemVal → Nat
  | .fin _ m e => if m = 0 then heVALID + heZERO else heVALID + unsigned 16 (expOf m e)
  | _ => heVALID + heNF

/-- Two entries combined (R156). -/
def entryJoin (a b : Nat) : Nat :=
  if bit a 30 || bit b 30 then heVALID + heNF
  else if bit a 29 then b
  else if bit b 29 then a
  else if signed 16 a < signed 16 b then b else a

/-- A history slot of a die. -/
def State.histSlot (s : State) (die n : Nat) : HistSlot := Tbl.get HistSlot.init s.hist (die * 1024 + n)
def State.setHist (s : State) (die n : Nat) (h : HistSlot) : State :=
  { s with hist := Tbl.set HistSlot.init s.hist (die * 1024 + n) h }

/-- Recording pushes an entry 0 and drops entry 15 (R156). -/
def HistSlot.push (h : HistSlot) (e : Nat) : HistSlot := { h with entries := (e :: h.entries).take 16 }

/-- Whether `n` slots from `first` lie in the range of a core's partition (R144, R156). -/
def State.histOk (s : State) (c first n : Nat) : Bool :=
  let r := Tbl.get (⟨0, 0⟩ : HistRange) s.histRanges (coreDie c * 32 + s.partOf c)
  decide (r.first ≤ first) && decide (first + n ≤ r.first + r.count) && decide (first + n ≤ 1024)

/-- A scale-engine descriptor (R157). -/
structure Scale where
  src : Tref
  dst : Tref
  sscl : Nat
  dscl : Nat
  qe : Int
  slot : Nat
  record : Bool
  word : Nat
  G : Int
  guard : Nat
  bw : Nat
  nslot : Nat
deriving DecidableEq, Repr

def scaleOf (d : Nat) : Scale :=
  ⟨trefOf (bits d 255 128), trefOf (bits d 383 256), bits d 431 384, bits d 479 432, signed 12 (bits d 491 480), bits d 501 492,
    bit d 502, bits d 543 512, signed 16 (bits d 559 544), bits d 565 560, bits d 623 576, bits d 639 624 + 1⟩

/-- Whether a type is an MX type. -/
def etMx (et : Nat) : Bool := decide (1 ≤ et) && decide (et ≤ 3)

/-- Which fields of R157's table a descriptor uses, by its OP and types. -/
structure ScaleUse where
  src : Bool := false
  dst : Bool := false
  srcAddr : Bool := false
  dstAddr : Bool := false
  sscl : Bool := false
  dscl : Bool := false
  qe : Bool := false
  record : Bool := false
  word : Nat := 0
  rl : Bool := false
  nslot : Bool := false

/-- The "Used by" column of R157: `word` counts the bits of WORD in use. HSLOT is used by CONVERT and AMAX whether or not REC is set. -/
def scaleUse (d : Nat) : ScaleUse :=
  let se := bits d 195 192
  let de := bits d 323 320
  match hdOp d with
  | 1 => { src := true, dst := true, sscl := etMx se, dscl := etMx de, qe := se == 0xF, record := true, rl := de == 0xD || de == 0xE }
  | 2 => { src := true, sscl := etMx se, dscl := true, qe := se == 0xF, record := true }
  | 3 => { word := 32 }
  | 4 => { word := 32, dscl := true }
  | 5 => { dstAddr := true, nslot := true }
  | 6 => { srcAddr := true, nslot := true }
  | _ => { word := 16 }

/-- Whether LEN is wrong, or a reserved bit or a field that the OP does not use is nonzero (R144, R157). -/
def scaleLenBad (d : Nat) : Bool :=
  let u := scaleUse d
  let idle (used : Bool) (hi lo : Nat) : Bool := !used && bits d hi lo != 0
  hdLen d != 5 || hdReserved d || bits d 575 566 != 0 || bits d 511 503 != 0 || (trefOf (bits d 255 128)).bad
    || (trefOf (bits d 383 256)).bad || idle u.nslot 639 624 || idle u.rl 623 576 || idle u.rl 565 544 || idle (u.word == 32) 543 528
    || idle (u.word != 0) 527 512 || idle u.record 502 502 || idle u.qe 491 480 || idle u.dscl 479 432
    || idle u.sscl 431 384 || idle u.dst 383 304 || idle (u.dst || u.dstAddr) 303 256 || idle u.src 255 176
    || idle (u.src || u.srcAddr) 175 128

/-- Bytes of a row of scales (R157). -/
def mxRow (t : Tref) : Nat := ceilDiv t.cols 32

/-- The value of a source element (R158), with what an RL conversion of it gives. -/
def State.scaleVal (s : State) (x : Scale) (r c : Nat) : ElemVal :=
  let b := s.elem x.src r c
  if x.src.et = 0xF then stickNum x.qe (stickIn b)
  else
    let v := (etNum x.src.et b).scale x.src.t
    if etMx x.src.et then v.mx (s.byte (x.sscl + r * mxRow x.src + c / 32)).toNat else v

/-- An element converted to RL (R38): a stick brings its own status. -/
def State.scaleRL (s : State) (x : Scale) (r c : Nat) : Int × Nat :=
  let w := rlBits x.dst.et
  if x.src.et = 0xF then stickToRL w x.G x.guard x.qe (stickIn (s.elem x.src r c)) else toRL w x.G x.guard (s.scaleVal x r c)

/-- Two halves of a byte from E2M1 elements, the lower element in the low bits. -/
def nibbles : List Nat → List Byte
  | [] => []
  | [a] => [BitVec.ofNat 8 a]
  | a :: b :: r => BitVec.ofNat 8 (a + 16 * b) :: nibbles r

/-- The first element of the unit that starts at element k: an MX block of 32 belongs to the unit of its first element. -/
def mxStart (mx : Bool) (cols k : Nat) : Nat :=
  let c := k % cols
  if mx && c % 32 != 0 then k + min (32 - c % 32) (cols - c) else k

/-- The elements of unit u of 4 KiB of source (R146). -/
def Scale.range (x : Scale) (mx : Bool) (u : Nat) : Nat × Nat :=
  let per := 4096 * 8 / etBits x.src.et
  (min x.src.size (mxStart mx x.src.cols (u * per)), min x.src.size (mxStart mx x.src.cols ((u + 1) * per)))

/-- How many units of 4 KiB of source. -/
def Scale.units (x : Scale) : Nat := ceilDiv (x.src.size * etBits x.src.et) 32768

/-- What a unit reads: elements, and the scales of its MX blocks. -/
def Scale.reads (x : Scale) (lo hi : Nat) : List Span :=
  x.src.part lo hi ++ if etMx x.src.et then
    (upFrom (lo / x.src.cols) (ceilDiv hi x.src.cols - lo / x.src.cols)).map fun r =>
      (x.sscl + r * mxRow x.src, mxRow x.src) else []

/-- The blocks of 32 of an MX output from element `lo` to `hi`: row, first column, and how many. -/
def mxBlocks (cols lo hi : Nat) : List (Nat × Nat × Nat) :=
  (upFrom lo (hi - lo)).filterMap fun k =>
    let c := k % cols
    if c % 32 = 0 then some (k / cols, c, min 32 (cols - c)) else none

/-- Writing an MX output: scale bytes and elements (R35). -/
def State.scaleMx (s : State) (x : Scale) (lo hi : Nat) : List (Nat × List Byte) :=
  let f := match x.dst.et with
    | 1 => Fmt.e2m1
    | 2 => Fmt.e4m3
    | _ => Fmt.e5m2
  (mxBlocks x.src.cols lo hi).flatMap fun g =>
    let q := mxBlock f ((upFrom g.2.1 g.2.2).map fun c => (s.scaleVal x g.1 c).scale (-x.dst.t))
    let els := if x.dst.et = 1 then nibbles q.2 else q.2.map (BitVec.ofNat 8)
    [(x.dscl + g.1 * mxRow x.dst + g.2.1 / 32, [BitVec.ofNat 8 q.1]),
     (x.dst.rowAddr g.1 + g.2.1 * etBits x.dst.et / 8, els)]

/-- Writing RL elements and the block words of their blocks; `a` is the last block written to and `b` its flags so far. The elements of a last
block beyond the tensor's own, which are zero by R36, are not written: they are zero where the program has made them so (DESIGN CHOICE, log
entry 9). -/
def State.scaleRls (s : State) (x : Scale) (acc : EngAcc) (lo hi : Nat) : List (Nat × List Byte) × EngAcc :=
  let w := etBytes x.dst.et
  let per := 4096 / w
  (upFrom lo (hi - lo)).foldl (fun (p : List (Nat × List Byte) × EngAcc) k =>
    let e := s.scaleRL x (k / x.src.cols) (k % x.src.cols)
    let fl := if p.2.a = k / per then p.2.b ||| e.2 else e.2
    let end_ := k + 1 == hi || (k + 1) % per == 0
    ((p.1 ++ [(x.dst.place k, bytesLE w (unsigned (8 * w) e.1))])
        ++ (if end_ then [(x.bw + 4 * (k / per), bytesLE 4 (blockWord x.G fl))] else []),
      { p.2 with a := k / per, b := fl })) ([], acc)

/-- The entry of a unit's source magnitudes combined with the entry so far; 0 is no entry yet. -/
def State.scaleEntry (s : State) (x : Scale) (e lo hi : Nat) : Nat :=
  (upFrom lo (hi - lo)).foldl (fun a k =>
    let n := entryOf (s.scaleVal x (k / x.src.cols) (k % x.src.cols))
    if a = 0 then n else entryJoin a n) e

/-- Types CONVERT takes as source and as destination (R158). -/
def convSrc (et : Nat) : Bool := (decide (1 ≤ et) && decide (et ≤ 7)) || (decide (0xA ≤ et) && decide (et ≤ 0xC)) || et == 0xF
def convDst (et : Nat) : Bool := (decide (1 ≤ et) && decide (et ≤ 7)) || et == 0xA || et == 0xB || et == 0xD || et == 0xE

/-- What a source of CONVERT or AMAX must be reached by. -/
def Scale.srcSpans (x : Scale) : List (Span × Nat) :=
  x.src.rows16 ++ if etMx x.src.et then [((x.sscl, x.src.rows * mxRow x.src), 1)] else []

/-- CONVERT (R158): `c` gathers the entry of the source. -/
def jobConvert (c : Nat) (s : State) (d : Nat) : EngJob :=
  let die := coreDie c
  let x := scaleOf d
  let rl := x.dst.et == 0xD || x.dst.et == 0xE
  let mxd := etMx x.dst.et
  let mx := mxd || etMx x.src.et
  let dsts := x.dst.rows16 ++ (if mxd then [((x.dscl, x.dst.rows * mxRow x.dst), 1)] else [])
    ++ if rl then [((x.bw, 4 * ceilDiv x.dst.size (4096 / max 1 (etBytes x.dst.et))), 4)] else []
  let check := s.engCheck c (scaleLenBad d)
    (!convSrc x.src.et || !convDst x.dst.et || x.src.rows != x.dst.rows || x.src.cols != x.dst.cols) x.srcSpans dsts
    ((x.src.et != 0xF && !scaleOk x.src.t) || !scaleOk x.dst.t || (rl && !guardOk (rlBits x.dst.et) x.G x.guard))
    (x.record && !s.histOk c x.slot 1)
  { EngJob.plain check x.units fun a =>
      let p := x.range mx a.unit
      { reads := fun _ => x.reads p.1 p.2
        result := fun t =>
          let a' := { a.next with c := t.scaleEntry x a.c p.1 p.2 }
          if mxd then .ok (t.scaleMx x p.1 p.2, a')
          else if rl then .ok (t.scaleRls x a' p.1 p.2)
          else .ok ((upFrom p.1 (p.2 - p.1)).map fun k =>
            (x.dst.place k, bytesLE (etBytes x.dst.et)
              ((etOut x.dst.et).conv ((t.scaleVal x (k / x.src.cols) (k % x.src.cols)).scale (-x.dst.t))).bits), a') } with
    last := fun a t => if x.record then t.setHist die x.slot ((t.histSlot die x.slot).push a.c) else t }

/-- AMAX (R158): the entry of the source, as a 16-byte result. It takes the source types that R158 lists for CONVERT (DESIGN CHOICE, log
entry 9). -/
def jobAmax (c : Nat) (s : State) (d : Nat) : EngJob :=
  let die := coreDie c
  let x := scaleOf d
  let check := s.engCheck c (scaleLenBad d) (!convSrc x.src.et) x.srcSpans [((x.dscl, 16), 16)]
    (x.src.et != 0xF && !scaleOk x.src.t) (x.record && !s.histOk c x.slot 1)
  { EngJob.plain check x.units fun a =>
      let p := x.range (etMx x.src.et) a.unit
      { reads := fun _ => x.reads p.1 p.2
        result := fun t => .ok ([], { a.next with c := t.scaleEntry x a.c p.1 p.2 }) } with
    last := fun a t =>
      let t1 := t.galleyWrite die (coreNo c) (engKind 5) x.dscl (bytesLE 16 a.c)
      if x.record then t1.setHist die x.slot ((t1.histSlot die x.slot).push a.c) else t1 }

/-- RECORD (R158). -/
def jobRecord (c : Nat) (s : State) (d : Nat) : EngJob :=
  let die := coreDie c
  let x := scaleOf d
  let check := s.engCheck c (scaleLenBad d) (bits x.word 28 16 != 0 || !bit x.word 31) [] [] false (!s.histOk c x.slot 1)
  EngJob.plain check 1 fun a =>
    { EngUnit.pure a [] fun _ => [] with side := fun t => t.setHist die x.slot ((t.histSlot die x.slot).push x.word) }

/-- emax of SELECT (R159); none for the formats whose t is 0, MXFP4 among them (DESIGN CHOICE, log entry 9). -/
def selEmax (et : Nat) : Option Int :=
  match et with
  | 4 => some 8
  | 5 => some 15
  | 6 => some 6
  | _ => none

/-- Whether a policy word is one that SELECT takes (R159). -/
def policyOk (w : Nat) : Bool :=
  bits w 31 28 == 0 && bits w 23 22 == 0 && bits w 15 12 == 0 && bits w 7 5 == 0
    && decide (1 ≤ bits w 21 16) && decide (bits w 21 16 ≤ 44) && decide (1 ≤ bits w 4 0) && decide (bits w 4 0 ≤ 16)
    && ((decide (1 ≤ bits w 27 24) && decide (bits w 27 24 ≤ 7)) || bits w 27 24 == 0xA)

/-- A number held within −1,024 to 1,023. -/
def clamp1024 (i : Int) : Int := max (-1024) (min 1023 i)

/-- The 16-byte result of SELECT for a slot and a policy word (R159). -/
def selectResult (h : HistSlot) (w : Nat) : Nat :=
  let es := (h.entries.take (bits w 4 0)).filter fun e => bit e 31 && !bit e 30 && !bit e 29
  let H : Int := match es with
    | [] => h.dflt
    | e :: r => r.foldl (fun a x => max a (signed 16 x)) (signed 16 e)
  let m := signed 4 (bits w 11 8)
  let q := H + m - (bits w 21 16 : Int)
  let t : Int := match selEmax (bits w 27 24) with
    | some e => H + m - e
    | none => 0
  let clamped := clamp1024 q != q || clamp1024 t != t
  b2n clamped * 2 ^ 65 + b2n es.isEmpty * 2 ^ 64 + unsigned 16 H * 2 ^ 48 + unsigned 16 (clamp1024 t) * 2 ^ 32
    + bits w 21 16 * 2 ^ 16 + unsigned 16 (clamp1024 q)

/-- SELECT (R158, R159). -/
def jobSelect (c : Nat) (s : State) (d : Nat) : EngJob :=
  let die := coreDie c
  let x := scaleOf d
  let check := s.engCheck c (scaleLenBad d) (!policyOk x.word) [] [((x.dscl, 16), 16)] false (!s.histOk c x.slot 1)
  EngJob.plain check 1 fun a => EngUnit.pure a [] fun t =>
    [(x.dscl, bytesLE 16 (selectResult (t.histSlot die x.slot) x.word))]

/-- The 128 bytes of a slot (R158). -/
def HistSlot.image (h : HistSlot) : List Byte :=
  ((List.range 16).flatMap fun i => bytesLE 4 (h.entries.getD i 0)) ++ bytesLE 2 (unsigned 16 h.dflt) ++ List.replicate 62 0

/-- A slot from its 128 bytes. -/
def histOfImage (bs : List Byte) : HistSlot :=
  ⟨(List.range 16).map fun i => natLE ((bs.drop (4 * i)).take 4), signed 16 (natLE ((bs.drop 64).take 2))⟩

/-- HSAVE (R158): 32 slots a unit. -/
def jobHsave (c : Nat) (s : State) (d : Nat) : EngJob :=
  let die := coreDie c
  let x := scaleOf d
  let check := s.engCheck c (scaleLenBad d) false [] [((x.dst.addr, 128 * x.nslot), 16)] false (!s.histOk c x.slot x.nslot)
  EngJob.plain check (ceilDiv x.nslot 32) fun a =>
    let lo := 32 * a.unit
    EngUnit.pure a [] fun t => [(x.dst.addr + 128 * lo,
      (upFrom lo (min 32 (x.nslot - lo))).flatMap fun i => (t.histSlot die (x.slot + i)).image)]

/-- HLOAD (R158): 32 slots a unit. -/
def jobHload (c : Nat) (s : State) (d : Nat) : EngJob :=
  let die := coreDie c
  let x := scaleOf d
  let check := s.engCheck c (scaleLenBad d) false [((x.src.addr, 128 * x.nslot), 16)] [] false (!s.histOk c x.slot x.nslot)
  EngJob.plain check (ceilDiv x.nslot 32) fun a =>
    let lo := 32 * a.unit
    let n := min 32 (x.nslot - lo)
    { reads := fun _ => [(x.src.addr + 128 * lo, 128 * n)]
      side := fun t => (upFrom lo n).foldl (fun u i =>
        u.setHist die (x.slot + i) (histOfImage (t.bytes (x.src.addr + 128 * i) 128))) t
      result := fun _ => .ok ([], a.next) }

/-- HINIT (R158). -/
def jobHinit (c : Nat) (s : State) (d : Nat) : EngJob :=
  let die := coreDie c
  let x := scaleOf d
  let check := s.engCheck c (scaleLenBad d) false [] [] false (!s.histOk c x.slot 1)
  EngJob.plain check 1 fun a =>
    { EngUnit.pure a [] fun _ => [] with
      side := fun t => t.setHist die x.slot ⟨List.replicate 16 0, signed 16 (bits x.word 15 0)⟩ }

end Sys2Proof.Machine
end

