-- ==== Sys2Proof/Machine/EngineMove.lean ====
section
/-! DEFINITION. The engines that move, order, draw, compress and tally (04_galley_case_engines_berth_pool.md): transposer,
gather/scatter, sort/top-k, random generator, compressor and tally engine. -/

namespace Sys2Proof.Machine
open Sys2Proof

/-! ### Transposer -/

/-- TRANSPOSE (R147): blocks of 64 × 64 elements of the source, in row-major block order. -/
def jobTranspose (c : Nat) (s : State) (d : Nat) : EngJob :=
  let src := trefOf (bits d 255 128)
  let dst := trefOf (bits d 383 256)
  let w := etBytes src.et
  let across := ceilDiv src.cols 64
  let n := across * ceilDiv src.rows 64
  let check := s.engCheck c (hdLen d != 3 || hdReserved d || src.bad || dst.bad)
    (!etPlain src.et || src.et != dst.et || dst.cols != src.rows || dst.rows != src.cols)
    src.rows16 dst.rows16 false false
  EngJob.plain check n fun x =>
    let r0 := x.unit / across * 64
    let c0 := x.unit % across * 64
    let nr := min 64 (src.rows - r0)
    let nc := min 64 (src.cols - c0)
    EngUnit.pure x ((List.range nr).map fun i => (src.elemAddr (r0 + i) c0, nc * w)) fun t =>
      (List.range nc).map fun k =>
        (dst.elemAddr (c0 + k) r0, (List.range nr).flatMap fun i => t.bytes (src.elemAddr (r0 + i) (c0 + k)) w)

/-! ### Gather and scatter -/

/-- The index at place i of the list (R148). -/
def State.idx (s : State) (d i : Nat) : Nat := s.num (bits d 431 384 + 4 * i) 4

/-- The indices of one unit, up to the first that is out of range. -/
def State.idxBad (s : State) (d lo n limit : Nat) : Option Nat :=
  (upFrom lo n).find? fun i => decide (limit ≤ s.idx d i)

/-- GATHER, SCATTER and SCATTER_ADD (R148, R149): units of up to 64 KiB of rows. `add` gives the row written from the row
met and the row that comes. -/
def jobGather (c op : Nat) (s : State) (d : Nat) : EngJob :=
  let src := trefOf (bits d 255 128)
  let dst := trefOf (bits d 383 256)
  let oob := bit d 480
  let rb := src.rowBytes
  let count := if op = 1 then dst.rows else src.rows
  let limit := if op = 1 then src.rows else dst.rows
  let per := max 1 (0x10000 / max 1 rb)
  let list : Span × Nat := ((bits d 431 384, 4 * count), 4)
  let check := s.engCheck c (hdLen d != 4 || hdReserved d || src.bad || dst.bad || bits d 511 481 != 0 || bits d 479 432 != 0)
    ((if op = 3 then !(src.et == 0xB || src.et == 0xD || src.et == 0xE) else !etPlain src.et) || src.et != dst.et
      || src.cols != dst.cols || decide (0x10000 < rb))
    (list :: src.rows16) dst.rows16 (!scaleOk src.t || !scaleOk dst.t) false
  EngJob.plain check (ceilDiv count per) fun x =>
    let lo := x.unit * per
    let n := min per (count - lo)
    { reads := fun t =>
        (bits d 431 384 + 4 * lo, 4 * n) :: (upFrom lo n).flatMap fun i =>
          (if op = 1 then (if t.idx d i < limit then [(src.rowAddr (t.idx d i), rb)] else []) else [(src.rowAddr i, rb)])
            ++ if op = 3 && decide (t.idx d i < limit) then [(dst.rowAddr (t.idx d i), rb)] else []
      result := fun t =>
        match t.idxBad d lo n limit with
        | some i => if oob then .ok (go t lo n, x.next) else .error (Code.INDEX_RANGE, i)
        | none => .ok (go t lo n, x.next) }
where
  /-- What the rows `lo` on write: a gather its rows, a scatter each target row once with what it comes to. -/
  go (t : State) (lo n : Nat) : List (Nat × List Byte) :=
    let src := trefOf (bits d 255 128)
    let dst := trefOf (bits d 383 256)
    let rb := src.rowBytes
    let w := etBytes src.et
    if op = 1 then
      (upFrom lo n).map fun i =>
        (dst.rowAddr i, if t.idx d i < src.rows then t.bytes (src.rowAddr (t.idx d i)) rb else List.replicate rb 0)
    else
      (upFrom lo n).foldl (fun ws i =>
        let k := t.idx d i
        if dst.rows ≤ k then ws
        else
          let a := dst.rowAddr k
          let row := t.bytes (src.rowAddr i) rb
          let old := match ws.find? fun y => y.1 == a with
            | some y => y.2
            | none => t.bytes a rb
          let new := if op = 2 then row else
            (List.range src.cols).flatMap fun j =>
              bytesLE w (natLE ((old.drop (j * w)).take w) + natLE ((row.drop (j * w)).take w))
          ws.filter (fun y => y.1 != a) ++ [(a, new)]) []

/-! ### Sort and top-k -/

/-- The key by which the sorter orders an element (R152). -/
def sortKey (et b : Nat) : Int :=
  let w := etBits et
  if et = 6 || et = 0xB then signed w b
  else if et = 0xC then (b : Int)
  else if (etNum et b).isNan then (2 ^ w : Nat)
  else if bit b (w - 1) then ((2 ^ w - 1 - b : Nat) : Int)
  else ((b + 2 ^ (w - 1) : Nat) : Int)

/-- A key with what travels with it: element bits and payload. -/
structure SortEnt where
  key : Int
  el : Nat
  pay : Nat
deriving DecidableEq, Repr

/-- Putting an entry behind every entry that goes before it or is equal to it. -/
def sortInsert (desc : Bool) (x : SortEnt) : List SortEnt → List SortEnt
  | [] => [x]
  | y :: r => if (if desc then decide (y.key < x.key) else decide (x.key < y.key)) then x :: y :: r else y :: sortInsert desc x r

/-- The order of R152: equal keys keep their positions. -/
def sortRow (desc : Bool) (l : List SortEnt) : List SortEnt := l.foldl (fun a x => sortInsert desc x a) []

/-- SORT and TOPK (R151, R152): a unit is one row. With PDST 0 no payload is put out, and PSRC is neither checked nor read (DESIGN CHOICE, log
entry 9). -/
def jobSort (c op : Nat) (s : State) (d : Nat) : EngJob :=
  let src := trefOf (bits d 255 128)
  let dst := trefOf (bits d 383 256)
  let k := bits d 495 480 + 1
  let psrc := bits d 431 384
  let pdst := bits d 479 432
  let desc := bit d 496
  let w := etBytes src.et
  let ok := etSum src.et || src.et == 0xC
  let shape := if op = 1 then k == 1 && dst.cols == src.cols else decide (k ≤ 1024) && decide (k ≤ src.cols) && dst.cols == k
  let pays : List (Span × Nat) := if psrc = 0 || pdst = 0 then [] else [((psrc, 4 * src.size), 4)]
  let outs : List (Span × Nat) := if pdst = 0 then [] else [((pdst, 4 * dst.size), 4)]
  let check := s.engCheck c (hdLen d != 4 || hdReserved d || src.bad || dst.bad || bits d 511 497 != 0)
    (!ok || src.et != dst.et || src.rows != dst.rows || !shape) (src.rows16 ++ pays) (dst.rows16 ++ outs)
    (!scaleOk src.t || !scaleOk dst.t) false
  EngJob.plain check src.rows fun x =>
    let r := x.unit
    let pa := psrc + 4 * src.cols * r
    let pr : List Span := if psrc = 0 || pdst = 0 then [] else [(pa, 4 * src.cols)]
    EngUnit.pure x ((src.rowAddr r, src.rowBytes) :: pr) fun t =>
      let row := sortRow desc ((List.range src.cols).map fun j =>
        let b := t.elem src r j
        ⟨sortKey src.et b, b, if psrc = 0 then j else t.num (pa + 4 * j) 4⟩)
      let out := row.take dst.cols
      (dst.rowAddr r, out.flatMap fun e => bytesLE w e.el) ::
        (if pdst = 0 then [] else [(pdst + 4 * dst.cols * r, out.flatMap fun e => bytesLE 4 e.pay)])

/-! ### Random generator -/

/-- The element that a random word gives (R162). -/
def rngElem (op et param : Nat) (w : Word) : Nat :=
  let x := w.toNat
  match op with
  | 1 => x
  | 2 => if et = 7 then (Fmt.bf16.round false (x / 2 ^ 56) 1 (-8)).bits else (Fmt.b32.round false (x / 2 ^ 40) 1 (-24)).bits
  | 3 => b2n (decide (x / 2 ^ 32 < param))
  | _ => if param = 0 then x / 2 ^ 32 else x / 2 ^ 32 * param / 2 ^ 32

/-- Whether an OP of the generator accepts a type (R162). -/
def rngType (op et : Nat) : Bool :=
  match op with
  | 1 => et == 0xE
  | 2 => et == 0xA || et == 7
  | 3 => et == 6
  | _ => et == 0xC

/-- RAW, UNIFORM, BERNOULLI and INTRANGE (R161, R162): units of 4 KiB of output. -/
def jobRng (c op : Nat) (s : State) (d : Nat) : EngJob :=
  let dst := trefOf (bits d 255 128)
  let w := etBytes dst.et
  let per := 4096 / max 1 w
  let base := bits d 447 384
  let check := s.engCheck c (hdLen d != 4 || hdReserved d || dst.bad || bits d 511 448 != 0) (!rngType op dst.et) [] dst.rows16
    (!scaleOk dst.t) false
  EngJob.plain check (ceilDiv dst.size per) fun x =>
    let lo := x.unit * per
    EngUnit.pure x [] fun _ => (upFrom lo (min per (dst.size - lo))).map fun j =>
      (dst.place j, bytesLE w (rngElem op dst.et (bits d 383 352)
        (rng64 (BitVec.ofNat 64 (bits d 319 256)) (bits d 351 320) (BitVec.ofNat 64 (base + j)))))

/-! ### Compressor -/

/-- Elements of `n` bytes of a block. -/
def blockElems (n : Nat) (bs : List Byte) : List (List Byte) := pieces n (4096 / n) bs

/-- A bitmap of flags, least significant bit first. -/
def bitmapOf (fs : List Bool) : List Byte :=
  bytesLE (fs.length / 8) (fs.foldr (fun f a => b2n f + 2 * a) 0)

/-- The record that a 4,096-byte block compresses to (R163). -/
def packBlock (esz : Nat) (bs : List Byte) : List Byte :=
  let n := 2 ^ esz
  let els := blockElems n bs
  let flags := els.map fun e => e.any fun b => b != 0
  let nz := (els.filter fun e => e.any fun b => b != 0).flatten
  let mask := bitmapOf flags ++ nz
  let mode := if nz.isEmpty then 0 else if mask.length < 4096 then 2 else 1
  let pay := if mode = 0 then [] else if mode = 1 then bs else mask
  let head := bytesLE 8 (crc32c bs * 2 ^ 32 + pay.length * 2 ^ 16 + esz * 16 + mode)
  let rec_ := head ++ pay
  rec_ ++ List.replicate (ceilDiv rec_.length 8 * 8 - rec_.length) 0

/-- Putting nonzero elements back by a bitmap. -/
def unmask (n : Nat) : List Bool → List Byte → List Byte
  | [], _ => []
  | true :: r, bs => bs.take n ++ unmask n r (bs.drop n)
  | false :: r, bs => List.replicate n 0 ++ unmask n r bs

/-- The block that a record's header and payload give; none where R164 calls it corrupt. An ESZ above 3 has no meaning in any mode and is
refused (R17, R163). -/
def unpackBlock (head : Nat) (pay : List Byte) : Option (List Byte) :=
  let mode := bits head 3 0
  let esz := bits head 7 4
  let n := 2 ^ esz
  let plen := bits head 31 16
  let block : Option (List Byte) :=
    if bits head 15 8 ≠ 0 || decide (3 < esz) then none
    else if mode = 0 then (if plen = 0 then some (List.replicate 4096 0) else none)
    else if mode = 1 then (if plen = 4096 then some pay else none)
    else if mode = 2 then
      let flags := (List.range (4096 / n)).map fun i => bit (pay.getD (i / 8) 0).toNat (i % 8)
      let nz := (flags.filter fun f => f).length
      if plen = 512 / n + n * nz then some (unmask n flags (pay.drop (512 / n))) else none
    else none
  match block with
  | some b => if crc32c b = bits head 63 32 then some b else none
  | none => none

/-- The result word of the compressor (R164): records and bytes. -/
def State.packResult (s : State) (c d records out : Nat) : State :=
  s.galleyWrite (coreDie c) (coreNo c) (engKind 7) (bits d 383 336) (bytesLE 8 (records % 2 ^ 32 * 2 ^ 32 + out))

/-- The payload length that a record's header gives, as far as it can be read from the source. -/
def State.recLen (s : State) (a : Nat) : Nat := 8 + ceilDiv (bits (s.num a 8) 31 16) 8 * 8

/-- COMPRESS and DECOMPRESS (R163, R164): a unit is a block. `a` counts the source bytes taken, `b` the bytes written. -/
def jobPack (c op : Nat) (s : State) (d : Nat) : EngJob :=
  let src := bits d 175 128
  let slen := bits d 207 176
  let esz := bits d 211 208
  let dst := bits d 303 256
  let lim := bits d 335 304
  let res := bits d 383 336
  let check := s.engCheck c (hdLen d != 3 || hdReserved d || bits d 255 212 != 0)
    (op == 1 && (slen % 4096 != 0 || decide (3 < esz))) [((src, slen), 8)] [((dst, lim), 8), ((res, 8), 8)] false false
  { check := check
    left := fun x t => if slen ≤ x.a then 0 else if op = 1 then (slen - x.a) / 4096
      else if slen ≤ x.a + t.recLen (src + x.a) then 1 else 2
    unit := fun x =>
      { reads := fun t => if op = 1 then [(src + x.a, 4096)]
          else if slen < x.a + 8 then [(src + x.a, slen - x.a)]
          else [(src + x.a, 8), (src + x.a + 8, min (bits (t.num (src + x.a) 8) 31 16) (slen - x.a - 8))]
        result := fun t =>
          if op = 1 then
            let r := packBlock esz (t.bytes (src + x.a) 4096)
            if lim < x.b + r.length then .error (Code.COMPRESS_OVERFLOW, x.unit)
            else .ok ([(dst + x.b, r)], { x.next with a := x.a + 4096, b := x.b + r.length })
          else
            let h := t.num (src + x.a) 8
            let n := bits h 31 16
            if slen < x.a + 8 + n then .error (Code.COMPRESS_CORRUPT, x.unit)
            else match unpackBlock h (t.bytes (src + x.a + 8) n) with
              | none => .error (Code.COMPRESS_CORRUPT, x.unit)
              | some b =>
                if lim < x.b + 4096 then .error (Code.COMPRESS_OVERFLOW, x.unit)
                else .ok ([(dst + x.b, b)], { x.next with a := x.a + t.recLen (src + x.a), b := x.b + 4096 }) }
    last := fun x t => t.packResult c d x.unit x.b
    stop := fun _ x t => t.packResult c d x.unit x.b }

/-! ### Tally engine -/

/-- The elements of a tensor as the tally takes them: a 16-byte element as two, the low half first (R165). -/
def State.tallyElems (s : State) (t : Tref) : List Nat :=
  (List.range t.size).flatMap fun k =>
    let b := s.elem t (k / t.cols) (k % t.cols)
    if t.et = 0xF then [b % 2 ^ 64, b / 2 ^ 64] else [b]

/-- TALLY (R166): the whole descriptor is one unit. -/
def jobTally (c : Nat) (s : State) (d : Nat) : EngJob :=
  let src := trefOf (bits d 255 128)
  let res := bits d 431 384
  let acc := bit d 432
  let check := s.engCheck c (hdLen d != 4 || hdReserved d || src.bad || bits d 511 433 != 0) (!etPlain src.et) src.rows16
    [((res, 8), 8)] (!scaleOk src.t) false
  EngJob.plain check 1 fun x =>
    EngUnit.pure x (src.spans ++ if acc then [(res, 8)] else []) fun t =>
      let v := contentTally (BitVec.ofNat 64 (bits d 319 256)) (bits d 383 320) (t.tallyElems src)
      [(res, bytesLE 8 ((if acc then t.num res 8 else 0) + v.toNat))]

end Sys2Proof.Machine
end

