-- ==== Sys2Proof/Machine/EngineRows.lean ====
section
/-! DEFINITION. The rows of the galley and the case engines (04_galley_case_engines_berth_pool.md): an engine starting a descriptor
of each OP, the completion, the galley banks and the patrol scrubber. -/

namespace Sys2Proof.Machine
open Sys2Proof

/-- What a descriptor of core c comes to at engine e (R147 to R166). -/
def jobOf (c e : Nat) (s : State) (d : Nat) : EngJob :=
  let op := hdOp d
  match e with
  | 0 => jobTranspose c s d
  | 1 => jobGather c op s d
  | 2 => jobTrans c op s d
  | 3 => jobSort c op s d
  | 4 => jobReduce c op s d
  | 5 => match op with
    | 1 => jobConvert c s d
    | 2 => jobAmax c s d
    | 3 => jobRecord c s d
    | 4 => jobSelect c s d
    | 5 => jobHsave c s d
    | 6 => jobHload c s d
    | _ => jobHinit c s d
  | 6 => jobRng c op s d
  | 7 => jobPack c op s d
  | _ => jobTally c s d

/-- An engine looking at its queues for a descriptor of one OP of core c; its first OP's row also takes an undefined OP (R144). -/
def State.engRow (s : State) (c e op : Nat) : State :=
  if s.stopped (coreDie c) then s else s.engStart c e (fun o => o == op || (op == 1 && !engOpOk e o)) (jobOf c e)

/-- TRANSPOSE: its engine starts a descriptor of core c (R140, R144, R147). -/
def execTranspose (c : Nat) (s : State) : Host.Outcome State Fault Refusal := .next (s.engRow c 0 1)

/-- GATHER: its engine starts a descriptor of core c (R140, R144, R148, R149). -/
def execGather (c : Nat) (s : State) : Host.Outcome State Fault Refusal := .next (s.engRow c 1 1)

/-- SCATTER: its engine starts a descriptor of core c (R140, R144, R148, R149). -/
def execScatter (c : Nat) (s : State) : Host.Outcome State Fault Refusal := .next (s.engRow c 1 2)

/-- SCATTER_ADD: its engine starts a descriptor of core c (R140, R144, R148, R149). -/
def execScatterAdd (c : Nat) (s : State) : Host.Outcome State Fault Refusal := .next (s.engRow c 1 3)

/-- ENGINE_EXP: its engine starts a descriptor of core c (R140, R144, R150). -/
def execEngineExp (c : Nat) (s : State) : Host.Outcome State Fault Refusal := .next (s.engRow c 2 1)

/-- ENGINE_LOG: its engine starts a descriptor of core c (R140, R144, R150). -/
def execEngineLog (c : Nat) (s : State) : Host.Outcome State Fault Refusal := .next (s.engRow c 2 2)

/-- ENGINE_RCP: its engine starts a descriptor of core c (R140, R144, R150). -/
def execEngineRcp (c : Nat) (s : State) : Host.Outcome State Fault Refusal := .next (s.engRow c 2 3)

/-- ENGINE_RSQRT: its engine starts a descriptor of core c (R140, R144, R150). -/
def execEngineRsqrt (c : Nat) (s : State) : Host.Outcome State Fault Refusal := .next (s.engRow c 2 4)

/-- ENGINE_SIG: its engine starts a descriptor of core c (R140, R144, R150). -/
def execEngineSig (c : Nat) (s : State) : Host.Outcome State Fault Refusal := .next (s.engRow c 2 5)

/-- ENGINE_TANH: its engine starts a descriptor of core c (R140, R144, R150). -/
def execEngineTanh (c : Nat) (s : State) : Host.Outcome State Fault Refusal := .next (s.engRow c 2 6)

/-- SORT: its engine starts a descriptor of core c (R140, R144, R151, R152). -/
def execSort (c : Nat) (s : State) : Host.Outcome State Fault Refusal := .next (s.engRow c 3 1)

/-- TOPK: its engine starts a descriptor of core c (R140, R144, R151, R152). -/
def execTopk (c : Nat) (s : State) : Host.Outcome State Fault Refusal := .next (s.engRow c 3 2)

/-- REDUCER_SUM: its engine starts a descriptor of core c (R140, R144, R154). -/
def execReducerSum (c : Nat) (s : State) : Host.Outcome State Fault Refusal := .next (s.engRow c 4 1)

/-- REDUCER_SUMSQ: its engine starts a descriptor of core c (R140, R144, R154). -/
def execReducerSumsq (c : Nat) (s : State) : Host.Outcome State Fault Refusal := .next (s.engRow c 4 2)

/-- REDUCER_DOT: its engine starts a descriptor of core c (R140, R144, R154). -/
def execReducerDot (c : Nat) (s : State) : Host.Outcome State Fault Refusal := .next (s.engRow c 4 3)

/-- REDUCER_MAX: its engine starts a descriptor of core c (R140, R144, R154). -/
def execReducerMax (c : Nat) (s : State) : Host.Outcome State Fault Refusal := .next (s.engRow c 4 4)

/-- REDUCER_MIN: its engine starts a descriptor of core c (R140, R144, R154). -/
def execReducerMin (c : Nat) (s : State) : Host.Outcome State Fault Refusal := .next (s.engRow c 4 5)

/-- REDUCER_AMAX: its engine starts a descriptor of core c (R140, R144, R154). -/
def execReducerAmax (c : Nat) (s : State) : Host.Outcome State Fault Refusal := .next (s.engRow c 4 6)

/-- STICKADD: its engine starts a descriptor of core c (R140, R144, R154, R553). -/
def execStickadd (c : Nat) (s : State) : Host.Outcome State Fault Refusal := .next (s.engRow c 4 7)

/-- TALLYSUM: its engine starts a descriptor of core c (R140, R144, R154). -/
def execTallysum (c : Nat) (s : State) : Host.Outcome State Fault Refusal := .next (s.engRow c 4 8)

/-- CONVERT: its engine starts a descriptor of core c (R140, R144, R158). -/
def execConvert (c : Nat) (s : State) : Host.Outcome State Fault Refusal := .next (s.engRow c 5 1)

/-- SCALE_AMAX: its engine starts a descriptor of core c (R140, R144, R158). -/
def execScaleAmax (c : Nat) (s : State) : Host.Outcome State Fault Refusal := .next (s.engRow c 5 2)

/-- RECORD: its engine starts a descriptor of core c (R140, R144, R158). -/
def execRecord (c : Nat) (s : State) : Host.Outcome State Fault Refusal := .next (s.engRow c 5 3)

/-- SELECT: its engine starts a descriptor of core c (R140, R144, R159). -/
def execSelect (c : Nat) (s : State) : Host.Outcome State Fault Refusal := .next (s.engRow c 5 4)

/-- HSAVE: its engine starts a descriptor of core c (R140, R144, R158). -/
def execHsave (c : Nat) (s : State) : Host.Outcome State Fault Refusal := .next (s.engRow c 5 5)

/-- HLOAD: its engine starts a descriptor of core c (R140, R144, R158). -/
def execHload (c : Nat) (s : State) : Host.Outcome State Fault Refusal := .next (s.engRow c 5 6)

/-- HINIT: its engine starts a descriptor of core c (R140, R144, R158). -/
def execHinit (c : Nat) (s : State) : Host.Outcome State Fault Refusal := .next (s.engRow c 5 7)

/-- RNG_RAW: its engine starts a descriptor of core c (R140, R144, R162). -/
def execRngRaw (c : Nat) (s : State) : Host.Outcome State Fault Refusal := .next (s.engRow c 6 1)

/-- UNIFORM: its engine starts a descriptor of core c (R140, R144, R162). -/
def execUniform (c : Nat) (s : State) : Host.Outcome State Fault Refusal := .next (s.engRow c 6 2)

/-- BERNOULLI: its engine starts a descriptor of core c (R140, R144, R162). -/
def execBernoulli (c : Nat) (s : State) : Host.Outcome State Fault Refusal := .next (s.engRow c 6 3)

/-- INTRANGE: its engine starts a descriptor of core c (R140, R144, R162). -/
def execIntrange (c : Nat) (s : State) : Host.Outcome State Fault Refusal := .next (s.engRow c 6 4)

/-- COMPRESS: its engine starts a descriptor of core c (R140, R144, R163, R164). -/
def execCompress (c : Nat) (s : State) : Host.Outcome State Fault Refusal := .next (s.engRow c 7 1)

/-- DECOMPRESS: its engine starts a descriptor of core c (R140, R144, R163, R164). -/
def execDecompress (c : Nat) (s : State) : Host.Outcome State Fault Refusal := .next (s.engRow c 7 2)

/-- TALLY: its engine starts a descriptor of core c (R140, R144, R165, R166). -/
def execTally (c : Nat) (s : State) : Host.Outcome State Fault Refusal := .next (s.engRow c 8 1)

/-- CASE_ENGINE_COMPLETION: an engine finishes the last unit of its descriptor (R141). -/
def execCaseEngineCompletion (die engine : Nat) (s : State) : Host.Outcome State Fault Refusal :=
  s.ifClock die <|
  .next (s.engComplete die engine (fun t d => jobOf (13 * die + (match (t.engine die engine).run with
    | some r => r.core
    | none => 0)) engine t d))

/-- A core's running descriptors at every engine of its die flushed (R124, R145). -/
def State.flushEngines (s : State) (c : Nat) : State :=
  (List.range 9).foldl (fun t e => t.engFlush c e (jobOf c e)) s

/-! ### Galley banks -/

/-- The core and reader kind of a port, in the order of R133's table (R137): an engine reads for the core whose descriptor it runs. -/
def State.portReader (s : State) (die p : Nat) : Nat × Nat :=
  if p < 13 then (p, 0) else if p < 26 then (p - 13, 1) else if p < 39 then (p - 26, 2) else if p < 52 then (p - 39, 4)
  else if p < 70 then
    let e := (p - 52) / 2
    (match (s.engine die e).run with
      | some r => r.core
      | none => 0xF, engKind e)
  else (0xF, 5)

/-- Whether a request is one that bank b of a die can meet (R132, R133). -/
def bankOk (die bank : Nat) (q : GalleyReq) : Bool :=
  let off := q.addr - galleyBase die
  decide (q.port < 72) && inGalley die q.addr q.len && decide (1 ≤ q.len) && decide (off % 1024 + q.len ≤ 1024)
    && bits off 14 10 == bank && (match q.data with
      | some bs => bs.length == q.len
      | none => true)

/-- A request served: a write stored, a read checked (R135, R137). -/
def State.bankServe (s : State) (die : Nat) (q : GalleyReq) : State :=
  let who := s.portReader die q.port
  match q.data with
  | some bs => s.galleyWrite die who.1 who.2 q.addr bs
  | none => (s.galleyRead die who.1 who.2 q.addr q.len).1

/-- GALLEY_BANK_SERVE: a bank serves the next port that has a request, round-robin; the cycle counts where others wait (R134). -/
def execGalleyBankServe (die bank : Nat) (reqs : List GalleyReq) (s : State) : Host.Outcome State Fault Refusal :=
  let rs := reqs.filter (bankOk die bank)
  let p0 := Tbl.get 0 (s.galley die).ptrs bank
  match ((List.range 72).map fun i => (p0 + i) % 72).findSome? fun p => rs.find? fun q => q.port == p with
  | none => .next s
  | some q =>
    let s1 := s.bankServe die q
    let s2 := s1.setGalley die { s1.galley die with ptrs := Tbl.set 0 (s1.galley die).ptrs bank ((q.port + 1) % 72) }
    .next (if 2 ≤ rs.length then s2.bumpWrap (a_GALLEY_CONFLICT die) f_GALLEY_CONFLICT_COUNT else s2)

/-- GALLEY_SCRUB: the patrol scrubber reads and corrects the next line; a whole pass counts (R137). -/
def execGalleyScrub (die : Nat) (s : State) : Host.Outcome State Fault Refusal :=
  s.ifClock die <|
  let n := (s.galley die).scrub
  let s1 := (List.range 128).foldl (fun t i => (t.galleyRead die 0xF 6 (galleyBase die + 1024 * n + 8 * i) 8).1) s
  let s2 := s1.setGalley die { s1.galley die with scrub := (n + 1) % 0x4_0000 }
  .next (if n + 1 = 0x4_0000 then s2.bumpWrap (a_GALLEY_SCRUB die) f_GALLEY_SCRUB_PASSES else s2)

end Sys2Proof.Machine
end

