-- ==== Sys2Proof/Machine/Journal.lean ====
section
/-! DEFINITION. The configuration write journal (16_host_network_management.md R505, R506), commands and their classes
(12_the_tide.md R389), and the epochs of manager orders (R391). -/

namespace Sys2Proof.Machine
open Sys2Proof

/-- IFACE of R505. -/
def Source.code : Source → Nat
  | .manager _ _ => 0
  | .pcie => 1
  | .mctp => 2
  | .jtag => 3
  | .pilot _ => 4
  | .device => 5

/-- AUX of R505. -/
def Source.aux : Source → Nat
  | .pilot c => c
  | _ => 0xFF

/-- The sender node and epoch of a manager order (R505). -/
def Source.order : Source → Nat × Nat
  | .manager n e => if e = 0 then (0, 0) else (n, e)
  | _ => (0, 0)

/-- Whether no command to the loader acts from an interface (R422). -/
def Source.barred (src : Source) : Bool :=
  match src with
  | .jtag => true
  | .pilot _ => true
  | _ => false

/-- The rank of an interface within a tick (R389). -/
def Source.rank : Source → Nat
  | .device => 0
  | .manager _ _ => 1
  | .pcie => 2
  | .mctp => 3
  | .jtag => 4
  | .pilot c => 5 + c

/-- An entry put into the journal (R505, R506): it overwrites entry (JSEQ − 1) mod 4,096, and an unread one lost is counted
and told. -/
def State.journalAs (s : State) (src : Source) (kind addr code : Nat) (old new : Word) : State :=
  let j := s.jseq + 1
  let e : JEntry := ⟨s.tideOf 12, j, addr, code, Source.code src, Source.aux src, (Source.order src).1, kind, (Source.order src).2, old, new⟩
  let slot := (j - 1) % 4096
  let lost := match Tbl.find s.journal slot with
    | some o => decide (s.fld a_JRNL_RDPTR f_JRNL_RDPTR_READ < o.jseq)
    | none => false
  let s1 := { s with journal := Tbl.insert s.journal slot e, jseq := j }
  let s2 := s1.setFld a_JRNL_STATUS f_JRNL_STATUS_LAST j
  if lost then
    let s3 := s2.bump a_JRNL_STATUS f_JRNL_STATUS_LOST
    s3.reportSlow 0 Code.JOURNAL_WRAPPED 12 31 [s3.fld a_JRNL_STATUS f_JRNL_STATUS_LOST, j - 4095]
  else s2

/-- BLK_LASTERR of a block after a write that took no effect (R544). -/
def State.blockErr (s : State) (src : Source) (addr code : Nat) : State :=
  let die := regDie addr
  let blk := regBlock addr
  if code = 0 || code = Code.DIE_UNAVAILABLE || !inRegs addr || !blockOn blk die then s
  else s.setReg (a_BLK_LASTERR die blk) (BitVec.ofNat 64
    (code * 2 ^ 48 + Source.code src * 2 ^ 40 + Source.aux src * 2 ^ 32 + regOff addr))

/-- A register write journaled with its code; one that took no effect shows in BLK_LASTERR (R505, R544). -/
def State.journal1 (s : State) (src : Source) (addr code : Nat) (old new : Word) : State :=
  (s.journalAs src 0 addr code old new).blockErr src addr code

/-- A host access that reaches nothing (R478): counted, and told once per second with its offset. -/
def State.hostAbort (s : State) (off : Nat) : State :=
  (s.bump a_PCIE_ERRCNT f_PCIE_ERRCNT_HOSTFAULT).reportSlow 0 Code.HOST_WINDOW_FAULT 12 31 [off]

/-- An uncorrectable error of the PCIe function, by its bit of Advanced Error Reporting, with a message where Device Control enables one for its
severity and its mask allows (R476). -/
def State.pcieError (s : State) (n : Nat) : State :=
  let p := s.pcie
  let s1 := { s with pcie := { p with uncorr := p.uncorr ||| 2 ^ n } }
  let fatal := bit p.uncorrSev n
  if bit p.uncorrMask n || !bit p.devCtl (if fatal then 2 else 1) then s1 else s1.send .hostMessage (if fatal then 0x33 else 0x31) []

/-- A read by the host that completes with Completer Abort (R478). -/
def State.hostCa (s : State) (tag off : Nat) : State :=
  ((s.hostAbort off).pcieError 15).send .hostCompletion tag [Code.HOST_WINDOW_FAULT, 0]

/-- A command of an interface: the register it is written to, the value, the unit it acts on and its class (R389), the field
where it is of type LK (R12), and the bits that the write repeats as they are held. -/
structure CmdId where
  addr : Nat
  value : Nat
  unit : Nat
  cls : Nat
  lk : Option Fld
  keep : Nat
deriving DecidableEq, Repr

/-- Whether an order of a manager is stale, or loses by node id to an order of the same epoch in `others` (R391). -/
def State.orderCode (s : State) (src : Source) (others : List Source) : Nat :=
  match src with
  | .manager n e =>
    if e = 0 then 0
    else if e < s.fld (a_TIDE_MGR 12) f_TIDE_MGR_EPOCH then Code.STALE_MANAGER
    else if others.any (fun o => match o with
      | .manager m f => f == e && decide (m < n)
      | _ => false) then Code.COMMAND_OVERRIDDEN
    else 0
  | _ => 0

/-- An accepted order raises TIDE_MGR, or where a different node of the same epoch gives it is told (R391). -/
def State.orderTaken (s : State) (src : Source) : State :=
  match src with
  | .manager n e =>
    if e = 0 then s
    else
      let held := s.fld (a_TIDE_MGR 12) f_TIDE_MGR_EPOCH
      let node := s.fld (a_TIDE_MGR 12) f_TIDE_MGR_NODE
      let t := { s with ordersNow := s.ordersNow ++ [(n, e)] }
      if held < e then t.setFlds (a_TIDE_MGR 12) [(f_TIDE_MGR_EPOCH, e), (f_TIDE_MGR_NODE, n)]
      else if node = n then t
      else t.report Code.MANAGER_CONFLICT 12 31 []
  | _ => s

end Sys2Proof.Machine
end

