-- ==== Sys2Proof/Machine/Commands.lean ====
section
/-! DEFINITION. Commands: writes that start, stop or change the state of a unit, with the unit and the class by which commands of
one tide tick are settled (12_the_tide.md R389), and how one takes effect or is journaled without effect. -/

namespace Sys2Proof.Machine
open Sys2Proof

/-- The command of the register write it names (R389). -/
def cmdPilotRun (c : Nat) : CmdId :=
  ⟨a_PILOT_CTL (coreDie c) (coreNo c), 1, 0x10_0000 + c, 4, none, 0⟩

/-- The command of the register write it names (R389). -/
def cmdPilotHalt (c : Nat) : CmdId :=
  ⟨a_PILOT_CTL (coreDie c) (coreNo c), 2, 0x10_0000 + c, 2, none, 0⟩

/-- The command of the register write it names (R389). -/
def cmdPilotReset (c : Nat) : CmdId :=
  ⟨a_PILOT_CTL (coreDie c) (coreNo c), 4, 0x10_0000 + c, 1, none, 0⟩

/-- The command of the register write it names (R389). -/
def cmdPressHalt (c : Nat) : CmdId :=
  ⟨a_PRESS_CTL (coreDie c) (coreNo c), 1, 0x20_0000 + c, 2, none, 0⟩

/-- The command of the register write it names (R389). -/
def cmdPressResume (c : Nat) : CmdId :=
  ⟨a_PRESS_CTL (coreDie c) (coreNo c), 2, 0x20_0000 + c, 4, none, 0⟩

/-- The command of the register write it names (R389). -/
def cmdMailbox (c : Nat) (v : Word) : CmdId :=
  ⟨a_PILOT_MAILBOX (coreDie c) (coreNo c), v.toNat, a_PILOT_MAILBOX (coreDie c) (coreNo c), 5, none, 0⟩

/-- The command of the register write it names (R389). -/
def cmdClearEntry (n : Nat) : CmdId :=
  ⟨a_CHK_QCLR 12, n, 0x31_0000 + n, 4, none, 0⟩

/-- The command of the register write it names (R389). -/
def cmdClearAll  : CmdId :=
  ⟨a_CHK_QCLR 12, 0x80, 0x31_FFFF, 4, none, 0⟩

/-- The command of the register write it names (R389). -/
def cmdLinkDisable (die l : Nat) : CmdId :=
  ⟨a_QUAY_LCTL die l, 2, 0x70_0000 + die * 8 + l, 1, some f_QUAY_LCTL_DISABLE, 0⟩

/-- The command of the register write it names (R389). -/
def cmdLinkRetrain (die l : Nat) : CmdId :=
  ⟨a_QUAY_LCTL die l, 1, 0x70_0000 + die * 8 + l, 3, none, 2 ^ 64 - 1⟩

/-- The command of the register write it names (R389). -/
def cmdHbmRetrain (st ch : Nat) : CmdId :=
  ⟨a_HBM_CH_CTL (stackBase st) (stackWin st) ch, 1, 0x80_0000 + st * 32 + ch, 3, none, 2 ^ 64 - 1⟩

/-- The command of the register write it names (R389). -/
def cmdHbmOffline (st ch : Nat) : CmdId :=
  ⟨a_HBM_CH_CTL (stackBase st) (stackWin st) ch, 2, 0x80_0000 + st * 32 + ch, 2, none, 0⟩

/-- The command of the register write it names (R389). -/
def cmdHbmOnline (st ch : Nat) : CmdId :=
  ⟨a_HBM_CH_CTL (stackBase st) (stackWin st) ch, 0, 0x80_0000 + st * 32 + ch, 4, none, 0⟩

/-- The command of the register write it names (R389). -/
def cmdMargin (st pc ch pin mode : Nat) : CmdId :=
  ⟨a_HBM_MARGIN_CTL (stackBase st) (stackWin st), pc + ch * 2 + pin * 2 ^ 8 + mode * 2 ^ 16 + 2 ^ 17, 0x80_0000 + st * 32 + ch, 4, none, 0⟩

/-- The command of the register write it names (R389). -/
def cmdLaserRetire (die j k : Nat) : CmdId :=
  ⟨a_PHX_LASER_CTL die, k + j * 2 ^ 5 + 2 ^ 9, 0x90_0000 + die * 32 + k, 1, none, 0⟩

/-- The command of the register write it names (R389). -/
def cmdPortRetrain (p : Nat) : CmdId :=
  ⟨a_PHX_PORT_CTL (12 + p / 8) (p % 8), 1, 0x91_0000 + p, 3, none, 0⟩

/-- The command of the register write it names (R389). -/
def cmdPortDisable (p : Nat) : CmdId :=
  ⟨a_PHX_PORT (12 + p / 8) (p % 8), 2 ^ 63, 0x91_0000 + p, 1, some f_PHX_PORT_DISABLE, 2 ^ 63 - 1⟩

/-- The command of the register write it names (R389). -/
def cmdLaneOffline (l : Nat) : CmdId :=
  ⟨a_LANE_CTL (12 + l / 96) (l % 96), 2, 0xA0_0000 + l, 2, none, 2 ^ 64 - 1 - 2⟩

/-- The command of the register write it names (R389). -/
def cmdLaneOnline (l : Nat) : CmdId :=
  ⟨a_LANE_CTL (12 + l / 96) (l % 96), 0, 0xA0_0000 + l, 4, none, 2 ^ 64 - 1 - 2⟩

/-- The command of the register write it names (R389). -/
def cmdLaneRetrain (l : Nat) : CmdId :=
  ⟨a_LANE_CTL (12 + l / 96) (l % 96), 1, 0xA0_0000 + l, 3, none, 2 ^ 64 - 1⟩

/-- The command of the register write it names (R389). -/
def cmdFiRetire (die core : Nat) : CmdId :=
  ⟨a_FI_RETIRE die, 16 + core, 0x10_0000 + 13 * die + core, 1, none, 0⟩

/-- The command of the register write it names (R389). -/
def cmdImpoLoad : CmdId :=
  ⟨a_IMPO_CMD, 1, 0xE0_0000, 4, none, 0⟩

/-- The command of the register write it names (R389). -/
def cmdImpoRelease (parts : Nat) : CmdId :=
  ⟨a_IMPO_CMD, 2 + parts * 2 ^ 8, 0xE0_0000, 1, none, 0⟩

/-- The command of the register write it names (R389). -/
def cmdImpoDiscard (parts : Nat) : CmdId :=
  ⟨a_IMPO_CMD, 3 + parts * 2 ^ 8, 0xE0_0000, 2, none, 0⟩

/-- The command of the register write it names (R389). -/
def cmdRingEnable (log : Nat) : CmdId :=
  ⟨a_PCIE_RING_CTL, log % 32 + 2 ^ 8, 0x13_0000, 4, none, 0⟩

/-- The command of the register write it names (R389). -/
def cmdQpEnable (qp : Nat) : CmdId :=
  ⟨a_ETH_QP qp 4, 2 ^ 47, 0x14_0000 + qp, 4, none, 2 ^ 64 - 1 - 2 ^ 47⟩

/-- The command of the register write it names (R389). -/
def cmdUartDiv (div : Nat) : CmdId :=
  ⟨a_UART_CFG, div, 0x17_0000, 5, none, 0⟩

/-- The command of the register write it names (R389). -/
def cmdFlashRead (addr : Nat) : CmdId :=
  ⟨a_MGMT_FLASH_CTL, addr % 2 ^ 32 / 512 * 512 + 1, 0x15_0030, 5, none, 0⟩

/-- The command of the register write it names (R389). -/
def cmdFlashProgram (addr : Nat) : CmdId :=
  ⟨a_MGMT_FLASH_CTL, addr % 2 ^ 32 / 512 * 512 + 2, 0x15_0030, 5, none, 0⟩

/-- The command of the register write it names (R389). -/
def cmdFlashErase (addr : Nat) : CmdId :=
  ⟨a_MGMT_FLASH_CTL, addr % 2 ^ 32 / 512 * 512 + 3, 0x15_0030, 5, none, 0⟩

/-- The command of the register write it names (R389). -/
def cmdMgmtSwap  : CmdId :=
  ⟨a_MGMT_FWCTL, 1, 0x15_0020, 5, none, 0⟩

/-- The command of the register write it names (R389). -/
def cmdSvnWrite (value : Nat) : CmdId :=
  ⟨a_MGMT_SEC, value, 0x15_0028, 5, none, 0⟩

/-- The commands that a register write can carry, each with a row of its own. -/
inductive Command where
  | pilotRun (c : Nat)
  | pilotHalt (c : Nat)
  | pilotReset (c : Nat)
  | pressHalt (c : Nat)
  | pressResume (c : Nat)
  | pilotMailboxWrite (c : Nat) (v : Word)
  | quarantineClearEntry (n : Nat)
  | quarantineClearAll 
  | quayLinkDisable (die l : Nat)
  | quayLinkRetrain (die l : Nat)
  | hbmRetrainCmd (st ch : Nat)
  | hbmOffline (st ch : Nat)
  | hbmOnline (st ch : Nat)
  | hbmMarginStart (st pc ch pin mode : Nat)
  | laserRetire (die j k : Nat)
  | phxPortRetrain (p : Nat)
  | portDisable (p : Nat)
  | laneOffline (l : Nat)
  | laneOnline (l : Nat)
  | laneRetrain (l : Nat)
  | fiRetire (die core : Nat)
  | impoLoad 
  | impoRelease (parts : Nat)
  | impoDiscard (parts : Nat)
  | ringEnable (log : Nat)
  | qpEnable (qp : Nat)
  | uartDivWrite (div : Nat)
  | flashRead (addr : Nat)
  | flashProgram (addr : Nat)
  | flashErase (addr : Nat)
  | mgmtSwap 
  | svnWrite (value : Nat)
deriving DecidableEq, Repr

/-- What a command is (R389). -/
def Command.id : Command → CmdId
  | .pilotRun c => cmdPilotRun c
  | .pilotHalt c => cmdPilotHalt c
  | .pilotReset c => cmdPilotReset c
  | .pressHalt c => cmdPressHalt c
  | .pressResume c => cmdPressResume c
  | .pilotMailboxWrite c v => cmdMailbox c v
  | .quarantineClearEntry n => cmdClearEntry n
  | .quarantineClearAll => cmdClearAll 
  | .quayLinkDisable die l => cmdLinkDisable die l
  | .quayLinkRetrain die l => cmdLinkRetrain die l
  | .hbmRetrainCmd st ch => cmdHbmRetrain st ch
  | .hbmOffline st ch => cmdHbmOffline st ch
  | .hbmOnline st ch => cmdHbmOnline st ch
  | .hbmMarginStart st pc ch pin mode => cmdMargin st pc ch pin mode
  | .laserRetire die j k => cmdLaserRetire die j k
  | .phxPortRetrain p => cmdPortRetrain p
  | .portDisable p => cmdPortDisable p
  | .laneOffline l => cmdLaneOffline l
  | .laneOnline l => cmdLaneOnline l
  | .laneRetrain l => cmdLaneRetrain l
  | .fiRetire die core => cmdFiRetire die core
  | .impoLoad => cmdImpoLoad 
  | .impoRelease parts => cmdImpoRelease parts
  | .impoDiscard parts => cmdImpoDiscard parts
  | .ringEnable log => cmdRingEnable log
  | .qpEnable qp => cmdQpEnable qp
  | .uartDivWrite div => cmdUartDiv div
  | .flashRead addr => cmdFlashRead addr
  | .flashProgram addr => cmdFlashProgram addr
  | .flashErase addr => cmdFlashErase addr
  | .mgmtSwap => cmdMgmtSwap 
  | .svnWrite value => cmdSvnWrite value

/-! ### The commands in a register write -/

/-- The bits of a register that a write carries (R15). -/
def RegCmd.mask (w : RegCmd) : Word := BitVec.ofNat 64 ((if w.low then 2 ^ 32 - 1 else 0) + (if w.high then (2 ^ 32 - 1) * 2 ^ 32 else 0))

/-- The value written, with the held bits of a half that is not. -/
def State.merged (s : State) (w : RegCmd) : Word := (w.value &&& w.mask) ||| (s.reg w.addr &&& ~~~w.mask)

/-- Whether a block's LK fields are frozen (R12). -/
def State.frozen (s : State) (a : Nat) : Bool := s.fld (a_BLK_LOCK (regDie a) (regBlock a)) f_BLK_LOCK_LOCKED == 1

/-- The commands in a write to the registers of a core: PILOT_CTL, PILOT_MAILBOX, PRESS_CTL (R86, R131). -/
def coreRows (blk c off v : Nat) (new : Word) : List Command :=
  if blk = 0 && off == 0 then
    (if bit v 2 then [.pilotReset c] else []) ++ (if bit v 1 then [.pilotHalt c] else []) ++ (if bit v 0 then [.pilotRun c] else [])
  else if blk = 0 && off == 0x30 then [.pilotMailboxWrite c new]
  else if blk = 1 && off == 0 then (if bit v 0 then [.pressHalt c] else []) ++ (if bit v 1 then [.pressResume c] else [])
  else []

/-- The commands in a write to the HBM block (R277, R280): an OFFLINE that changes is one. -/
def hbmRows (st off v : Nat) (held new : Word) : List Command :=
  if decide (0x200 ≤ off) && decide (off < 0x300) then
    let ch := (off - 0x200) / 8
    let f := f_HBM_CH_CTL_OFFLINE
    (if f.get held = f.get new then [] else if f.get new = 1 then [.hbmOffline st ch] else [.hbmOnline st ch])
      ++ (if bit v 0 then [.hbmRetrainCmd st ch] else [])
  else if off = 0x30 && bit v 17 then
    [.hbmMarginStart st (f_HBM_MARGIN_CTL_PC.get new) (f_HBM_MARGIN_CTL_CH.get new) (f_HBM_MARGIN_CTL_PIN.get new)
      (f_HBM_MARGIN_CTL_MODE.get new)]
  else []

/-- The commands in a write to the PHX block (R305, R308); `lock` says that its LK fields are frozen. -/
def phxRows (die off v : Nat) (lock : Bool) (held new : Word) : List Command :=
  if off = 8 then (if bit v 9 then [.laserRetire die (bits v 8 5) (bits v 4 0)] else [])
  else if decide (0x1000 ≤ off) && decide (off < 0x1040) then
    (if !lock && f_PHX_PORT_DISABLE.get held == 0 && f_PHX_PORT_DISABLE.get new == 1 then
      [.portDisable (8 * (die - 12) + (off - 0x1000) / 8)] else [])
  else if decide (0x1080 ≤ off) && decide (off < 0x10C0) && bit v 0 then [.phxPortRetrain (8 * (die - 12) + (off - 0x1080) / 8)]
  else []

/-- The commands in a write to LANE_CTL (R309): an OFFLINE that changes is one. -/
def laneRows (lane v : Nat) (held new : Word) : List Command :=
  let f := f_LANE_CTL_OFFLINE
  (if f.get held = f.get new then [] else if f.get new = 1 then [.laneOffline lane] else [.laneOnline lane])
    ++ (if bit v 0 then [.laneRetrain lane] else [])

/-- The commands in a write to QUAY_LCTL (R256). -/
def linkRows (die l v : Nat) (lock : Bool) (held new : Word) : List Command :=
  (if !lock && f_QUAY_LCTL_DISABLE.get held == 0 && f_QUAY_LCTL_DISABLE.get new == 1 then [.quayLinkDisable die l] else [])
    ++ (if bit v 0 then [.quayLinkRetrain die l] else [])

/-- The commands that a register write carries (R389): those of the rows of the opcode table that the register has. -/
def State.rowsOf (s : State) (w : RegCmd) : List Command :=
  let a := w.addr
  let die := regDie a
  let off := regOff a
  let v := (w.value &&& w.mask).toNat
  let held := s.reg a
  let new := s.merged w
  if (regAt a).isNone then []
  else match regBlock a with
    | 0 => coreRows 0 (13 * die + off / 0x10000) (off % 0x10000) v new
    | 1 => coreRows 1 (13 * die + off / 0x10000) (off % 0x10000) v new
    | 7 => if off < 0x8000 && off % 0x1000 == 8 then linkRows die (off / 0x1000) v (s.frozen a) held new else []
    | 8 => if off < 0xC0000 then hbmRows (3 * (die - 12) + off / 0x40000) (off % 0x40000) v held new else []
    | 9 => phxRows die off v (s.frozen a) held new
    | 10 => if off < 0x1800 && off % 0x40 == 8 then laneRows (96 * (die - 12) + off / 0x40) v held new else []
    | 14 => if off ≠ 0 then [] else match bits v 2 0 with
      | 1 => [.impoLoad]
      | 2 => [.impoRelease (bits v 31 8)]
      | 3 => [.impoDiscard (bits v 31 8)]
      | _ => []
    | 15 => if off = 0x1010 then (if bit v 7 then [.quarantineClearAll] else [.quarantineClearEntry (bits v 5 0)]) else []
    | 16 => if off = 0x10 && bit v 4 then [.fiRetire die (bits v 3 0)] else []
    | 19 => if off = 0x10 && f_PCIE_RING_CTL_EN.get held == 0 && f_PCIE_RING_CTL_EN.get new == 1 then
        [.ringEnable (f_PCIE_RING_CTL_LOG2SIZE.get new)] else []
    | 20 => if decide (0x1000 ≤ off) && off % 0x40 == 0x20 && f_ETH_QP_EN.get held == 0 && f_ETH_QP_EN.get new == 1 then
        [.qpEnable ((off - 0x1000) / 0x40)] else []
    | 21 =>
      if off = 0x20 then (if bit v 0 then [.mgmtSwap] else [])
      else if off = 0x28 then [.svnWrite (f_MGMT_SEC_SVN.get new)]
      else if off = 0x30 then
        match bits v 1 0 with
        | 1 => [.flashRead new.toNat]
        | 2 => [.flashProgram new.toNat]
        | 3 => [.flashErase new.toNat]
        | _ => []
      else []
    | 23 => if off = 0 then [.uartDivWrite (f_UART_CFG_DIV.get new)] else []
    | _ => []

/-- Whether another command has the unit of a command and a class below its. -/
def CmdId.beats (id x : CmdId) : Bool := x.unit == id.unit && decide (x.cls < id.cls)

/-- The interfaces whose orders share the tick: the writes gathered, and the orders accepted already (R391). -/
def State.orderSources (s : State) : List Source := s.gathered.map RegCmd.src ++ s.ordersNow.map fun o => .manager o.1 o.2

/-- Whether a gathered write can have no effect at all, so that its commands meet nothing (R389): a bad access, a die that does not answer, a
command to the loader from an interface without the right to one (R422), an order that is refused (R391), or one whose way is not up, which
waits (R239). -/
def State.inert (s : State) (w : RegCmd) : Bool :=
  !(w.low || w.high) || !inRegs w.addr || !s.dieUp (regDie w.addr) || (w.addr == a_IMPO_CMD && Source.barred w.src)
    || s.orderCode w.src s.orderSources != 0 || !s.wayOpen w.src w.addr

/-- Whether a command meets one of a lower class at its unit in this tick (R389): applied already, or in a register write that waits for the
tick's end. -/
def State.overridden (s : State) (id : CmdId) : Bool :=
  s.applied.any (fun a => a.unit == id.unit && decide (a.cls < id.cls))
    || s.gathered.any fun w => !s.inert w && (s.rowsOf w).any fun x => id.beats x.id

/-- Whether a command writes an LK field of a locked block with another value (R13). -/
def State.lockedOut (s : State) (id : CmdId) : Bool :=
  match id.lk with
  | none => false
  | some f => s.frozen id.addr && f.get (BitVec.ofNat 64 id.value) != s.fld id.addr f

/-- Why a command has no effect, or 0: its die does not answer (R543), there is no such register (R14), its order is stale or loses by
node id (R391), a command of a lower class meets it (R389), or its field is locked (R13). -/
def State.commandCode (s : State) (src : Source) (id : CmdId) : Nat :=
  if !s.dieUp (regDie id.addr) then Code.DIE_UNAVAILABLE
  else if (regAt id.addr).isNone then Code.BAD_REG_ACCESS
  else
    let o := s.orderCode src s.orderSources
    if o ≠ 0 then o else if s.overridden id then Code.COMMAND_OVERRIDDEN
    else if s.lockedOut id then Code.LOCK_VIOLATION else 0

/-- What the register of a command is written with. -/
def State.commandWord (s : State) (id : CmdId) : Word := BitVec.ofNat 64 id.value ||| (s.reg id.addr &&& BitVec.ofNat 64 id.keep)

/-- A command that takes effect in this tick. -/
def State.taken (s : State) (id : CmdId) : State := { s with applied := s.applied ++ [⟨id.unit, id.cls⟩] }

/-- A command of an interface at the end of its tick: it takes effect by `f`, which answers a code, and is journaled, or is journaled with the
reason it has no effect. -/
def State.commandNow (s : State) (src : Source) (id : CmdId) (f : State → State × Nat) : State :=
  let old := s.readReg id.addr
  let code := s.commandCode src id
  if code ≠ 0 then
    let s0 := if code = Code.LOCK_VIOLATION then s.bump (a_BLK_VIOL (regDie id.addr) (regBlock id.addr)) f_BLK_VIOL_COUNT else s
    s0.journal1 src id.addr code old (s.commandWord id)
  else
    let q := f ((s.orderTaken src).taken id)
    q.1.journal1 src id.addr q.2 old (s.commandWord id)

/-- Whether a command is the only thing of its tick: no row waits and no write is gathered. -/
def State.alone (s : State) : Bool := s.pending.isEmpty && s.gathered.isEmpty

/-- A command row of an interface (R389): a register write, which the journal gathers with the others of its tick and applies at the tick's end;
with nothing else in the tick, and its way up, it acts in its own step (log entry 3). Over PCIe an access to a die that does not answer is discarded (R478,
R543). -/
def State.commandWith (s : State) (src : Source) (id : CmdId) (f : State → State × Nat) : State :=
  if !s.dieUp (regDie id.addr) && src == .pcie then s.hostAbort (id.addr - 0xF0_0000_0000)
  else if s.alone && s.wayOpen src id.addr then (s.regFlits src id.addr 8 0).commandNow src id f
  else s.gather ⟨src, id.addr, true, true, s.commandWord id⟩

/-- A command whose effect is never refused. -/
def State.command (s : State) (src : Source) (id : CmdId) (f : State → State) : State := s.commandWith src id fun t => (f t, 0)

end Sys2Proof.Machine
end

