-- ==== Sys2Proof/Machine/Adder.lean ====
section
/-! DEFINITION. The memory-side adders of the stacks and galleys (08_memory_system.md R271 to R275): RL adds, integer atomics and
the binary32 add. -/

namespace Sys2Proof.Machine
open Sys2Proof

/-- An RL add packet (R272, R315): elements, the incoming block word, and where the destination's block word and check word lie. -/
structure AddPkt where
  wide : Bool
  addr : Nat
  elems : List Nat
  word : Nat
  bwa : Nat
  cwa : Nat
  cwv : Bool
  tally : Nat

/-- The packet of an RLADD32 or RLADD64 cell (R314, R315). -/
def addPkt (c : Cell) : AddPkt :=
  let wide := c.kind == 7
  let tr := if wide then c.g1 + c.g2 * 2 ^ 128 else c.g2
  let top := c.addr * 16 / 2 ^ 36 * 2 ^ 36
  { wide := wide
    addr := c.addr * 16
    elems := if wide then [bits c.g0 63 0, bits c.g0 127 64]
      else ((List.range 4).map fun i => bits c.g0 (32 * i + 31) (32 * i)) ++ (List.range 4).map fun i => bits c.g1 (32 * i + 31) (32 * i)
    word := bits tr 27 22 * 2 ^ 16 + unsigned 16 (signed 12 (bits tr 11 0))
    bwa := top + bits tr 95 62 * 4
    cwa := top + bits tr 61 29 * 8
    cwv := bit tr 28
    tally := if wide then bits tr 255 192 else bits tr 127 96 }

/-- The width of an element in bytes. -/
def AddPkt.width (p : AddPkt) : Nat := if p.wide then 8 else 4

/-- The byte ranges a packet changes: its elements, the block word, and the check word when named. -/
def AddPkt.ranges (p : AddPkt) : List (Nat × Nat) :=
  [(p.addr, p.width * p.elems.length), (p.bwa, 4)] ++ if p.cwv then [(p.cwa, 8)] else []

/-- Whether elements, block word and check word lie on one stack, or all in one galley, the elements within one block (R271,
R272). -/
def AddPkt.placed (p : AddPkt) : Bool :=
  let a := p.addr
  decide (a % 4096 + p.width * p.elems.length ≤ 4096) &&
    p.ranges.all fun r => if isGalley a then inGalley (galleyDie a) r.1 r.2 else inHbm r.1 r.2 && stackOf r.1 == stackOf a

/-! ### The add cache (R275)

Memory in State is what a read of the package returns: the stack's line, or the cache's where it holds a newer one. A block of the cache keeps
where its block word and check word lie. -/

/-- The add cache of the adder that serves an address: its stack's, or its galley's. -/
def State.addCache (s : State) (a : Nat) : List CacheBlk := if isGalley a then (s.galley (galleyDie a)).cache else (s.hbm (stackOf a)).cache
def State.setAddCache (s : State) (a : Nat) (l : List CacheBlk) : State :=
  if isGalley a then s.setGalley (galleyDie a) { s.galley (galleyDie a) with cache := l }
  else s.modHbm (stackOf a) fun h => { h with cache := l }

/-- The block of an address, and whether its adder's cache holds it. -/
def blockOf (a : Nat) : Nat := a - a % 4096
def State.cached (s : State) (a : Nat) : Option CacheBlk := (s.addCache a).find? fun b => b.block == blockOf a

/-- A cached block used: it is now the newest, and `f` of what it was. -/
def State.useBlock (s : State) (a : Nat) (f : CacheBlk → CacheBlk) : State :=
  match s.cached a with
  | none => s
  | some b => s.setAddCache a (f b :: (s.addCache a).filter fun x => x.block != b.block)

/-- A changed block written back to its stack, with its block word and check word. -/
def State.writeBack (s : State) (b : CacheBlk) : State :=
  if b.dirty && isHbm b.block then s.schedule true (linesOf b.block 4096 ++ b.near.flatMap fun r => linesOf r.1 r.2) else s

/-- Every changed block of a stack's cache written back, before a retrain hold or a cold reset of the stack. -/
def State.writeBackAll (s : State) (st : Nat) : State :=
  let s1 := (s.hbm st).cache.foldl (fun t b => t.writeBack b) s
  s1.modHbm st fun h => { h with cache := h.cache.map fun b => { b with dirty := false } }

/-- The words of a galley that a list of ranges reads: the state after, and the first uncorrectable one. -/
def State.galleyLook (s : State) (rs : List (Nat × Nat)) : State × Option Nat :=
  rs.foldl (fun q r => match q.2 with
    | some w => (q.1, some w)
    | none => q.1.galleyRead (galleyDie r.1) 0xF 5 r.1 r.2) (s, none)

/-- An uncached block filled with what else the add needs, the block used least recently written back and gone first; an uncorrectable word
or a poisoned line poisons the filled block (R267). -/
def State.fillBlock (s : State) (a : Nat) (near : List (Nat × Nat)) : State :=
  let rs := (blockOf a, 4096) :: near
  let q : State × Bool := if isGalley a then (let g := s.galleyLook rs; (g.1, g.2.isSome))
    else (rs.foldl (fun t r => (t.schedule false (linesOf r.1 r.2)).hbmRead r.1 r.2) s, rs.any fun r => (s.hbmBad r.1 r.2).isSome)
  let s1 := ((q.1.addCache a).drop 127).foldl (fun t b => t.writeBack b) q.1
  s1.setAddCache a (⟨blockOf a, q.2, false, near⟩ :: (s1.addCache a).take 127)

/-- A cached block with the words that an add names beside it: those it does not hold yet are read, and an uncorrectable one poisons it. -/
def State.fillNear (s : State) (a : Nat) (b : CacheBlk) (near : List (Nat × Nat)) : State :=
  let more := near.filter fun r => !b.near.contains r
  if isGalley a then
    let g := s.galleyLook more
    g.1.useBlock a fun x => { x with bad := x.bad || g.2.isSome, near := x.near ++ more }
  else
    let bad := more.any fun r => (s.hbmBad r.1 r.2).isSome
    (more.foldl (fun t r => (t.schedule false (linesOf r.1 r.2)).hbmRead r.1 r.2) s).useBlock a
      fun x => { x with bad := x.bad || bad, near := x.near ++ more }

/-- What an uncorrectable error of the cache itself does to the block of an address: the block is poisoned (R267, R275), every line or word of
it. -/
def State.blockLost (s : State) (a : Nat) : State :=
  match s.cached a with
  | none => s
  | some _ =>
    let ws := if isGalley a then (List.range 512).map fun i => blockOf a + 8 * i else linesOf (blockOf a) 4096
    ws.foldl (fun t w => t.setMark w 2) (s.useBlock a fun b => { b with bad := true })

/-- The cache looked up for an add: whether the block of its target may be added to. -/
def State.addFill (s : State) (a : Nat) (near : List (Nat × Nat)) : State × Bool :=
  let s1 := match s.cached a with
    | some b => s.fillNear a b near
    | none => s.fillBlock a near
  (s1, match s1.cached a with
    | some b => b.bad
    | none => false)

/-- Bytes of memory written by an adder. -/
def State.adderPut (s : State) (a : Nat) (bs : List Byte) : State :=
  if isGalley a then s.galleyWrite (galleyDie a) 0xF 5 a bs else { s with mem := memWrite s.mem a bs }

/-- An RL add applied (R39, R202): elements modulo their width, flag words ORed, the tally into the check word. -/
def State.applyAdd (s : State) (p : AddPkt) : State :=
  let w := p.width
  let s1 := (p.elems.zipIdx).foldl (fun t e =>
    t.adderPut (p.addr + w * e.2) (bytesLE w ((s.num (p.addr + w * e.2) w + e.1) % 2 ^ (8 * w)))) s
  let s2 := s1.adderPut p.bwa (bytesLE 4 (blockJoin (s1.num p.bwa 4) p.word))
  if p.cwv then s2.adderPut p.cwa (bytesLE 8 ((s2.num p.cwa 8 + p.tally) % 2 ^ 64)) else s2

/-- A packet refused for its scale (R272): counted at the stack. -/
def State.scaleRefused (s : State) (a : Nat) : State :=
  if isGalley a then s else s.bump (a_HBM_ADD_STATUS (homeOf a) (stackWin (stackOf a))) f_HBM_ADD_STATUS_SCALE

/-- An RL add packet at its adder (R271, R272, R275, R39): the refusals in order, or the add. -/
def State.rlAdd (s : State) (c : Cell) : MemAns :=
  let p := addPkt c
  if !p.placed then ⟨s, Code.BAD_ADDRESS, p.addr, []⟩
  else
    let q : State × Nat := if p.ranges.any fun r => s.hbmDown r.1 r.2 then (s, Code.HBM_CHANNEL_DOWN)
      else
        let f := s.addFill p.addr ((p.bwa, 4) :: if p.cwv then [(p.cwa, 8)] else [])
        let bad := f.2 || (isHbm p.addr && p.ranges.any fun r => (f.1.hbmBad r.1 r.2).isSome)
        (f.1, if !bad then 0 else if isGalley p.addr then Code.GALLEY_DATA_ERROR else Code.HBM_DATA_ERROR)
    if q.2 ≠ 0 then ⟨q.1, q.2, p.addr, []⟩
    else match blockG (q.1.num p.bwa 4) with
      | none => ⟨q.1.scaleRefused p.addr, Code.BAD_SCALE, p.addr, []⟩
      | some g =>
        if some g = blockG p.word then ⟨(q.1.applyAdd p).useBlock p.addr fun b => { b with dirty := true }, 0, 0, []⟩
        else ⟨q.1.scaleRefused p.addr, Code.SCALE_MISMATCH, p.addr, []⟩

/-! ### Atomics -/

/-- An atomic as a cell asks for it (R314): operation, target, width, whether the old value is returned, operand, comparand. -/
structure AtomicReq where
  aop : Nat
  addr : Nat
  width : Nat
  fetch : Bool
  operand : Nat
  comparand : Nat

/-- The atomic of an IADD or ATOMIC cell. -/
def atomicReq (c : Cell) : AtomicReq :=
  if c.kind = 8 then
    ⟨0, c.addr * 16 + bits c.g0 71 68, if bit c.g0 64 then 8 else 4, false, bits c.g0 63 0, 0⟩
  else
    ⟨bits c.g1 3 0, c.addr * 16 + bits c.g1 11 8, if bit c.g1 4 then 8 else 4, bit c.g1 5, bits c.g0 63 0, bits c.g0 127 64⟩

/-- What an atomic stores over an old value (R271): AOP codes of R314, each on `w` bits. -/
def atomicNew (aop w old operand comparand : Nat) : Nat :=
  let x := operand % 2 ^ w
  match aop with
  | 0 => (old + x) % 2 ^ w
  | 1 => if signed w old < signed w x then x else old
  | 2 => if signed w x < signed w old then x else old
  | 3 => max old x
  | 4 => min old x
  | 5 => old &&& x
  | 6 => old ||| x
  | 7 => old ^^^ x
  | 8 => x
  | 9 => if old = comparand % 2 ^ w then x else old
  | _ => (Fmt.b32.add (Fmt.b32.decode old) (Fmt.b32.decode x)).bits

/-- Whether a partition's adders at a die refuse a binary32 add (R273); tag 31 is served as in Free mode. -/
def State.addersInvariant (s : State) (a part : Nat) : Bool :=
  decide (part < 24) && s.fld (a_HBM_PART (if isHbm a then homeOf a else baseOf (galleyDie a)) part) f_HBM_PART_INVARIANT == 1

/-- The block of an atomic's target in the add cache (R267, R275): an add fills it; any atomic into a cached block that is poisoned is refused.
The spec says 'an add to an uncached block': that the other operations work on the stack where the block is not cached is a DESIGN
CHOICE (log entry 30). -/
def State.atomicBlock (s : State) (r : AtomicReq) : State × Bool :=
  if r.aop = 0 || r.aop == 10 || (s.cached r.addr).isSome then s.addFill r.addr [] else (s, false)

/-- An atomic at its adder (R271, R273): the refusals, or the operation; the bytes answered are the old value. -/
def State.atomic (s : State) (part : Nat) (r : AtomicReq) : MemAns :=
  if 10 < r.aop then ⟨s, Code.BAD_DESCRIPTOR, r.addr, []⟩
  else if r.addr % r.width ≠ 0 || !(inHbm r.addr r.width || (isGalley r.addr && inGalley (galleyDie r.addr) r.addr r.width)) then
    ⟨s, Code.BAD_ADDRESS, r.addr, []⟩
  else if r.aop = 10 && r.width == 8 then ⟨s, Code.BAD_DESCRIPTOR, r.addr, []⟩
  else if r.aop = 10 && s.addersInvariant r.addr part then
    let s1 := if isHbm r.addr then s.bump (a_HBM_ADD_STATUS (homeOf r.addr) (stackWin (stackOf r.addr))) f_HBM_ADD_STATUS_ORDER else s
    ⟨s1, Code.ORDER_SENSITIVE_REFUSED, r.addr, []⟩
  else
    let q := s.readMem r.addr r.width 0xF 5
    if q.code ≠ 0 then q
    else
      let f := q.st.atomicBlock r
      if f.2 then ⟨f.1, if isGalley r.addr then Code.GALLEY_DATA_ERROR else Code.HBM_DATA_ERROR, r.addr, []⟩
      else
        let old := natLE q.bytes
        ⟨(f.1.adderPut r.addr (bytesLE r.width (atomicNew r.aop (8 * r.width) old r.operand r.comparand))).useBlock r.addr
          fun b => { b with dirty := true }, 0, 0, bytesLE 8 old⟩

end Sys2Proof.Machine
end

