-- ==== Sys2Proof/Machine/Serve.lean ====
section
/-! DEFINITION. How a request that has reached its die is served: reads, writes, tallied transfers, adds and signals, and the answer
each sends (07_package_and_quay_link.md R246, R247; 08_memory_system.md R262, R267; 10_tideway_fabric.md R314, R341, R342). -/

namespace Sys2Proof.Machine
open Sys2Proof

/-! ### Answers -/

/-- An ACK merged into one of the same requester, RID and CODE that was formed within 16 slots and has not left (R341). -/
def mergeAck (now : Nat) (c : Cell) : List WaitCell → Option (List WaitCell)
  | [] => none
  | w :: r =>
    if w.cell.kind = 0xB && c.kind == 0xB && w.cell.part == c.part && w.cell.dst == c.dst && w.cell.core == c.core
        && w.cell.rid == c.rid && bits w.cell.g0 31 16 == bits c.g0 31 16 && decide (now < w.since + 68) then
      some ({ w with cell := { w.cell with g0 := w.cell.g0 + bits c.g0 15 0 } } :: r)
    else (mergeAck now c r).map (w :: ·)

/-- A cell given to a router as a local cell (R318); `merge` says that an ACK may be merged, `nocomb` that the
cell is not to be combined. -/
def State.routeLocal (s : State) (b : Nat) (c : Cell) (merge nocomb : Bool) : State :=
  s.modRouter b fun r =>
    match if merge then mergeAck (s.tideOf b) c r.loc else none with
    | some l => { r with loc := l }
    | none => { r with loc := r.loc ++ [⟨c, s.tideOf b, nocomb, none, none⟩] }

/-- The packets of a request (R236): a write of more than 256 bytes takes several, of at most four data flits each. -/
def MemReq.packets (r : MemReq) : List MemReq :=
  match r.data with
  | none => [r]
  | some bs => if bs.length ≤ 256 then [r] else
      ((pieces 256 ((bs.length + 255) / 256) bs).zipIdx).map fun p =>
        { r with addr := r.addr + 256 * p.2, len := p.1.length, data := some p.1 }

/-- The header of a packet on its way to `dst` (R236): its partition is the requester's, a cell's tag, or 31; its opcode follows from whether it
carries data. -/
def MemReq.head (r : MemReq) (dst : Nat) : Nat :=
  quayHead r.channel r.part r.src dst (b2n r.data.isSome) ((r.dataBytes + 63) / 64) false

/-- The header of an invalidation, or of a recall (R236, R246); its partition is that of management traffic (DESIGN CHOICE, log entry 11). -/
def Inval.head (v : Inval) : Nat := quayHead 2 31 v.home v.target (b2n v.recalls) 0 false

/-- A request put on its way to a die. -/
def State.quayPush (s : State) (dst : Nat) (r : MemReq) : State :=
  { s with quay := Tbl.set [] s.quay dst (Tbl.get [] s.quay dst ++ r.packets) }

/-- The die to which a response for a requester goes (R334): its compute die, or the owner router of a ticket. -/
def answerDie (core : Nat) : Nat := if 0xC0 ≤ core then 12 + (core - 0xC0) / 16 else coreDie core

/-- Whether a packet on its way to a base die holds a cell that leaves the node: its router takes it (R311). -/
def State.outbound (s : State) (r : MemReq) : Bool :=
  match r.agent with
  | .cell c => c.dst != s.nodeId
  | _ => false

/-- A cell that leaves the node sent from a die to its base die's router: a compute die's takes the stack port, and waits there while the port is
not up or earlier ones wait (R231, R235, R239, R311). Of the packet that waits `len` says whether its ACK
may be merged, and `addr` NOCOMB. -/
def State.toRouter (s : State) (die : Nat) (c : Cell) (merge nocomb : Bool) : State :=
  let b := baseOf die
  let ch := if cellResponse c then 1 else 0
  if 12 ≤ die then s.routeLocal b c merge nocomb
  else if s.routeUp die b && !((Tbl.get [] s.quay b).any fun r => r.src == die && s.outbound r) then
    (s.carry die b ch (flitsOf 48)).routeLocal b c merge nocomb
  else s.quayPush b ⟨die, c.part, .cell c, b2n nocomb, b2n merge, none⟩

/-- A response cell sent from a die to its requester: over the Quay link to one of this node, else through the router (R311). -/
def State.answer (s : State) (die : Nat) (c : Cell) (merge : Bool) : State :=
  if c.dst = s.nodeId then s.quayPush (answerDie c.core) ⟨die, c.part, .cell c, 0, 0, none⟩
  else s.toRouter die c merge true

/-- A response to a cell. -/
def State.response (s : State) (die : Nat) (c : Cell) (kind gmask addr g0 g1 g2 : Nat) : Cell :=
  ⟨kind, c.part, c.src, s.nodeId, c.core, c.rid, bits (s.tideOf die) 15 8, gmask, addr, g0, g1, g2⟩

/-- An ACK of one cell (R314). -/
def State.ack (s : State) (die : Nat) (c : Cell) (code detail : Nat) (merge : Bool) : State :=
  s.answer die (s.response die c 0xB 7 0 (1 + code * 2 ^ 16 + detail * 2 ^ 64) 0 0) (merge && c.kind != 1)

/-- The refusal of a request: an ATOMIC_RSP to a fetching atomic, an ACK to any other cell (R340). -/
def State.refuseCell (s : State) (die : Nat) (c : Cell) (code detail : Nat) : State :=
  if c.kind = 9 && (atomicReq c).fetch then s.answer die (s.response die c 0xA 1 0 (code * 2 ^ 64) 0 0) false
  else s.ack die c code detail true

/-! ### What a request touches -/

/-- The granules up to the last that GMASK names. -/
def maskSpan (g : Nat) : Nat := if bit g 2 then 3 else if bit g 1 then 2 else if bit g 0 then 1 else 0

/-- The byte ranges of local memory that a cell touches at its target (R314). -/
def cellRanges (c : Cell) : List (Nat × Nat) :=
  match c.kind with
  | 1 => [(c.addr * 16, 16 * bits c.g0 5 0)]
  | 3 => [(c.addr * 16, 16 * maskSpan c.gmask)]
  | 4 => [(c.addr * 16, 16 * maskSpan c.gmask)]
  | 5 => [(bits c.g1 35 0 * 16, 16 * (bits c.g1 48 36 + 1))]
  | 6 => (addPkt c).ranges
  | 7 => (addPkt c).ranges
  | 8 => [((atomicReq c).addr, (atomicReq c).width)]
  | 9 => [((atomicReq c).addr, (atomicReq c).width)]
  | _ => []

/-- Whether a cell writes at its target. -/
def cellWrites (c : Cell) : Bool := c.kind == 3 || c.kind == 4 || (decide (6 ≤ c.kind) && decide (c.kind ≤ 9))

/-- Whether a TCLOSE at a compute die is the one that a responder adds to a READ of a tallied LOAD of one of its cores (R342), and
not the end of a transfer into its galley. -/
def State.loadClose (s : State) (die : Nat) (c : Cell) : Bool :=
  c.kind == 5 && c.addr == 0 && decide (die < 12) && decide (c.core < 156) && coreDie c.core == die
    && (match Tbl.get none (Tbl.get LighterState.init s.lighters c.core).reqs c.rid with
      | some r => hdOp r.desc == 1 && bits r.desc 319 308 == c.src && !r.signalling
          && decide (bits r.desc 291 260 ≤ bits c.g1 35 0) && decide (bits c.g1 35 0 ≤ bits r.desc 291 260 + r.len / 16)
      | none => false)

def MemReq.ranges (r : MemReq) : List (Nat × Nat) :=
  match r.agent with
  | .cell c => cellRanges c
  | _ => [(r.addr, r.len)]

def MemReq.writes (r : MemReq) : Bool :=
  match r.agent with
  | .cell c => cellWrites c
  | _ => r.data.isSome

/-- The lines a request touches, and those in HBM. -/
def MemReq.lines (r : MemReq) : List Nat := r.ranges.flatMap fun x => linesOf x.1 x.2
def MemReq.hbmLines (r : MemReq) : List Nat := r.lines.filter isHbm

/-! ### Serving -/

/-- The line of an instruction address. -/
def lineOf (a : Nat) : Nat := a - a % 64

/-- The instruction cache with a line filled: 256 sets of four lines (R93). Which line of a full set leaves the spec does not say: the one
filled longest ago (DESIGN CHOICE, log entry 26). -/
def fillLine (l : List Nat) (line : Nat) : List Nat :=
  if l.contains line then l
  else
    let same := l.filter fun x => (x / 64) % 256 == (line / 64) % 256
    let l' := if same.length < 4 then l else l.erase (same.headD line)
    l' ++ [line]

/-- Bytes of memory or of registers (R15). -/
def State.readAny (s : State) (a n core kind : Nat) : MemAns :=
  if inRegs a then
    ⟨(List.range (n / 8)).foldl (fun t i => t.touch (a + 8 * i)) s, 0, 0,
      (List.range (n / 8)).flatMap fun i => bytesLE 8 (s.readReg (a + 8 * i)).toNat⟩
  else s.readMem a n core kind

/-- Bytes written to memory, or as register writes of an interface (R389). -/
def State.writeAny (s : State) (src : Source) (a : Nat) (bs : List Byte) : MemAns :=
  if inRegs a then
    ⟨(List.range (bs.length / 8)).foldl (fun t i =>
      t.gather ⟨src, a + 8 * i, true, true, BitVec.ofNat 64 (natLE ((bs.drop (8 * i)).take 8))⟩) s, 0, 0, []⟩
  else s.writeMem a bs 0xF 5

/-- The granules that a WRITE or TWRITE cell carries: address and bytes (R314). -/
def cellPieces (c : Cell) : List (Nat × List Byte) :=
  ((List.range 3).filter fun g => bit c.gmask g).map fun g =>
    (c.addr * 16 + 16 * g, bytesLE 16 (match g with
      | 0 => c.g0
      | 1 => c.g1
      | _ => c.g2))

/-- A WRITE or TWRITE cell written. -/
def State.writeCell (s : State) (c : Cell) : MemAns :=
  (cellPieces c).foldl (fun m p => if m.code ≠ 0 then m else m.st.writeAny (.pilot c.core) p.1 p.2) ⟨s, 0, 0, []⟩

/-- The transfer contexts of a base die, and the one of a cell (R342). -/
def State.ctxList (s : State) (b : Nat) : List TransferCtx := Tbl.get [] s.ctxs b
def State.setCtxs (s : State) (b : Nat) (l : List TransferCtx) : State := { s with ctxs := Tbl.set [] s.ctxs b l }
def TransferCtx.of (c : Cell) (x : TransferCtx) : Bool := x.src == c.src && x.core == c.core && x.rid == c.rid
def State.ctxDone (s : State) (b : Nat) (c : Cell) : Nat :=
  match (s.ctxList b).find? (TransferCtx.of c) with
  | some x => x.done
  | none => 0

/-- The data cells of a transfer that the node has dealt with, at whichever of its homes they lie (R342). -/
def State.ctxTotal (s : State) (c : Cell) : Nat := ((upFrom 12 4).map fun b => s.ctxDone b c).sum

/-- A transfer's contexts closed. -/
def State.dropCtx (s : State) (c : Cell) : State :=
  (upFrom 12 4).foldl (fun t b => t.setCtxs b ((t.ctxList b).filter fun x => !TransferCtx.of c x)) s

/-- A data cell dealt with, counted in its context (R342). -/
def State.ctxCount (s : State) (b : Nat) (c : Cell) : State :=
  s.setCtxs b (⟨c.src, c.core, c.rid, s.ctxDone b c + 1⟩ :: (s.ctxList b).filter fun x => !TransferCtx.of c x)

/-- A TCLOSE served (R342): the range read back and tallied, and the verdict returned. -/
def State.closeTransfer (s : State) (die : Nat) (c : Cell) : State :=
  let b := baseOf die
  let s1 := s.dropCtx c
  let a := bits c.g1 35 0 * 16
  let q := s1.readAny a (16 * (bits c.g1 48 36 + 1)) 0xF 5
  if q.code ≠ 0 then q.st.ack die c q.code q.at_ false
  else
    let t := bytesTally (s.reg (a_CHK_PKEY b c.part)) q.bytes
    q.st.ack die c (if t.toNat = bits c.g0 63 0 then 0 else Code.TALLY_MISMATCH) t.toNat false

/-- The READ_RSP cells of a READ from granule i of its bytes on: three granules each (R314). -/
def State.readRsps (s : State) (die : Nat) (c : Cell) : Nat → Nat → List Byte → State
  | 0, _, _ => s
  | k + 1, i, bs =>
    if bs.isEmpty then s
    else
      let n := min 3 ((bs.length + 15) / 16)
      let g (j : Nat) : Nat := natLE ((bs.drop (16 * j)).take 16)
      let t := s.answer die (s.response die c 2 (2 ^ n - 1) ((bits c.g0 19 8 + i) * 2 ^ 24) (g 0) (g 1) (g 2)) false
      t.readRsps die c k (i + 3) (bs.drop 48)

/-- A READ served (R342): its responses, and for a tallied one the tally of its bytes with indices counted from OFFSET. -/
def State.serveRead (s : State) (die : Nat) (c : Cell) : State :=
  let q := s.readAny (c.addr * 16) (16 * bits c.g0 5 0) 0xF 5
  if q.code ≠ 0 then q.st.ack die c q.code (max q.at_ (c.addr * 16)) true
  else
    let s1 := q.st.readRsps die c 17 0 q.bytes
    if bit c.g0 20 then
      let t := contentTally (s.reg (a_CHK_PKEY (baseOf die) c.part)) (2 * bits c.g0 19 8) (wordsLE (q.bytes.length / 8 + 1) q.bytes)
      s1.answer die (s1.response die c 5 7 0 (t.toNat + (bits c.g0 5 0 + 2) / 3 * 2 ^ 64) (c.addr + (bits c.g0 5 0 - 1) * 2 ^ 36) 0) false
    else s1

/-- The core, counter and increment of a SIGNAL (R314). -/
def signalOf (c : Cell) : Nat × Nat × Nat := (bits c.g0 23 16, bits c.g0 28 24, bits c.g0 15 0)

/-- A cell served at its die (R246, R271, R341, R342, R344). -/
def State.serveCell (s : State) (die : Nat) (c : Cell) : State :=
  match c.kind with
  | 1 => s.serveRead die c
  | 3 => let q := s.writeCell c; q.st.ack die c q.code q.at_ true
  | 4 => let q := s.writeCell c; (q.st.ctxCount (baseOf die) c).ack die c q.code q.at_ true
  | 5 => s.closeTransfer die c
  | 6 => let q := s.rlAdd c; q.st.ack die c q.code q.at_ true
  | 7 => let q := s.rlAdd c; q.st.ack die c q.code q.at_ true
  | 0xC =>
    let t := signalOf c
    (s.ccAdd (s.actor t.1) t.2.1 t.2.2 c.src c.core).ack die c 0 0 true
  | _ =>
    let r := atomicReq c
    let q := s.atomic c.part r
    if r.fetch then q.st.answer die (s.response die c 0xA 1 0 (natLE q.bytes + q.code * 2 ^ 64) 0 0) false
    else q.st.ack die c q.code q.at_ true

/-- A fetch served: the line goes to the cache, or the fetch fails with a code (R93, R267). -/
def State.serveFetch (s : State) (core line : Nat) : State :=
  let q := s.readMem line 64 (coreNo core) 0
  let mine (k : CoreState) : Bool := k.missing == some line
  q.st.modCore core fun k =>
    if !mine k then k
    else if q.code = 0 then { k with missing := none, icache := fillLine k.icache line }
    else { k with missing := none, fetchBad := some (line, Code.FETCH_ERROR) }

/-- The units of a request's data that a write has dealt with, or failed to write with a code (R341, R343). -/
def State.progress (s : State) (c rid n off code : Nat) : State :=
  let c := s.actor c
  match s.request c rid with
  | none => s
  | some r =>
    let r1 := { r with acked := r.acked + n }
    s.setRequest c rid (some (if code = 0 then r1 else r1.failed code off (targetOf r.desc)))

/-- The flits of the answer to a request that is no cell, on channel 1 (R232): a read's data, or the completion alone. A cell's response is a
packet of its own. -/
def State.answerFlits (s : State) (die : Nat) (r : MemReq) (n : Nat) : State :=
  match r.agent with
  | .cell _ => s
  | _ => s.carry die r.src 1 (flitsOf n)

/-- Whether the way back of a request's answer is up (R239); a cell's answer is a packet that waits by itself. -/
def State.answerUp (s : State) (die : Nat) (r : MemReq) : Bool :=
  match r.agent with
  | .cell _ => true
  | _ => s.routeUp die r.src

/-- What a request does at its die, and its answer. -/
def State.serveReq (s : State) (die : Nat) (r : MemReq) : State :=
  match r.agent, r.data with
  | .cell c, _ => s.serveCell die c
  | .fetch c, _ => s.serveFetch c r.addr
  | .pcie tag, none =>
    let q := s.readMem r.addr r.len 0xF 5
    let t := { q.st with teardownAsks := s.teardownAsks }
    let t1 := if q.code = Code.HBM_DATA_ERROR || q.code == Code.GALLEY_DATA_ERROR then
      (t.bump a_PCIE_ERRCNT f_PCIE_ERRCNT_POISONED).report Code.PCIE_POISONED (if isHbm q.at_ then homeOf q.at_ else galleyDie q.at_) 31 [q.at_] else t
    t1.send .hostCompletion tag ([q.code, r.len] ++ (if q.code = 0 then q.bytes else q.st.bytes r.addr r.len).map BitVec.toNat)
  | .pcie _, some bs => (s.writeMem r.addr bs 0xF 5).st
  | .mgmt k dest tag, none =>
    let q := s.readMem r.addr r.len 0xF 5
    let t := { q.st with teardownAsks := s.teardownAsks }
    if k = .manager then t.reply dest tag q.code q.bytes
    else t.send k dest ([tag, q.code, q.at_] ++ q.bytes.map BitVec.toNat)
  | .mgmt k dest tag, some bs =>
    let q := s.writeMem r.addr bs 0xF 5
    q.st.send k dest [tag, q.code, q.at_]
  | .lighter c rid n off, some bs =>
    let q := s.writeMem r.addr bs 0xF 5
    q.st.progress c rid n off q.code
  | .unit _, some bs => (s.writeMem r.addr bs 0xF 5).st
  | _, none => s

/-- A request served (R246). -/
def State.serve (s : State) (die : Nat) (r : MemReq) : State :=
  (s.serveReq die r).answerFlits die r (if r.data.isSome then 0 else r.len)

/-- What the refusal of a transfer's cell does to its contexts (R342): a data cell counts as dealt with, and a TCLOSE ends the transfer. -/
def State.refuseCtx (s : State) (die : Nat) (c : Cell) : State :=
  if 0xC0 ≤ c.core || s.loadClose die c then s
  else if c.kind = 4 then s.ctxCount (baseOf die) c
  else if c.kind = 5 then s.dropCtx c else s

/-- What the refusal of a request with an error code does at its sender (R237, R277). -/
def State.refuseReq (s : State) (die : Nat) (r : MemReq) (code : Nat) : State :=
  match r.agent, r.data with
  | .cell c, _ => (s.refuseCtx die c).refuseCell die c code (match cellRanges c with
    | x :: _ => x.1
    | [] => c.addr * 16)
  | .fetch c, _ => s.modCore c fun k =>
    if k.missing = some r.addr then
      { k with missing := none, fetchBad := some (r.addr, if code = Code.BAD_ADDRESS then code else Code.FETCH_ERROR) }
    else k
  | .pcie tag, none => s.send .hostCompletion tag [code, 0]
  | .pcie _, some _ => s
  | .mgmt k dest tag, _ => if k = .manager then s.reply dest tag code [] else s.send k dest [tag, code, r.addr]
  | .lighter c rid n off, _ => s.progress c rid n off code
  | .unit (some x), _ => { s with unitErrs := s.unitErrs ++ [x] }
  | .unit none, _ => s

/-- A request refused or ended with an error code: its error completion goes back (R232, R237, R277). -/
def State.refuse (s : State) (die : Nat) (r : MemReq) (code : Nat) : State := (s.refuseReq die r code).answerFlits die r 0

/-! ### The requests of a die -/

def State.homeList (s : State) (die : Nat) : List HomeEnt := Tbl.get [] s.homes die
def State.setHome (s : State) (die : Nat) (l : List HomeEnt) : State := { s with homes := Tbl.set [] s.homes die l }

/-- Where a request comes in at a die, by the order in which a home takes requests of one cycle (R247): input link 0 to 4, then 5 the PCIe
endpoint (and the Ethernet ports beside it), 6 the router, 7 the management processor. -/
def State.entryRank (s : State) (die : Nat) (r : MemReq) : Nat :=
  match (s.route r.src die).getLast? with
  | some (x, l) => if x < 12 then x % 3 else l
  | none => match r.agent with
    | .cell _ => 6
    | .mgmt _ _ _ => 7
    | _ => 5

/-- A request put in its place of the order of arrival: those of one tide unit that have not begun stand in the order of R247. That the
cycle of the base logic in which a request arrives is taken as the tide unit is a DESIGN CHOICE (log entry 11). -/
def insertHome (rank : HomeEnt → Nat) (e : HomeEnt) : List HomeEnt → List HomeEnt
  | [] => [e]
  | x :: r =>
    if (x :: r).all fun y => !y.begun && y.waits.isEmpty && y.since == e.since && decide (rank e < rank y) then e :: x :: r
    else x :: insertHome rank e r

/-- A request that has arrived at its die. -/
def State.arriveHome (s : State) (die : Nat) (r : MemReq) : State :=
  s.setHome die (insertHome (fun e => s.entryRank die e.req) ⟨r, s.tideOf die, false, []⟩ (s.homeList die))

/-- Whether the directory sets of lines are free of entries that an error has lost (R249). -/
def State.setsSound (s : State) (ls : List Nat) : Bool := ls.all fun l => (s.dirSet (dirKey l)).all fun e => !e.lost

/-- Whether a request's channels and schedulers let it be served: Active or FAILED, with room (R261, R276 to R278), no set lost of which copies
are still out (R249), and the way back for its answer up (R239). -/
def State.open_ (s : State) (die : Nat) (r : MemReq) : Bool :=
  !(r.ranges.any fun x => s.hbmHeld x.1 x.2) && s.schedRoom r.hbmLines && s.setsSound r.hbmLines && s.answerUp die r

/-- The acknowledgements a request still waits for; those of a lost die count as in (R240). -/
def State.waitsLeft (s : State) (e : HomeEnt) : List (Nat × Nat) := e.waits.filter fun w => !(decide (w.2 < 12) && s.lost.contains w.2)

/-- The first request that fits, no earlier one touching a line of its own (R247, R262): its place and itself. -/
def pickEnt (ok : HomeEnt → Bool) : Nat → List Nat → List HomeEnt → Option (Nat × HomeEnt)
  | _, _, [] => none
  | i, seen, e :: r =>
    let ls := e.req.lines
    if ok e && !(ls.any fun l => seen.contains l) then some (i, e) else pickEnt ok (i + 1) (seen ++ ls) r

/-- The first request of a die that fits and can be served now. -/
def State.pick (s : State) (die : Nat) (ok : HomeEnt → Bool) : Option (Nat × HomeEnt) :=
  pickEnt (fun e => ok e && s.open_ die e.req && (s.waitsLeft e).isEmpty) 0 [] (s.homeList die)

/-- Whether the management processor sent a request. -/
def MemReq.mgmt (r : MemReq) : Bool :=
  match r.agent with
  | .mgmt _ _ _ => true
  | _ => false

/-- Entries whose holders must answer before a request is served (R246): for a write every copy but the management processor's
own; for a read a copy that the management processor holds modified. -/
def State.needed (s : State) (r : MemReq) : List DirEnt :=
  ((r.hbmLines.eraseDups.filterMap s.dirEnt).map fun e =>
      if r.mgmt then { e with mod := false, holders := if e.mod then 0 else e.holders % 4096 } else e).filter fun e =>
    (r.writes || e.mod) && !(s.holders e).isEmpty

/-- The directory after a request's write (R246 step 4): M for the management processor, no entry for any other. -/
def State.afterWrite (s : State) (r : MemReq) : State :=
  r.hbmLines.eraseDups.foldl (fun t l => if r.mgmt then t.putDir ⟨l, true, 4096, false⟩ else t.dropDir l) s

/-- The blocks of a request's lines that an add cache holds, used by it (R275): a plain write leaves them to be written back. -/
def State.touchBlocks (s : State) (r : MemReq) : State :=
  (r.lines.map blockOf).eraseDups.foldl (fun t b => t.useBlock b fun x => { x with dirty := x.dirty || r.writes }) s

/-- A request served and taken off its die's list. -/
def State.complete (s : State) (die i : Nat) (r : MemReq) : State :=
  let s1 := (s.setHome die ((s.homeList die).eraseIdx i)).touchBlocks r
  let s2 := s1.schedule r.writes r.hbmLines
  (if r.writes then s2.afterWrite r else s2).serve die r

/-- A request that needs an entry in a full set: the least recently used entry is evicted first (R248). -/
def State.evictFor (s : State) (die i : Nat) (e : HomeEnt) (line : Nat) : State :=
  match (s.dirSet (dirKey line)).getLast? with
  | none => s
  | some v =>
    let s1 := s.addWrap (a_DIR_EVICT die) f_DIR_EVICT_COUNT 1
    if (s1.holders v).isEmpty then s1.dropDir v.line
    else (s1.sendInvals v).setHome die ((s1.homeList die).set i { e with waits := (s1.holders v).map fun h => (v.line, h) })

/-- The first line of a request that has no entry in a set that is full. -/
def State.noRoom (s : State) (r : MemReq) : Option Nat :=
  r.hbmLines.find? fun l => (s.dirEnt l).isNone && decide (16 ≤ (s.dirSet (dirKey l)).length)

/-- A write completed; one of the management processor, which will hold its lines modified, after room is made for their entries (R246,
R248). -/
def State.writeNow (s : State) (die i : Nat) (e : HomeEnt) : State :=
  match if e.req.mgmt && e.req.writes then s.noRoom e.req else none with
  | some l => s.evictFor die i e l
  | none => s.complete die i e.req

/-- A request that sends invalidations or a recall and is held (R246). -/
def State.hold (s : State) (die i : Nat) (e : HomeEnt) (es : List DirEnt) : State :=
  let s1 := es.foldl (fun t x => t.sendInvals x) s
  s1.setHome die ((s1.homeList die).set i
    { e with begun := true, waits := es.flatMap fun x => (s.holders x).map fun h => (x.line, h) })

/-- A request begun: held where copies must go first, else served at once (R246). -/
def State.begin (s : State) (die i : Nat) (e : HomeEnt) : State :=
  match s.needed e.req with
  | [] => s.writeNow die i e
  | es => s.hold die i e es

/-- The units that an error in a directory has every line of a set invalidated at (R249). -/
def State.lostTargets (s : State) : List Nat := ((List.range 12).filter fun d => !s.lost.contains d) ++ [12]

/-- Every line of a directory set invalidated everywhere (R249): the set is free once every acknowledgement is in. -/
def State.setLost (s : State) (die line : Nat) : State :=
  let marked := (s.dirSet (dirKey line)).map fun x => { x with holders := (s.lostTargets.map fun t => 2 ^ t).sum, lost := true }
  let s1 := { s with dirs := Tbl.set [] s.dirs (dirKey line) marked }
  let s2 : State := { s1 with
    invals := s1.invals ++ marked.flatMap fun (x : DirEnt) => s.lostTargets.map fun t => Inval.mk die t x.line (t == 12) }
  let s3 := s2.bump (a_DIR_ECC die) f_DIR_ECC_UNCORR
  let s4 := if s3.fld (a_DIR_ERRADDR die) f_DIR_ERRADDR_VALID = 1 then s3
    else s3.setFlds (a_DIR_ERRADDR die) [(f_DIR_ERRADDR_VALID, 1), (f_DIR_ERRADDR_LINE, line / 64)]
  s4.report Code.DIRECTORY_ERROR die 31 []

/-- The same for a request's lookup: the request in hand waits for all of it. -/
def State.dirLost (s : State) (die i : Nat) (e : HomeEnt) (line : Nat) : State :=
  let t := s.setLost die line
  t.setHome die ((t.homeList die).set i
    { e with waits := (s.dirSet (dirKey line)).flatMap fun (x : DirEnt) => s.lostTargets.map fun h => (x.line, h) })

/-- A lookup at a home for an access of the device's own units, which no request stands for (R249): SECDED corrects an entry, or finds the next
one looked up uncorrectable. -/
def State.unitLookup (s : State) (die : Nat) (found : DirErr) : State :=
  match found with
  | .single => s.bump (a_DIR_ECC die) f_DIR_ECC_CORR
  | .double => if s.dirBad.contains die then s else { s with dirBad := s.dirBad ++ [die] }
  | _ => s

/-- What a lookup's SECDED does (R249): `f` goes on with a clean or corrected entry. -/
def State.lookup (s : State) (die i : Nat) (e : HomeEnt) (found : DirErr) (f : State → State) : State :=
  match found, e.req.hbmLines with
  | .double, l :: _ => if (s.dirSet (dirKey l)).isEmpty then f s else s.dirLost die i e l
  | .single, l :: _ => if (s.dirEnt l).isNone then f s else f (s.bump (a_DIR_ECC die) f_DIR_ECC_CORR)
  | _, _ => f s

/-- The first waiting cell of a die that fits, looked up and begun (R246, R249). -/
def State.beginCell (s : State) (die : Nat) (found : DirErr) (ok : Cell → Bool) : State :=
  match s.pick die (fun e => !e.begun && (match e.req.agent with
    | .cell c => ok c
    | _ => false)) with
  | none => s
  | some (i, e) => s.lookup die i e found fun t => t.begin die i e

/-! ### Accesses of the device's own units

A lighter's local reads, and what the Ethernet ports, the tide schedules and XVERIFY read and write, take effect in one step at the home of
each line: not before requests that came earlier (R247), not while a channel holds its requests (R277), and not while a copy is
modified, or for a write held at all (R246). -/

/-- Whether a request is a write that a unit of the device has posted. -/
def MemReq.isUnit (r : MemReq) : Bool :=
  match r.agent with
  | .unit _ => true
  | _ => false

/-- Whether the next lookup of a line for such an access finds its set uncorrectable (R249). -/
def State.lookBad (s : State) (l : Nat) : Bool := s.dirBad.contains (homeOf l) && !(s.dirSet (dirKey l)).isEmpty

/-- Whether such an access of HBM lines by a unit of die `src` can take effect now: the way to each home and back is up (R239), the channel
serves (R277), the scheduler has room (R261), nothing earlier waits for the line (R247), no copy is in the way (R246), and its set is sound
(R249). -/
def State.reachNow (s : State) (src : Nat) (write : Bool) (ls : List Nat) : Bool :=
  (ls.map homeOf).eraseDups.all (fun h => s.routeUp src h && s.routeUp h src) && ls.all fun l =>
    (s.chanState l == 5 || (s.chanState l == 2 && decide ((s.sched l).reqs.length < 64) && (s.sched l).wait.isEmpty))
    && !((s.homeList (homeOf l)).any fun e => e.req.lines.contains l)
    && !((Tbl.get [] s.quay (homeOf l)).any fun r => r.isUnit && r.lines.contains l)
    && (match s.dirEnt l with
      | none => true
      | some e => (!write && !e.mod) || (s.holders e).isEmpty)
    && s.setsSound [l] && !s.lookBad l

/-- Whether an access of a range can take effect now: one of a galley always can. -/
def State.rangeOpen (s : State) (src : Nat) (write : Bool) (a n : Nat) : Bool := !inHbm a n || s.reachNow src write (linesOf a n)

/-- The flits of such an access: requests to the homes of its lines and the answers, in packets of up to 256 bytes (R230, R232). -/
def State.unitFlits (s : State) (src : Nat) (write : Bool) (a n : Nat) : State :=
  ((linesOf a n).map homeOf).eraseDups.foldl (fun t h =>
    let lo := max a ((h - 12) * 3 * 2 ^ 36)
    let k := min (a + n) ((h - 11) * 3 * 2 ^ 36) - lo
    let heads := max 1 ((k + 255) / 256)
    (t.carry src h 0 (if write then flitsOf k else heads)).carry h src 1 (if write then heads else flitsOf k)) s

/-- What stands in the way of such an access sent for (R246): invalidations or recalls of its lines that are not on their way yet. -/
def State.sendMissing (s : State) (write : Bool) (ls : List Nat) : State :=
  ls.foldl (fun t l => if t.lookBad l then { t with dirBad := t.dirBad.erase (homeOf l) }.setLost (homeOf l) l else match t.dirEnt l with
    | none => t
    | some e => if (write || e.mod) && !e.lost then
        { t with invals := t.invals ++ ((t.holders e).map fun h => (⟨homeOf l, h, l, e.mod⟩ : Inval)).filter fun v => !t.invals.contains v }
      else t) s

/-- A write by a unit of the device that can take effect now (R246 steps 3 and 4): made, with no entry left in the directory. -/
def State.unitWrite (s : State) (a : Nat) (bs : List Byte) : MemAns :=
  let r := s.writeMem a bs 0xF 5
  if r.code = 0 && isHbm a then
    { r with st := (linesOf a bs.length).foldl (fun t l => (t.useBlock l fun x => { x with dirty := true }).dropDir l) r.st }
  else r

/-- The same by a unit of die `src`, put to its schedulers. -/
def State.openWrite (s : State) (src a : Nat) (bs : List Byte) : MemAns :=
  (if inHbm a bs.length then (s.unitFlits src true a bs.length).schedule true (linesOf a bs.length) else s).unitWrite a bs

/-- A write by a unit of the device: at its home at once where it can take effect now, else as a request that waits there line by line (R246,
R247, R277); `qp` is the queue pair and PSN of received data. -/
def State.writeThrough (s : State) (src : Nat) (qp : Option (Nat × Nat)) (a : Nat) (bs : List Byte) : MemAns :=
  let ls := linesOf a bs.length
  if !inHbm a bs.length || s.reachNow src true ls then s.openWrite src a bs
  else
    ⟨ls.foldl (fun t l =>
      let lo := max a l
      let part := (bs.drop (lo - a)).take (l + 64 - lo)
      t.quayPush (homeOf l) ⟨src, 31, .unit qp, lo, part.length, some part⟩) s, 0, 0, []⟩

end Sys2Proof.Machine
end

