-- ==== Sys2Proof/Machine/PilotMem.lean ====
section
/-! DEFINITION. What the pilot reaches: loads, stores, the store buffer, outstanding loads, and instruction fetch
(03_core_and_instruction_set.md R89 to R94, R127, R554). -/

namespace Sys2Proof.Machine
open Sys2Proof

/-- What an address reaches from a pilot (R89). -/
inductive Reach where
  | own | galley | regs | nothing
deriving DecidableEq, Repr

/-- Where `n` bytes at a data address lie for core c (R89, R136): its own memory, its galley window, register space in
Firmware mode for scalar accesses of 4 or 8 bytes, or nothing. -/
def State.reach (s : State) (c a n : Nat) (vector : Bool) : Reach :=
  if a + n ≤ 0x4_0000 then .own
  else if isGalley a then (if s.galleyOk c a n then .galley else .nothing)
  else if inRegs a && !vector && (n == 4 || n == 8) && !(s.core c).prog && s.dieUp (regDie a) then .regs
  else .nothing

/-- Whether a core may write a register: within its own windows of the PILOT, PRESS and LIGHTER blocks (R91). -/
def pilotMayWrite (c a : Nat) : Bool :=
  regDie a == coreDie c && (regBlock a == 0 || regBlock a == 1 || regBlock a == 6) && regOff a / 0x10000 == coreNo c

/-- One byte as a core's own earlier stores leave it: buffered stores count before they are visible. -/
def overlayByte (st : List StoreEnt) (a : Nat) (b : Byte) : Byte :=
  st.foldl (fun b e => if e.addr ≤ a ∧ a < e.addr + e.data.length then e.data.getD (a - e.addr) b else b) b

/-- Bytes under buffered stores. -/
def overlay (st : List StoreEnt) (a : Nat) (bs : List Byte) : List Byte :=
  bs.mapIdx fun i b => overlayByte st (a + i) b

/-- `n` bytes of a core's own memory. -/
def CoreState.pbytes (k : CoreState) (a : Nat) : Nat → List Byte
  | 0 => []
  | n + 1 => Tbl.get 0 k.pmem a :: k.pbytes (a + 1) n

/-- Error marks of the words that `n` bytes from `a` of a core's own memory touch. -/
def CoreState.pmarked (k : CoreState) (a n m : Nat) : List Nat :=
  (k.pmarks.filter fun e => e.2 == m && decide (a < e.1 + 8) && decide (e.1 < a + n)).map Prod.fst

/-- A read of a core's own memory (R92): single-bit errors corrected and counted; a double-bit error counted and reported. -/
def State.ownRead (s : State) (c a n : Nat) : State × Bool :=
  let k := s.core c
  let soft := k.pmarked a n 1
  let k' := { k with pmarks := soft.foldl (fun m w => Tbl.set 0 m w 0) k.pmarks }
  let ecc := a_PILOT_ECC (coreDie c) (coreNo c)
  let s' := soft.foldl (fun t _ => t.bump ecc f_PILOT_ECC_CORR) (s.setCore c k')
  if (k.pmarked a n 2).isEmpty then (s', false) else (s'.bump ecc f_PILOT_ECC_UNCORR, true)

/-- The value a scalar load writes: sign- or zero-extended (R113). -/
def loadValue (size : Nat) (sext : Bool) (v : Nat) : Word :=
  if sext then BitVec.ofInt 64 (signed (8 * size) v) else BitVec.ofNat 64 v

/-- Writing loaded bytes to their destination. -/
def CoreState.deliver (k : CoreState) (d : LoadDest) (bs : List Byte) : CoreState :=
  match d with
  | .g rd size sext => k.setRg rd (loadValue size sext (natLE bs))
  | .v vd => k.setVr vd (BitVec.ofNat 2048 (natLE bs))
  | .m md => k.setMr md (BitVec.ofNat 256 (natLE bs))

/-- The bytes a destination takes. -/
def LoadDest.size : LoadDest → Nat
  | .g _ n _ => n
  | .v _ => 256
  | .m _ => 32

/-- The class of a load for MIX (R216): a scalar load's, or a vector memory instruction's. -/
def LoadDest.cls : LoadDest → Nat
  | .g .. => 3
  | _ => 10

/-- The alignment a destination asks for (R90): natural for a scalar, 64 bytes for a vector register, 32 for a mask. -/
def LoadDest.align : LoadDest → Nat
  | .g _ n _ => n
  | .v _ => 64
  | .m _ => 32

/-- Whether a destination is a vector or mask register. -/
def LoadDest.vector : LoadDest → Bool
  | .g .. => false
  | _ => true

/-- Whether a die's crossing of a group has lost its clock (R470, R471). -/
def State.crossStopped (s : State) (die g : Nat) : Bool := s.fld (a_CLK_XSTAT die g) f_CLK_XSTAT_STOPPED == 1

/-- A command of a core's press that goes to the galley: it waits while the die or its crossing to the galleys has no clock (R470, R471). -/
def State.ifGalley (s : State) (die : Nat) (o : Host.Outcome State Fault Refusal) : Host.Outcome State Fault Refusal :=
  if s.stopped die || s.crossStopped die 0 then .next s else o

/-- VEC_ISSUED counts an instruction (R546). -/
def State.vecCount (s : State) (c : Nat) : State := s.bumpWrap (a_VEC_ISSUED (coreDie c) (coreNo c)) f_VEC_ISSUED_COUNT

/-- A load (R89 to R94): from the core's own memory it completes at once. One from the galley is read as it issues, so that it traps
precisely (R96, R137), retires, and its result is outstanding until it returns; eight may be. One from register space, or from a galley
whose crossing has no clock, is outstanding itself and lets nothing else issue. -/
def State.load (s : State) (c : Nat) (k : CoreState) (addr : Word) (d : LoadDest) : Act :=
  let a := addr.toNat
  let n := d.size
  let r := s.reach c a n d.vector
  if r = .nothing then .trap s Code.BAD_ADDRESS addr
  else if a % d.align ≠ 0 then .trap s Code.MISALIGNED addr
  else if r = .own then
    let q := s.ownRead c a n
    if q.2 then .trap q.1 Code.PILOT_MEM_ERROR addr
    else .go (q.1.modCore c fun k' => k'.deliver d (overlay k'.stores a (k'.pbytes a n)))
  else if 8 ≤ k.loads.length then .wait s
  else if r = .regs || s.crossStopped (coreDie c) 0 then .wait (s.setCore c { k with loads := k.loads ++ [⟨a, d, none⟩] })
  else
    let q := s.galleyRead (coreDie c) (coreNo c) 0 a n
    match q.2 with
    | some w => .trap q.1 Code.GALLEY_DATA_ERROR (BitVec.ofNat 64 w)
    | none => .go (q.1.modCore c fun k' => { k' with loads := k'.loads ++ [⟨a, d, some (overlay k'.stores a (q.1.bytes a n))⟩] })

/-- A load instruction at a core. -/
def State.loadAt (s : State) (c : Nat) (i : Instr) (f : CoreState → Word) (d : LoadDest) : State :=
  s.issue c i fun k => s.load c k (f k) d

/-- A store (R89 to R91, R127, R554): to the core's own memory or the galley it enters the store buffer; to register space it
is a register write of the pilot's interface, made at once past the stores still in the buffer (DESIGN CHOICE, log entry 26). -/
def State.store (s : State) (c : Nat) (k : CoreState) (addr : Word) (bs : List Byte) (align : Nat) (vector : Bool) : Act :=
  let a := addr.toNat
  let n := bs.length
  let r := s.reach c a n vector
  if r = .nothing || (r == .regs && !pilotMayWrite c a) then .trap s Code.BAD_ADDRESS addr
  else if a % align ≠ 0 then .trap s Code.MISALIGNED addr
  else if r = .own && k.wu.isSome && decide (a < k.wusave.toNat) then .trap s Code.WU_PROTECTED addr
  else if r = .regs then .go (s.arrive (.pilot c) a n (BitVec.ofNat 64 (natLE bs)))
  else .go (s.setCore c { k with stores := k.stores ++ [⟨a, bs⟩] })

/-- A scalar store instruction. -/
def State.storeAt (s : State) (c : Nat) (i : Instr) (rs ra : Fin 32) (imm : BitVec 14) (n : Nat) : State :=
  s.issue c i fun k => s.store c k (k.addr ra imm) (bytesLE n (k.rg rs).toNat) n false

/-- LB (R89, R113). -/
def execLb (c : Nat) (rd ra : Fin 32) (imm : BitVec 14) (s : State) : Host.Outcome State Fault Refusal :=
  .next (s.loadAt c (.lb c rd ra imm) (fun k => k.addr ra imm) (.g rd 1 true))

/-- LH (R89, R113). -/
def execLh (c : Nat) (rd ra : Fin 32) (imm : BitVec 14) (s : State) : Host.Outcome State Fault Refusal :=
  .next (s.loadAt c (.lh c rd ra imm) (fun k => k.addr ra imm) (.g rd 2 true))

/-- LW (R89, R113). -/
def execLw (c : Nat) (rd ra : Fin 32) (imm : BitVec 14) (s : State) : Host.Outcome State Fault Refusal :=
  .next (s.loadAt c (.lw c rd ra imm) (fun k => k.addr ra imm) (.g rd 4 true))

/-- LD (R89, R113). -/
def execLd (c : Nat) (rd ra : Fin 32) (imm : BitVec 14) (s : State) : Host.Outcome State Fault Refusal :=
  .next (s.loadAt c (.ld c rd ra imm) (fun k => k.addr ra imm) (.g rd 8 false))

/-- LBU (R89, R113). -/
def execLbu (c : Nat) (rd ra : Fin 32) (imm : BitVec 14) (s : State) : Host.Outcome State Fault Refusal :=
  .next (s.loadAt c (.lbu c rd ra imm) (fun k => k.addr ra imm) (.g rd 1 false))

/-- LHU (R89, R113). -/
def execLhu (c : Nat) (rd ra : Fin 32) (imm : BitVec 14) (s : State) : Host.Outcome State Fault Refusal :=
  .next (s.loadAt c (.lhu c rd ra imm) (fun k => k.addr ra imm) (.g rd 2 false))

/-- LWU (R89, R113). -/
def execLwu (c : Nat) (rd ra : Fin 32) (imm : BitVec 14) (s : State) : Host.Outcome State Fault Refusal :=
  .next (s.loadAt c (.lwu c rd ra imm) (fun k => k.addr ra imm) (.g rd 4 false))

/-- SB (R89, R113). -/
def execSb (c : Nat) (rs ra : Fin 32) (imm : BitVec 14) (s : State) : Host.Outcome State Fault Refusal :=
  .next (s.storeAt c (.sb c rs ra imm) rs ra imm 1)

/-- SH (R89, R113). -/
def execSh (c : Nat) (rs ra : Fin 32) (imm : BitVec 14) (s : State) : Host.Outcome State Fault Refusal :=
  .next (s.storeAt c (.sh c rs ra imm) rs ra imm 2)

/-- SW (R89, R113). -/
def execSw (c : Nat) (rs ra : Fin 32) (imm : BitVec 14) (s : State) : Host.Outcome State Fault Refusal :=
  .next (s.storeAt c (.sw c rs ra imm) rs ra imm 4)

/-- SD (R89, R113). -/
def execSd (c : Nat) (rs ra : Fin 32) (imm : BitVec 14) (s : State) : Host.Outcome State Fault Refusal :=
  .next (s.storeAt c (.sd c rs ra imm) rs ra imm 8)

/-- PILOT_LOAD_RETURN: the oldest outstanding load completes (R94): its data goes to its register. A load that blocks issue is served only
now, and retires; an uncorrectable galley word traps at it (R137). -/
def execPilotLoadReturn (c : Nat) (s : State) : Host.Outcome State Fault Refusal :=
  s.ifClock (coreDie c) <|
  let k := s.core c
  match k.loads with
  | [] => .next s
  | e :: r =>
    let fill (t : State) (bs : List Byte) : State := t.modCore c fun k' => { k'.deliver e.dest bs with loads := r }
    let done (t : State) (bs : List Byte) : State := (fill t bs).modCore c fun k' => k'.retire e.dest.cls (k'.pc + 4)
    match e.data with
    | some bs => .next (fill s bs)
    | none =>
      if inRegs e.addr then
        if !s.dieUp (regDie e.addr) then .next (s.trap c Code.BAD_ADDRESS (BitVec.ofNat 64 e.addr))
        else if !s.wayOpen (.pilot c) e.addr then .next s
        else if e.dest.size = 8 then .next (done (s.touch e.addr) (bytesLE 8 (s.readReg e.addr).toNat))
        else
          let h := s.readHalf (Source.iface (.pilot c)) e.addr
          .next (done (h.2.touch e.addr) (bytesLE 4 h.1))
      else if s.crossStopped (coreDie c) 0 then .next s
      else
        let q := s.galleyRead (coreDie c) (coreNo c) 0 e.addr e.dest.size
        match q.2 with
        | some w => .next (q.1.trap c Code.GALLEY_DATA_ERROR (BitVec.ofNat 64 w))
        | none =>
          let t := if e.dest.vector then q.1.vecCount c else q.1
          .next (done t (overlay k.stores e.addr (q.1.bytes e.addr e.dest.size)))

/-- The oldest buffered store made visible (R554). A store of part of a private-memory word that carries an error mark writes its bytes
and leaves the mark, and nothing counts it: R92 says nothing of such a store (DESIGN CHOICE, log entry 26). -/
def State.storeOut (s : State) (c : Nat) : State :=
  let k := s.core c
  match k.stores with
  | [] => s
  | e :: r =>
    if e.addr < 0x4_0000 then
      let marks := k.pmarks.filter fun m => !(decide (e.addr ≤ m.1) && decide (m.1 + 8 ≤ e.addr + e.data.length))
      s.setCore c { k with stores := r, pmem := memWrite k.pmem e.addr e.data, pmarks := marks }
    else (s.galleyWrite (coreDie c) (coreNo c) 0 e.addr e.data).setCore c { k with stores := r }

/-- STORE_VISIBLE: the oldest buffered store becomes visible and leaves the buffer, in program order (R554). A galley store waits while the
galley's crossing has no clock (R470). -/
def execStoreVisible (c : Nat) (s : State) : Host.Outcome State Fault Refusal :=
  s.ifClock (coreDie c) <|
  match (s.core c).stores with
  | [] => .next s
  | e :: _ => if 0x4_0000 ≤ e.addr && s.crossStopped (coreDie c) 0 then .next s else .next (s.storeOut c)

/-- Whether a fetched word is a branch or a jump, past which nothing is fetched until its target is known (R93). -/
def isBranchWord (w : Nat) : Bool :=
  let maj := bits w 31 27
  let fn5 := bits w 26 22
  maj == 6 || maj == 7 || (maj == 0x0C && (fn5 == 4 || fn5 == 5 || fn5 == 9))

/-- Where the sequential path fetches next: pc, or past what is held; none past a branch, or with 16 held (R93). -/
def CoreState.nextFetch (k : CoreState) : Option Nat :=
  match k.fetched.getLast? with
  | none => some k.pc.toNat
  | some e => if isBranchWord e.2 || decide (16 ≤ k.fetched.length) then none else some (e.1 + 4)

/-- INSTRUCTION_FETCH: the next instruction of the sequential path comes from its line in the cache; a line that is not there is
asked for at its home (R93, R247). An address outside HBM traps with BAD_ADDRESS and an uncorrectable line with FETCH_ERROR, once
the instruction is the one at pc. -/
def execInstructionFetch (c : Nat) (addr : Word) (s : State) : Host.Outcome State Fault Refusal :=
  s.ifClock (coreDie c) <|
  let k := s.core c
  let a := addr.toNat
  let line := lineOf a
  let fail (t : State) (code : Nat) : State := if k.fetched.isEmpty && !k.loadBlocks then t.trapAs c 0 code addr addr addr else s
  .next (
    if k.run ≠ .running || k.nextFetch != some a then s
    else if !inHbm a 4 then fail s Code.BAD_ADDRESS
    else if k.icache.contains line then s.setCore c { k with fetched := k.fetched ++ [(a, s.num a 4)] }
    else match k.fetchBad with
      | some (l, code) => if l = line then fail (s.setCore c { k with fetchBad := none }) code else s.setCore c { k with fetchBad := none }
      | none =>
        if k.missing.isSome then s
        else (s.setCore c { k with missing := some line }).quayPush (homeOf a) ⟨coreDie c, s.partOf c, .fetch c, line, 64, none⟩)

/-- ILLEGAL_INSTRUCTION: a word that matches no encoding traps, with the word in TVAL (R98, R110). -/
def execIllegalInstruction (c : Nat) (word : BitVec 32) (s : State) : Host.Outcome State Fault Refusal :=
  .next (s.issue c (.illegalInstruction c word) fun _ =>
    if (decodePilot c word.toNat).isSome then .wait s else .trap s Code.ILLEGAL_INSTRUCTION (word.setWidth 64))

end Sys2Proof.Machine
end

