-- ==== Sys2Proof/Machine/Ramp.lean ====
section
/-! DEFINITION. The slots of the ramp governor (15_power_clocks_crossings.md R464) as the press takes and returns them. -/

namespace Sys2Proof.Machine
open Sys2Proof

/-- The governor of a compute die. -/
def State.ramp (s : State) (die : Nat) : RampState := Tbl.get RampState.init s.ramps die
def State.setRamp (s : State) (die : Nat) (r : RampState) : State := { s with ramps := Tbl.set RampState.init s.ramps die r }

/-- Whether slot a has run ballast longer than slot b, the lower number first on a tie (R464). -/
def RampSlot.before (a b : RampSlot) : Bool := decide (a.since < b.since) || (a.since == b.since && decide (a.slot < b.slot))

/-- The ballast slot that has run longest. -/
def longest : List RampSlot → Option RampSlot
  | [] => none
  | x :: r =>
    if x.owner.isSome then longest r
    else match longest r with
      | none => some x
      | some y => if x.before y then some x else some y

/-- How many slots run ballast. -/
def RampState.ballast (r : RampState) : Nat := (r.slots.filter fun x => x.owner.isNone).length

/-- One platen taking the slot that has run ballast longest. -/
def RampState.take1 (r : RampState) (owner : Nat) : RampState :=
  match longest r.slots with
  | none => r
  | some x => { r with slots := r.slots.map fun y => if y.slot = x.slot then { y with owner := some owner } else y }

/-- The platens of a mask, ascending. -/
def platens (m : Nat) : List Nat := (List.range 4).filter fun p => bit m p

/-- A PRESS taking its slots (R464). -/
def RampState.take (r : RampState) (core m : Nat) : RampState :=
  (platens m).foldl (fun t p => t.take1 (4 * core + p)) r

/-- A PRESS that ends: each of its slots returns to ballast at the tide `now` (R464). -/
def RampState.give (r : RampState) (core m now : Nat) : RampState :=
  { r with slots := r.slots.map fun y => match y.owner with
      | some o => if o / 4 = core && bit m (o % 4) then { y with owner := none, since := now } else y
      | none => y }

/-- Every slot withdrawn at once (R458, R464): level 0, and no wave of a PREWARM ramp released. -/
def RampState.cut (r : RampState) : RampState :=
  { r with
    level := 0
    slots := []
    prewarms := r.prewarms.map fun (p : Prewarm) => { p with waves := 0 } }

/-- The load of a die falling with its clocks. -/
def State.cutRamp (s : State) (die : Nat) : State := s.setRamp die (s.ramp die).cut

end Sys2Proof.Machine
end

