-- ==== Sys2Proof/Machine/Press.lean ====
section
/-! DEFINITION. The press: staging, PRESS, the checksum column, clearing and draining of stick sets (02_press.md R55 to R86,
03_core_and_instruction_set.md R115). -/

namespace Sys2Proof.Machine
open Sys2Proof

/-! ### Formats and descriptors -/

/-- K of an input format code (R56). -/
def pressK (fmt : Nat) : Nat := if fmt = 1 then 256 else if fmt < 7 then 128 else 64

/-- Whether a format code is an MX one (R56). -/
def isMx (fmt : Nat) : Bool := decide (1 ≤ fmt) && decide (fmt ≤ 3)

/-- Bytes of `n` elements of a source row (R56). -/
def rowBytes (fmt n : Nat) : Nat :=
  if fmt = 1 then (n + 1) / 2 else if fmt < 7 then n else if fmt = 7 then 2 * n else 4 * n

/-- Bytes of an output row of 128 sticks (R74, R75). -/
def outBytes (raw : Bool) (fmt : Nat) : Nat :=
  if raw then 2048 else if fmt = 1 then 64 else if fmt < 7 then 128 else if fmt = 7 then 256 else 512

/-- Whether `rows` rows of `n` bytes all lie where core c may reach the galley (R59, R136). -/
def State.rowsOk (s : State) (c a stride rows n : Nat) : Bool :=
  (List.range rows).all fun r => s.galleyOk c (a + stride * r) n

/-- T of a staging or drain descriptor. -/
def descT (lo d : Nat) : Int := signed 16 (d / 2 ^ lo)

/-- The window a staging descriptor names (R58). -/
def formeWin (d : Nat) : Option Window := Window.ofWord (bits d 159 128)

/-- The checks of R59 on a staging descriptor after PRESS_HALTED, in their order. ROWS above 127, to which R58 gives no meaning and for which
R59 has no row, is refused among the bad formats (DESIGN CHOICE, log entry 25). -/
def State.formeCheck (s : State) (c d : Nat) : Option Nat :=
  let fmt := bits d 227 224
  let n := bits d 223 216 + 1
  let rows := bits d 215 208 + 1
  if bits d 255 240 ≠ 0 || bit d 238 || bits d 235 233 != 0 || bits d 231 228 != 0 || bits d 127 112 != 0 || bits d 63 48 != 0
    || (!bit d 239 && bits d 237 236 != 0) || fmt == 0 || decide (9 < fmt) || decide (128 < rows)
    || (!isMx fmt && bits d 111 64 != 0) then some Code.STAGE_BAD_FORMAT
  else if bits d 191 176 = 0 || bits d 47 0 % 64 != 0 then some Code.BAD_ADDRESS
  else if !s.rowsOk c (bits d 47 0) (64 * bits d 191 176) rows (rowBytes fmt n) then some Code.BAD_ADDRESS
  else if isMx fmt && !s.rowsOk c (bits d 111 64) (bits d 207 192) rows ((n + 31) / 32) then some Code.BAD_ADDRESS
  else if descT 160 d < -1024 || decide (1023 < descT 160 d) then some Code.BAD_SCALE
  else if (formeWin d).isNone then some Code.BAD_WINDOW
  else if pressK fmt < n then some Code.STAGE_BAD_FORMAT
  else none

/-- The checks of R74 on a drain descriptor after PRESS_HALTED, in the order of R59. -/
def State.drainCheck (s : State) (c d : Nat) : Option Nat :=
  let fmt := bits d 179 176
  let raw := bit d 181
  if bits d 255 204 ≠ 0 || bits d 191 184 != 0 || bits d 127 112 != 0 || bits d 63 48 != 0
    || (!raw && (fmt == 0 || fmt == 8 || fmt == 9 || decide (10 < fmt)))
    || (!raw && !isMx fmt && bits d 111 64 != 0) then some Code.STAGE_BAD_FORMAT
  else if bits d 159 144 = 0 || bits d 47 0 % 64 != 0 then some Code.BAD_ADDRESS
  else if !s.rowsOk c (bits d 47 0) (64 * bits d 159 144) 128 (outBytes raw fmt) then some Code.BAD_ADDRESS
  else if !raw && isMx fmt && !s.rowsOk c (bits d 111 64) (bits d 175 160) 128 4 then some Code.BAD_ADDRESS
  else if !raw && (decide (descT 128 d < -1024) || decide (1023 < descT 128 d)) then some Code.BAD_SCALE
  else none

/-- FORME and STICKRD up to their own checks (R115, R119): the fence, PRESS_HALTED, MISALIGNED, BAD_DESCRIPTOR, the read of the
descriptor, then `f` with it. -/
def State.pressDesc (s : State) (c : Nat) (k : CoreState) (ra : Fin 32) (f : State → Nat → Act) : Act :=
  let addr := k.rg ra
  let a := addr.toNat
  if !k.stores.isEmpty then .wait s
  else if (s.press c).halted then .trap s Code.PRESS_HALTED addr
  else if a % 32 ≠ 0 then .trap s Code.MISALIGNED addr
  else if 0x4_0000 < a + 32 then .trap s Code.BAD_DESCRIPTOR addr
  else
    let q := s.ownRead c a 32
    if q.2 then .trap q.1 Code.PILOT_MEM_ERROR addr else f q.1 (natLE (k.pbytes a 32))

/-- FORME (R58, R59, R115). -/
def execForme (c : Nat) (wait raise : Fin 64) (ra : Fin 32) (s : State) : Host.Outcome State Fault Refusal :=
  .next (s.issue c (.forme c wait raise ra) fun k => s.pressDesc c k ra fun t d =>
    match t.formeCheck c d with
    | some code => .trap t code (k.rg ra)
    | none =>
      if 4 ≤ (t.press c).staging.length then .trap t Code.QUEUE_FULL 0x20
      else .go (t.modPress c fun p => { p with
        staging := p.staging ++ [⟨d, wait.val, raise.val, p.ord, false⟩], ord := p.ord + 1 }))

/-- STICKRD (R74, R115). -/
def execStickrd (c : Nat) (wait raise : Fin 64) (ra : Fin 32) (s : State) : Host.Outcome State Fault Refusal :=
  .next (s.issue c (.stickrd c wait raise ra) fun k => s.pressDesc c k ra fun t d =>
    match t.drainCheck c d with
    | some code => .trap t code (k.rg ra)
    | none =>
      if 4 ≤ (t.press c).drains.length then .trap t Code.QUEUE_FULL 0x21
      else .go (t.modPress c fun p =>
        { p with drains := p.drains ++ [⟨d, wait.val, raise.val, p.ord, .queued⟩], ord := p.ord + 1 }))

/-- STICKCLR: it waits at its sets by a command of its own (R72). Bits [63:48] of g[a], reserved in PRESS_QE's packing, are ignored (DESIGN
CHOICE, log entry 25). -/
def execStickclr (c : Nat) (m : Fin 16) (ra : Fin 32) (s : State) : Host.Outcome State Fault Refusal :=
  .next (s.issue c (.stickclr c m ra) fun k =>
    if (s.press c).halted then s.trapOpen Code.PRESS_HALTED
    else .go (s.modPress c fun p =>
      { p with
        clears := p.clears ++ (platens m.val).map fun n => ⟨n, signed 12 (bits (k.rg ra).toNat (12 * n + 11) (12 * n)), p.ord⟩
        ord := p.ord + 1 }))

/-! ### Staging -/

/-- The element bits of element `k` of a source row (R56): two E2M1 elements a byte, the lower one in the low bits. -/
def rowElem (fmt : Nat) (bs : List Byte) (k : Nat) : Nat :=
  if fmt = 1 then (if k % 2 = 0 then (bs.getD (k / 2) 0).toNat % 16 else (bs.getD (k / 2) 0).toNat / 16)
  else if fmt < 7 then (bs.getD k 0).toNat
  else if fmt = 7 then natLE ((bs.drop (2 * k)).take 2)
  else natLE ((bs.drop (4 * k)).take 4)

/-- The value of an element by its format code, before its scales (R19, R28). -/
def elemNum (fmt b : Nat) : ElemVal :=
  match fmt with
  | 1 => Fmt.e2m1.decode b
  | 2 => Fmt.e4m3.decode b
  | 3 => Fmt.e5m2.decode b
  | 4 => Fmt.e4m3.decode b
  | 5 => Fmt.e5m2.decode b
  | 6 => intNum 8 b
  | 7 => Fmt.bf16.decode b
  | 8 => splitHi (Fmt.b32.decode b)
  | _ => splitLo (Fmt.b32.decode b)

/-- A staged row: each element rounded into the window under its scales (R20, R26, R27). -/
def stageRow (fmt : Nat) (t : Int) (win : Window) (n : Nat) (bs sc : List Byte) : List Factor :=
  (List.range n).map fun k =>
    let v := (elemNum fmt (rowElem fmt bs k)).scale t
    factorOf win (if isMx fmt then v.mx (sc.getD (k / 32) 0).toNat else v)

/-- The tile that staged source rows make (R58, R60): each row's bytes and scale bytes. -/
def tileOf (d : Nat) (rows : List (List Byte × List Byte)) : Tile :=
  let win := (formeWin d).getD ⟨0, 1⟩
  ⟨bits d 227 224, win, rows.map fun r => stageRow (bits d 227 224) (descT 160 d) win (bits d 223 216 + 1) r.1 r.2⟩

/-- Reading the rows of a tile (R58, R64): the state after the galley reads, and the source bytes by row, or none where a read met an
uncorrectable word. `r` counts the rows from the first. -/
def State.stageRows (s : State) (c d : Nat) : Nat → Nat → State × Option (List (List Byte × List Byte))
  | 0, _ => (s, some [])
  | m + 1, r =>
    let fmt := bits d 227 224
    let n := bits d 223 216 + 1
    let a := bits d 47 0 + 64 * bits d 191 176 * r
    let nb := rowBytes fmt n
    let sa := bits d 111 64 + bits d 207 192 * r
    let ns := if isMx fmt then (n + 31) / 32 else 0
    let q := s.galleyRead (coreDie c) (coreNo c) 1 a nb
    if q.2.isSome then (q.1, none)
    else
      let u := q.1.galleyRead (coreDie c) (coreNo c) 1 sa ns
      if u.2.isSome then (u.1, none)
      else
        let rest := u.1.stageRows c d m (r + 1)
        (rest.1, rest.2.map fun l => (u.1.bytes a nb, u.1.bytes sa ns) :: l)

/-- A zero factor: an element a tile does not hold (R60). -/
def Factor.zero : Factor := ⟨0, 0, false, false, false⟩

/-- Element k of row r of a tile. -/
def Tile.factor (t : Tile) (r k : Nat) : Factor := (t.rows.getD r []).getD k Factor.zero

/-- The forme row sums c[k] = Σ_j w[k][j] (R62). -/
def Tile.rowSums (t : Tile) : List Int :=
  (List.range (pressK t.fmt)).map fun k => ((List.range 128).map fun j => (t.factor j k).n).sum

/-- Setting a slot. -/
def PressState.setSlot (p : PressState) (n : Nat) (x : Slot) : PressState := { p with slots := Tbl.set Slot.empty p.slots n x }

/-- Whether a running PRESS names a slot (R63). -/
def PressState.usesSlot (p : PressState) (n : Nat) : Bool :=
  match p.running with
  | none => false
  | some r => n == r.op.f || (platens r.op.mask).any fun q => n == 2 + 2 * q + r.op.a

/-- The forme of a core accepted by the reducer for its row sums, behind those accepted before it (R155). -/
def State.formeAccept (s : State) (c : Nat) : State :=
  s.setGalley (coreDie c) { s.galley (coreDie c) with formes := (s.galley (coreDie c)).formes ++ [c] }

/-- Whether no other core's forme was accepted before core c's oldest (R155). -/
def State.formeTurn (s : State) (c : Nat) : Bool :=
  match (s.galley (coreDie c)).formes.find? fun n => !(s.press n).sumsDue.isEmpty with
  | some n => n == c
  | none => true

/-- A core's formes taken off the reducer's path by `f`. -/
def State.formeDrop (s : State) (c : Nat) (f : List Nat → List Nat) : State :=
  s.setGalley (coreDie c) { s.galley (coreDie c) with formes := f (s.galley (coreDie c)).formes }

/-- A FORME taken out of the staging queue, its slot left POISON and its token raised. -/
def State.formePoisoned (s : State) (c : Nat) (e : FormeEnt) (rest : List FormeEnt) : State :=
  ((s.modPress c fun p => { p.setSlot (formeSlot e.desc) ⟨none, none, true, none⟩ with staging := rest }).modCore c fun k =>
    k.fell 0x20 (rest.length + 1) rest.length).raise c e.raise

/-- FORME_TILE_STAGED: the head of the staging queue takes its WAIT, and once no running PRESS names its slot its tile is read,
rounded and put in place; a read error leaves the slot POISON (R58 to R64). A later FORME clears POISON when its tile is in place, for a
forme slot before its row sums have returned (DESIGN CHOICE, log entry 25). -/
def execFormeTileStaged (c : Nat) (s : State) : Host.Outcome State Fault Refusal :=
  s.ifGalley (coreDie c) <|
  match (s.press c).staging with
  | [] => .next s
  | e :: rest =>
    if !e.taken && !s.mayTake c 1 e.wait 0 then .next s
    else
      let s0 := if e.taken then s else s.modCore c fun k => k.take e.wait
      let n := formeSlot e.desc
      if (s0.press c).usesSlot n then .next (s0.modPress c fun p => { p with staging := { e with taken := true } :: rest })
      else
        let q := s0.stageRows c e.desc (bits e.desc 215 208 + 1) 0
        match q.2 with
        | none => .next (q.1.formePoisoned c e rest)
        | some rows =>
          let s1 := q.1.modCore c fun k => k.fell 0x20 (rest.length + 1) rest.length
          let s2 := s1.modPress c fun p =>
            { p.setSlot n ⟨some (tileOf e.desc rows), none, false, some ⟨e.desc, e.ord, rows⟩⟩ with staging := rest }
          if n < 2 then .next ((s2.modPress c fun p => { p with sumsDue := p.sumsDue ++ [(n, e.raise)] }).formeAccept c)
          else .next (s2.raise c e.raise)

/-- FORME_ROW_SUMS: the reducer returns the row sums of the oldest forme of the die that waits for them, where it is this core's, and its token
is raised (R62, R115, R155). -/
def execFormeRowSums (c : Nat) (s : State) : Host.Outcome State Fault Refusal :=
  s.ifGalley (coreDie c) <|
  let p := s.press c
  match p.sumsDue with
  | [] => .next s
  | (n, raise) :: rest =>
    if !s.formeTurn c then .next s else
    let x := p.slot n
    let later := rest.any fun e => e.1 == n
    let x' : Slot := if later then x else { x with sums := x.tile.map Tile.rowSums }
    .next (((s.setPress c { p.setSlot n x' with sumsDue := rest }).formeDrop c fun l => l.erase c).raise c raise)

/-! ### PRESS -/

/-- The QE a set has by the instructions that have retired (R67): that of the last clear on its way, or the set's own. -/
def PressState.progQe (p : PressState) (n : Nat) : Int :=
  let cl := (p.clears.filter fun x => x.set == n).map fun x => (x.ord, x.qe)
  let dr := (p.drains.filter fun x => bits x.desc 183 182 == n && bit x.desc 180 && x.phase != .proving).map fun x =>
    (x.ord, signed 12 (bits x.desc 203 192))
  let st := (p.streams.filter fun x => x.set == n && x.clear && !x.lost).map fun x => (x.ord, x.qe)
  match (cl ++ dr ++ st).foldl (fun a x => match a with
      | none => some x
      | some y => if y.1 < x.1 then some x else some y) (none : Option (Nat × Int)) with
  | some x => x.2
  | none => Tbl.get 0 p.qe n

/-- The format and quantum of the tile that a PRESS names: that of the last FORME to the slot (R63). -/
def PressState.slotInfo (p : PressState) (n : Nat) : Option (Nat × Int) :=
  match (p.staging.filter fun e => formeSlot e.desc == n).getLast? with
  | some e => some (bits e.desc 227 224, ((formeWin e.desc).getD ⟨0, 1⟩).q)
  | none => (p.slot n).tile.map fun t => (t.fmt, t.win.q)

/-- The slots a PRESS names: the forme slot, then by platen the activation slots. -/
def PressOp.slots (o : PressOp) : List Nat := o.f :: (platens o.mask).map fun q => 2 + 2 * q + o.a

/-- The checks of R67, in their order. -/
def PressState.pressCheck (p : PressState) (o : PressOp) : Option Nat :=
  if p.halted then some Code.PRESS_HALTED
  else if o.mask = 0 then some Code.PRESS_BAD_MASK
  else if o.slots.any fun n => (p.slot n).tile.isNone && !(p.slot n).poison && !p.formeQueued n then some Code.PRESS_NO_OPERAND
  else if o.slots.any fun n => (p.slot n).poison then some Code.STAGE_DATA_ERROR
  else
    let fi := (p.slotInfo o.f).getD (0, 0)
    if (platens o.mask).any fun q => pressK ((p.slotInfo (2 + 2 * q + o.a)).getD (0, 0)).1 != pressK fi.1 then
      some Code.PRESS_FORMAT_MISMATCH
    else if (platens o.mask).any fun q => p.progQe q != ((p.slotInfo (2 + 2 * q + o.a)).getD (0, 0)).2 + fi.2 then
      some Code.SCALE_MISMATCH
    else none

/-- Whether a PRESS of the press includes set n and is not complete (R72, R75). -/
def PressState.incomplete (p : PressState) (n : Nat) : Bool :=
  (match p.running with
    | some r => bit r.op.mask n
    | none => false) ||
  (match p.compare with
    | some x => bit x.run.op.mask n
    | none => false)

/-- The first unmet condition of R68: 0 BUSY, 1 STICK, 2 FORME, 3 FORME_SUM, 4 ACT, 5 RAMP. -/
def State.pressUnmet (s : State) (c : Nat) (o : PressOp) : Option Nat :=
  let p := s.press c
  if p.running.isSome then some 0
  else if (platens o.mask).any fun q => p.heldSet q || p.clears.any fun x => x.set == q then some 1
  else if !p.tileIn o.f then some 2
  else if ((platens o.mask).any fun q => Tbl.get false p.ckv q) && (p.slot o.f).sums.isNone then some 3
  else if (platens o.mask).any fun q => !p.tileIn (2 + 2 * q + o.a) then some 4
  else if (s.ramp (coreDie c)).ballast < (platens o.mask).length then some 5
  else none

/-- A PRESS issuing (R69, R70): its sequence number, its operands, and the ramp's slots. -/
def State.pressStart (s : State) (c : Nat) (o : PressOp) : State :=
  let p := s.press c
  let q := (p.seq + 1) % 2 ^ 48
  let run : PressRun := ⟨o, q, p.slot o.f, (platens o.mask).map fun n => (n, p.slot (2 + 2 * n + o.a))⟩
  let s1 := s.setPress c { p with
    running := some run, pending := none, seq := q
    lastSeq := (platens o.mask).foldl (fun m n => Tbl.set 0 m n q) p.lastSeq }
  s1.setRamp (coreDie c) ((s1.ramp (coreDie c)).take (coreNo c) o.mask)

/-- A PRESS at its checks and its issue rule (R67, R68): it traps, issues, or stalls the pilot. -/
def State.pressAct (s : State) (c : Nat) (o : PressOp) : Act :=
  match (s.press c).pressCheck o with
  | some code => .trap (s.modPress c fun p => { p with pending := none }) code 0
  | none => match s.pressUnmet c o with
    | none => .go (s.pressStart c o)
    | some _ => .wait ((s.modPress c fun p => { p with pending := some o }).modCore c fun k => { k with run := .pressStall })

/-- PRESS (R66 to R69). -/
def execPress (c : Nat) (m : Fin 16) (f a : Fin 2) (raise : Fin 64) (s : State) : Host.Outcome State Fault Refusal :=
  .next (s.issue c (.press c m f a raise) fun _ => s.pressAct c ⟨m.val, f.val, a.val, raise.val⟩)

/-- The instruction of a PRESS at core c. -/
def PressOp.instr (o : PressOp) (c : Nat) : Instr := .press c (.ofNat 16 o.mask) (.ofNat 2 o.f) (.ofNat 2 o.a) (.ofNat 64 o.raise)

/-- PRESS_ISSUE: a PRESS at which the pilot is stalled issues once the conditions of R68 hold. -/
def execPressIssue (c : Nat) (s : State) : Host.Outcome State Fault Refusal :=
  match (s.press c).pending with
  | none => .next s
  | some o => if (s.core c).run = .pressStall then .next (s.issueW c .pressStall (o.instr c) fun _ => s.pressAct c o) else .next s

/-- A row of sticks of a set. -/
def PressState.row (p : PressState) (set i : Nat) : List Stick := Tbl.get [] p.sticks (set * 128 + i)

/-- Stick (i, j) of a set. -/
def PressState.stickAt (p : PressState) (set i j : Nat) : Stick := (p.row set i).getD j 0

/-- One row of Y_p += X_p · W (R66): the 128 sticks of a row after a PRESS. -/
def pressRow (K : Nat) (x w : Tile) (i : Nat) (old : List Stick) : List Stick :=
  (List.range 128).map fun j =>
    let r := (List.range K).foldl (fun (a : Int × Nat) k =>
      let q := pressProduct (x.factor i k) (w.factor j k)
      (a.1 + q.1, a.2 ||| q.2)) (0, stUSED)
    stickAdd (old.getD j 0) r.1 r.2

/-- One checksum stick after a PRESS (R66). -/
def pressCheckRow (K : Nat) (x : Tile) (sums : List Int) (i : Nat) (old : Stick) : Stick :=
  stickAdd old ((List.range K).map fun k => (x.factor i k).n * sums.getD k 0).sum stUSED

/-- A PRESS on one platen: its set and, where CKV is 1, its checksum sticks (R66). -/
def PressState.pressSet (p : PressState) (set : Nat) (w x : Slot) : PressState :=
  match w.tile, x.tile with
  | some wt, some xt =>
    let K := pressK wt.fmt
    let p1 := { p with sticks := (List.range 128).foldl (fun m i =>
      Tbl.set [] m (set * 128 + i) (pressRow K xt wt i (p.row set i))) p.sticks }
    if Tbl.get false p.ckv set then
      { p1 with csticks := (List.range 128).foldl (fun m i =>
        Tbl.set 0 m (set * 128 + i) (pressCheckRow K xt (w.sums.getD []) i (Tbl.get 0 p.csticks (set * 128 + i)))) p1.csticks }
    else p1
  | _, _ => p

/-- Changing one stick; column 128 is the checksum stick. -/
def PressState.modStick (p : PressState) (set i j : Nat) (f : Stick → Stick) : PressState :=
  let row := (List.range 128).map fun n => if n = j then f (p.stickAt set i n) else p.stickAt set i n
  if j = 128 then { p with csticks := Tbl.set 0 p.csticks (set * 128 + i) (f (Tbl.get 0 p.csticks (set * 128 + i))) }
  else { p with sticks := Tbl.set [] p.sticks (set * 128 + i) row }

/-- Faults of the hardware in sticks. -/
def PressState.flip (p : PressState) (fs : List StickFlip) : PressState :=
  fs.foldl (fun q x => q.modStick x.set.val x.row.val x.col.val fun st => st ^^^ BitVec.ofNat 128 (2 ^ x.bit.val)) p

/-- The active PLATEN_STUCK injections of a core's platen: index, column and bit (R450). -/
def State.stuck (s : State) (c set : Nat) : List (Nat × Nat × Nat) :=
  let die := coreDie c
  (List.range 16).filterMap fun i =>
    let w0 := s.reg (a_FI_INJ die i 0)
    let w1 := (s.reg (a_FI_INJ die i 1)).toNat
    match Tbl.get none s.injections (die * 16 + i) with
    | some j => if f_FI_INJ_KIND.get w0 = 2 && f_FI_INJ_TARGET.get w0 == coreNo c && bits w1 1 0 == set && !j.used then
        some (i, bits w1 8 2, bits w1 15 9) else none
    | none => none

/-- PLATEN_STUCK acting on a platen's PRESS, once (R450). -/
def State.stick2b (s : State) (c set : Nat) : State :=
  (s.stuck c set).foldl (fun t x =>
    let key := coreDie c * 16 + x.1
    let t1 := t.modPress c fun p => (List.range 128).foldl (fun q i => q.modStick set i x.2.1 fun st =>
      mkStick (stickA st + 2 ^ x.2.2) (stickSt st)) p
    let inj := (Tbl.get none t1.injections key).map fun j => { j with used := true }
    { t1 with injections := Tbl.set none t1.injections key inj }) s

/-- The difference of R78 for a row: (Σ_j S[i][j].A − Cs[i].A) mod 2^120. -/
def PressState.rowDiff (p : PressState) (set i : Nat) : Nat :=
  unsigned 120 (((List.range 128).map fun j => stickA (p.stickAt set i j)).sum - stickA (Tbl.get 0 p.csticks (set * 128 + i)))

/-- The failing rows of a set whose CKV is 1 (R78). -/
def PressState.fails (p : PressState) (set : Nat) : List (Nat × Nat × Nat) :=
  if Tbl.get false p.ckv set then
    (List.range 128).filterMap fun i => if p.rowDiff set i = 0 then none else some (set, i, p.rowDiff set i)
  else []

/-- A tile as the proof core has it (R208 step 2): staged afresh from its source where its FORME retired after the sample was drawn, else
the window integers copied. -/
def Slot.proofTile (x : Slot) (ord : Nat) : Option Tile :=
  match x.src with
  | some f => if ord < f.ord then some (tileOf f.desc f.rows) else x.tile
  | none => x.tile

/-- A PRESS of the proof core into its own set p (R208 step 3), with the row sums of its own copy of the forme (R62, R155). -/
def PressState.proofRun (p : PressState) (set : Nat) (j : Tile × Tile) : PressState :=
  { p.pressSet set ⟨some j.1, some j.1.rowSums, false, none⟩ ⟨some j.2, none, false, none⟩ with
      seq := (p.seq + 1) % 2 ^ 48
      lastSeq := Tbl.set 0 p.lastSeq set ((p.seq + 1) % 2 ^ 48) }

/-- The PRESS of a proof core run and counted in its own window (R86, R208). -/
def State.runProof (s : State) (die set : Nat) (j : Tile × Tile) : State :=
  (s.modPress (proofCore die) fun p => p.proofRun set j).addWrap (a_PRESS_BUSY_CYCLES die 12) f_PRESS_BUSY_CYCLES_COUNT 128

/-- What a PRESS of core c gives the proof of a tile that is not yet drained (R208 steps 2 and 3): where its mask holds the set, the proof
core takes its copies and runs it in its own set. -/
def State.proofPress (s : State) (c : Nat) (r : PressRun) : State :=
  let die := coreDie c
  match (s.chkOf die).tproof with
  | none => s
  | some t =>
    if t.core ≠ c || t.tally.isSome || !bit r.op.mask t.set then s
    else match r.forme.proofTile t.ord, ((r.acts.find? fun x => x.1 == t.set).map Prod.snd).bind fun x => x.proofTile t.ord with
      | some w, some x =>
        (s.setChk die { s.chkOf die with tproof := some { t with jobs := t.jobs ++ [(w, x)] } }).runProof die t.set (w, x)
      | _, _ => s

/-- PRESS_COMPLETE: the 128 cycles of the running PRESS end. Its sets hold the result, the comparator captures the checked ones,
the ramp takes its slots back; without a checked set the PRESS is complete and its token is raised (R66, R69, R78). It waits for
a comparison that has not ended. -/
def execPressComplete (c : Nat) (flips : List StickFlip) (s : State) : Host.Outcome State Fault Refusal :=
  s.ifClock (coreDie c) <|
  let p := s.press c
  match p.running with
  | none => .next s
  | some r =>
    if p.compare.isSome then .next s
    else
      let p1 := r.acts.foldl (fun q x => q.pressSet x.1 r.forme x.2) p
      let s1 := (platens r.op.mask).foldl (fun t n => t.stick2b c n) ((s.setPress c p1).proofPress c r)
      let p2 := (s1.press c).flip flips
      let s2 := s1.addWrap (a_PRESS_BUSY_CYCLES (coreDie c) (coreNo c)) f_PRESS_BUSY_CYCLES_COUNT 128
      let s3 := s2.setRamp (coreDie c) ((s2.ramp (coreDie c)).give (coreNo c) r.op.mask (s.tideOf (coreDie c)))
      if (platens r.op.mask).any fun n => Tbl.get false p2.ckv n then
        .next (s3.setPress c { p2 with running := none, compare := some ⟨r, (platens r.op.mask).flatMap p2.fails⟩ })
      else .next ((s3.setPress c { p2 with running := none }).raise c r.op.raise)

/-! ### Halting -/

/-- A FORME or drain whose work has not begun is discarded (R80 step 1); a stream whose read has not ended ends with an error
(R356). -/
def PressState.discard (p : PressState) : PressState :=
  { p with streams := p.streams.map fun x => { x with lost := true }, staging := [], drains := p.drains.filter fun d => d.phase == .held || d.phase == .proving }

/-- The press halting (R80 step 1): nothing queued begins, no PRESS that has not completed raises its token, event PRESS_HALT
fires, and its tile's proof is given up (R212). -/
def State.pressHalt (s : State) (c : Nat) : State :=
  let p := s.press c
  let quiet (r : PressRun) : PressRun := { r with op := { r.op with raise := 0 } }
  let p' := { p.discard with
    halted := true
    running := p.running.map quiet
    compare := p.compare.map fun x => { x with run := quiet x.run } }
  let s1 := s.pressQueues c fun _ => p'
  let s2 := if p.halted then s1 else s1.fire c 5
  match (s2.chkOf (coreDie c)).tproof with
  | some t => if t.core = c then s2.abandonTile (coreDie c) else s2
  | none => s2

/-- The unit of a failed check (R214, R218): platens or the forme path of a core; a platen of the proof core, which is a unit of its own kind and
names one platen, the lowest failing one (DESIGN CHOICE, log entry 27). -/
def failedUnit (n mask p0 : Nat) (shared : Bool) : Nat × Nat :=
  if n = 12 then (4, if shared then 0xF else p0) else if shared then (1, 0xF) else (0, mask)

/-- A failed comparison or drain check (R80): capture unless CK_LOC.VALID is 1, count, halt, and the record to the CHK block. The record holds
this failure's fields also where the CK registers keep an older one (DESIGN CHOICE, log entry 25). -/
def State.pressFail (s : State) (c part kind seq mask p0 row nrows diff : Nat) (shared : Bool) : State :=
  let die := coreDie c
  let n := coreNo c
  let loc := a_CK_LOC die n
  let s1 := if s.fld loc f_CK_LOC_VALID = 1 then s else
    (((s.setFlds loc [(f_CK_LOC_VALID, 1), (f_CK_LOC_NROWS, nrows), (f_CK_LOC_SHARED, b2n shared), (f_CK_LOC_KIND, kind),
        (f_CK_LOC_PLATENS, mask), (f_CK_LOC_PLATEN, p0), (f_CK_LOC_ROW, row)]).setFld
      (a_CK_FAULT_SEQ die n) f_CK_FAULT_SEQ_SEQ seq).setFld
      (a_CK_DIFF_LO die n) f_CK_DIFF_LO_DIFF (diff % 2 ^ 64)).setFld
      (a_CK_DIFF_HI die n) f_CK_DIFF_HI_DIFF (diff / 2 ^ 64)
  let s2 := (s1.bump (a_CK_COUNT die n) f_CK_COUNT_COUNT).pressHalt c
  let u := failedUnit n mask p0 shared
  s2.detect ⟨die, s.tideOf die, Code.PRESS_CHECKSUM, kind, u.1, die, n, u.2, part, seq, diff % 2 ^ 64,
    row * 2 ^ 56 + diff / 2 ^ 64, shared, false⟩

/-- CHECKSUM_COMPARISON: eight cycles after a PRESS its comparison ends: it passes and the PRESS is complete, or the press halts
(R69, R78, R80, R81). -/
def execChecksumComparison (c : Nat) (s : State) : Host.Outcome State Fault Refusal :=
  s.ifClock (coreDie c) <|
  match (s.press c).compare with
  | none => .next s
  | some x =>
    let s1 := s.modPress c fun p => { p with compare := none }
    match x.fails with
    | [] => .next (s1.raise c x.run.op.raise)
    | (p0, row, diff) :: _ =>
      let bad := (platens x.run.op.mask).filter fun n => x.fails.any fun f => f.1 == n
      let shared := decide (bad.length = (platens x.run.op.mask).length) && decide (2 ≤ bad.length)
      .next (s1.pressFail c (s.partOf c) 0 x.run.seq ((bad.map fun n => 2 ^ n).sum) p0 row x.fails.length diff shared)

/-! ### Clearing and draining -/

/-- Every stick and checksum stick of a set zero, with its QE and CKV (R72), and the clear told to proofing (R206). -/
def State.clearSet (s : State) (c set : Nat) (qe : Int) : State :=
  (s.modPress c fun p => p.clear set qe (decide (1 ≤ s.levelOf c))).sampleClear c set qe

/-- Whether a drain, stream or clear that the core issued before `ord` still waits for or holds set n (R72, R77). -/
def PressState.before (p : PressState) (set ord : Nat) : Bool :=
  p.drains.any (fun d => bits d.desc 183 182 == set && decide (d.ord < ord) && d.phase != .proving)
    || p.streams.any (fun d => d.set == set && !d.lost && decide (d.ord < ord))
    || p.clears.any fun d => d.set == set && decide (d.ord < ord)

/-- Whether a STICKCLR's set is free for it (R72): its instruction clears its sets in ascending order. -/
def PressState.clearReady (p : PressState) (x : ClearEnt) : Bool :=
  !p.before x.set x.ord && !p.incomplete x.set && !p.clears.any fun y => y.ord == x.ord && decide (y.set < x.set)

/-- STICKCLR_EXECUTE: the first set that a STICKCLR may clear is cleared (R72). -/
def execStickclrExecute (c : Nat) (s : State) : Host.Outcome State Fault Refusal :=
  s.ifClock (coreDie c) <|
  let p := s.press c
  match p.clears.find? p.clearReady with
  | none => .next s
  | some x => .next ((s.setPress c { p with clears := p.clears.erase x }).clearSet c x.set x.qe)

/-- DRAIN_HOLD: the next drain takes its WAIT, and once its set is its own and every earlier PRESS into it is complete it holds
it (R75, R77). -/
def execDrainHold (c : Nat) (s : State) : Host.Outcome State Fault Refusal :=
  s.ifClock (coreDie c) <|
  let p := s.press c
  match p.drains.find? fun d => d.phase != .proving with
  | none => .next s
  | some d =>
    if d.phase = .held || (d.phase == .queued && !s.mayTake c 2 d.wait 0) then .next s
    else
      let s1 := if d.phase = .queued then s.modCore c fun k => k.take d.wait else s
      let set := bits d.desc 183 182
      let ph : DrainPhase := if p.before set d.ord || p.incomplete set then .taken else .held
      .next (s1.setPress c { p with drains := p.drains.map fun e => if e = d then { e with phase := ph } else e })

/-- The output format of a drain (R56). -/
def drainFmt (fmt : Nat) : OutFmt :=
  match fmt with
  | 1 => .fl .e2m1
  | 2 => .fl .e4m3
  | 3 => .fl .e5m2
  | 4 => .fl .e4m3
  | 5 => .fl .e5m2
  | 6 => .i8
  | 7 => .fl .bf16
  | _ => .fl .b32

/-- Whether the element written for a value does not hold what R33 gives it (R76). -/
def replaced (o : OutFmt) (v : ElemVal) : Bool :=
  match v with
  | .nan _ => decide (o = .i8) || decide (o = .i32)
  | .inf _ => decide (o = .i8) || decide (o = .i32) || decide (o = .fl .e4m3) || decide (o = .fl .e2m1)
  | .fin .. => (o.conv v).fl &&& flOF != 0 || (o.conv v).fl &&& flNV != 0

/-- Elements as bytes, lower ones first; two E2M1 elements a byte. -/
def packElems (o : OutFmt) (l : List Nat) : List Byte :=
  match o with
  | .fl .e2m1 => (List.range (l.length / 2)).map fun i => BitVec.ofNat 8 (l.getD (2 * i) 0 + 16 * l.getD (2 * i + 1) 0)
  | .fl .b32 => l.flatMap fun b => bytesLE 4 b
  | .i32 => l.flatMap fun b => bytesLE 4 b
  | .fl .bf16 => l.flatMap fun b => bytesLE 2 b
  | _ => l.map fun b => BitVec.ofNat 8 b

/-- An MX output block of 32 values: its elements, scale byte and how many were replaced (R35, R76). -/
def mxOut (f : Fmt) (vs : List ElemVal) : List Nat × Nat × Nat :=
  let r := mxBlock f vs
  let n := if r.1 = 0xFF then (vs.filter fun v => !v.isNan).length
    else (vs.filter fun v => replaced (.fl f) (v.scale (127 - (r.1 : Int)))).length
  (r.2, r.1, n)

/-- What a drain writes for a row: the row's bytes, its scale bytes, and the sticks replaced (R74, R75, R76). -/
def drainRow (d : Nat) (qe : Int) (row : List Stick) : List Byte × List Byte × Nat :=
  if bit d 181 then (row.flatMap fun st => bytesLE 16 st.toNat, [], 0)
  else
    let fmt := bits d 179 176
    let o := drainFmt fmt
    let vs := row.map fun st => (stickNum qe st).scale (-(descT 128 d))
    if isMx fmt then
      let f : Fmt := if fmt = 1 then .e2m1 else if fmt = 2 then .e4m3 else .e5m2
      let bs := (pieces 32 4 vs).map (mxOut f)
      (packElems o (bs.flatMap Prod.fst), bs.map (fun b => BitVec.ofNat 8 b.2.1), (bs.map fun b => b.2.2).sum)
    else (packElems o (vs.map fun v => (o.conv v).bits), [], (vs.filter (replaced o)).length)

/-- How the rows of a drain end early: the drain check fails at a row with a difference (R79), or a read of the galley meets an uncorrectable
word (R137). -/
inductive DrainStop where
  | check (row diff : Nat)
  | data

/-- What a drain has met so far (R76), with the bytes it wrote (R208). -/
structure DrainSum where
  below : Nat
  range : Nat
  sat : Nat
  st : Nat
  out : List Byte
  scales : List Byte

/-- The poisoned words that a galley write of `n` bytes at `a` would have to read, since it writes them in part (R137). -/
def State.partHard (s : State) (a n : Nat) : List Nat := (partWords a n).filter fun w => s.markAt w == 2

/-- Draining the rows from `i` on, `n` of them: the state, the sums, and what ended it early (R75, R79, R80). A drain reads the galley only
where it writes a word in part, and stops there with nothing of the row written when the word is poisoned (R137). A raw drain counts
its BELOW and RANGE like any other; the count of sticks replaced stays 0, as "A raw drain counts nothing" is said of that count (DESIGN
CHOICE, log entry 25). -/
def State.drainRows (s : State) (c d set : Nat) : Nat → Nat → DrainSum → State × DrainSum × Option DrainStop
  | 0, _, a => (s, a, none)
  | n + 1, i, a =>
    let p := s.press c
    let row := (List.range 128).map fun j => p.stickAt set i j
    let r := drainRow d (Tbl.get 0 p.qe set) row
    let at1 := bits d 47 0 + 64 * bits d 159 144 * i
    let at2 := bits d 111 64 + bits d 175 160 * i
    let hard := s.partHard at1 r.1.length ++ if r.2.1.isEmpty then [] else s.partHard at2 r.2.1.length
    if Tbl.get false p.ckv set && p.rowDiff set i != 0 then (s, a, some (.check i (p.rowDiff set i)))
    else if !hard.isEmpty then (hard.foldl (fun t w => t.galleyUncorr (coreDie c) (coreNo c) 2 w) s, a, some .data)
    else
      let s1 := s.galleyWrite (coreDie c) (coreNo c) 2 at1 r.1
      let s2 := s1.galleyWrite (coreDie c) (coreNo c) 2 at2 r.2.1
      let s3 := if bit d 180 then s2.modPress c fun q =>
          { q with sticks := Tbl.set [] q.sticks (set * 128 + i) [], csticks := Tbl.set 0 q.csticks (set * 128 + i) 0 }
        else s2
      s3.drainRows c d set n (i + 1)
        ⟨a.below + (row.filter fun st => stickSt st &&& stBELOW != 0).length,
         a.range + (row.filter fun st => stickSt st &&& stRANGE != 0).length, a.sat + r.2.2,
         row.foldl (fun x st => x ||| stickSt st) a.st, a.out ++ r.1, a.scales ++ r.2.1⟩

/-- PRESS_RD_STATUS after a drain (R76). -/
def State.drainStatus (s : State) (c : Nat) (a : DrainSum) : State :=
  let r := a_PRESS_RD_STATUS (coreDie c) (coreNo c)
  s.setFlds r [(f_PRESS_RD_STATUS_BELOW_COUNT, a.below), (f_PRESS_RD_STATUS_RANGE_COUNT, a.range),
    (f_PRESS_RD_STATUS_SAT_COUNT, a.sat), (f_PRESS_RD_STATUS_STATUS_OR, s.fld r f_PRESS_RD_STATUS_STATUS_OR ||| a.st)]

/-- A drain that has left the queue (R99). -/
def State.drainLeft (s : State) (c : Nat) (ds : List DrainEnt) : State := s.pressQueues c fun p => { p with drains := ds }

/-- A drain ended with an error completion (R137, R211): it leaves the queue and raises nothing. -/
def State.drainFailed (s : State) (c : Nat) (d : DrainEnt) (code : Nat) : State :=
  (s.drainLeft c ((s.press c).drains.erase d)).modPress c fun p => { p with descErrs := p.descErrs ++ [(d.desc, code)] }

/-- Whether the tile of set p of core c is being proved and has not been drained or streamed yet (R208, R209). -/
def State.provesNext (s : State) (c p : Nat) : Bool :=
  s.proving c p && match (s.chkOf (coreDie c)).tproof with
    | some t => t.tally.isNone
    | none => false

/-- What the drain or stream of a tile that is being proved gives its proof (R208 step 4): the tally of its output bytes, and the
descriptor. -/
def State.proofDrained (s : State) (c set desc : Nat) (stream : Bool) (out : List Byte) : State :=
  let die := coreDie c
  let tally := (bytesTally (s.reg (a_CHK_KEY die (s.clusterOf c))) out).toNat
  s.setChk die { s.chkOf die with tproof := (s.chkOf die).tproof.map fun x =>
    { x with tally := some tally, stream := stream, desc := desc, seq := Tbl.get 0 (s.press c).lastSeq set } }

/-- The drain of core c that holds its set writes it out and releases it (R75, R76, R79). A drain check that fails halts the press and ends
the drain at that row; a poisoned word that it would read ends it with an error completion (R137); neither of the two reports the rows it
had read in PRESS_RD_STATUS (DESIGN CHOICE, log entry 25). A set sampled for proof keeps its entry until its proof passes (R209). -/
def State.drainOut (s : State) (c : Nat) (flips : List StickFlip) : State :=
  match (s.press c).drains.find? fun d => d.phase == .held with
  | none => s
  | some d =>
    let set := bits d.desc 183 182
    let q := (s.modPress c fun p => p.flip flips).drainRows c d.desc set 128 0 ⟨0, 0, 0, 0, [], []⟩
    let t := q.1
    match q.2.2 with
    | some .data => t.drainFailed c d Code.GALLEY_DATA_ERROR
    | some (.check row diff) =>
      (t.drainLeft c ((t.press c).drains.erase d)).pressFail c (t.partOf c) 1 (Tbl.get 0 (t.press c).lastSeq set) (2 ^ set)
        set row 1 diff false
    | none =>
      let t1 := t.drainStatus c q.2.1
      let done (u : State) : State := if bit d.desc 180 then u.clearSet c set (signed 12 (bits d.desc 203 192)) else u
      if t1.provesNext c set then
        done ((t1.proofDrained c set d.desc false (q.2.1.out ++ q.2.1.scales)).modPress c fun p =>
          { p with drains := p.drains.map fun e => if e = d then { e with phase := .proving } else e })
      else done ((t1.drainLeft c ((t1.press c).drains.erase d)).raise c d.raise)

/-- DRAIN_RELEASE: the drain that holds its set writes it out and releases it (R75, R76, R79, R209). -/
def execDrainRelease (c : Nat) (flips : List StickFlip) (s : State) : Host.Outcome State Fault Refusal :=
  s.ifGalley (coreDie c) <| .next (s.drainOut c flips)

/-- RESUME (R83), in one step. What the rule does not say of it (DESIGN CHOICE, log entry 25): a STICKCLR that has retired and waits for its
set stays and clears it later; a PRESS that still runs ends as it began, and adds its whole product to the zeroed sets under their new CKV. -/
def State.pressResume (s : State) (c : Nat) : State :=
  (s.formeDrop c fun l => l.filter fun n => n != c).pressQueues c fun p =>
    { p with
      halted := false
      sticks := []
      csticks := []
      ckv := (List.range 4).foldl (fun m n => Tbl.set false m n (decide (1 ≤ s.levelOf c))) p.ckv
      slots := []
      sumsDue := []
      staging := []
      drains := []
      streams := p.streams.map fun x => { x with lost := true } }

/-- What the command of the same row does. -/
def State.doPressHalt (t : State) (c : Nat) : State := t.pressHalt c

/-- PRESS_HALT: PRESS_CTL.HALT, without capture or record (R80, R86). -/
def execPressHalt (src : Source) (c : Nat) (s : State) : Host.Outcome State Fault Refusal :=
  .next (s.command src (cmdPressHalt c) fun t => t.doPressHalt c)

/-- What the command of the same row does. -/
def State.doPressResume (t : State) (c : Nat) : State := t.pressResume c

/-- PRESS_RESUME: PRESS_CTL.RESUME (R83, R86). -/
def execPressResume (src : Source) (c : Nat) (s : State) : Host.Outcome State Fault Refusal :=
  .next (s.command src (cmdPressResume c) fun t => t.doPressResume c)

end Sys2Proof.Machine
end

