-- ==== Sys2Proof/Machine/Queue.lean ====
section
/-! DEFINITION. Queues and tokens (03_core_and_instruction_set.md R116 to R124), and what starts, halts and resets a pilot
(R88, R131), with the stand-in of the proof core (R129). -/

namespace Sys2Proof.Machine
open Sys2Proof

/-- A STREAM names its stick set from the retire of its ENQ (R67, R68, R355). -/
def PressState.addStream (p : PressState) (queue d : Nat) : PressState :=
  { p with
    streams := p.streams ++ [⟨queue, p.ord, bits d 591 590, bit d 589, signed 12 (bits d 399 388), false, p.halted⟩]
    ord := p.ord + 1 }

/-- The checks of R119 after its fence, in their order: the code and what TVAL holds. -/
def CoreState.enqCheck (k : CoreState) (q a : Nat) (bad : Bool) (d : Nat) : Option (Nat × Nat) :=
  if !isQueue q || decide (0x20 ≤ q) || k.cap q == 0 then some (Code.BAD_QUEUE, q)
  else if a % 16 ≠ 0 then some (Code.MISALIGNED, a)
  else if decide (0x4_0000 < a + 16) || hdReserved d || hdLen d == 0 || decide (16 < hdLen d)
      || decide (0x4_0000 < a + 16 * hdLen d) then some (Code.BAD_DESCRIPTOR, a)
  else if bad then some (Code.PILOT_MEM_ERROR, a)
  else if k.cap q ≤ (k.queue q).length then some (Code.QUEUE_FULL, q)
  else none

/-- How many bytes of private memory ENQ reads (R119): none before the checks of queue id and address pass, the header where it says that
it is no descriptor, else the descriptor. -/
def CoreState.enqReach (k : CoreState) (q a d : Nat) : Nat :=
  if !isQueue q || decide (0x20 ≤ q) || k.cap q == 0 || a % 16 != 0 || decide (0x4_0000 < a + 16) then 0
  else if hdReserved d || hdLen d == 0 || decide (16 < hdLen d) || decide (0x4_0000 < a + 16 * hdLen d) then 16
  else 16 * hdLen d

/-- ENQ (R119). What its read of the descriptor corrects and counts stands also where it traps (R92). -/
def execEnq (c : Nat) (queue : BitVec 8) (ra : Fin 32) (s : State) : Host.Outcome State Fault Refusal :=
  .next (s.issue c (.enq c queue ra) fun k =>
    let q := queue.toNat
    let a := (k.rg ra).toNat
    if !k.stores.isEmpty then .wait s
    else
      let hd := natLE (k.pbytes a 16)
      let n := 16 * hdLen hd
      let bad := !(k.pmarked a n 2).isEmpty
      let reach := k.enqReach q a hd
      let t := if reach = 0 then s else (s.ownRead c a reach).1
      match k.enqCheck q a bad hd with
      | some (code, v) => .trap t code (BitVec.ofNat 64 v)
      | none =>
        let d : Desc := ⟨k.pbytes a n⟩
        let t1 := t.modCore c fun k' => { k' with queues := Tbl.set [] k'.queues q (k'.queue q ++ [d]) }
        .go (if q < 4 && isStream d.num then t1.modPress c fun p => p.addStream q d.num else t1))

/-- A token instruction: a TOKEN of 0 is illegal (R116). -/
def State.tokenOp (s : State) (c : Nat) (w : RunState) (tk : Fin 64) (i : Instr) (f : CoreState → Act) : State :=
  s.issueW c w i fun k =>
    if tk.val = 0 then .trap s Code.ILLEGAL_INSTRUCTION (BitVec.ofNat 64 (pilotWord i)) else f k

/-- TKWAIT (R116). -/
def execTkwait (c : Nat) (tk : Fin 64) (s : State) : Host.Outcome State Fault Refusal :=
  .next (s.tokenOp c .tkwait tk (.tkwait c tk) fun k =>
    if k.token tk.val = 0 then .wait (s.setCore c { k with run := .tkwait, waitTk := some tk.val })
    else .go (s.setCore c (k.take tk.val)))

/-- TKTRY (R116). -/
def execTktry (c : Nat) (rd : Fin 32) (tk : Fin 64) (s : State) : Host.Outcome State Fault Refusal :=
  .next (s.tokenOp c .running tk (.tktry c rd tk) fun k =>
    .go (s.setCore c (if k.token tk.val = 0 then k.setRg rd 0 else (k.take tk.val).setRg rd 1)))

/-- TKREAD (R116). -/
def execTkread (c : Nat) (rd : Fin 32) (tk : Fin 64) (s : State) : Host.Outcome State Fault Refusal :=
  .next (s.tokenOp c .running tk (.tkread c rd tk) fun k =>
    .go (s.setCore c (k.setRg rd (BitVec.ofNat 64 (k.token tk.val)))))

/-- TKRAISE (R116): at 65,535 it traps and changes nothing. -/
def execTkraise (c : Nat) (tk : Fin 64) (s : State) : Host.Outcome State Fault Refusal :=
  .next (s.tokenOp c .running tk (.tkraise c tk) fun k =>
    if 65535 ≤ k.token tk.val then .trap s Code.TOKEN_OVERFLOW (BitVec.ofNat 64 tk.val)
    else .go (s.setCore c (k.setToken tk.val (k.token tk.val + 1))))

/-- TKSET (R116). -/
def execTkset (c : Nat) (tk : Fin 64) (ra : Fin 32) (s : State) : Host.Outcome State Fault Refusal :=
  .next (s.tokenOp c .running tk (.tkset c tk ra) fun k =>
    .go (s.setCore c (k.setToken tk.val ((k.rg ra).toNat % 65536))))

/-! ### Starting, halting and resetting a pilot -/

/-- RUN (R131): a halted core continues from PILOT_PC; it has no effect in DOUBLE_TRAP or RETIRED. -/
def CoreState.runOn (k : CoreState) : CoreState :=
  { k with run := if k.run = .halted then .running else k.run, halting := false }

/-- HALT (R131): the core stops once its current instruction has retired. -/
def CoreState.halt (k : CoreState) : CoreState :=
  match k.run with
  | .running => if k.loadBlocks then { k with halting := true } else { k with run := .halted }
  | .tkwait => { k with halting := true }
  | .waitev => { k with halting := true }
  | .pressStall => { k with halting := true }
  | _ => k

/-- The core words of a core reset (R88): private memory, the queue layout, PILOT_LASTTRAP and what the core stands in for stay,
stores already retired are still to become visible; a retired core stays retired (R129). -/
def CoreState.coreReset (k : CoreState) (entry : Word) : CoreState :=
  { CoreState.init with
    pc := entry
    run := if k.run = .retired then .retired else .halted
    pmem := k.pmem
    pmarks := k.pmarks
    qcap := k.qcap
    stores := k.stores
    icache := k.icache
    lasttrap := k.lasttrap
    standin := k.standin }

/-- Every buffered store of a core made visible, oldest first. -/
def State.storesOut (s : State) (c : Nat) : State := (s.core c).stores.foldl (fun t _ => t.storeOut c) s

/-- The queue ids of R117 that ENQ fills. -/
def enqQueues : List Nat := [0, 1, 2, 3, 0x10, 0x11, 0x12, 0x13, 0x14, 0x15, 0x16, 0x17, 0x18]

/-- Every queued descriptor of a core discarded and reported with QUEUE_FLUSHED (R124, R145). -/
def State.flushQueues (s : State) (c : Nat) : State :=
  let report (t : State) (q : Nat) (d : Desc) : State :=
    if q < 4 then t.lighterError c q d.num Code.QUEUE_FLUSHED 0 0 else t.engineError c (q - 0x10) d.num Code.QUEUE_FLUSHED 0 0
  let s1 := enqQueues.foldl (fun t q => ((t.core c).queue q).foldl (fun u d => report u q d) t) (s.flushEngines c)
  s1.modCore c fun k => { enqQueues.foldl (fun x q => x.fell q (k.queue q).length 0) k with queues := [] }

/-- Started lighter descriptors of a core run on, and raise nothing (R124). -/
def LighterState.quiet (l : LighterState) : LighterState :=
  { l with reqs := l.reqs.map fun e => (e.1, e.2.map fun r => { r with quiet := true }) }

/-- The requests of a core that has been replaced (R129): their responses are of no effect, their ids stay taken. -/
def LighterState.ghosts (l : LighterState) : LighterState :=
  { l with reqs := l.reqs.map fun e => (e.1, e.2.map fun r => { r with ghost := true }) }

/-- A press whose core is reset or replaced (R124): its queues are emptied and their descriptors reported, what has begun runs to its end
and raises nothing, no stream reads a set any more. -/
def PressState.flush (p : PressState) : PressState :=
  let quiet (r : PressRun) : PressRun := { r with op := { r.op with raise := 0 } }
  let gone := p.staging.map FormeEnt.desc ++ (p.drains.filter fun d => d.phase != .held).map DrainEnt.desc
  { p with
    staging := []
    sumsDue := p.sumsDue.map fun e => (e.1, 0)
    drains := (p.drains.filter fun d => d.phase == .held).map fun d => { d with raise := 0 }
    descErrs := p.descErrs ++ gone.map fun d => (d, Code.QUEUE_FLUSHED)
    streams := p.streams.map fun x => { x with lost := true }
    pending := none
    running := p.running.map quiet
    compare := p.compare.map fun x => { x with run := quiet x.run } }

/-- The press at a core reset (R131): a drain that holds its set writes its results first (R124); then the state of R83, the sequence restarted
(R70), nothing waiting and nothing raised. -/
def State.pressReset (s : State) (c : Nat) : State :=
  (((s.modPress c PressState.flush).drainOut c []).pressResume c).modPress c fun p =>
    { p with
      clears := []
      streams := []
      seq := 0
      clearCount := 0 }

/-- A core reset (R88, R124, R131). -/
def State.coreReset (s : State) (c : Nat) : State :=
  let die := coreDie c
  let n := coreNo c
  let s1 := (s.flushQueues c).abandonCore c
  let s2 := if (s1.core c).run = .retired then s1 else s1.setLighter (s1.logical c) (s1.lighter (s1.logical c)).quiet
  let s3 := (s2.pressReset c).setFld (a_VEC_STATUS die n) f_VEC_STATUS_STOPPED 0
  let s4 := s3.setReg (a_VEC_ISSUED die n) 0
  (s4.freeContexts die n).modCore c fun k => k.coreReset (s4.reg (a_PILOT_ENTRY die n))

/-- What the command of the same row does; the first after an imposition is step 12 of start-up (18_start_up.md R532). -/
def State.doPilotRun (t : State) (c : Nat) : State :=
  (if t.fld a_MGMT_BOOT f_MGMT_BOOT_STEP = 0x0B then t.toStep 0x0C else t).modCore c fun k => k.runOn

/-- PILOT_RUN (R131). -/
def execPilotRun (src : Source) (c : Nat) (s : State) : Host.Outcome State Fault Refusal :=
  .next (s.command src (cmdPilotRun c) fun t => t.doPilotRun c)

/-- What the command of the same row does. -/
def State.doPilotHalt (t : State) (c : Nat) : State := t.modCore c fun k => k.halt

/-- PILOT_HALT (R131). -/
def execPilotHalt (src : Source) (c : Nat) (s : State) : Host.Outcome State Fault Refusal :=
  .next (s.command src (cmdPilotHalt c) fun t => t.doPilotHalt c)

/-- What the command of the same row does. -/
def State.doPilotReset (t : State) (c : Nat) : State := t.coreReset c

/-- PILOT_RESET (R88, R124, R131). -/
def execPilotReset (src : Source) (c : Nat) (s : State) : Host.Outcome State Fault Refusal :=
  .next (s.command src (cmdPilotReset c) fun t => t.doPilotReset c)

/-- A write of PILOT_MAILBOX: its value, and event MGMT (R99, R131). -/
def State.mailbox (s : State) (c : Nat) (v : Word) : State :=
  (s.setReg (a_PILOT_MAILBOX (coreDie c) (coreNo c)) v).fire c 10

/-- What the command of the same row does. -/
def State.doPilotMailboxWrite (t : State) (c : Nat) (value : Word) : State := t.mailbox c value

/-- PILOT_MAILBOX_WRITE (R131). -/
def execPilotMailboxWrite (src : Source) (c : Nat) (value : Word) (s : State) : Host.Outcome State Fault Refusal :=
  .next (s.command src (cmdMailbox c value) fun t => t.doPilotMailboxWrite c value)

/-! ### The stand-in -/

/-- Whether a core's private memory below WUSAVE holds an uncorrectable error (R129, R431). -/
def CoreState.saveBad (k : CoreState) : Bool := k.pmarks.any fun e => e.2 == 2 && decide (e.1 < k.wusave.toNat)

/-- The partitions with a cluster on a die. -/
def State.diePartitions (s : State) (die : Nat) : List Nat :=
  (((List.range 2).filter fun k => s.fld (a_GALLEY_WIN die k) f_GALLEY_WIN_SIZE ≠ 0).map fun k =>
    s.fld (a_GALLEY_WIN die k) f_GALLEY_WIN_PART).eraseDups

/-- A core's words as the proof core takes them over (R129): private memory below WUSAVE, the recorded registers and tokens,
the entry of the work unit; or, with no work unit, the state of a core reset (R88), started at the entry that core took after it. -/
def CoreState.takeOver (p k : CoreState) (c : Nat) (entry : Word) : CoreState :=
  let save := k.wusave.toNat
  let mem := (p.pmem.filter fun e => !decide (e.1 < save)).foldl (fun m e => Tbl.insert m e.1 e.2)
    (k.pmem.filter fun e => decide (e.1 < save))
  let marks := (p.pmarks.filter fun e => !decide (e.1 < save)).foldl (fun m e => Tbl.insert m e.1 e.2)
    (k.pmarks.filter fun e => decide (e.1 < save))
  let base := { p with standin := some c, pmem := mem, pmarks := marks, qcap := k.qcap, tokens := [], loads := [], fetched := [],
                       run := .running, halting := false, waitTk := none, wusave := k.wusave, wu := k.wu }
  match k.wu with
  | none => { base.coreReset entry with run := .running }
  | some w =>
    let g := (List.range 7).foldl (fun (m : Tbl Word) i => Tbl.set 0 m (i + 1) (w.regs.getD i 0)) base.g
    { base with pc := w.entry, prog := true, g := g, tokens := w.tokens, vct := w.vct }

/-- The completion counters of a core taken over by another (R129). -/
def State.copyCounters (s : State) (die src dst : Nat) : State :=
  (List.range 32).foldl (fun t n =>
    (t.setReg (a_LTR_CC die dst n) (t.reg (a_LTR_CC die src n))).setReg (a_LTR_CCCFG die dst n) (t.reg (a_LTR_CCCFG die src n))) s

/-- The stand-in beginning for core c (R129, R130, R213, R430). `fi` is one that FI_RETIRE asked for. Where c has no work unit recorded, N of
R130 is 0 and everything is sent again (DESIGN CHOICE, log entry 27). -/
def State.standIn (s : State) (c : Nat) (fi : Bool) : State :=
  let die := coreDie c
  let n := coreNo c
  let p := 13 * die + 12
  let k := s.core c
  let wuid := match k.wu with
    | some w => w.id
    | none => 0
  let s1 := (((s.storesOut c).storesOut p).flushQueues c).flushQueues p
  let s2 := (((s1.abandonTile die).abandonVectors die fun _ => true).pressQueues c PressState.flush).pressQueues p PressState.flush
  let s3 := ((s2.setLighter c (s2.lighter c).ghosts).copyCounters die n 12).moveContexts die n 12
  let left := if k.wu.isSome then s3.fld (a_LTR_STATUS die n) f_LTR_STATUS_WUISSUED else 0
  let s4 := s3.setFld (a_LTR_SUPPRESS die 12) f_LTR_SUPPRESS_LEFT left
  let s4 := if k.wu.isNone then s4.pressReset p else s4
  let s5 := s4.setCore p ((s4.core p).takeOver (s4.core c) c (s4.reg (a_PILOT_ENTRY die n)))
  let s6 := s5.modCore c fun x => { x with run := .retired, tokens := [], loads := [], halting := false }
  let s7 := s6.report Code.PROOF_SUSPENDED die 31 [c]
  s7.report (if fi then Code.CORE_RETIRED else Code.STANDIN_BEGUN) die (s7.partOf c) [c, wuid]

/-- STAND_IN: the proof core of a die stands in for a core for which a stand-in was asked, or, where it cannot, a teardown of
every partition on the die is asked for (R129, R430, R431). A core already retired is left as it is. A fault of the proof core while it stands
in is a second one on the die (R429). -/
def execStandIn (core : Nat) (s : State) : Host.Outcome State Fault Refusal :=
  match s.standAsks.find? fun a => a.1 == core with
  | none => .next s
  | some a =>
    let s1 := { s with standAsks := s.standAsks.erase a }
    let die := coreDie core
    if (s1.core core).run = .retired || (coreNo core == 12 && !s1.standingIn die) then .next s1
    else if s1.proofOff die || (s1.core core).saveBad then
      let code := if s1.proofOff die then Code.STANDIN_UNAVAILABLE else Code.PILOT_MEM_ERROR
      .next ((s1.diePartitions die).foldl (fun t p => t.askTeardown p code) s1)
    else .next (s1.standIn core a.2)

end Sys2Proof.Machine
end

