-- ==== Sys2Proof/Machine/Lighter.lean ====
section
/-! DEFINITION. The lighters (10_tideway_fabric.md R337 to R344): how a descriptor starts, what it sends, and how it completes. -/

namespace Sys2Proof.Machine
open Sys2Proof

/-! ### Starting -/

/-- LEN of each lighter operation (R338); none where the OP is not defined. -/
def lighterLen (op : Nat) : Option Nat :=
  match op with
  | 0x01 => some 3
  | 0x02 => some 3
  | 0x03 => some 4
  | 0x10 => some 5
  | 0x11 => some 5
  | 0x18 => some 3
  | 0x20 => some 2
  | 0x22 => some 2
  | 0x28 => some 5
  | 0x30 => some 2
  | 0x31 => some 2
  | 0x38 => some 3
  | _ => none

/-- The lowest free request id (R337). -/
def State.freeRid (s : State) (c : Nat) : Option Nat := (List.range 256).find? fun r => (s.request c r).isNone

/-- The delay that an active COLL_DELAY injection puts on a queue (R450). -/
def State.collDelay (s : State) (c q : Nat) : Option Nat :=
  let die := coreDie c
  (List.range 16).findSome? fun i =>
    if (Tbl.get none s.injections (die * 16 + i)).isSome && s.fld (a_FI_INJ die i 0) f_FI_INJ_KIND == 5
        && s.fld (a_FI_INJ die i 0) f_FI_INJ_TARGET == coreNo c && (s.reg (a_FI_INJ die i 1)).toNat % 4 == q
      then some ((s.reg (a_FI_INJ die i 1)).toNat / 2 ^ 32) else none

/-- Whether the head of a queue may start by R120: its tokens are there for it (R121), and with ORD no earlier descriptor is unfinished. -/
def State.headMay (s : State) (c q : Nat) : Bool :=
  match (s.core c).queue q with
  | [] => false
  | d :: _ => s.mayTake c (3 + q) (hdWait0 d.num) (hdWait1 d.num) && s.ltrOrdered c q d.num

/-- The head of a queue. -/
def State.headOf (s : State) (c q : Nat) : Nat := (((s.core c).queue q).headD ⟨[]⟩).num

/-- Whether the delay that an injection puts on a queue is over for its head (R450). -/
def State.delayOver (s : State) (c q : Nat) : Bool :=
  match s.collDelay c q with
  | none => true
  | some d =>
    let since := Tbl.get 0 (s.ltr c).ready q
    since != 0 && decide (since + d ≤ s.tideOf (coreDie c) + 1)

/-- A head taken off its queue with its tokens (R120). -/
def State.takeHead (s : State) (c q d : Nat) : State :=
  (s.modCore c fun k => ((k.take (hdWait0 d)).take (hdWait1 d)).popQueue q).modLtr c fun l =>
    { l with next := (q + 1) % 4, ready := Tbl.set 0 l.ready q 0, held := Tbl.set 0 l.held q 0 }

/-- A range that a descriptor reads, or writes, as it starts; every `step` bytes of it belong to the piece of the transfer `each` bytes on. -/
structure LocalSpan where
  addr : Nat
  len : Nat
  write : Bool
  step : Nat
  each : Nat

/-- The offset in the transfer of what an address of a span belongs to (R343). -/
def LocalSpan.unit (x : LocalSpan) (a : Nat) : Nat := (a - x.addr) / x.step * x.each

/-- What a descriptor reads locally when it starts (R339, R203, R354): its source, its block words, what XVERIFY covers, whose check words
MODE 1 writes. -/
def localSpans (d : Nat) : List LocalSpan :=
  match hdOp d with
  | 0x02 => [⟨bits d 175 128, bits d 336 320 + 1, false, 48, 48⟩]
  | 0x10 => [⟨bits d 175 128, 4096 * (bits d 579 576 + 1), false, 32, 32⟩, ⟨bits d 415 368, 4 * (bits d 579 576 + 1), false, 4, 4096⟩]
  | 0x11 => [⟨bits d 175 128, 4096 * (bits d 579 576 + 1), false, 16, 16⟩, ⟨bits d 415 368, 4 * (bits d 579 576 + 1), false, 4, 4096⟩]
  | 0x38 => [⟨bits d 175 128, 4096 * (bits d 376 352 + 1), false, 4096, 4096⟩, ⟨bits d 351 304, 8 * (bits d 376 352 + 1), bit d 380, 8, 4096⟩]
  | _ => []

/-- What a core's descriptor reads locally: nothing where it is an XVERIFY at level Off, which has no effect (R204). -/
def State.spansOf (s : State) (c d : Nat) : List LocalSpan := if hdOp d = 0x38 && s.levelOf c == 0 then [] else localSpans d

/-- Whether all that a descriptor reads locally can be read now (R246, R247, R277): it does not start before. -/
def State.localOpen (s : State) (c d : Nat) : Bool := (s.spansOf c d).all fun x => s.rangeOpen (coreDie c) x.write x.addr x.len

/-- A descriptor whose local reads wait: copies in their way are sent for, and the tide since which it waits is kept. -/
def State.localWait (s : State) (c q d : Nat) : State :=
  ((s.spansOf c d).foldl (fun t x => if inHbm x.addr x.len then t.sendMissing x.write (linesOf x.addr x.len) else t) s).modLtr c fun l =>
    if Tbl.get 0 l.held q = 0 then { l with held := Tbl.set 0 l.held q (s.tideOf (coreDie c) + 1) } else l

/-- The local reads of a descriptor that starts, put to their schedulers and found in the add caches (R261, R275). -/
def State.localRead (s : State) (c d : Nat) : State :=
  (s.spansOf c d).foldl (fun t x =>
    let ls := linesOf x.addr x.len
    let u := (ls.map blockOf).eraseDups.foldl (fun u b => u.useBlock b fun y => { y with dirty := y.dirty || x.write }) t
    (if inHbm x.addr x.len then u.unitFlits (coreDie c) x.write x.addr x.len else u).schedule x.write (ls.filter fun l => inHbm l 64)) s

/-- Whether the head of a queue starts when its lighter turns to it: it may by R120, a delay put on it is over, and its local reads can be made
now. -/
def State.headGo (s : State) (c q : Nat) : Bool := s.headMay c q && s.delayOver c q && s.localOpen c (s.headOf c q)

/-- The queue whose head starts next, from the one after the last on (R337). -/
def State.ltrPick (s : State) (c : Nat) : Option Nat :=
  ((List.range 4).map fun i => ((s.ltr c).next + i) % 4).find? fun q => s.headGo c q

/-- The heads that may start by R120 and do not start yet: since when a COLL_DELAY injection holds one back is noted (R450), and for the local
reads of one the lighter sends (R246). -/
def State.ltrReady (s : State) (c : Nat) : State :=
  (List.range 4).foldl (fun t q =>
    if !t.headMay c q then t
    else
      let t1 := if (t.collDelay c q).isSome && Tbl.get 0 (t.ltr c).ready q == 0 then
          t.modLtr c fun l => { l with ready := Tbl.set 0 l.ready q (t.tideOf (coreDie c) + 1) } else t
      if t1.localOpen c (t1.headOf c q) then t1 else t1.localWait c q (t1.headOf c q)) s

/-- The lighter of core c starting the head that `pick` names, where it is one that `mine` takes: `f` gets the state, the queue, the
descriptor and its request id. -/
def State.ltrStartOf (s : State) (c : Nat) (pick : State → Option Nat) (mine : Nat → Bool) (f : State → Nat → Nat → Nat → State) : State :=
  if 156 ≤ c || (s.core c).run = .retired || s.stopped (coreDie c) then s
  else
    let t := s.ltrReady c
    match pick t, t.freeRid c with
    | some q, some rid =>
      let d := t.headOf c q
      if mine d then f ((t.takeHead c q d).localRead c d) q d rid else t
    | _, _ => t

/-- The same for the head due next. -/
def State.ltrStart (s : State) (c : Nat) (mine : Nat → Bool) (f : State → Nat → Nat → Nat → State) : State :=
  s.ltrStartOf c (fun t => t.ltrPick c) mine f

/-! ### Operands -/

/-- Node and local part of a global address (R11). -/
def gaNode (g : Nat) : Nat := bits g 59 48
def gaLocal (g : Nat) : Nat := bits g 47 0

/-- The host-memory window (R480): entry and whether an address lies in it. -/
def isHostWin (a : Nat) : Bool := decide (0xC0_0000_0000 ≤ a) && decide (a < 0xE0_0000_0000)
def hostEntry (a : Nat) : Nat := (a - 0xC0_0000_0000) / 2 ^ 32

/-- Whether `n` bytes of the host window lie in entries that are valid for a partition (R480). -/
def State.hostOk (s : State) (part a n : Nat) : Bool :=
  isHostWin a && isHostWin (a + n - 1) &&
    (List.range (hostEntry (a + n - 1) - hostEntry a + 1)).all fun i =>
      let r := a_PCIE_HMAP (hostEntry a + i)
      s.fld r f_PCIE_HMAP_VALID == 1 && s.fld r f_PCIE_HMAP_PART == part

/-- The host bus address of a window address (R480). -/
def State.hostAddr (s : State) (a : Nat) : Nat :=
  s.fld (a_PCIE_HMAP (hostEntry a)) f_PCIE_HMAP_HBASE * 4096 + (a - 0xC0_0000_0000 - hostEntry a * 2 ^ 32)

/-- A transfer's `n` bytes from window address `a`, `off` of them behind it, cut into TLPs of `most` bytes that keep within a 4 KiB page
(R476); the first count is more than enough pieces. -/
def tlpCut (most : Nat) : Nat → Nat → Nat → Nat → List (Nat × Nat)
  | 0, _, _, _ => []
  | k + 1, a, off, n =>
    if n = 0 then []
    else
      let m := max 1 (min n (min most (4096 - (a + off) % 4096)))
      (off, m) :: tlpCut most k a (off + m) (n - m)

/-- The largest payload of a write and of a read request (R476, R510): the read's is the host's Max_Read_Request_Size. -/
def State.maxWrite (s : State) : Nat := min 512 (128 * 2 ^ s.fld a_PCIE_STATUS f_PCIE_STATUS_MPS)
def State.maxRead (s : State) : Nat := min 4096 (128 * 2 ^ bits s.pcie.devCtl 14 12)

/-- A write of host memory from window address `a` on, as posted TLPs, each translated as it is formed (R476, R480, R481). -/
def State.hostWrites (s : State) (a : Nat) (bs : List Byte) : State :=
  (tlpCut s.maxWrite bs.length a 0 bs.length).foldl (fun t p =>
    t.send .hostWrite (t.hostAddr (a + p.1)) (((bs.drop p.1).take p.2).map BitVec.toNat)) s

/-- Read requests of the host sent, the oldest first, while fewer than 1,024 are outstanding, each translated as it is formed (R476, R480). -/
def State.sendHostReads (s : State) : State :=
  let out := (s.hostReads.filter fun x => x.sent.isSome).length
  ((s.hostReads.filter fun x => x.sent.isNone).take (1024 - out)).foldl (fun t x =>
    { t with hostReads := t.hostReads.map fun y => if y = x then { y with sent := some (t.tideOf 12) } else y }.send .hostRead x.tag
      [t.hostAddr x.addr, x.len, x.off]) s

/-- Host memory read from window address `a` on for a transfer. -/
def State.askHost (s : State) (tag a n : Nat) : State :=
  { s with hostReads := s.hostReads ++ (tlpCut s.maxRead n a 0 n).map fun (p : Nat × Nat) => HostRead.mk tag (a + p.1) p.1 p.2 0 none }.sendHostReads

/-- The read requests of a transfer forgotten, which lets others be sent. -/
def State.hostReadGone (s : State) (tag : Nat) : State := { s with hostReads := s.hostReads.filter fun x => x.tag != tag }.sendHostReads

/-- `n` bytes of a transfer come at `off`: a request all of whose bytes have come is outstanding no more. -/
def State.hostGot (s : State) (tag off n : Nat) : State :=
  let come (x : HostRead) : HostRead :=
    if x.tag = tag && decide (x.off ≤ off) && decide (off < x.off + x.len) then { x with got := x.got + n } else x
  { s with hostReads := (s.hostReads.map come).filter fun x => decide (x.got < x.len) }.sendHostReads

/-- Whether a global operand may be named (R11, R311, R340, R480): HBM or a galley anywhere; registers and the host window at the
own node, for a plain transfer. -/
def State.globalOk (s : State) (c g n al : Nat) (plain : Bool) : Bool :=
  let a := gaLocal g
  bits g 63 60 == 0 && a % al == 0
    && (inHbm a n || (isGalley a && isGalley (a + n - 1))
      || (plain && gaNode g == s.nodeId && ((inRegs a && inRegs (a + n - 1)) || s.hostOk (s.partOf c) a n)))

/-- Whether a local operand lies in the core's windows (R136, R260, R340). -/
def State.localOk (s : State) (c a n al : Nat) : Bool :=
  a % al == 0 && (if isGalley a then s.galleyOk c a n else s.hbmWinOk (s.partOf c) a n)

/-- Whether a node can be reached (R317, R340). -/
def State.reachable (s : State) (c node : Nat) : Bool :=
  node == s.nodeId || s.fld (a_RTR_ROUTE (baseOf (coreDie c)) node) f_RTR_ROUTE_MASK != 0

/-- The first failing check of R340, in its order: the code. -/
def ltrCheck : List (Bool × Nat) → Option Nat
  | [] => none
  | (bad, code) :: r => if bad then some code else ltrCheck r

/-- The key and the level of a core's transfers (R196, R199): whether a transfer to a node is tallied. -/
def State.ltrKey (s : State) (c : Nat) : Word := s.reg (a_CHK_KEY (coreDie c) (s.clusterOf c))
def State.tallied (s : State) (c node : Nat) : Bool := s.levelOf c == 2 || (s.levelOf c == 1 && node != s.nodeId)

/-- A reading-end tally as an active TALLY_CORRUPT injection leaves it: its mask inverted in the first tallied transfer read (R450). -/
def State.corruptTally (s : State) (c t : Nat) : State × Nat :=
  let die := coreDie c
  match (List.range 16).find? fun i =>
      (match Tbl.get none s.injections (die * 16 + i) with
        | some j => !j.used
        | none => false)
      && s.fld (a_FI_INJ die i 0) f_FI_INJ_KIND == 3 && s.fld (a_FI_INJ die i 0) f_FI_INJ_TARGET == coreNo c with
  | none => (s, t)
  | some i =>
    let j := (Tbl.get none s.injections (die * 16 + i)).map fun x => { x with used := true }
    ({ s with injections := Tbl.set none s.injections (die * 16 + i) j }, t ^^^ (s.reg (a_FI_INJ die i 1)).toNat)

/-! ### Cells out -/

/-- A request's cell (R313). -/
def State.reqCell (s : State) (c node rid kind gmask addr g0 g1 g2 : Nat) : Cell :=
  ⟨kind, s.partOf c, node, s.nodeId, s.logical c, rid, bits (s.tideOf (coreDie c)) 15 8, gmask, addr / 16, g0, g1, g2⟩

/-- The die that holds a local address. -/
def addrDie (a : Nat) : Nat := if isHbm a then homeOf a else if isGalley a then galleyDie a else regDie a

/-- A cell sent by a lighter: over the Quay link within the node, else to its base die's router, as a local cell there (R311, R337). -/
def State.sendCell (s : State) (c : Nat) (cell : Cell) (die : Nat) (nocomb : Bool) : State :=
  let s1 := s.addWrap (a_LTR_CELLS_OUT (coreDie c) (coreNo c)) f_LTR_CELLS_OUT_COUNT 1
  if cell.dst = s.nodeId then s1.quayPush die ⟨coreDie c, cell.part, .cell cell, 0, 0, none⟩
  else s1.toRouter (coreDie c) cell false nocomb

/-- The cells of a list of bytes: three granules each (R314). -/
def State.sendData (s : State) (c node rid kind : Nat) : Nat → Nat → List Byte → State
  | 0, _, _ => s
  | k + 1, a, bs =>
    if bs.isEmpty then s
    else
      let n := min 3 ((bs.length + 15) / 16)
      let g (j : Nat) : Nat := natLE ((bs.drop (16 * j)).take 16)
      let t := s.sendCell c (s.reqCell c node rid kind (2 ^ n - 1) a (g 0) (g 1) (g 2)) (addrDie a) true
      t.sendData c node rid kind k (a + 48) (bs.drop 48)

/-- The READ cells of a transfer of `n` granules from address `a`, from granule i on (R314, R338). -/
def State.sendReads (s : State) (c node rid a : Nat) (tally nocomb : Bool) : Nat → Nat → Nat → State
  | 0, _, _ => s
  | k + 1, i, n =>
    if n = 0 then s
    else
      let m := min 48 n
      let t := s.sendCell c (s.reqCell c node rid 1 7 (a + 16 * i) (m + i * 2 ^ 8 + b2n tally * 2 ^ 20) 0 0)
        (addrDie (a + 16 * i)) nocomb
      t.sendReads c node rid a tally nocomb k (i + m) (n - m)

/-! ### Completion -/

/-- A descriptor's fields for its completion signal (R339, R354): RCV, counter, core, increment, node. -/
structure Rcv where
  on : Bool
  ctr : Nat
  core : Nat
  inc : Nat
  node : Nat

/-- The completion signal of a LOAD or PUT (bits up to 383) or an RL add or STREAM (bits up to 639). -/
def rcvOf (d : Nat) : Rcv :=
  let top := if hdOp d = 1 || hdOp d = 2 then 384 else 640
  let ga := if hdOp d = 1 || hdOp d = 2 then bits d 319 256 else bits d 479 416
  ⟨(hdOp d == 1 || hdOp d == 2 || hdOp d == 0x10 || hdOp d == 0x11 || hdOp d == 0x28) && bit d (top - 17),
    bits d (top - 18) (top - 22), bits d (top - 23) (top - 30), bits d (top - 1) (top - 16), gaNode ga⟩

/-- A transfer whose tallies differ (R200, R214, R215): a record of the issuing die about the core's lighter. -/
def State.tallyRecord (s : State) (c d reading writing : Nat) : State :=
  let die := coreDie c
  s.detect ⟨die, s.tideOf die, Code.TALLY_MISMATCH, 5, 3, die, coreNo c, 0xF, s.partOf c, bits (hdTag d) 47 0, reading, writing,
    false, false⟩

/-- A request that has everything it waited for (R341, R343): an error completion, its signal, or its RAISE token. The signal of a LOAD or PUT
that the re-run of R130 sends again is sent again too: that rule suppresses SIGNAL descriptors, RL adds and integer atomics, and says of
loads, stores and puts that they are always sent again (DESIGN CHOICE, log entry 27). -/
def State.finish (s : State) (c rid : Nat) (r : Request) : State :=
  let s := if r.host then s.hostReadGone (s.logical c * 256 + rid) else s
  let gone := s.setRequest c rid none
  if r.quiet || r.ghost then gone
  else match r.fail with
    | some f => gone.lighterError c r.queue r.desc f.1 f.2.1 f.2.2
    | none =>
      let v := rcvOf r.desc
      if hdOp r.desc = 1 && r.own ≠ r.theirs then
        (gone.tallyRecord c r.desc r.theirs r.own).lighterError c r.queue r.desc Code.TALLY_MISMATCH 0 (targetOf r.desc)
      else if v.on && !r.signalling then
        let s1 := s.setRequest c rid (some { r with total := 1, acked := 0, signalling := true })
        s1.sendCell c (s1.reqCell c v.node rid 0xC 7 0 (v.inc + v.core * 2 ^ 16 + v.ctr * 2 ^ 24) 0 0) (coreDie v.core) true
      else gone.raise c (hdRaise r.desc)

/-- Progress of a request: finished when every cell it waits for is in. -/
def State.advance (s : State) (c rid : Nat) (r : Request) : State :=
  if r.total ≤ r.acked then s.finish c rid r else s.setRequest c rid (some r)

/-- A request that writes may have finished. -/
def State.settleRequest (s : State) (c rid : Nat) : State :=
  let c := s.actor c
  match s.request c rid with
  | some r => if r.total ≤ r.acked then s.finish c rid r else s
  | none => s

/-- The descriptor whose data a request wrote, or failed to write: it may be complete with that (R341). -/
def State.settled (s : State) (r : MemReq) : State :=
  match r.agent with
  | .lighter c rid _ _ => s.settleRequest c rid
  | _ => s

/-- Data of a response written where its descriptor puts them (R339, R341): into a galley at once, into HBM as a write that goes to its home and
counts when it has been made there. `n` units of the request's count, at byte `off` of the transfer. -/
def State.writeLocal (s : State) (c rid n off a : Nat) (bs : List Byte) : State :=
  if isHbm a then
    s.quayPush (homeOf a) ⟨coreDie c, s.partOf c, .lighter (s.logical c) rid n off, a, bs.length, some bs⟩
  else
    let m := s.writeMem a bs (coreNo c) 4
    m.st.progress (s.logical c) rid n off m.code

/-- A descriptor that ends at its start (R340, R343): its error record. -/
def State.ltrRefuse (s : State) (c q d code : Nat) : State := s.lighterError c q d code 0 (targetOf d)

/-- A request opened for a descriptor. -/
def newRequest (q d total : Nat) : Request :=
  { queue := q, desc := d, len := 0, total := total, acked := 0, own := 0, theirs := 0, fail := none, signalling := false,
    quiet := false, ghost := false, tallied := false, host := false, stream := none }

/-- A descriptor counted as issued since the last WUMARK (R126, R348). -/
def State.wuIssued (s : State) (c : Nat) : State := s.addWrap (a_LTR_STATUS (coreDie c) (coreNo c)) f_LTR_STATUS_WUISSUED 1

/-- An RL add, integer atomic, signal or stream at a stand-in that is still to be suppressed (R130): it sends nothing, completes at
once and raises its token; any other descriptor goes on with `f`. -/
def State.suppressed (s : State) (c d : Nat) (f : State → State) : State :=
  let a := a_LTR_SUPPRESS (coreDie c) (coreNo c)
  let left := s.fld a f_LTR_SUPPRESS_LEFT
  if left = 0 then f s else ((s.setFld a f_LTR_SUPPRESS_LEFT (left - 1)).wuIssued c).raise c (hdRaise d)

/-! ### Transfers -/

/-- Bits of a LOAD or PUT that are reserved, or a length or increment out of range (R339, R340). -/
def xferBad (d : Nat) : Bool :=
  hdLen d != 3 || hdReserved d || bits d 353 338 != 0 || bits d 255 176 != 0 || decide ((bits d 336 320 + 1) % 16 ≠ 0)
    || decide (65536 < bits d 336 320 + 1) || (bit d 367 && bits d 383 368 == 0)

/-- How many bytes a LOAD or PUT moves. -/
def xferBytes (d : Nat) : Nat := bits d 336 320 + 1

/-- The checks of R340 on a LOAD or PUT. -/
def State.xferCheck (s : State) (c d : Nat) : Option Nat :=
  let g := bits d 319 256
  let n := xferBytes d
  ltrCheck [(xferBad d, Code.BAD_DESCRIPTOR),
    (!s.globalOk c g n 16 true || !s.localOk c (bits d 175 128) n 16, Code.BAD_ADDRESS),
    (!s.reachable c (gaNode g), Code.NODE_UNREACHABLE)]

/-- A LOAD started (R339 to R342, R481). -/
def State.startLoad (s : State) (c q d rid : Nat) : State :=
  match if (lighterLen (hdOp d)).isNone then some Code.LIGHTER_BAD_OP else s.xferCheck c d with
  | some code => s.ltrRefuse c q d code
  | none =>
    let g := bits d 319 256
    let n := xferBytes d
    let node := gaNode g
    let a := gaLocal g
    let tally := s.tallied c node
    if node = s.nodeId && isHostWin a then
      let tag := s.logical c * 256 + rid
      let s1 := s.setRequest c rid (some { newRequest q d n with len := n, host := true, tallied := tally })
      s1.askHost tag a n
    else
      let reads := (n / 16 + 47) / 48
      let s1 := s.setRequest c rid (some { newRequest q d (n / 16 + if tally then reads else 0) with len := n, tallied := tally })
      s1.sendReads c node rid a tally (bit d 337) reads 0 (n / 16)

/-- Data sent by a PUT or STORE to a global address (R338, R342, R481): WRITE cells, or TWRITE cells and a TCLOSE when tallied;
to the host window as posted writes, complete once they are sent, when the endpoint's tally, with its own key, agrees (R199, R200). -/
def State.sendPut (s : State) (c q d rid g : Nat) (bs : List Byte) : State :=
  let node := gaNode g
  let a := gaLocal g
  let tally := s.tallied c node
  let t0 := (bytesTally (s.ltrKey c) bs).toNat
  let (s1, t) := if tally then s.corruptTally c t0 else (s, t0)
  if node = s.nodeId && isHostWin a then
    let s2 := s1.hostWrites a bs
    let far := (bytesTally (s.reg (a_CHK_PKEY 12 (s.partOf c))) bs).toNat
    if !tally || t == far then s2.finish c rid { newRequest q d 1 with tallied := tally }
    else (s2.tallyRecord c d t far).ltrRefuse c q d Code.TALLY_MISMATCH
  else
    let cells := (bs.length + 47) / 48
    let s2 := s1.setRequest c rid (some { newRequest q d (cells + if tally then 1 else 0) with len := bs.length, own := t, tallied := tally })
    let s3 := s2.sendData c node rid (if tally then 4 else 3) cells a bs
    if tally then
      s3.sendCell c (s3.reqCell c node rid 5 7 a (t + cells * 2 ^ 64) (a / 16 + (bs.length / 16 - 1) * 2 ^ 36) 0) (addrDie a) true
    else s3

/-- A PUT started (R339 to R343): its source is read; a source error ends it. -/
def State.startPut (s : State) (c q d rid : Nat) : State :=
  match s.xferCheck c d with
  | some code => s.ltrRefuse c q d code
  | none =>
    let m := s.readMem (bits d 175 128) (xferBytes d) (coreNo c) 4
    if m.code ≠ 0 then m.st.lighterError c q d m.code (cellOffset d (m.at_ - bits d 175 128)) (bits d 319 256)
    else m.st.sendPut c q d rid (bits d 319 256) m.bytes

/-- A STORE started (R339 to R342). -/
def State.startStore (s : State) (c q d rid : Nat) : State :=
  let g := bits d 255 192
  let n := if bit d 191 then 32 else 16
  match ltrCheck [(hdLen d != 4 || hdReserved d || bits d 190 128 != 0, Code.BAD_DESCRIPTOR),
      (!s.globalOk c g n 16 true, Code.BAD_ADDRESS), (!s.reachable c (gaNode g), Code.NODE_UNREACHABLE)] with
  | some code => s.ltrRefuse c q d code
  | none => s.sendPut c q d rid g (bytesLE n (bits d 511 256))

/-! ### RL adds -/

/-- The RL trailer of a cell (R315). -/
def rlTrailer (wide : Bool) (word bwa cwa tally : Nat) (cwv : Bool) : Nat :=
  word % 4096 + bits word 21 16 * 2 ^ 22 + b2n cwv * 2 ^ 28 + bits cwa 35 3 * 2 ^ 29 + bits bwa 35 2 * 2 ^ 62
    + tally * 2 ^ (if wide then 192 else 96)

/-- The cells of one block (R315, R338, R339): elements of `w` bytes from `bs`, to address `a`, with block word and check word
addresses; T is formed when `cwv` (R202). -/
def State.sendBlock (s : State) (c node rid w a word bwa cwa : Nat) (cwv nocomb : Bool) : Nat → Nat → List Byte → State
  | 0, _, _ => s
  | k + 1, i, bs =>
    let per := if w = 4 then 32 else 16
    let piece := bs.take per
    let els := (List.range (per / w)).map fun j => natLE ((piece.drop (w * j)).take w)
    let t := if cwv then linTally (s.ltrKey c) (8 * w) ((a + per * i) / w) els else 0
    let tr := rlTrailer (w == 8) word bwa cwa t cwv
    let v := natLE piece
    let cell := if w = 4 then s.reqCell c node rid 6 7 (a + 32 * i) (v % 2 ^ 128) (v / 2 ^ 128) tr
      else s.reqCell c node rid 7 7 (a + 16 * i) v (tr % 2 ^ 128) (tr / 2 ^ 128)
    (s.sendCell c cell (addrDie a) nocomb).sendBlock c node rid w a word bwa cwa cwv nocomb k (i + 1) (bs.drop per)

/-- The cells of the blocks of an RL add descriptor or a stream (R339): each with its bytes and its block word; with linear tallies where
they were on as the descriptor started (R196, R202). -/
def State.sendBlocks (s : State) (c rid w g dbw dcw : Nat) (tally nocomb : Bool) (blocks : List (List Byte × Nat)) : State :=
  (blocks.zipIdx).foldl (fun t b =>
    t.sendBlock c (gaNode g) rid w (gaLocal g + 4096 * b.2) b.1.2 (dbw + 4 * b.2) (dcw + 8 * b.2) tally nocomb
      (if w = 4 then 128 else 256) 0 b.1.1) s

/-- The checks of R340 that an RL add and a stream share: destination block, block-word table and check-word table together on a
stack or in a galley (R272, R315). -/
def State.rlDstBad (s : State) (c g n dbw dcw : Nat) (cwv : Bool) : Bool :=
  let a := gaLocal g
  !s.globalOk c g (4096 * n) 4096 false || dbw % 4 != 0 || dbw / 2 ^ 36 != a / 2 ^ 36
    || (cwv && (dcw % 8 != 0 || dcw / 2 ^ 36 != a / 2 ^ 36))

/-- An RLADD32 or RLADD64 started (R339, R340). -/
def State.startRlAdd (s : State) (c q d rid w : Nat) : State :=
  let g := bits d 479 416
  let n := bits d 579 576 + 1
  let src := bits d 175 128
  let sbw := bits d 415 368
  let cwv := bit d 581
  match ltrCheck [(hdLen d != 5 || hdReserved d || bits d 609 582 != 0 || bits d 367 176 != 0 || (bit d 623 && bits d 639 624 == 0),
        Code.BAD_DESCRIPTOR),
      (s.rlDstBad c g n (bits d 527 480) (bits d 575 528) cwv || !s.localOk c src (4096 * n) 4096 || !s.localOk c sbw (4 * n) 4,
        Code.BAD_ADDRESS),
      (!s.reachable c (gaNode g), Code.NODE_UNREACHABLE)] with
  | some code => s.ltrRefuse c q d code
  | none =>
    let m := s.readMem src (4096 * n) (coreNo c) 4
    let b := m.st.readMem sbw (4 * n) (coreNo c) 4
    let words := (List.range n).map fun i => natLE ((b.bytes.drop (4 * i)).take 4)
    if m.code ≠ 0 then m.st.lighterError c q d m.code (cellOffset d (m.at_ - src)) g
    else if b.code ≠ 0 then b.st.lighterError c q d b.code ((b.at_ - sbw) / 4 * 4096) g
    else if words.any fun x => (blockG x).isNone then b.st.ltrRefuse c q d Code.BAD_SCALE
    else b.st.suppressed c d fun t =>
      let cells := n * if w = 4 then 128 else 256
      ((t.wuIssued c).setRequest c rid (some { newRequest q d cells with len := 4096 * n })).sendBlocks c rid w g (bits d 527 480)
        (bits d 575 528) (cwv && s.levelOf c != 0) (bit d 580) ((List.range n).map fun i => ((m.bytes.drop (4096 * i)).take 4096, words.getD i 0))

/-! ### Atomics, signals, counters -/

/-- An ATOMIC started (R339, R340): an ADD that does not fetch goes as IADD. -/
def State.startAtomic (s : State) (c q d rid : Nat) : State :=
  let g := bits d 255 192
  let w := if bit d 139 then 8 else 4
  let aop := bits d 143 140
  let fetch := bit d 138
  match ltrCheck [(hdLen d != 3 || hdReserved d || bits d 137 128 != 0 || decide (10 < aop), Code.BAD_DESCRIPTOR),
      (!s.globalOk c g w w false || (fetch && !s.localOk c (bits d 191 144) 8 8), Code.BAD_ADDRESS),
      (aop == 10 && s.invariant (s.partOf c), Code.ORDER_SENSITIVE_REFUSED),
      (!s.reachable c (gaNode g), Code.NODE_UNREACHABLE)] with
  | some code => s.ltrRefuse c q d code
  | none =>
    let go (t : State) : State :=
      let a := gaLocal g
      let t1 := t.setRequest c rid (some { newRequest q d 1 with len := w })
      let cell := if aop = 0 && !fetch then
          t1.reqCell c (gaNode g) rid 8 7 a (bits d 383 320 + b2n (bit d 139) * 2 ^ 64 + a % 16 * 2 ^ 68) 0 0
        else t1.reqCell c (gaNode g) rid 9 7 a (bits d 383 320 + bits d 319 256 * 2 ^ 64)
          (aop + b2n (bit d 139) * 16 + b2n fetch * 32 + a % 16 * 2 ^ 8) 0
      t1.sendCell c cell (addrDie a) false
    if aop = 10 then go s else s.suppressed c d fun t => go (t.wuIssued c)

/-- A SIGNAL started (R339, R340, R344). -/
def State.startSignal (s : State) (c q d rid : Nat) : State :=
  let node := bits d 255 244
  match ltrCheck [(hdLen d != 2 || hdReserved d || bits d 230 224 != 0 || bits d 207 128 != 0 || bits d 223 208 == 0, Code.BAD_DESCRIPTOR),
      (!s.reachable c node, Code.NODE_UNREACHABLE)] with
  | some code => s.ltrRefuse c q d code
  | none => s.suppressed c d fun t =>
    let t1 := (t.wuIssued c).setRequest c rid (some (newRequest q d 1))
    t1.sendCell c (t1.reqCell c node rid 0xC 7 0 (bits d 223 208 + bits d 243 236 * 2 ^ 16 + bits d 235 231 * 2 ^ 24) 0 0)
      (coreDie (bits d 243 236)) true

/-- A CCSET started and complete (R344). -/
def State.startCcset (s : State) (c q d : Nat) : State :=
  if hdLen d != 2 || hdReserved d || bits d 180 128 != 0 then s.ltrRefuse c q d Code.BAD_DESCRIPTOR
  else (s.ccSet c (bits d 185 181) (bits d 255 224) (bits d 223 192) (bits d 191 186)).raise c (hdRaise d)

end Sys2Proof.Machine
end

