-- ==== Sys2Proof/Machine/Berth.lean ====
section
/-! DEFINITION. The berth pool of a compute die and its leak audit (04_galley_case_engines_berth_pool.md R168 to R176). -/

namespace Sys2Proof.Machine
open Sys2Proof

/-- The size of a berth of pool p, and the smallest pool for a size. -/
def berthSize (p : Nat) : Nat := 4096 * 16 ^ p
def poolFor (size : Nat) : Option Nat := (List.range 5).find? fun p => decide (size ≤ berthSize p)

/-- The pool slot that a core uses (R168). -/
def State.berthSlot (s : State) (c : Nat) : Nat :=
  if s.fld (a_BERTH_CTL (coreDie c)) f_BERTH_CTL_SHARED = 1 then 0 else s.clusterOf c

/-- The lowest-numbered free berth of a pool (R170). -/
def State.freeBerth (s : State) (die slot p : Nat) : Option Nat :=
  let used := ((s.berthsOf die).filter fun b => b.2.slot == slot && bits b.1 26 24 == p).map fun b => b.1 % 2 ^ 24
  match (List.range (used.length + 1)).find? fun i => !used.contains i with
  | some i => if i < s.fld (a_BERTH_POOL die slot p) f_BERTH_POOL_COUNT then some i else none
  | none => none

/-- An owner's audit (R175): each threshold fires once per crossing and rearms at or below it. -/
def State.auditOwner (s : State) (die o : Nat) : State :=
  let c := 13 * die + o / 14
  let thr := a_BERTH_AUD_THR die (s.berthSlot c)
  let count := s.ownerHeld die o
  let age := if count = 0 then 0 else s.tideOf die - s.ownerOldest die o
  let beyond (limit v : Nat) : Bool := limit != 0 && decide (limit < v)
  let oc := beyond (s.fld thr f_BERTH_AUD_THR_COUNT) count
  let oa := beyond (s.fld thr f_BERTH_AUD_THR_AGE) age
  let x := Tbl.get ⟨false, false⟩ s.audits (die * 256 + o)
  let tell (t : State) (now was : Bool) (code : Nat) : State :=
    if now && !was then (t.fire (t.actor c) 9).report code die (t.partOf (t.actor c)) [o, count, age] else t
  let s1 := tell (tell s oc x.count Code.BERTH_AUDIT_COUNT) oa x.age Code.BERTH_AUDIT_AGE
  { s1 with audits := Tbl.set ⟨false, false⟩ s1.audits (die * 256 + o) ⟨oc, oa⟩ }

/-- An owner's thresholds rearmed where its count or age no longer exceeds them (R175): a return can do it. -/
def State.rearmOwner (s : State) (die o : Nat) : State :=
  let thr := a_BERTH_AUD_THR die (s.berthSlot (13 * die + o / 14))
  let x := Tbl.get ⟨false, false⟩ s.audits (die * 256 + o)
  let count := x.count && decide (s.fld thr f_BERTH_AUD_THR_COUNT < s.ownerHeld die o)
  let age := x.age && s.ownerHeld die o != 0 && decide (s.fld thr f_BERTH_AUD_THR_AGE < s.tideOf die - s.ownerOldest die o)
  { s with audits := Tbl.set ⟨false, false⟩ s.audits (die * 256 + o) ⟨count, age⟩ }

/-- Every owner of a die compared with its thresholds. -/
def State.auditDie (s : State) (die : Nat) : State := (List.range 182).foldl (fun t o => t.auditOwner die o) s

/-- BERTH_AUDIT: the comparison of every 1,000 tide units (R175). -/
def execBerthAudit (die : Nat) (s : State) : Host.Outcome State Fault Refusal :=
  .next (if die < 12 then s.auditDie die else s)

/-- The result of a BERTH_GET written to private memory (R170). -/
def State.berthResult (s : State) (c res code handle addr : Nat) : State :=
  s.modCore c fun k =>
    { k with
      pmem := memWrite k.pmem res (bytesLE 16 (code * 2 ^ 96 + handle * 2 ^ 64 + addr))
      pmarks := Tbl.set 0 (Tbl.set 0 k.pmarks res 0) (res + 8) 0 }

/-- The address of berth i of a pool (R168). -/
def State.berthAddr (s : State) (die slot p i : Nat) : Nat :=
  s.fld (a_BERTH_POOL die slot p) f_BERTH_POOL_BASE * 4096 + i * berthSize p

/-- Whether a berth lies in the windows of a core's partition (R136, R168, R260). -/
def State.berthOk (s : State) (c slot p i : Nat) : Bool := s.localOk c (s.berthAddr (coreDie c) slot p i) (berthSize p) 4096

/-- A BERTH_GET served (R169, R170): the checks, the smallest fitting pool, with UP the larger ones, else a failure. -/
def State.startBerthGet (s : State) (c q d : Nat) : State :=
  let die := coreDie c
  let res := bits d 175 128
  let size := bits d 207 176
  let kind := bits d 211 208
  let idx := bits d 215 212
  if hdLen d != 2 || hdReserved d || bits d 255 217 != 0 || decide (2 < kind) || (kind == 1 && decide (3 < idx))
      || (kind == 2 && decide (8 < idx)) || size == 0 then s.ltrRefuse c q d Code.BAD_DESCRIPTOR
  else if res % 16 ≠ 0 || decide (0x4_0000 < res + 16) then s.ltrRefuse c q d Code.BAD_ADDRESS
  else
    let slot := s.berthSlot c
    let fail (code : Nat) : State := (((s.bump (a_BERTH_FAIL die slot) f_BERTH_FAIL_COUNT).berthResult c res code 0 0).raise c (hdRaise d))
    match poolFor size with
    | none => fail Code.BERTH_TOO_LARGE
    | some p =>
      match ((List.range (if bit d 216 then 5 - p else 1)).map (p + ·)).find? fun x => (s.freeBerth die slot x).isSome with
      | none => fail Code.BERTH_EXHAUSTED
      | some x =>
        let i := (s.freeBerth die slot x).getD 0
        if !s.berthOk c slot x i then s.ltrRefuse c q d Code.BAD_ADDRESS else
        let handle := s.partOf c * 2 ^ 27 + x * 2 ^ 24 + i
        let owner := 14 * coreNo (s.logical c) + if kind = 0 then 0 else if kind = 1 then 1 + idx else 5 + idx
        let s1 : State := { s with berths := Tbl.insert s.berths (die * 2 ^ 32 + handle) (some ⟨owner, slot, s.tideOf die⟩) }
        ((s1.berthResult c res 0 handle (s.berthAddr die slot x i)).auditDie
          die).raise c (hdRaise d)

/-- The lowest queue of a core's lighter whose head is a berth request of an OP that starts now (R172). -/
def State.berthQueue (s : State) (c op : Nat) : Option Nat :=
  (List.range 4).find? fun q => hdOp (s.headOf c q) == op && s.headGo c q

/-- Whether a berth request of an OP reaches the pool from a core's lighter now (R172). -/
def State.berthDue (s : State) (c op : Nat) : Bool :=
  !decide (156 ≤ c) && (s.core c).run != .retired && !s.stopped (coreDie c) && (s.freeRid c).isSome && (s.berthQueue c op).isSome

/-- Whether the pool serves a request of core c next (R172): of those that reach it in one cycle the returns go first, then the requests by
ascending module core id; within a core they go by ascending queue. -/
def State.berthTurn (s : State) (c op : Nat) : Bool :=
  !(upFrom (13 * coreDie c) 13).any fun n => (op == 0x30 && s.berthDue n 0x31) || (decide (s.logical n < s.logical c) && s.berthDue n op)

/-- A BERTH_PUT served (R171): a handle that the partition holds on this die is returned. -/
def State.startBerthPut (s : State) (c q d : Nat) : State :=
  let h := bits d 159 128
  let key := coreDie c * 2 ^ 32 + h
  if hdLen d != 2 || hdReserved d || bits d 255 160 != 0 then s.ltrRefuse c q d Code.BAD_DESCRIPTOR
  else if bits h 31 27 ≠ s.partOf c || (Tbl.get none s.berths key).isNone then s.ltrRefuse c q d Code.BERTH_NOT_HELD
  else
    let s1 : State := { s with berths := Tbl.set none s.berths key none }
    ((List.range 182).foldl (fun t o => t.rearmOwner (coreDie c) o) s1).raise c (hdRaise d)

/-- BERTH_GET (R169, R170), served in its turn (R172). -/
def execBerthGet (c : Nat) (s : State) : Host.Outcome State Fault Refusal :=
  .next (if s.berthTurn c 0x30 then s.ltrStartOf c (fun t => t.berthQueue c 0x30) (fun d => hdOp d == 0x30) fun t q d _ => t.startBerthGet c q d else s)

/-- BERTH_PUT (R169, R171), served in its turn (R172). -/
def execBerthPut (c : Nat) (s : State) : Host.Outcome State Fault Refusal :=
  .next (if s.berthTurn c 0x31 then s.ltrStartOf c (fun t => t.berthQueue c 0x31) (fun d => hdOp d == 0x31) fun t q d _ => t.startBerthPut c q d else s)

/-- Every berth of a partition on a die freed, and its audit cleared (R174). -/
def State.freeBerths (s : State) (die part : Nat) : State :=
  let mine := (s.berthsOf die).filter fun b => bits b.1 31 27 == part
  let s1 : State := { s with berths := mine.foldl (fun m b => Tbl.erase m (die * 2 ^ 32 + b.1)) s.berths }
  mine.foldl (fun t b => { t with audits := Tbl.set ⟨false, false⟩ t.audits (die * 256 + b.2.owner) ⟨false, false⟩ }) s1

end Sys2Proof.Machine
end

