-- ==== Sys2Proof/Machine/CheckRows.lean ====
section
/-! DEFINITION. The CHK block (06_result_checking.md R214 to R223): records of detections, condition samples, fault histories and
the quarantine. -/

namespace Sys2Proof.Machine
open Sys2Proof

/-! ### Records -/

/-- The 512 bits of a record (R214). -/
def ChkRec.num (r : ChkRec) : Nat :=
  let d := r.det
  r.rseq % 2 ^ 32 * 2 ^ 480 + d.tide % 2 ^ 64 * 2 ^ 416 + d.code % 2 ^ 16 * 2 ^ 400 + b2n r.rehearsal * 2 ^ 399
    + b2n d.shared * 2 ^ 398 + b2n d.rep * 2 ^ 397 + d.origin % 16 * 2 ^ 392 + d.ukind % 16 * 2 ^ 388 + d.udie % 16 * 2 ^ 384
    + d.core % 16 * 2 ^ 380 + d.sub % 16 * 2 ^ 376 + d.part % 32 * 2 ^ 371 + r.node % 4096 * 2 ^ 356 + d.seq % 2 ^ 48 * 2 ^ 304
    + d.detail1 % 2 ^ 64 * 2 ^ 240 + d.detail0 % 2 ^ 64 * 2 ^ 176 + r.temp % 2 ^ 16 * 2 ^ 160 + r.volt % 2 ^ 16 * 2 ^ 144
    + r.clock % 2 ^ 16 * 2 ^ 128 + r.lps % 2 ^ 64 * 2 ^ 64 + r.wuid % 2 ^ 32 * 2 ^ 32

/-- The units that a detection is attributed to (R218): each platen of a mask; the module only for REPLICA_ODD and
DIVERGENCE; else the unit named. -/
def Detection.units (d : Detection) : List Nat :=
  if d.ukind = 0 then (platens d.sub).map fun p => unitId 0 d.udie d.core p
  else if d.ukind = 7 then
    (if d.code = Code.REPLICA_ODD || d.code = Code.DIVERGENCE then [unitId 7 0 0xF 0xF] else [])
  else [unitId d.ukind d.udie d.core d.sub]

/-- What a sample holds before the first one. -/
def CondSample.init : CondSample := ⟨0, 0, 0, 0, []⟩

/-- The newest sample, and the last one before a tide (R216). -/
def ChkState.last (k : ChkState) : CondSample := k.samples.headD CondSample.init
def ChkState.before (k : ChkState) (tide : Nat) : CondSample :=
  (k.samples.find? fun x => decide (x.tide < tide)).getD CondSample.init

/-- The mean of a byte field of the load patterns of a die's twelve active cores (R216). -/
def CondSample.mean (k : CondSample) (hi lo : Nat) : Nat := ((List.range 12).map fun n => bits (Tbl.get 0 k.lps n) hi lo).sum / 12

/-- The load-pattern signature of the core of a unit, or of a unit with no core (R216): the CORE of a lane engine is none. -/
def CondSample.pattern (k : CondSample) (ukind core : Nat) : Nat :=
  if core < 13 && ukind != 6 then Tbl.get 0 k.lps core
  else k.mean 63 56 * 2 ^ 56 + k.mean 55 48 * 2 ^ 48 + bits (Tbl.get 0 k.lps 0) 47 40 * 2 ^ 40 + k.mean 39 32 * 2 ^ 32

/-- MIX of a core (R216): CRC-32C of the counts of its last 4,096 retired instructions by class. -/
def CoreState.mixWord (k : CoreState) : Nat := crc32c ((List.range 16).flatMap fun i => bytesLE 2 (k.mix.count i))

/-- The samples that a record can still take, with `cut` the least tide of a detection to come: those from `cut` on, and the last before. -/
def keepSamples (cut : Nat) (l : List CondSample) : List CondSample :=
  (l.takeWhile fun x => decide (cut ≤ x.tide)) ++ (l.dropWhile fun x => decide (cut ≤ x.tide)).take 1

/-- Whether a detection falls into a rehearsal of its unit (R219). -/
def State.rehearsed (s : State) (d : Detection) : Bool :=
  s.rehearsals.any fun r => d.units.contains r.unit && decide (r.start ≤ d.tide) && decide (d.tide ≤ r.stop + 1_000_000)

/-- The record of a detection, with the last condition sample before its tide and the work unit of its core (R214, R216). -/
def State.chkRecord (s : State) (d : Detection) : ChkRec :=
  let k := (s.chkOf d.die).before d.tide
  ⟨(s.chkOf d.die).rseq + 1, d, s.rehearsed d, s.nodeId, k.temp, k.volt, k.clock, k.pattern d.ukind d.core,
    if d.core < 13 && decide (d.die < 12) then
      (match (s.core (13 * d.die + d.core)).wu with
        | some w => w.id
        | none => 0) else 0⟩

/-- Steps 2 to 5 of R217: counted, written into the log, event CHK at the core, waiting to be passed on, of which a RECORD_READY message tells
the management processor (R238). -/
def State.chkLog (s : State) (r : ChkRec) : State :=
  let die := r.det.die
  let ptr := a_CHK_LOGPTR die
  let n := s.fld ptr f_CHK_LOGPTR_NEXT
  let s1 := if r.rehearsal then s.bump (a_CHK_REH_COUNT die) f_CHK_REH_COUNT_COUNT
    else s.bump (a_CHK_COUNT die r.det.origin) f_CHK_COUNT_COUNT
  let s2 := if 4 ≤ n && decide (n ≤ 6) then s1 else
    (List.range 8).foldl (fun t w => t.setReg (a_CHK_LOG die n w) (BitVec.ofNat 64 (r.num / 2 ^ (64 * w)))) s1
  let old := (s2.chkOf die).waiting
  let s3 := if old.any fun e => e.1 == n then s2.bump ptr f_CHK_LOGPTR_LOST else s2
  let waiting := (old.filter fun e => e.1 != n) ++ [(n, r)]
  let s4 := (s3.setChk die { s3.chkOf die with rseq := r.rseq, waiting := waiting }).setFlds ptr
    [(f_CHK_LOGPTR_NEXT, n + 1), (f_CHK_LOGPTR_PENDING, waiting.length)]
  (if r.det.core < 13 && decide (die < 12) then s4.fire (13 * die + r.det.core) 8 else s4).sendEvt die 12 4 0xF (waiting.length % 32)

/-! ### Quarantine -/

/-- A condition as it is judged (R221): the lowest and highest seen, its least span, and the values of the history: 0 none,
1 low, 2 high, 3 not judged. -/
def judge (lo hi span : Int) (vs : List Int) : Nat :=
  if hi - lo < span || vs.length < 2 then 3
  else if vs.all fun v => decide (4 * lo + 3 * (hi - lo) ≤ 4 * v) then 2
  else if vs.all fun v => decide (4 * v ≤ 4 * lo + (hi - lo)) then 1
  else 0

/-- The values of condition i in a history entry: TEMP, VOLT, CLOCK, PDUTY, TOGGLE. -/
def HistEnt.value (h : HistEnt) (i : Nat) : Int :=
  match i with
  | 0 => signed 16 h.temp
  | 1 => (h.volt : Int)
  | 2 => (h.clock : Int)
  | 3 => (bits h.lps 63 56 : Int)
  | _ => (bits h.lps 39 32 : Int)

/-- The least spans of R221. -/
def condSpan (i : Nat) : Int :=
  match i with
  | 0 => 80
  | 1 => 10
  | 2 => 100
  | _ => 32

/-- The conditions word of a unit (R221). -/
def UnitState.cond (u : UnitState) : Nat :=
  let js := (List.range 5).map fun i =>
    let r := u.ranges.getD i (0, 0)
    judge r.1 r.2 (condSpan i) (u.hist.map fun h => h.value i)
  let same := decide (2 ≤ u.hist.length) && u.hist.all fun h => bits h.lps 31 0 == bits (u.hist.headD ⟨0, 0, 0, 0, 0⟩).lps 31 0
  ((List.range 5).map fun i => js.getD i 0 * 2 ^ (2 * i)).sum + b2n same * 2 ^ 10

/-- The least and greatest of a list of numbers, 0 of none. -/
def least (l : List Int) : Int := l.foldl min (l.headD 0)
def greatest (l : List Int) : Int := l.foldl max (l.headD 0)

/-- The parts of a unit number. -/
def unitKind (u : Nat) : Nat := u / 0x1000
def unitDie (u : Nat) : Nat := u / 0x100 % 16
def unitCore (u : Nat) : Nat := u / 0x10 % 16
def unitSub (u : Nat) : Nat := u % 16

/-- The words of a quarantine entry (R228). -/
def quarWord (u udie faults : Nat) : Nat :=
  2 ^ 63 + unitKind u * 2 ^ 44 + udie * 2 ^ 40 + unitCore u * 2 ^ 36 + unitSub u * 2 ^ 32 + faults * 2 ^ 16

/-- Whether quarantine entry n holds a unit. -/
def State.quarUsed (s : State) (n : Nat) : Bool := s.fld (a_CHK_QUNIT 12 n) f_CHK_QUNIT_VALID == 1

/-- The unit of quarantine entry n. -/
def State.quarUnit (s : State) (n : Nat) : Nat :=
  let a := a_CHK_QUNIT 12 n
  let k := s.fld a f_CHK_QUNIT_UKIND
  if k = 7 then unitId 7 0 0xF 0xF
  else unitId k (s.fld a f_CHK_QUNIT_DIE) (s.fld a f_CHK_QUNIT_CORE) (s.fld a f_CHK_QUNIT_SUB)

/-- USED counted afresh. -/
def State.quarCount (s : State) : State :=
  s.setFld (a_CHK_QSTATUS 12) f_CHK_QSTATUS_USED ((List.range 64).filter s.quarUsed).length

/-- A unit's entry stored, or FULL set (R223). -/
def State.quarStore (s : State) (u udie tide : Nat) : State :=
  let x := s.unit u
  match (List.range 64).find? fun n => !s.quarUsed n with
  | none => s.setFld (a_CHK_QSTATUS 12) f_CHK_QSTATUS_FULL 1
  | some n =>
    let s1 := (s.setReg (a_CHK_QUNIT 12 n) (BitVec.ofNat 64 (quarWord u udie x.hist.length))).setReg (a_CHK_QCOND 12 n)
      (BitVec.ofNat 64 (tide / 1_000_000_000 % 2 ^ 32 * 2 ^ 32 + x.cond))
    { s1.quarCount with applied := s1.applied ++ [⟨0x31_0000 + n, 1⟩] }

/-- What quarantine does at once (R222): a core's units have it retired by a stand-in, a lane engine's lane takes a lane fault. -/
def State.quarAct (s : State) (u : Nat) : State :=
  if unitKind u < 4 then { s with standAsks := s.standAsks ++ [(13 * unitDie u + unitCore u, false)] }
  else if unitKind u = 6 then { s with laneAsks := s.laneAsks ++ [(unitDie u, unitCore u * 16 + unitSub u)] }
  else s

/-- The UNIT_QUARANTINED record of a unit (R218, R221). -/
def State.quarRecord (s : State) (d : Detection) (u : Nat) : State :=
  let x := s.unit u
  let ts := x.hist.map fun h => h.value 0
  let vs := x.hist.map fun h => h.value 1
  let d1 := unsigned 16 (least ts) + unsigned 16 (greatest ts) * 2 ^ 16 + unsigned 16 (least vs) * 2 ^ 32
    + unsigned 16 (greatest vs) * 2 ^ 48
  let sub := if unitKind u = 0 then 2 ^ unitSub u else if unitKind u = 7 then d.sub else unitSub u
  let q : Detection := { d with
    code := Code.UNIT_QUARANTINED
    origin := 8
    sub := sub
    seq := 0
    detail0 := x.cond
    detail1 := d1
    shared := false
    rep := false }
  s.chkLog (s.chkRecord q)

/-- A unit quarantined (R221 to R223), unless it stands quarantined. -/
def State.quarantine (s : State) (d : Detection) (u : Nat) : State :=
  if (s.unit u).quarantined then s
  else
    let s1 := s.setUnit u { s.unit u with quarantined := true }
    ((s1.quarStore u d.udie d.tide).quarAct u).quarRecord d u

/-- Whether a unit's history calls for quarantine (R220). -/
def State.quarDue (s : State) (u : Nat) : Bool :=
  let n := s.fld (a_CHK_QPOLICY 12) f_CHK_QPOLICY_N
  let w := s.fld (a_CHK_QPOLICY 12) f_CHK_QPOLICY_WINDOW
  let h := (s.unit u).hist.take n
  n != 0 && h.length == n && decide ((h.headD ⟨0, 0, 0, 0, 0⟩).tide ≤ (h.getLastD ⟨0, 0, 0, 0, 0⟩).tide + w * 1_000_000_000)

/-- A record put into a unit's history, the newest first (R219). -/
def State.addHist (s : State) (u : Nat) (r : ChkRec) : State :=
  let x := s.unit u
  s.setUnit u { x with hist := (⟨r.det.tide, r.temp, r.volt, r.clock, r.lps⟩ :: x.hist).take 4 }

/-- Whether a record is one of those that start a stand-in (the first two rows of R429): of an active core, or of the proof core while it
stands in for one. -/
def State.standsIn (s : State) (d : Detection) : Bool :=
  (decide (d.core < 12) || (d.core == 12 && s.standingIn d.die)) && decide (d.die < 12) && (d.code == Code.PRESS_CHECKSUM || d.code == Code.RESIDUE_MISMATCH
    || (d.code == Code.PROOF_MISMATCH && d.ukind != 4) || d.code == Code.DOUBLE_TRAP)

/-- Whether a detection goes before another of its die (R217). -/
def Detection.before (a b : Detection) : Bool :=
  let key (d : Detection) : Nat := (((d.tide * 16 + d.origin) * 16 + d.ukind) * 16 + d.core) * 16 + d.sub
  decide (key a < key b)

/-- The first detection of a die by R217's order. -/
def firstDetection (die : Nat) : List Detection → Option Detection
  | [] => none
  | d :: r => if d.die ≠ die then firstDetection die r else match firstDetection die r with
    | none => some d
    | some e => if e.before d then some e else some d

/-- CHK_RECORD: the CHK block of a die takes its next detection (R217 to R222, R430). -/
def execChkRecord (die : Nat) (s : State) : Host.Outcome State Fault Refusal :=
  match firstDetection die s.detections with
  | none => .next s
  | some d =>
    let r := s.chkRecord d
    let s1 := { s with detections := s.detections.erase d }
    let us := if r.rehearsal then [] else d.units
    let s2 := us.foldl (fun t u => t.addHist u r) s1
    let s3 := s2.chkLog r
    let s4 := us.foldl (fun t u => if t.quarDue u then t.quarantine d u else t) s3
    .next (if s.standsIn d then { s4 with standAsks := s4.standAsks ++ [(13 * d.die + d.core, false)] } else s4)

/-- CHK_LOG_COLLECT: the management processor takes every record that a die's log holds, in RSEQ order, to the status ring
and its harbourmaster (R217). -/
def execChkLogCollect (die : Nat) (s : State) : Host.Outcome State Fault Refusal :=
  let k := s.chkOf die
  let s1 := (s.setChk die { k with waiting := [] }).setFld (a_CHK_LOGPTR die) f_CHK_LOGPTR_PENDING 0
  .next (k.waiting.foldl (fun t e =>
    t.recordAt e.2.det.tide e.2.det.code 1 (bytesLE 64 e.2.num) die e.2.det.part e.2.rehearsal) s1)

/-- The core clock of a die in MHz, or the base-die clock (R216, R241). -/
def State.clockMHz (s : State) (die : Nat) : Nat :=
  if die < 12 then 25 * s.fld (a_PWR_STATUS die) f_PWR_STATUS_CLOCK else 1250

/-- The least tide that a record of a die still to come can carry. -/
def State.detectCut (s : State) (die : Nat) : Nat :=
  (s.detections.filter fun d => d.die == die).foldl (fun m d => min m d.tide) (s.tideOf die)

/-- CHK_CONDITION_SAMPLE: the CHK block takes TEMP, VOLT and CLOCK from the die's power and clock blocks, and MIX of each core; the shares of
busy cycles and changing bits in [63:32] of the load patterns of cores 0 to 12 come with it (R216). -/
def execChkConditionSample (die : Nat) (patterns : List Word) (s : State) : Host.Outcome State Fault Refusal :=
  let k := s.chkOf die
  let x : CondSample :=
    ⟨s.tideOf die, s.fld (a_PWR_SENSE die) f_PWR_SENSE_TEMP, s.fld (a_PWR_SENSE die) f_PWR_SENSE_VOLT, s.clockMHz die,
      (List.range 13).foldl (fun m n => Tbl.set 0 m n ((patterns.getD n 0).toNat / 2 ^ 32 * 2 ^ 32 +
        if die < 12 then (s.core (13 * die + n)).mixWord else 0)) []⟩
  .next (s.setChk die { k with samples := keepSamples (s.detectCut die) (x :: k.samples) })

/-! ### Ranges and clearing -/

/-- Whether a core is enabled: its cluster has a window, and it does not stand retired. -/
def State.coreEnabled (s : State) (c : Nat) : Bool :=
  let has (k : Nat) : Bool := s.fld (a_GALLEY_WIN (coreDie c) k) f_GALLEY_WIN_SIZE != 0
  (if coreNo c = 12 then has 0 || has 1 else has (s.clusterOf c)) && (s.core c).run != .retired

/-- The enabled units of a die (R221). -/
def State.enabledUnits (s : State) (die : Nat) : List Nat :=
  if die < 12 then
    let cores := (List.range 12).filter fun n => s.coreEnabled (13 * die + n)
    (cores.flatMap fun n => ((List.range 4).map fun p => unitId 0 die n p) ++ [unitId 1 die n 0xF, unitId 2 die n 0xF,
        unitId 3 die n 0xF])
      ++ (if s.coreEnabled (13 * die + 12) then (List.range 4).map (unitId 4 die 12) ++ [unitId 4 die 12 0xF] else [])
      ++ [unitId 5 die 0xF 0xF] ++ (List.range 9).map (unitId 8 die 0xF)
  else
    (List.range 3).map (fun j => unitId 5 die 0xF (3 * (die - 12) + j))
      ++ (List.range 96).map (fun l => unitId 6 die (l / 16) (l % 16))
      ++ if die = 12 then [unitId 7 0 0xF 0xF] else []

/-- A range taking in a value. -/
def widen (r : Option (Int × Int)) (v : Int) : Int × Int :=
  match r with
  | none => (v, v)
  | some p => (min p.1 v, max p.2 v)

/-- QUARANTINE_RANGE_SAMPLE: every enabled unit of a die takes the conditions into its lowest and highest (R221). -/
def execQuarantineRangeSample (die : Nat) (s : State) : Host.Outcome State Fault Refusal :=
  let k := (s.chkOf die).last
  .next ((s.enabledUnits die).foldl (fun t u =>
    let h : HistEnt := ⟨0, k.temp, k.volt, k.clock, k.pattern (unitKind u) (unitCore u)⟩
    let x := t.unit u
    t.setUnit u { x with ranges := (List.range 5).map fun i => widen x.ranges[i]? (h.value i) }) s)

/-- Entry n and the history of its unit cleared (R223). -/
def State.quarClear (s : State) (n : Nat) : State :=
  if s.quarUsed n then
    let u := s.quarUnit n
    let s1 := s.setUnit u { s.unit u with hist := [], quarantined := false }
    let s2 := { s1 with boot := { s1.boot with unstored := s1.boot.unstored.filter fun i => i != n } }
    ((s2.setReg (a_CHK_QUNIT 12 n) 0).setReg (a_CHK_QCOND 12 n) 0).quarCount
  else s

/-- What the command of the same row does. -/
def State.doQuarantineClearEntry (t : State) (entry : Nat) : State := t.quarClear (entry % 64)

/-- QUARANTINE_CLEAR_ENTRY (R223). -/
def execQuarantineClearEntry (src : Source) (entry : Nat) (s : State) : Host.Outcome State Fault Refusal :=
  .next (s.command src (cmdClearEntry entry) fun t => t.doQuarantineClearEntry entry)

/-- What the command of the same row does. -/
def State.doQuarantineClearAll (t : State) : State :=
  (List.range 64).foldl (fun u n => if t.applied.contains ⟨0x31_0000 + n, 1⟩ then u else u.quarClear n) t

/-- QUARANTINE_CLEAR_ALL (R223): an entry made in this tide tick stays. -/
def execQuarantineClearAll (src : Source) (s : State) : Host.Outcome State Fault Refusal :=
  .next (s.command src cmdClearAll fun t => t.doQuarantineClearAll)

/-! ### Proof of a vector instruction -/

/-- A detection of ORIGIN 4 about a sampled vector instruction (R211, R215). -/
def State.vproofDetect (s : State) (v : VProof) (diff : BitVec 2048) (flags : BitVec 5) (ukind core : Nat) : State :=
  let die := coreDie v.core
  s.detect ⟨die, s.tideOf die, Code.PROOF_MISMATCH, 4, ukind, die, core, 0xF, s.partOf v.core, v.instret,
    diff.toNat % 2 ^ 64, flags.toNat * 2 ^ 32 + v.word, false, true⟩

/-- The vector unit of a core stopped and its pilot halted, as R198 does. -/
def State.vecStop (s : State) (c : Nat) : State :=
  (s.setFld (a_VEC_STATUS (coreDie c) (coreNo c)) f_VEC_STATUS_STOPPED 1).modCore c fun k => k.halt

/-- The comparison of two results of a sampled instruction (R210): what differs in the destination, lanes outside the mask left out, and in
the flags raised. -/
def VProof.differ (v : VProof) (x y : VecFault) : BitVec 2048 × BitVec 5 :=
  ((v.orig.diff v.proof ^^^ x.dest ^^^ y.dest) &&& v.ops.compared v.word,
    v.orig.vflags.setWidth 5 ^^^ v.proof.vflags.setWidth 5 ^^^ x.flags ^^^ y.flags)

/-- VECTOR_PROOF_COMPARE: the proof core's result of the oldest waiting vector instruction is compared with the original's, and where
they differ it is proved a second time with its lanes one physical lane higher, which gives the same result but for faults (R210,
R211). `orig`, `first` and `second` are faults of the hardware in the original's result and in the two proofs. -/
def execVectorProofCompare (die : Nat) (orig first second : VecFault) (s : State) :
    Host.Outcome State Fault Refusal :=
  s.ifClock die <|
  match (s.chkOf die).vproofs with
  | [] => .next s
  | v :: rest =>
    let s1 := s.setChk die { s.chkOf die with vproofs := rest }
    let d := v.differ orig first
    let bad := (s1.vecStop v.core).vproofDetect v d.1 d.2 2 (coreNo v.core)
    if d.1 = 0 && d.2 == 0 then .next (s1.bump (a_CHK_PROOF_DONE die) f_CHK_PROOF_DONE_VECTOR)
    else
      let e := v.differ orig second
      if e.1 = 0 && e.2 == 0 then .next ((s1.vproofDetect v d.1 d.2 4 12).proofEnd die)
      else
        let same := ((first.dest ^^^ second.dest) &&& v.ops.compared v.word == 0) && first.flags == second.flags
        .next (if same then bad else (bad.vproofDetect v d.1 d.2 4 12).proofEnd die)

end Sys2Proof.Machine
end

