-- ==== Sys2Proof/Machine/LighterRows.lean ====
section
/-! DEFINITION. The lighter at work: descriptors starting, their responses, XVERIFY (06_result_checking.md R203, R204), streams
(11_collectives_and_job_mapping.md R354 to R356), and the proof of a tile that a drain or stream waits for (R209 to R212). -/

namespace Sys2Proof.Machine
open Sys2Proof

/-! ### Descriptors -/

/-- LIGHTER_LOAD; it also takes an OP that is not defined, which ends with LIGHTER_BAD_OP (R338 to R342). -/
def execLighterLoad (c : Nat) (s : State) : Host.Outcome State Fault Refusal :=
  .next (s.ltrStart c (fun d => hdOp d == 1 || (lighterLen (hdOp d)).isNone) fun t q d rid => t.startLoad c q d rid)

/-- LIGHTER_PUT (R338 to R343). -/
def execLighterPut (c : Nat) (s : State) : Host.Outcome State Fault Refusal :=
  .next (s.ltrStart c (fun d => hdOp d == 2) fun t q d rid => t.startPut c q d rid)

/-- LIGHTER_STORE (R338 to R343). -/
def execLighterStore (c : Nat) (s : State) : Host.Outcome State Fault Refusal :=
  .next (s.ltrStart c (fun d => hdOp d == 3) fun t q d rid => t.startStore c q d rid)

/-- LIGHTER_RLADD32 (R202, R338 to R340). -/
def execLighterRladd32 (c : Nat) (s : State) : Host.Outcome State Fault Refusal :=
  .next (s.ltrStart c (fun d => hdOp d == 0x10) fun t q d rid => t.startRlAdd c q d rid 4)

/-- LIGHTER_RLADD64 (R202, R338 to R340). -/
def execLighterRladd64 (c : Nat) (s : State) : Host.Outcome State Fault Refusal :=
  .next (s.ltrStart c (fun d => hdOp d == 0x11) fun t q d rid => t.startRlAdd c q d rid 8)

/-- LIGHTER_ATOMIC (R338 to R340). -/
def execLighterAtomic (c : Nat) (s : State) : Host.Outcome State Fault Refusal :=
  .next (s.ltrStart c (fun d => hdOp d == 0x18) fun t q d rid => t.startAtomic c q d rid)

/-- LIGHTER_SIGNAL (R338 to R340, R344). -/
def execLighterSignal (c : Nat) (s : State) : Host.Outcome State Fault Refusal :=
  .next (s.ltrStart c (fun d => hdOp d == 0x20) fun t q d rid => t.startSignal c q d rid)

/-- CCSET (R339, R344). -/
def execCcset (c : Nat) (s : State) : Host.Outcome State Fault Refusal :=
  .next (s.ltrStart c (fun d => hdOp d == 0x22) fun t q d _ => t.startCcset c q d)

/-! ### XVERIFY -/

/-- The checks of R203. -/
def State.xverifyCheck (s : State) (c d : Nat) : Option Nat :=
  let n := bits d 376 352 + 1
  ltrCheck [(hdLen d != 3 || hdReserved d || bits d 383 381 != 0 || bits d 379 378 != 0 || bits d 303 176 != 0, Code.BAD_DESCRIPTOR),
    (!s.localOk c (bits d 175 128) (4096 * n) 4096 || !s.localOk c (bits d 351 304) (8 * n) 8, Code.BAD_ADDRESS)]

/-- The linear tally of the block at an address, for elements of `w` bytes (R201). -/
def blockTally (key : Word) (w a : Nat) (bs : List Byte) : Nat :=
  linTally key (8 * w) (a / w) ((List.range (4096 / w)).map fun j => natLE ((bs.drop (w * j)).take w))

/-- XVERIFY over its blocks from block i on: MODE 1 writes each check word; MODE 0 finds the lowest block that fails, with its
check word and tally, and goes on. An access that fails ends it with its code (R204). -/
def State.xverifyGo (s : State) (c d w : Nat) : Nat → Nat → Option (Nat × Nat × Nat) →
    State × Option (Nat × Nat) × Option (Nat × Nat × Nat)
  | 0, _, bad => (s, none, bad)
  | k + 1, i, bad =>
    let a := bits d 175 128 + 4096 * i
    let m := s.readMem a 4096 (coreNo c) 4
    if m.code ≠ 0 then (m.st, some (m.code, 4096 * i), bad)
    else
      let l := blockTally (s.ltrKey c) w a m.bytes
      let cw := bits d 351 304 + 8 * i
      if bit d 380 then
        let r := m.st.unitWrite cw (bytesLE 8 l)
        if r.code ≠ 0 then (r.st, some (r.code, 4096 * i), bad) else r.st.xverifyGo c d w k (i + 1) bad
      else
        let r := m.st.readMem cw 8 (coreNo c) 4
        if r.code ≠ 0 then (r.st, some (r.code, 4096 * i), bad)
        else
          let old := natLE r.bytes
          let fails := decide (old % 2 ^ (8 * w) ≠ l)
          r.st.xverifyGo c d w k (i + 1) (match bad with
            | some b => some b
            | none => if fails then some (i, old, l) else none)

/-- The record of a failed XVERIFY, about the adder that holds the block (R204, R214, R215). -/
def State.xverifyRecord (s : State) (c a word l : Nat) : State :=
  let die := coreDie c
  let u := if isGalley a then (galleyDie a, 0xF) else (homeOf a, stackOf a)
  s.detect ⟨die, s.tideOf die, Code.TALLY_MISMATCH, 6, 5, u.1, 0xF, u.2, s.partOf c, a / 4096, word, l, false, false⟩

/-- An XVERIFY started and ended (R203, R204). -/
def State.startXverify (s : State) (c q d : Nat) : State :=
  match s.xverifyCheck c d with
  | some code => s.ltrRefuse c q d code
  | none =>
    if s.levelOf c = 0 then s.raise c (hdRaise d)
    else match s.xverifyGo c d (if bit d 377 then 8 else 4) (bits d 376 352 + 1) 0 none with
      | (t, some (code, unit), _) => t.lighterError c q d code unit 0
      | (t, none, some (i, word, l)) =>
        (t.xverifyRecord c (bits d 175 128 + 4096 * i) word l).lighterError c q d Code.TALLY_MISMATCH (4096 * i) 0
      | (t, none, none) => t.raise c (hdRaise d)

/-- XVERIFY_SET: XVERIFY MODE 1 (R203, R204). -/
def execXverifySet (c : Nat) (s : State) : Host.Outcome State Fault Refusal :=
  .next (s.ltrStart c (fun d => hdOp d == 0x38 && bit d 380) fun t q d _ => t.startXverify c q d)

/-- XVERIFY_VERIFY: XVERIFY MODE 0 (R203, R204). -/
def execXverifyVerify (c : Nat) (s : State) : Host.Outcome State Fault Refusal :=
  .next (s.ltrStart c (fun d => hdOp d == 0x38 && !bit d 380) fun t q d _ => t.startXverify c q d)

/-! ### Streams -/

/-- The hold of the oldest stream of a queue that has not started: the places of those started are in the requests. -/
def State.nextStream (s : State) (c q : Nat) : Option StreamHold :=
  (s.press c).streams.find? fun x => x.queue == q && !((s.ltr c).reqs.any fun e => match e.2 with
    | some r => (match r.stream with
      | some t => t.ord == x.ord && !r.ghost
      | none => false)
    | none => false)

/-- A stream's hold given up. -/
def State.dropStream (s : State) (c ord : Nat) : State :=
  s.modPress c fun p => { p with streams := p.streams.filter fun x => x.ord != ord }

/-- The checks of R340 and R356 on a STREAM, in the order of R356's table. -/
def State.streamCheck (s : State) (c d : Nat) : Option Nat :=
  let g := bits d 479 416
  let n := bits d 599 596 + 1
  let sb := bits d 383 336
  ltrCheck [(hdLen d != 5 || hdReserved d || bits d 609 600 != 0 || bits d 580 576 != 0 || bits d 387 384 != 0 || bits d 335 128 != 0
        || (bit d 623 && bits d 639 624 == 0), Code.BAD_DESCRIPTOR),
    (s.rlDstBad c g n (bits d 527 480) (bits d 575 528) (bit d 588), Code.BAD_ADDRESS),
    (!s.reachable c (gaNode g), Code.NODE_UNREACHABLE),
    (decide (15 < bits d 595 592 + bits d 599 596), Code.BAD_DESCRIPTOR),
    (!guardOk 32 (signed 16 (bits d 415 400)) (bits d 586 581), Code.BAD_SCALE),
    (sb % 4096 != 0 || !s.galleyOk c sb (4096 * n), Code.BAD_ADDRESS)]

/-- A STREAM started (R354, R356). One whose LEN is wrong has named no set, and drops no hold. -/
def State.startStream (s : State) (c q d rid : Nat) : State :=
  if !isStream d then s.ltrRefuse c q d Code.BAD_DESCRIPTOR
  else match s.nextStream c q with
  | none => s.ltrRefuse c q d (match s.streamCheck c d with
    | some code => code
    | none => Code.PRESS_HALTED)
  | some h =>
    match s.streamCheck c d with
    | some code => (s.dropStream c h.ord).ltrRefuse c q d code
    | none =>
      if h.lost then (s.dropStream c h.ord).ltrRefuse c q d Code.PRESS_HALTED
      else
        let cells := 128 * (bits d 599 596 + 1)
        s.setRequest c rid (some
          { newRequest q d cells with len := 4096 * (bits d 599 596 + 1)
                                      stream := some ⟨h.ord, bit d 588 && s.levelOf c != 0, false, [], none⟩ })

/-- The first request of a lighter that is a stream of which `ok` holds. -/
def State.findStream (s : State) (c : Nat) (ok : StreamRun → Bool) : Option (Nat × Request × StreamRun) :=
  (s.ltr c).reqs.findSome? fun e => match e.2 with
    | some r => (match r.stream with
      | some t => if ok t && !r.ghost then some (e.1, r, t) else none
      | none => none)
    | none => none

/-- A stream that ends with an error before it has sent (R343, R356). -/
def State.failStream (s : State) (c rid : Nat) (r : Request) (ord code : Nat) : State :=
  (s.dropStream c ord).finish c rid { r with fail := some (code, 0, targetOf r.desc), stream := none }

/-- The stream that may take its set now: every drain, clear and stream before it is done with the set, and every PRESS into it is
complete (R77, R355). -/
def State.holdable (s : State) (c : Nat) : Option StreamHold :=
  let p := s.press c
  p.streams.find? fun x => !x.held && !x.lost && !p.before x.set x.ord && !p.incomplete x.set
    && (s.findStream c fun t => t.ord == x.ord).isSome

/-- STREAM: a STREAM starts where it is the head due next; and the first started stream that may take its set holds it (R354,
R355). -/
def execStream (c : Nat) (s : State) : Host.Outcome State Fault Refusal :=
  let s1 := s.ltrStart c (fun d => hdOp d == 0x28) fun t q d rid => t.startStream c q d rid
  .next (match s1.holdable c with
    | none => s1
    | some x => s1.modPress c fun p =>
      { p with streams := p.streams.map fun y => if y.ord = x.ord then { y with held := true } else y })

/-- The rows of a stream's blocks read from row i on (R79, R355): each row checked, its sticks converted by R38, the elements and
the flags of its block gathered; the row and difference at which the drain check failed. -/
def PressState.streamRows (p : PressState) (set : Nat) (G : Int) (g : Nat) : Nat → Nat → List Nat → List Nat →
    List Nat × List Nat × Option (Nat × Nat)
  | 0, _, els, fls => (els, fls, none)
  | n + 1, i, els, fls =>
    if Tbl.get false p.ckv set && p.rowDiff set i != 0 then (els, fls, some (i, p.rowDiff set i))
    else
      let xs := (List.range 128).map fun j => stickToRL 32 G g (Tbl.get 0 p.qe set) (p.stickAt set i j)
      let fl := xs.foldl (fun a x => a ||| x.2) 0
      let fls' := if i % 8 = 0 then fls ++ [fl] else fls.dropLast ++ [fls.getLastD 0 ||| fl]
      p.streamRows set G g n (i + 1) (els ++ xs.map fun x => unsigned 32 x.1) fls'

/-- The read of a held stream (R355, R356): its blocks go to SBUF and the set is released; or a drain check fails and the press
halts. -/
def State.readStream (s : State) (c rid : Nat) (r : Request) (t : StreamRun) (h : StreamHold) : State :=
  let d := r.desc
  let n := bits d 599 596 + 1
  let G := signed 16 (bits d 415 400)
  let p := s.press c
  match p.streamRows h.set G (bits d 586 581) (8 * n) (8 * bits d 595 592) [] [] with
  | (_, _, some (row, diff)) =>
    (s.failStream c rid r h.ord Code.PRESS_CHECKSUM).pressFail c (s.partOf c) 1 (Tbl.get 0 p.lastSeq h.set) (2 ^ h.set) h.set row 1
      diff false
  | (els, fls, none) =>
    let bs := els.flatMap fun e => bytesLE 4 e
    let words := fls.map fun f => blockWord G f
    let s1 := (s.galleyWrite (coreDie c) (coreNo c) 4 (bits d 383 336) bs).dropStream c h.ord
    let proved := s1.provesNext c h.set
    let s2 := if proved then s1.proofDrained c h.set d true (bs ++ words.flatMap fun w => bytesLE 4 w) else s1
    let s3 := if h.clear then s2.clearSet c h.set h.qe else s2
    let t1 : StreamRun := { t with read := true, words := words
                                   proof := if proved then ((s2.chkOf (coreDie c)).tproof.bind TProof.tally) else none }
    s3.setRequest c rid (some { r with stream := some t1 })

/-- STREAM_READ_END: the read of the first stream that holds its set ends; one whose press has halted, or whose set has been
cleared, ends with PRESS_HALTED (R355, R356). `flips` are faults of the hardware in the sticks. -/
def execStreamReadEnd (c : Nat) (flips : List StickFlip) (s : State) : Host.Outcome State Fault Refusal :=
  s.ifClock (coreDie c) <|
  let hold (t : StreamRun) : Option StreamHold := (s.press c).streams.find? fun x => x.ord == t.ord
  match s.findStream c fun t => !t.read && (match hold t with
    | some x => x.held || x.lost
    | none => true) with
  | none => .next s
  | some (rid, r, t) => .next (match hold t with
    | none => s.failStream c rid r t.ord Code.PRESS_HALTED
    | some x =>
      if x.lost then s.failStream c rid r t.ord Code.PRESS_HALTED
      else (s.modPress c fun p => p.flip flips).readStream c rid r t x)

/-- Whether the proof that a stream waits for is still to come (R209). -/
def State.streamProving (s : State) (c : Nat) (d : Nat) (t : StreamRun) : Bool :=
  t.proof.isSome && (match (s.chkOf (coreDie c)).tproof with
    | some x => x.core == c && x.set == bits d 591 590 && x.tally == t.proof
    | none => false)

/-- STREAM_SEND: the first stream whose read has ended, and whose proof has passed if its set was sampled, sends its blocks from
SBUF as RLADD32 cells (R355). It is issued into the fabric here, so that R130 counts it here, or suppresses it. -/
def execStreamSend (c : Nat) (s : State) : Host.Outcome State Fault Refusal :=
  s.ifClock (coreDie c) <|
  match s.findStream c fun t => t.read with
  | none => .next s
  | some (rid, r, t) =>
    if s.streamProving c r.desc t then .next s
    else
      let d := r.desc
      let n := bits d 599 596 + 1
      let m := s.readMem (bits d 383 336) (4096 * n) (coreNo c) 4
      let go (u : State) : State :=
        ((u.wuIssued c).setRequest c rid (some { r with stream := none })).sendBlocks c rid 4 (bits d 479 416) (bits d 527 480)
          (bits d 575 528) t.tally (bit d 587) ((List.range n).map fun i => ((m.bytes.drop (4096 * i)).take 4096, t.words.getD i 0))
      .next (if m.code ≠ 0 then m.st.finish c rid { r with fail := some (m.code, cellOffset d (m.at_ - bits d 383 336), targetOf d), stream := none }
        else if r.quiet then go m.st
        else (m.st.setRequest c rid none).suppressed c d go)

/-! ### The proof of a tile -/

/-- A detection of ORIGIN 3 about a tile (R211, R215, R218). -/
def State.tproofDetect (s : State) (t : TProof) (tally proof ukind core sub : Nat) (rep : Bool) : State :=
  let die := coreDie t.core
  s.detect ⟨die, s.tideOf die, Code.PROOF_MISMATCH, 3, ukind, die, core, sub, s.partOf t.core, t.seq, tally, proof, false, rep⟩

/-- A drain or stream whose proof failed ends with PROOF_MISMATCH and raises nothing (R211, R356). -/
def State.proofFailed (s : State) (t : TProof) (tally : Nat) : State :=
  let c := t.core
  let s1 := match (s.press c).drains.find? fun d => d.proves t.set with
    | some d => s.drainFailed c d Code.PROOF_MISMATCH
    | none => s
  match s1.findStream c fun x => x.read && x.proof == some tally with
  | some (rid, r, x) => if bits r.desc 591 590 = t.set then s1.failStream c rid r x.ord Code.PROOF_MISMATCH else s1
  | none => s1

/-- What the proof core's own drain or stream of its set p puts out, with writes suppressed (R208 step 4); nothing where its own checksum
column fails a row. That drain leaves PRESS_RD_STATUS of the proof core's window as it was and clears no set of its own, whatever CLEAR says
(DESIGN CHOICE, log entry 27). -/
def State.proofOut (s : State) (die p : Nat) (t : TProof) : Option (List Byte) :=
  let x := s.press (proofCore die)
  let d := t.desc
  if t.stream then
    let G := signed 16 (bits d 415 400)
    match x.streamRows p G (bits d 586 581) (8 * (bits d 599 596 + 1)) (8 * bits d 595 592) [] [] with
    | (els, fls, none) => some ((els.flatMap fun e => bytesLE 4 e) ++ fls.flatMap fun f => bytesLE 4 (blockWord G f))
    | _ => none
  else if (List.range 128).any fun i => Tbl.get false x.ckv p && x.rowDiff p i != 0 then none
  else
    let rows := (List.range 128).map fun i => drainRow d (Tbl.get 0 x.qe p) ((List.range 128).map fun j => x.stickAt p i j)
    some (rows.flatMap Prod.fst ++ rows.flatMap fun r => r.2.1)

/-- The tally of a proof on the proof core's set p, with the faults of the hardware in it; nothing where its own checksum column fails. -/
def State.proofTally (s : State) (die p : Nat) (t : TProof) (f : ProofFault) : Option Nat :=
  ((s.modPress (proofCore die) fun x => x.flip f.flips).proofOut die p t).map fun bs =>
    (bytesTally (s.reg (a_CHK_KEY die (s.clusterOf t.core))) bs ^^^ f.out).toNat

/-- The tile proved again from the copies kept, on another set of the proof core (R211). -/
def State.proveAgain (s : State) (die p : Nat) (t : TProof) : State :=
  t.jobs.foldl (fun u j => u.runProof die p j) (s.modPress (proofCore die) fun x => x.clear p t.qe true)

/-- The first row that the proof core's own checksum column fails on its set p, with the difference (R78, R79). -/
def State.proofRow (s : State) (die p : Nat) (t : TProof) : Option (Nat × Nat) :=
  let x := s.press (proofCore die)
  let rows := if t.stream then upFrom (8 * bits t.desc 595 592) (8 * (bits t.desc 599 596 + 1)) else List.range 128
  (rows.find? fun i => Tbl.get false x.ckv p && x.rowDiff p i != 0).map fun i => (i, x.rowDiff p i)

/-- The drain check of the proof core's own set p failed: its press halts, captures and counts as any (R80). -/
def State.proofColumn (s : State) (die p : Nat) (t : TProof) : State :=
  match s.proofRow die p t with
  | some (row, diff) => s.pressFail (proofCore die) (s.partOf t.core) 1 (Tbl.get 0 (s.press (proofCore die)).lastSeq p) (2 ^ p) p row 1
      diff false
  | none => s

/-- A proof that the proof core's own checksum column fails (R80, R211), `f` the faults of the hardware in it: its press halts, and the proof
is given up with a record that names the proof core, on which proofing ends (R429). `first` is the first proof's tally; where there is
none, the record holds a free value. -/
def State.proofOwn (s : State) (die p : Nat) (t : TProof) (tally : Nat) (first : Option Nat) (f : ProofFault) : State :=
  let u := (s.modPress (proofCore die) fun x => x.flip f.flips).proofColumn die p t
  let a := match first with
    | some a => (a, u)
    | none => (u.free.1.toNat, u.free.2)
  ((a.2.tproofDetect t tally a.1 4 12 p first.isSome).abandonTile die).proofEnd die

/-- The end of a tile whose two proofs are compared with the original (R211): a the first, b the second. -/
def State.proofVerdict (s : State) (die p : Nat) (t : TProof) (tally a b : Nat) : State :=
  let ended := s.setChk die { s.chkOf die with tproof := none }
  let bad := ((ended.proofFailed t tally).pressHalt t.core).tproofDetect t tally a 0 (coreNo t.core) (2 ^ t.set) true
  if b = a then bad
  else if b = tally then ((ended.tproofDetect t tally a 4 12 p true).proofRelease t.core t.set).proofEnd die
  else (bad.tproofDetect t tally a 4 12 p true).proofEnd die

/-- PROOF_COMPARE: the proof core drains its own set and its tally is compared with the original's. Equal, the drain's token is raised and
a stream may send; else the tile is proved a second time on set (p + 1) mod 4 (R208, R209, R211). `first` and `second` are faults of
the hardware in the two proofs. The proof core's own faulty platen is named by the set of the proof that differs. -/
def execProofCompare (die : Nat) (first second : ProofFault) (s : State) : Host.Outcome State Fault Refusal :=
  s.ifClock die <|
  match (s.chkOf die).tproof with
  | none => .next s
  | some t => match t.tally with
    | none => .next s
    | some tally => match s.proofTally die t.set t first with
      | none => .next (s.proofOwn die t.set t tally none first)
      | some a =>
        if a = tally then
          .next (((s.setChk die { s.chkOf die with tproof := none }).bump (a_CHK_PROOF_DONE die) f_CHK_PROOF_DONE_TILES).proofRelease
            t.core t.set)
        else
          let again := (t.set + 1) % 4
          let s1 := s.proveAgain die again t
          match s1.proofTally die again t second with
          | none => .next (s1.proofOwn die again t tally (some a) second)
          | some b => .next (s1.proofVerdict die t.set t tally a b)

/-! ### Responses -/

/-- The first response cell at a die that fits, taken off its list. -/
def State.takeCell (s : State) (die : Nat) (ok : Cell → Bool) : Option (Cell × State) :=
  let rec go : List HomeEnt → List HomeEnt → Option (Cell × List HomeEnt)
    | _, [] => none
    | pre, e :: r => match e.req.agent with
      | .cell c => if ok c then some (c, pre.reverse ++ r) else go (e :: pre) r
      | _ => go (e :: pre) r
  match go [] (s.homeList die) with
  | some (c, l) => some (c, s.setHome die l)
  | none => none

/-- A response handed to the request that it answers, if that is still there (R129, R341): the core, and the request. A response to a request
that the proof core itself made before it stood in is matched by its RID like any other of the lighter it then has (DESIGN CHOICE, log
entry 27). -/
def State.respond (s : State) (die : Nat) (ok : Cell → Bool) (f : State → Nat → Cell → Request → State) : State :=
  match s.takeCell die fun c => ok c && decide (c.core < 156) && coreDie c.core == die with
  | none => s
  | some (cell, s1) =>
    let c := s1.actor cell.core
    let s2 := s1.addWrap (a_LTR_CELLS_IN (coreDie c) (coreNo c)) f_LTR_CELLS_IN_COUNT 1
    match s2.request c cell.rid with
    | none => s2
    | some r => f s2 c cell r

/-- The runs of granules that GMASK names: the first of each, and how many (R314). -/
def maskRuns (g : Nat) : List (Nat × Nat) :=
  match g % 8 with
  | 0 => []
  | 1 => [(0, 1)]
  | 2 => [(1, 1)]
  | 3 => [(0, 2)]
  | 4 => [(2, 1)]
  | 5 => [(0, 1), (2, 1)]
  | 6 => [(1, 2)]
  | _ => [(0, 3)]

/-- How many granules GMASK names. -/
def granules (g : Nat) : Nat := ((maskRuns g).map Prod.snd).sum

/-- The runs of a READ_RSP: the granule of the transfer at which each begins, its granules, and its bytes (R314). -/
def rspRuns (cell : Cell) : List (Nat × Nat × List Byte) :=
  let bs := bytesLE 16 cell.g0 ++ bytesLE 16 cell.g1 ++ bytesLE 16 cell.g2
  (maskRuns cell.gmask).map fun x => (cell.addr / 2 ^ 24 + x.1, x.2, (bs.drop (16 * x.1)).take (16 * x.2))

/-- READ_RSP data written where a LOAD puts it (R339, R341, R342). -/
def State.loadData (s : State) (c : Nat) (cell : Cell) (r : Request) : State :=
  if r.ghost then s.advance c cell.rid { r with acked := r.acked + granules cell.gmask }
  else
    let own := ((rspRuns cell).map fun x => (contentTally (s.ltrKey c) (2 * x.1) (wordsLE (2 * x.2.1 + 1) x.2.2)).toNat).sum
    let s1 := if r.tallied then s.setRequest c cell.rid (some { r with own := (r.own + own) % 2 ^ 64 }) else s
    ((rspRuns cell).foldl (fun t x => t.writeLocal c cell.rid x.2.1 (16 * x.1) (bits r.desc 175 128 + 16 * x.1) x.2.2) s1).settleRequest
      (s.logical c) cell.rid

/-- CELL_READ_RSP: the first READ_RSP at a die, or the TCLOSE of a tallied READ, reaches the LOAD it answers; the last completes it
(R341, R342). -/
def execCellReadRsp (die : Nat) (s : State) : Host.Outcome State Fault Refusal :=
  .next (s.respond die (fun c => c.kind == 2 || s.loadClose die c) fun t c cell r =>
    if cell.kind = 2 then t.loadData c cell r
    else t.advance c cell.rid { r with acked := r.acked + 1, theirs := (r.theirs + cell.g0 % 2 ^ 64) % 2 ^ 64 })

/-- CELL_ATOMIC_RSP: the old value is written to RES, or the code ends the descriptor (R341, R343). -/
def execCellAtomicRsp (die : Nat) (s : State) : Host.Outcome State Fault Refusal :=
  .next (s.respond die (fun c => c.kind == 0xA) fun t c cell r =>
    let code := bits cell.g0 79 64
    let r1 := { r with acked := r.acked + 1 }
    if code ≠ 0 then t.advance c cell.rid (r1.failed code 0 (targetOf r.desc))
    else if r.ghost then t.advance c cell.rid r1
    else (t.writeLocal c cell.rid 1 0 (bits r.desc 191 144) (bytesLE 8 (cell.g0 % 2 ^ 64))).settleRequest (t.logical c) cell.rid)

/-- What an ACK counts for: cells; for a refused READ its granules and its TCLOSE (R342). -/
def Request.ackCount (r : Request) (count detail : Nat) : Nat :=
  if hdOp r.desc = 1 && !r.signalling then
    let i := (detail - gaLocal (targetOf r.desc)) / 768
    min 48 (r.len / 16 - 48 * i) + b2n r.tallied
  else count

/-- CELL_ACK: an ACK counts towards the descriptor it answers; one with a code makes it end with an error, a tally mismatch with
its record (R200, R341 to R343). -/
def execCellAck (die : Nat) (s : State) : Host.Outcome State Fault Refusal :=
  .next (s.respond die (fun c => c.kind == 0xB) fun t c cell r =>
    let code := bits cell.g0 31 16
    let detail := bits cell.g0 127 64
    let r1 := { r with acked := r.acked + r.ackCount (bits cell.g0 15 0) detail }
    if code = 0 then t.advance c cell.rid r1
    else if code = Code.TALLY_MISMATCH && !r.signalling then
      (if r.ghost then t else t.tallyRecord c r.desc r.own detail).advance c cell.rid (r1.failed code 0 detail)
    else t.advance c cell.rid (r1.failed code (if r.signalling then 0 else cellOffset r.desc (detail - gaLocal (targetOf r.desc))) detail))

/-! ### Collective contexts -/

/-- The first context, core by core, of which `ok` holds: core and counter. -/
def findCtx (ok : Nat → Nat → Bool) : Option (Nat × Nat) :=
  ((List.range 416).find? fun i => ok (i / 32) (i % 32)).map fun i => (i / 32, i % 32)

/-- COLLECTIVE_DEADLINE: the first context of a die that is OPEN as the tide has reached its D is aborted, and an ABORT sent (R359
to R361). -/
def execCollectiveDeadline (die : Nat) (s : State) : Host.Outcome State Fault Refusal :=
  .next (match findCtx fun c n => s.collState die c n == 1 && decide ((s.reg (a_COLL_CTX die c n 1)).toNat ≤ s.tideOf die) with
    | none => s
    | some x => s.collDeadline die x.1 x.2)

/-- COLLECTIVE_FINAL: the first DONE context of a die whose D + GRACE has been reached becomes FINAL, with its arrival record
(R359, R365, R366). -/
def execCollectiveFinal (die : Nat) (s : State) : Host.Outcome State Fault Refusal :=
  .next (match findCtx fun c n => s.collState die c n == 2
      && decide ((s.reg (a_COLL_CTX die c n 1)).toNat + s.fld (a_COLL_CTL die) f_COLL_CTL_GRACE ≤ s.tideOf die) with
    | none => s
    | some x => (s.setFld (a_COLL_CTX die x.1 x.2 0) f_COLL_CTX_STATE 3).arrival die x.1 x.2)

end Sys2Proof.Machine
end

