-- ==== Sys2Proof/Machine/Rs.lean ====
section
/-! DEFINITION. The code of a lane (09_pholux_photonics.md R290): Reed–Solomon (136,128) over GF(2^8), the descrambler, and cells as
64 bytes (10_tideway_fabric.md R312, R313). -/

namespace Sys2Proof.Machine
open Sys2Proof

/-! ### GF(2^8) -/

/-- A product in GF(2^8) by the polynomial 0x11D; `n` bits of `b` are still to be used. -/
def gmulGo : Nat → Nat → Nat → Nat
  | 0, _, _ => 0
  | n + 1, a, b => (if b % 2 = 1 then a else 0) ^^^ gmulGo n (if a < 128 then 2 * a else (2 * a) ^^^ 0x11D) (b / 2)

def gmul (a b : Nat) : Nat := gmulGo 8 a b

/-- A power in GF(2^8). -/
def gpow (a : Nat) : Nat → Nat
  | 0 => 1
  | n + 1 => gmul a (gpow a n)

/-- α^n. -/
def galpha (n : Nat) : Nat := gpow 2 (n % 255)

/-- An inverse. -/
def ginv (a : Nat) : Nat := gpow a 254

/-- A polynomial, low coefficient first, at a point. -/
def polyAt (p : List Nat) (x : Nat) : Nat := p.foldr (fun c r => c ^^^ gmul x r) 0

/-- The sum of two polynomials. -/
def polyAdd : List Nat → List Nat → List Nat
  | [], q => q
  | p, [] => p
  | a :: p, b :: q => (a ^^^ b) :: polyAdd p q

/-- The product of two polynomials. -/
def polyMul (p q : List Nat) : List Nat :=
  p.foldr (fun a r => polyAdd (q.map (gmul a)) (0 :: r)) []

/-! ### Decoding -/

/-- The eight syndromes of a received word (R290). -/
def rsSyndromes (r : List Nat) : List Nat := (List.range 8).map fun j => polyAt r (galpha j)

/-- How the locator is found: locator, the one before, its length, the shift and the last discrepancy. -/
structure Locator where
  C : List Nat
  B : List Nat
  L : Nat
  m : Nat
  b : Nat

/-- One step of finding the locator from syndrome n. -/
def Locator.step (ss : List Nat) (x : Locator) (n : Nat) : Locator :=
  let d := (List.range (x.L + 1)).foldl (fun a i => a ^^^ gmul (x.C.getD i 0) (ss.getD (n - i) 0)) 0
  if d = 0 then { x with m := x.m + 1 }
  else
    let c := polyAdd x.C (List.replicate x.m 0 ++ x.B.map (gmul (gmul d (ginv x.b))))
    if 2 * x.L ≤ n then ⟨c, x.C, n + 1 - x.L, 1, d⟩ else { x with C := c, m := x.m + 1 }

/-- The error locator of syndromes, and how many errors it stands for. -/
def rsLocator (ss : List Nat) : List Nat × Nat :=
  let x := (List.range 8).foldl (Locator.step ss) ⟨[1], [1], 0, 1, 1⟩
  (x.C, x.L)

/-- The error at a position, from locator and evaluator. -/
def rsValue (loc ev : List Nat) (i : Nat) : Nat :=
  let xi := galpha (255 - i % 255)
  let odd := (loc.zipIdx.filter fun c => c.2 % 2 == 1).foldl (fun a c => a ^^^ gmul c.1 (gpow xi (c.2 - 1))) 0
  gmul (galpha i) (gmul (polyAt ev xi) (ginv odd))

/-- A received word decoded: the word corrected and the bytes that were wrong; none where it is uncorrectable (R290). Element i of the
word is the coefficient at position i. -/
def rsDecode (r : List Nat) : Option (List Nat × Nat) :=
  let ss := rsSyndromes r
  if ss.all (· == 0) then some (r, 0)
  else
    let (loc, n) := rsLocator ss
    let spots := (List.range 136).filter fun i => polyAt loc (galpha (255 - i % 255)) == 0
    if 4 < n || spots.length != n then none
    else
      let ev := (polyMul ss loc).take 8
      let fixed := spots.foldl (fun (w : List Nat) i => w.set i (w.getD i 0 ^^^ rsValue loc ev i)) r
      if (rsSyndromes fixed).all (· == 0) then some (fixed, n) else none

/-! ### Encoding -/

/-- The generator (x − α^0)(x − α^1)…(x − α^7), low coefficient first (R290). -/
def rsGen : List Nat := (List.range 8).foldl (fun p i => polyMul p [galpha i, 1]) [1]

/-- The remainder of a polynomial times x^8 by the generator `g`, from its coefficients, the highest first; `r` is the remainder so
far. -/
def rsRemainder (g : List Nat) (r : List Nat) : List Nat → List Nat
  | [] => r
  | d :: ds =>
    let f := d ^^^ r.getD 7 0
    rsRemainder g (polyAdd (0 :: r.take 7) ((g.take 8).map (gmul f))) ds

/-- The codeword of 128 data bytes, by position: check symbols at 0 to 7, data byte i at i + 8 (R290). -/
def rsEncode (data : List Nat) : List Nat := rsRemainder rsGen (List.replicate 8 0) data.reverse ++ data

/-- The PAM4 level of a bit pair by the Gray code 00, 01, 11, 10 (R290). -/
def pamLevel (n : Nat) : Nat := n ^^^ (n / 2)

/-- The levels of a codeword as it is sent: from position 135 down, each byte most significant pair first (R290). -/
def pamLevels (w : List Nat) : List Nat :=
  w.reverse.flatMap fun b => [pamLevel (b / 64 % 4), pamLevel (b / 16 % 4), pamLevel (b / 4 % 4), pamLevel (b % 4)]

/-! ### The scrambler -/

/-- Bits through the self-synchronising scrambler x^58 + x^39 + 1; `s` holds the last 58 bits sent, the newest lowest (R290). -/
def scramble (s : Nat) : List Bool → List Bool × Nat
  | [] => ([], s)
  | b :: r =>
    let o := b ^^ bit s 38 ^^ bit s 57
    let q := scramble ((s * 2 + b2n o) % 2 ^ 58) r
    (o :: q.1, q.2)


/-- Bits through the self-synchronising descrambler x^58 + x^39 + 1; `s` holds the last 58 bits received, the newest lowest. -/
def descramble (s : Nat) : List Bool → List Bool × Nat
  | [] => ([], s)
  | b :: r =>
    let q := descramble ((s * 2 + b2n b) % 2 ^ 58) r
    ((b ^^ bit s 38 ^^ bit s 57) :: q.1, q.2)

/-- A byte's bits, most significant first. -/
def byteBits (n : Nat) : List Bool := (List.range 8).map fun i => bit n (7 - i)

/-- Bits, most significant first, as bytes. -/
def bitsBytes : Nat → List Bool → List Nat
  | 0, _ => []
  | n + 1, l => (l.take 8).foldl (fun a b => 2 * a + b2n b) 0 :: bitsBytes n (l.drop 8)

/-- The 128 data bytes of a data codeword descrambled: sent from the highest position down, each byte most significant bits first
(R290). -/
def descrambleWord (s : Nat) (data : List Nat) : List Nat × Nat :=
  let q := descramble s (data.reverse.flatMap byteBits)
  ((bitsBytes 128 q.1).reverse, q.2)

/-- The 128 data bytes of a data codeword scrambled, in the same order (R290). -/
def scrambleWord (s : Nat) (data : List Nat) : List Nat × Nat :=
  let q := scramble s (data.reverse.flatMap byteBits)
  ((bitsBytes 128 q.1).reverse, q.2)

/-! ### Cells as bytes -/

/-- The header of a cell as a number (R313). -/
def cellHeader (c : Cell) : Nat :=
  c.kind % 16 * 2 ^ 92 + c.part % 32 * 2 ^ 87 + c.dst % 4096 * 2 ^ 75 + c.src % 4096 * 2 ^ 63 + c.core % 256 * 2 ^ 55
    + c.rid % 256 * 2 ^ 47 + c.itide % 256 * 2 ^ 39 + c.gmask % 8 * 2 ^ 36 + c.addr % 2 ^ 36

/-- The 64 bytes of a cell, its CRC last (R312). -/
def cellBytes (c : Cell) : List Byte :=
  let b := bytesLE 12 (cellHeader c) ++ bytesLE 16 c.g0 ++ bytesLE 16 c.g1 ++ bytesLE 16 c.g2
  b ++ bytesLE 4 (crc32c b)

/-- A cell read from 64 bytes, and whether its CRC is right (R312, R313, R316). -/
def cellOf (bs : List Byte) : Cell × Bool :=
  let h := natLE (bs.take 12)
  let g (i : Nat) : Nat := natLE ((bs.drop (12 + 16 * i)).take 16)
  (⟨bits h 95 92, bits h 91 87, bits h 86 75, bits h 74 63, bits h 62 55, bits h 54 47, bits h 46 39, bits h 38 36, bits h 35 0,
      g 0, g 1, g 2⟩, decide (natLE ((bs.drop 60).take 4) = crc32c (bs.take 60)))

end Sys2Proof.Machine
end

