-- ==== Sys2Proof/Machine/Photonics.lean ====
section
/-! DEFINITION. Ports, lanes and their slots (09_pholux_photonics.md R287 to R304): the mapping of positions to slots, lanes entering
and leaving service, lane plans, and the link entries that lost codewords form (10_tideway_fabric.md R328). -/

namespace Sys2Proof.Machine
open Sys2Proof

/-! ### The mapping -/

/-- A port's own dark mask (R285, R287, R293): wavelengths lost on the base die, and its own untunable or uncalibrated slots. -/
def State.ownDark (s : State) (p : Nat) : Nat := Tbl.get 0 s.waves (portDie p) ||| (s.port p).untun

/-- The slots that a port's mapping uses (R288, R295). -/
def State.usable (s : State) (p : Nat) : List Nat :=
  (List.range 17).filter fun k => !bit ((s.port p).effOwn ||| (s.port p).effPeer) k

/-- The calibration step (R308). -/
def State.calStep (s : State) (p : Nat) : Nat := s.fld (a_PHX_CAL (portDie p)) f_PHX_CAL_STEP

/-- The slot of a position at step N (R295). -/
def rotSlot (N : Nat) (u : List Nat) (j : Nat) : Nat :=
  let m := u.length
  let P := m - 1
  let g := N % m
  let i0 := 1 + (j + P - N / m % P) % P
  u.getD (if i0 ≤ g then i0 - 1 else i0) 0

/-- The slot of a position, and the gap (R295, R297); a port with fewer than two usable slots has no positions. -/
def State.slotOf (s : State) (p j : Nat) : Option Nat :=
  let u := s.usable p
  if u.length ≤ j + 1 then none
  else some (if (s.port p).rotating then rotSlot (s.port p).boundary u j else u.getD j 0)

def State.gapOf (s : State) (p : Nat) : Option Nat :=
  let u := s.usable p
  if u.isEmpty then none
  else some (u.getD (if (s.port p).rotating then (s.port p).boundary % u.length else u.length - 1) 0)

/-- PHX_PORT and PHX_SLOT as the port's state has them (R308). -/
def State.showPort (s : State) (p : Nat) : State :=
  let die := portDie p
  let x := s.port p
  let gap := s.gapOf p
  let s1 := s.setFlds (a_port p) [(f_PHX_PORT_LANES, (s.serving p).length), (f_PHX_PORT_DARK, x.effOwn ||| x.effPeer),
    (f_PHX_PORT_GAP, gap.getD 0)]
  (List.range 17).foldl (fun t k =>
    let l := (s.portLanes p).find? fun l => s.laneSlot l == k
    let st := if bit (Tbl.get 0 s.waves die) k then 3 else if bit x.untun k then 4 else if bit x.peer k then 5
      else if gap = some k && s.portSt p == 2 then 2 else if l.isSome then 0 else 1
    t.setFlds (a_PHX_SLOT die (portNo p) k) [(f_PHX_SLOT_LANE, (l.map laneNo).getD 0xFF), (f_PHX_SLOT_STATE, st)]) s1

/-! ### Lanes in and out of service -/

/-- A lane that returns to service: in service where the peer fills its position too, else acquiring (R296, R300). -/
def State.enterService (s : State) (l : Nat) : State :=
  let p := s.lanePort l
  let j := s.lanePos l
  let s1 := (s.modLane l fun x => { x with due := none, txAt := none, marks := 0, markAt := s.tideOf (laneDie l) }).modPort p fun x => { x with lfault := x.lfault &&& (0xFFFF ^^^ 2 ^ j) }
  if bit (s.port p).filled j then (s1.setLaneSt l 2).setReg (a_LANE_CW (laneDie l) (laneNo l)) 0 else s1.setLaneSt l 1

/-- The eye that the calibration engine last measured on a port's slot, as the lane there shows it (R309). -/
def State.showEye (s : State) (l slot : Nat) : State :=
  let e := Tbl.get 0 (s.port (s.lanePort l)).eyes slot
  s.setFlds (a_LANE_EYE (laneDie l) (laneNo l)) [(f_LANE_EYE_EYE_LO, bits e 7 0), (f_LANE_EYE_EYE_MID, bits e 15 8), (f_LANE_EYE_EYE_HI, bits e 23 16)]

/-- A lane put on a slot, back in service at the tide `due` (R296). A recovering lane recovers there afresh (R302). -/
def State.moveLane (s : State) (l slot due : Nat) : State :=
  let s1 := (s.setFld (a_stat l) f_LANE_STATUS_SLOT slot).showEye l slot
  if s.laneSt l = 4 then s1.modLane l fun x => { x with since := s.tideOf (laneDie l) }
  else if s.laneSt l = 5 || s.laneSt l == 6 then s1
  else (s1.setLaneSt l (if s.laneSt l = 2 || s.laneSt l == 3 then 3 else 1)).modLane l fun x => { x with due := some due }

/-- An engine given a position of a port. -/
def State.placeLane (s : State) (l p j due : Nat) : State :=
  let s1 := s.setFlds (a_stat l) [(f_LANE_STATUS_STATE, 1), (f_LANE_STATUS_PORT, p), (f_LANE_STATUS_POS, j)]
  match s1.slotOf p j with
  | some k => s1.moveLane l k due
  | none => s1

/-- An engine that leaves its port: idle, or FAILED or OFFLINE without a place. -/
def State.dropLane (s : State) (l : Nat) : State :=
  let st := if s.laneSt l = 5 || s.laneSt l == 6 then s.laneSt l else 0
  (s.setFlds (a_stat l) [(f_LANE_STATUS_STATE, st), (f_LANE_STATUS_PORT, 0x3F), (f_LANE_STATUS_POS, 0xF), (f_LANE_STATUS_SLOT, 0x1F)]).modLane
    l fun x => { x with due := none, dropped := false }


/-! ### Lane plans -/

/-- The count that plan n gives a port, and the positions it can have (R299): none unless the port is up. -/
def State.planCount (s : State) (p n : Nat) : Nat := bits (s.reg (a_LANE_PLAN (portDie p) n)).toNat (5 * portNo p + 4) (5 * portNo p)
def State.planTarget (s : State) (p n : Nat) : Nat :=
  if s.portSt p = 2 then min (s.planCount p n) (min 16 ((s.usable p).length - 1)) else 0

/-- The lowest-numbered idle engine that may serve a port (R299, R303). -/
def State.spareLane (s : State) (p : Nat) : Option Nat :=
  (dieLanes (portDie p)).find? fun l =>
    s.laneSt l == 0 && s.fld (a_lctl l) f_LANE_CTL_ENABLE == 1 && s.fld (a_lctl l) f_LANE_CTL_PART == s.portPart p
      && s.fld (a_lctl l) f_LANE_CTL_OFFLINE == 0 && s.lanePort l == 0x3F

/-- LANE_SHORT: positions that the plan in force gives and no engine fills (R299). -/
def State.countShort (s : State) (b : Nat) : State :=
  let n := s.fld (a_LANE_PLANSEL b) f_LANE_PLANSEL_CUR
  let short := ((diePorts b).map fun p =>
    if s.portSt p = 3 then 0 else s.planCount p n - (s.portLanes p).length).sum
  s.setFld (a_LANE_SHORT b) f_LANE_SHORT_SHORT (min 255 short)

/-- Every position of a port moved to its slot by the mapping, where that differs; positions it no longer has are given up. -/
def State.remap (s : State) (p due : Nat) : State :=
  (((s.portLanes p).foldl (fun t l =>
    match t.slotOf p (t.lanePos l) with
    | none => t.dropLane l
    | some k => if t.laneSlot l = k then t else t.moveLane l k due) s).showPort p).countShort (portDie p)

/-- The lowest unfilled positions of a port filled up to a count with idle engines (R299 step 2). -/
def State.fillPort (s : State) (p count due : Nat) : Nat → State
  | 0 => s
  | k + 1 =>
    match (List.range count).find? fun j => (s.laneAt p j).isNone, s.spareLane p with
    | some j, some l => (s.placeLane l p j due).fillPort p count due k
    | _, _ => s

/-- A plan taking force on a base die (R299): falling ports give up their highest positions, then rising ports fill theirs. Where the plan is
placed anew, as at a load, every port counts as rising. -/
def State.applyPlan (s : State) (b n : Nat) (anew : Bool) : State :=
  let due := s.tideOf b + 20000
  let was := s.fld (a_LANE_PLANSEL b) f_LANE_PLANSEL_CUR
  let s1 := s.setFld (a_LANE_PLANSEL b) f_LANE_PLANSEL_CUR n
  let s2 := (diePorts b).foldl (fun t p =>
    let c := t.planTarget p n
    ((t.portLanes p).filter fun l => decide (c ≤ t.lanePos l)).foldl (fun u l => u.dropLane l) t) s1
  let s3 := (diePorts b).foldl (fun t p =>
    let u := if anew || decide (s.planTarget p was < s.planTarget p n) then t.fillPort p (t.planTarget p n) due 16 else t
    (u.setFld (a_port p) f_PHX_PORT_TARGET (t.planCount p n)).showPort p) s2
  s3.countShort b

/-! ### Link entries -/

/-- A link entry formed by a receiver, and counted (R328, R347). -/
def State.formEntry (s : State) (p : Nat) (fault : Bool) (pos bseq index : Nat) : State :=
  let b := portDie p
  (s.modRouter b fun r => { r with ents := r.ents ++ [⟨p, fault, pos, bseq, index, s.tideOf b, false⟩] }).addWrap (a_RTR_COUNT b 14)
    f_RTR_COUNT_COUNT 1

/-- Cells lost on a port (R330): counted, recorded, and a teardown of the port's partition asked for. -/
def State.replayLost (s : State) (p : Nat) : State :=
  let b := portDie p
  ((s.addWrap (a_RTR_COUNT b 15) f_RTR_COUNT_COUNT 1).detect8 b Code.LINK_REPLAY_LOST 0xF 0 p 0).askTeardown (s.portPart p)
    Code.LINK_REPLAY_LOST

/-! ### The tide servo, as a port that goes down meets it (12_the_tide.md R378) -/

/-- Whether a port can carry the time transfer: it is up with a lane in service. -/
def State.portLive (s : State) (p : Nat) : Bool := decide (p < 32) && s.portSt p == 2 && !(s.serving p).isEmpty

/-- TIDE_STATUS.STATE of die 12, which holds the package tide (R376), with when; a departure from LOCKED is counted (R392). -/
def State.servoTo (s : State) (st : Nat) : State :=
  let s1 := if s.fld (a_TIDE_STATUS 12) f_TIDE_STATUS_STATE = 2 && st != 2 then s.bump (a_TIDE_SYNCCNT 12) f_TIDE_SYNCCNT_UNLOCKS else s
  { s1.setFld (a_TIDE_STATUS 12) f_TIDE_STATUS_STATE st with servo := { s.servo with since := s.tideOf 12, good := 0 } }

/-- A servo in HOLDOVER takes its alternate port, where that is named and up, and acquires (R378). -/
def State.takeAlt (s : State) : State :=
  let alt := s.fld (a_TIDE_CTL 12) f_TIDE_CTL_ALT
  if s.fld (a_TIDE_STATUS 12) f_TIDE_STATUS_STATE = 3 && s.portLive alt then (s.setFld (a_TIDE_STATUS 12) f_TIDE_STATUS_PORT alt).servoTo 1
  else s

/-- The parent port going down (R378): a LOCKED servo enters HOLDOVER, and with a live alternate port takes that and acquires. -/
def State.parentDown (s : State) : State :=
  if s.fld (a_TIDE_STATUS 12) f_TIDE_STATUS_STATE ≠ 2 then s
  else ((s.bump (a_TIDE_SYNCCNT 12) f_TIDE_SYNCCNT_HOLDOVERS).servoTo 3).takeAlt

/-- Whether a FAULT received covers a codeword held: the peer took it, or it has been replayed (R329, R330). -/
def RouterState.covered (r : RouterState) (w : HeldWord) : Bool :=
  w.done || r.acted.any fun a => a.port == w.port && a.fault && a.pos == w.pos && decide (w.since ≤ a.since)

/-- What follows when a port has lost its last lane: the time transfer on it stops; with its calibration slot dark too, the port is
down, and codewords held that no FAULT has covered are lost (R330). -/
def State.portEmptied (s : State) (p : Nat) (dark : Bool) : State :=
  if !(s.serving p).isEmpty then s
  else
    let s1 := if s.fld (a_TIDE_STATUS 12) f_TIDE_STATUS_PORT = p then s.parentDown else s
    if !dark then s1
    else
      let s2 := (s1.setFld (a_port p) f_PHX_PORT_STATE 0).modPort p fun x => { x with peerSync := none, rotating := false }
      let b := portDie p
      let lost := (s2.router b).words.any fun w => w.port == p && !(s2.router b).covered w && !w.cells.isEmpty
      let s3 := s2.modRouter b fun r => { r with words := r.words.filter fun w => w.port != p }
      if lost then s3.replayLost p else s3

/-! ### Lane faults -/

/-- The record of a lane (R304). -/
def State.laneRecord (s : State) (l code cause : Nat) : State :=
  let die := laneDie l
  let i := laneNo l
  let now := s.tideOf die
  let x := s.lane l
  let eye := (s.reg (a_LANE_EYE die i)).toNat
  let un := (x.spoilt.filter fun t => decide (now < t + 1_000_000)).length
  let co := ((x.corr.filter fun t => decide (now < t.1 + 1_000_000)).map Prod.snd).sum
  s.detect ⟨die, now, code, 8, 6, die, i / 16, i % 16, s.fld (a_lctl l) f_LANE_CTL_PART, (s.reg (a_LANE_CW die i)).toNat % 2 ^ 48,
    s.lanePort l % 32 * 2 ^ 59 + s.laneSlot l * 2 ^ 54 + cause * 2 ^ 51 + un % 2 ^ 32,
    co % 2 ^ 32 * 2 ^ 32 + bits eye 55 48 * 2 ^ 24 + bits eye 47 40 * 2 ^ 16 + bits eye 39 32 * 2 ^ 8, false, false⟩

/-- A lane FAILED until cold reset (R303). -/
def State.laneFail (s : State) (l cause : Nat) : State := (s.setLaneSt l 5).laneRecord l Code.LANE_FAILED cause

/-- A lane stopped (R302): the position joins LFAULT, and a FAULT names the last codeword taken (R328). -/
def State.laneStop (s : State) (l : Nat) : State :=
  let p := s.lanePort l
  let x := s.lane l
  if 32 ≤ p then s
  else
    let s1 := s.modPort p fun y => { y with lfault := y.lfault ||| 2 ^ s.lanePos l }
    if s.laneSt l = 2 then s1.formEntry p true (s.lanePos l) x.took.1 x.took.2 else s1

/-- Whether a cause finds no fault in a lane: cause 4 in one not in service, causes 1 to 3 while the peer does not fill its position (R300),
and cause 2 in one that recovers, whose MARKs are not expected (R301, log entry 14). -/
def State.noFault (s : State) (l cause : Nat) : Bool :=
  let st := s.laneSt l
  st == 0 || decide (5 ≤ st) || (cause == 4 && st != 2)
    || (cause == 2 && st == 4) || (decide (cause ≤ 3) && !bit (s.port (s.lanePort l)).filled (s.lanePos l))

/-- A lane fault (R301 to R304): causes 1 to 4 count towards FAILED and recover in place; a dark slot waits for the mapping; a forced
one is OFFLINE, or dropped by the FI block. -/
def State.laneFault (s : State) (l cause : Nat) (dark : Bool) : State :=
  if s.noFault l cause then s
  else
    let die := laneDie l
    let now := s.tideOf die
    let p := s.lanePort l
    let s1 := s.laneStop l
    let s2 :=
      if cause ≤ 4 then
        let recent := ((s.lane l).faults.filter fun t => decide (now < t + 1_000_000_000)) ++ [now]
        let t1 := ((s1.bump (a_stat l) f_LANE_STATUS_FAULTS).modLane l fun x =>
          { x with faults := recent, due := none, since := now, marks := 0, markAt := now, cause := cause }).laneRecord l Code.LANE_FAULT cause
        if 3 ≤ recent.length then t1.laneFail l cause else t1.setLaneSt l 4
      else if cause = 5 then (s1.setLaneSt l 1).modLane l fun x => { x with due := none }
      else ((s1.laneRecord l Code.LANE_FAULT 6).setLaneSt l 6).modLane l fun x => { x with due := none }
    (s2.portEmptied p dark).showPort p

/-- A slot of a port gone dark at this end (R285, R287): the tide of the change, and the lane on it faults. -/
def State.slotDark (s : State) (p k : Nat) : State :=
  let s1 := s.modPort p fun x => { x with ownAt := s.tideOf (portDie p) }
  match (s1.portLanes p).find? fun l => s1.laneSlot l == k with
  | some l => if s1.noFault l 5 then s1.showPort p else s1.laneFault l 5 false
  | none => s1.showPort p

/-! ### Boundaries -/

/-- A port frozen or freezing (R297): every filled position on its frozen slot. -/
def State.freezePort (s : State) (p : Nat) : State :=
  (s.modPort p fun x => { x with rotating := false }).remap p (s.tideOf (portDie p) + 20000)

/-- The dark masks of a port put in force where they may be (R288, R297): while it rotates at the first boundary 200,000 past the
change, while it is frozen at once. `at_` is the tide of the boundary. What is timed of a slot that is usable no more ends (R301, R306). -/
def State.applyDark (s : State) (p at_ : Nat) : State :=
  let x := s.port p
  let free := !x.rotating
  let own := if free || decide (x.ownAt + 200000 ≤ at_) then s.ownDark p else x.effOwn
  let peer := if free || decide (x.peerAt + 200000 ≤ at_) then x.peer else x.effPeer
  s.modPort p fun y =>
    { y with
      effOwn := own
      effPeer := peer
      low := y.low.filter fun e => !bit (own ||| peer) e.1
      dim := y.dim.filter fun e => !bit (own ||| peer) e.1 }

/-- Positions of FAILED and OFFLINE engines refilled, or left unfilled (R303). -/
def State.replaceLanes (s : State) (p due : Nat) : State :=
  (((s.portLanes p).filter fun l => s.laneSt l == 5 || s.laneSt l == 6).foldl (fun t l =>
    let j := t.lanePos l
    let t1 := t.dropLane l
    match t1.spareLane p with
    | some n => t1.placeLane n p j due
    | none => t1) s).countShort (portDie p)

/-- Whether a port's rotation begins at the boundary of tide `at_` (R297). -/
def State.rotates (s : State) (p at_ : Nat) : Bool :=
  match (s.port p).peerSync, s.stide with
  | some a, some b => decide (max a b + 200000 ≤ at_)
  | _, _ => false

/-- A step boundary of a port at its tide (R295 to R297): masks, the start of the rotation, replaced engines, and the moves; within a
calibration hold no lane moves (R298). A port that is frozen and does not begin to rotate has no boundary. -/
def State.stepBoundary (s : State) (p : Nat) : State :=
  let die := portDie p
  let N := s.tideOf die / s.calStep p
  let at_ := N * s.calStep p
  let x := s.port p
  let go := s.rotates p at_
  if (match x.hold with
    | some e => decide (s.tideOf die < e)
    | none => false) || !(x.rotating || go) then s
  else
    let from_ := match x.hold with
      | some e => max at_ e
      | none => at_
    let s1 := s.modPort p fun y => { y with boundary := N, hold := none }
    let s2 := (s1.applyDark p at_).modPort p fun y => { y with rotating := y.rotating || go }
    (s2.replaceLanes p (from_ + 20000)).remap p (from_ + 20000)

end Sys2Proof.Machine
end

