-- ==== Sys2Proof/Machine/PhxRows.lean ====
section
/-! DEFINITION. Lasers, rings, ports and lanes at work (09_pholux_photonics.md), with the codewords that lanes receive
(R290 to R292, 10_tideway_fabric.md R327 to R330). -/

namespace Sys2Proof.Machine
open Sys2Proof

/-! ### Lasers -/

def State.laser (s : State) (die j k : Nat) : LaserState := Tbl.get LaserState.init s.lasers (die * 128 + 17 * j + k)
def State.setLaser (s : State) (die j k : Nat) (x : LaserState) : State :=
  { s with lasers := Tbl.set LaserState.init s.lasers (die * 128 + 17 * j + k) x }
def State.laserSt (s : State) (die j k : Nat) : Nat := s.fld (a_PHX_LASER die j k) f_PHX_LASER_STATE

/-- A wavelength lost on a base die (R285): its slot dark on all eight ports. -/
def State.waveLost (s : State) (die k : Nat) : State :=
  if bit (Tbl.get 0 s.waves die) k then s
  else
    let s1 : State := { s with waves := Tbl.set 0 s.waves die (Tbl.get 0 s.waves die ||| 2 ^ k) }
    ((diePorts die).foldl (fun t p => t.slotDark p k) s1).report Code.WAVELENGTH_LOST die 31 []

/-- Whether a takeover is on its way for a slot. -/
def State.takeover (s : State) (die k : Nat) : Option Takeover := s.takeovers.find? fun x => x.die == die && x.wave == k

/-- The declaration of a laser of an active bank FAILED or RETIRED, with its takeover (R284). -/
def State.declare (s : State) (die j k : Nat) (retired : Bool) : State :=
  { s with
    takeovers := s.takeovers ++ [⟨die, k, j, retired, s.tideOf die⟩]
    declared := Tbl.set 0 s.declared (die * 32 + k) (s.tideOf die) }

/-- A laser FAILED (R283 to R285). A retirement of the same slot in the same tide tick gives the spare up to it (R286). -/
def State.laserFail (s : State) (die j k : Nat) : State :=
  let was := s.laserSt die j k
  let s1 := (s.setFld (a_PHX_LASER die j k) f_PHX_LASER_STATE 5).setLaser die j k LaserState.init
  if j = 4 then (if was = 4 then s1.waveLost die k else s1)
  else match s1.takeover die k with
    | some x =>
      if x.retired && x.since == s.tideOf die then
        let s2 : State := { s1.setFld (a_PHX_LASER die x.bank k) f_PHX_LASER_STATE 2 with takeovers := s1.takeovers.erase x }
        s2.declare die j k false
      else s1.waveLost die k
    | none => if s1.laserSt die 4 k = 3 then s1.declare die j k false else s1.waveLost die k

/-- LASER_MONITOR_SAMPLE: a laser's output in µW, drive current in 0.1 mA and offset from its slot in MHz, shown whatever its state; of
a locked one the fourth bad sample in a row makes it FAILED, and a current above 1.3 times the first sets WEAR (R283, R286). The first sample
after lock is what it had at first lock. -/
def execLaserMonitorSample (die bank wave power bias : Nat) (offset : Int) (s : State) : Host.Outcome State Fault Refusal :=
  let st := s.laserSt die bank wave
  .next (if !(decide (12 ≤ die) && decide (die < 16) && decide (bank < 5) && decide (wave < 17)) then s
    else if st < 2 || 4 < st then
      s.setFlds (a_PHX_LASER die bank wave) [(f_PHX_LASER_POWER, power), (f_PHX_LASER_BIAS, bias)]
    else
      let a := a_PHX_LASER die bank wave
      let x := s.laser die bank wave
      let (p0, b0) := x.first.getD (power, bias)
      let bad := if decide (10 * power < 7 * p0) || decide (20000 < offset.natAbs) then x.bad + 1 else 0
      let s1 := (s.setFlds a [(f_PHX_LASER_POWER, power), (f_PHX_LASER_BIAS, bias)]).setLaser die bank wave ⟨some (p0, b0), bad⟩
      let s2 := if 13 * b0 < 10 * bias && s1.fld a f_PHX_LASER_WEAR == 0 then
          (s1.setFld a f_PHX_LASER_WEAR 1).report Code.LASER_WEAR die 31 []
        else s1
      if 4 ≤ bad then s2.laserFail die bank wave else s2)

/-- LASER_TAKEOVER: the spare's light is in the combiner: COVERING, and its record (R284). -/
def execLaserTakeover (die wave : Nat) (s : State) : Host.Outcome State Fault Refusal :=
  .next (match s.takeover die wave with
    | none => s
    | some x =>
      let s1 : State := { s with takeovers := s.takeovers.erase x }
      if s1.laserSt die 4 wave ≠ 3 then s1
      else (s1.setFlds (a_PHX_LASER die 4 wave) [(f_PHX_LASER_STATE, 4), (f_PHX_LASER_COVERS, x.bank)]).report Code.LASER_TAKEOVER
        die 31 [])

/-- What the command of the same row does. -/
def State.doLaserRetire (t : State) (die bank wave : Nat) : State :=
  if decide (bank < 4) && decide (wave < 17) && t.laserSt die bank wave == 2 && t.laserSt die 4 wave == 3
      && (t.takeover die wave).isNone then
    ((t.setFld (a_PHX_LASER die bank wave) f_PHX_LASER_STATE 6).declare die bank wave true)
  else t

/-- LASER_RETIRE: an active laser retires where its spare is free; else nothing happens (R286). -/
def execLaserRetire (src : Source) (die bank wave : Nat) (s : State) : Host.Outcome State Fault Refusal :=
  .next (s.command src (cmdLaserRetire die bank wave) fun t => t.doLaserRetire die bank wave)

/-! ### Rings and masks -/

/-- A ring found untunable (R287): its slot is dark at this end, and recorded. -/
def State.untunable (s : State) (p slot : Nat) : State :=
  if bit (s.port p).untun slot then s
  else ((s.modPort p fun x => { x with untun := x.untun ||| 2 ^ slot }).slotDark p slot).report Code.RING_UNTUNABLE
    (portDie p) (s.portPart p) []

/-- RING_LOCK_UPDATE: the heat a ring needs, in 0.1 mW, and what its monitor photodiode reads, in µW: the power is shown and the heater
set, or the ring is untunable and its slot dark at this end (R287, R308). -/
def execRingLockUpdate (port slot : Nat) (tx : Bool) (heat : Int) (power : Nat) (s : State) : Host.Outcome State Fault Refusal :=
  let a := a_PHX_SLOT (portDie port) (portNo port) slot
  .next (if !(decide (port < 32) && decide (slot < 17)) || s.portSt port == 3 then s
    else if 0 ≤ heat && decide (heat ≤ 255) then
      s.setFlds a (if tx then [(f_PHX_SLOT_TXHEAT, heat.toNat), (f_PHX_SLOT_TXPWR, power)]
        else [(f_PHX_SLOT_RXHEAT, heat.toNat), (f_PHX_SLOT_RXPWR, power)])
    else s.untunable port slot)

/-- Whether a step boundary has fallen that a port has not yet taken (R295). -/
def State.boundaryDue (s : State) (p : Nat) : Bool := decide ((s.port p).boundary < s.tideOf (portDie p) / s.calStep p)

/-- DARK_MASK_APPLY: changed dark masks take effect for the mapping of a port: at once while it is frozen, else at a step boundary,
with all that falls there (R288, R297). -/
def execDarkMaskApply (port : Nat) (s : State) : Host.Outcome State Fault Refusal :=
  .next (if 32 ≤ port then s
    else if (s.port port).rotating then (if s.boundaryDue port then s.stepBoundary port else s)
    else
      let now := s.tideOf (portDie port)
      (s.applyDark port now).remap port (now + 20000))

/-! ### Bringing a port up -/

/-- Step 1 beginning on a base die: its lasers that are OFF are brought to power (R283, R293). -/
def State.warmLasers (s : State) (die : Nat) : State :=
  ((List.range 85).filter fun i => s.laserSt die (i / 17) (i % 17) == 0).foldl (fun t i =>
    t.setFld (a_PHX_LASER die (i / 17) (i % 17)) f_PHX_LASER_STATE 1) s

/-- The lasers of a base die at the end of step 1: those of `failed` (bit 17 · bank + slot) did not lock (R293). -/
def State.lockLasers (s : State) (die failed : Nat) : State :=
  let idx := (List.range 85).filter fun i => s.laserSt die (i / 17) (i % 17) ≤ 1
  let s1 := idx.foldl (fun t i => t.setFld (a_PHX_LASER die (i / 17) (i % 17)) f_PHX_LASER_STATE (if i < 68 then 2 else 3)) s
  (idx.reverse.filter fun i => bit failed i).foldl (fun t i => t.laserFail die (i / 17) (i % 17)) s1

/-- The slots of a mask gone dark at this end of a port. -/
def State.slotsDark (s : State) (p mask : Nat) : State :=
  ((List.range 17).filter fun k => bit mask k && !bit (s.port p).untun k).foldl (fun t k =>
    (t.modPort p fun x => { x with untun := x.untun ||| 2 ^ k }).slotDark p k) s

/-- The eyes that the calibration engine measured on a port's slots, from slot k on (R309). -/
def State.keepEyes (s : State) (p : Nat) (eyes : List Nat) : State :=
  s.modPort p fun x => { x with eyes := (eyes.zipIdx.take 17).foldl (fun t e => Tbl.set 0 t e.2 (e.1 % 2 ^ 24)) x.eyes }

/-- PORT_TRAIN_STEP: a step of a port's bring-up ends, and the next begins (R293, R294); before the first, step 1 begins. `light` says
whether any light was found in step 3; `failed` holds the lasers, rings or slots that failed in steps 1, 2 and 5; `eyes` those that step 5
measured on each slot, low, middle and high. Step 6 ends at a step boundary. -/
def execPortTrainStep (port : Nat) (light : Bool) (failed : Nat) (eyes : List Nat) (s : State) : Host.Outcome State Fault Refusal :=
  let die := portDie port
  let x := s.port port
  let now := s.tideOf die
  let next (t : State) (n : Nat) : State := t.modPort port fun y => { y with step := n, since := now }
  .next (if 32 ≤ port || s.portSt port == 3 || s.portSt port == 4 || s.portSt port == 5 then s
    else match x.step with
      | 0 => next (s.warmLasers die) 1
      | 1 => next ((s.lockLasers die failed).setFld (a_port port) f_PHX_PORT_STATE 1) 2
      | 2 => next (((List.range 17).filter fun k => bit failed k).foldl (fun t k => t.untunable port k) s) 3
      | 3 =>
        if light then next s 4
        else if x.since + 100_000_000 ≤ now && !x.noLight then
          (s.report Code.LINK_TRAIN_FAIL die (s.portPart port) []).modPort port fun y => { y with noLight := true, since := now }
        else s
      | 4 =>
        (match x.ident with
          | none => s
          | some (node, pp, step) =>
            let e := a_PHX_PORT_EXP die (portNo port)
            let s1 := s.setFlds (a_port port) [(f_PHX_PORT_PEER_NODE, node), (f_PHX_PORT_PEER_PORT, pp)]
            if s.fld e f_PHX_PORT_EXP_CHECK = 1 && !(node == s.fld e f_PHX_PORT_EXP_NODE && pp == s.fld e f_PHX_PORT_EXP_PORT) then
              (s1.setFld (a_port port) f_PHX_PORT_STATE 4).report Code.PORT_MISWIRED die (s.portPart port) []
            else if step ≠ s.calStep port then
              (s1.setFld (a_port port) f_PHX_PORT_STATE 5).report Code.CAL_STEP_MISMATCH die (s.portPart port) []
            else next s1 5)
      | 5 => next ((s.slotsDark port failed).keepEyes port eyes) 6
      | 6 =>
        if now / s.calStep port ≤ x.since / s.calStep port then s
        else
        let s1 := next (s.setFld (a_port port) f_PHX_PORT_STATE 2) 7
        let s2 := ((s1.modPort port fun y => { y with noLight := false, boundary := now / s.calStep port }).applyDark port now).stepBoundary port
        let n := s2.fld (a_LANE_PLANSEL die) f_LANE_PLANSEL_CUR
        (((s2.fillPort port (s2.planTarget port n) (now + 20000) 16).setFld (a_port port) f_PHX_PORT_TARGET
          (s2.planCount port n)).showPort port).countShort die
      | _ => s)

/-- A port taken through bring-up from step 2 (R293): its lanes stop, its rings are tried again. -/
def State.portRetrain (s : State) (p : Nat) : State :=
  if s.portSt p = 3 then s
  else
    let s1 := (s.portLanes p).foldl (fun t l => (t.laneStop l).dropLane l) s
    ((((s1.setFld (a_port p) f_PHX_PORT_STATE 1).modPort p fun x =>
      { x with
        step := 2
        since := s.tideOf (portDie p)
        ownAt := if x.untun = 0 then x.ownAt else s.tideOf (portDie p)
        untun := 0
        ident := none
        noLight := false
        peerSync := none
        rotating := false }).portEmptied p false).showPort p).countShort (portDie p)

/-- What the command of the same row does. -/
def State.doPhxPortRetrain (t : State) (port : Nat) : State := if port < 32 then t.portRetrain port else t

/-- PHX_PORT_RETRAIN: PHX_PORT_CTL.RETRAIN (R293, R308). -/
def execPhxPortRetrain (src : Source) (port : Nat) (s : State) : Host.Outcome State Fault Refusal :=
  .next (s.command src (cmdPortRetrain port) fun t => t.doPhxPortRetrain port)

/-- A port whose output shutter closes (R305): its lanes leave it. -/
def State.portOff (s : State) (port : Nat) : State :=
  let t1 := (s.portLanes port).foldl (fun u l => u.dropLane l) s
  let t2 := (t1.setFlds (a_port port) [(f_PHX_PORT_DISABLE, 1), (f_PHX_PORT_STATE, 3)]).modPort port fun x =>
    { x with step := 0, ident := none, peerSync := none, rotating := false, filled := 0, lfault := 0, low := [], dim := [] }
  (((t2.portEmptied port true).setFld (a_port port) f_PHX_PORT_STATE 3).showPort port).countShort (portDie port)

/-- What the command of the same row does. -/
def State.doPortDisable (t : State) (port : Nat) : State :=
  if 32 ≤ port || t.fld (a_port port) f_PHX_PORT_DISABLE == 1 then t else t.portOff port

/-- PORT_DISABLE: PHX_PORT.DISABLE set: the shutter closes, the receiver is ignored, rings and engines are not used (R305). -/
def execPortDisable (src : Source) (port : Nat) (s : State) : Host.Outcome State Fault Refusal :=
  .next (s.command src (cmdPortDisable port) fun t => t.doPortDisable port)

/-- CALIBRATION_STEP_BOUNDARY: a step boundary of a port falls (R295 to R298, R303). `eye` is what the calibration engine measured in
the gap over the step, kept for that slot. -/
def execCalibrationStepBoundary (port eye : Nat) (s : State) : Host.Outcome State Fault Refusal :=
  .next (if 32 ≤ port || s.portSt port != 2 then s
    else if !s.boundaryDue port then s
    else
      let s1 := match s.gapOf port with
        | some g => s.modPort port fun x => { x with eyes := Tbl.set 0 x.eyes g (eye % 2 ^ 24) }
        | none => s
      s1.stepBoundary port)

/-! ### Lanes -/

/-- LANE_MOVE_RETURN: a moved lane returns to service 20,000 tide units after its move (R296, R299). -/
def execLaneMoveReturn (lane : Nat) (s : State) : Host.Outcome State Fault Refusal :=
  .next (match (s.lane lane).due with
    | some d =>
      if d ≤ s.tideOf (laneDie lane) && (s.laneSt lane == 1 || s.laneSt lane == 3) then
        (s.enterService lane).showPort (s.lanePort lane)
      else s
    | none => s)

/-- Whether a quarantine or an active injection has this lane out of service (R222, R450). -/
def State.forced (s : State) (l : Nat) : Bool := s.laneAsks.contains (laneDie l, laneNo l)

/-- LANE_FAULT: a lane's receiver loses clock recovery (cause 1) or two expected MARKs in a row have not come (2: as many blocks of 2,176 tide
units have passed since the last boundary as are missing beside the MARKs that its codewords lacked), or quarantine takes it out of service (6). `dark` says that the port's calibration slot carries nothing
either (R301 to R304, R222). -/
def execLaneFault (lane cause : Nat) (dark : Bool) (s : State) : Host.Outcome State Fault Refusal :=
  .next (if 384 ≤ lane then s
    else if cause = 6 then
      (if s.forced lane then
        let s1 : State := { s with laneAsks := s.laneAsks.erase (laneDie lane, laneNo lane) }
        if s1.laneSt lane = 0 then s1.setLaneSt lane 6 else s1.laneFault lane 6 dark
      else s)
    else if cause = 1 || (cause == 2 && decide ((s.lane lane).markAt + 2176 * (2 - (s.lane lane).marks) ≤ s.tideOf (laneDie lane))) then s.laneFault lane cause dark
    else s)

/-- LANE_RECOVERY_DONE: a lane recalibrated in place at both ends returns to service (R302). -/
def execLaneRecoveryDone (lane : Nat) (s : State) : Host.Outcome State Fault Refusal :=
  .next (if s.laneSt lane = 4 && !(s.lane lane).dropped then (s.enterService lane).showPort (s.lanePort lane) else s)

/-- LANE_RECOVERY_TIMEOUT: a recovery that has passed 1 ms makes the lane FAILED (R303). Its record has the cause of the fault it recovered
from; after a RETRAIN none is stated, a free one of the six (R304). -/
def execLaneRecoveryTimeout (lane : Nat) (s : State) : Host.Outcome State Fault Refusal :=
  .next (if s.laneSt lane = 4 && !(s.lane lane).dropped && decide ((s.lane lane).since + 1_000_000 < s.tideOf (laneDie lane)) then
      let c := (s.lane lane).cause
      let q := if c = 0 then (s.free.2, s.free.1.toNat % 6 + 1) else (s, c)
      (q.1.laneFail lane q.2).showPort (s.lanePort lane)
    else s)

/-- What the command of the same row does. -/
def State.doLaneOffline (t : State) (lane : Nat) : State :=
  if 384 ≤ lane || t.fld (a_lctl lane) f_LANE_CTL_OFFLINE == 1 then t
  else
    let t1 := t.setFld (a_lctl lane) f_LANE_CTL_OFFLINE 1
    if t1.laneSt lane = 0 then t1.setLaneSt lane 6 else t1.laneFault lane 6 false

/-- LANE_OFFLINE: LANE_CTL.OFFLINE from 0 to 1 forces a lane fault (R301, R389). -/
def execLaneOffline (src : Source) (lane : Nat) (s : State) : Host.Outcome State Fault Refusal :=
  .next (s.command src (cmdLaneOffline lane) fun t => t.doLaneOffline lane)

/-- What the command of the same row does. -/
def State.doLaneOnline (t : State) (lane : Nat) : State :=
  if 384 ≤ lane || t.fld (a_lctl lane) f_LANE_CTL_OFFLINE == 0 then t
  else
    let t1 := t.setFld (a_lctl lane) f_LANE_CTL_OFFLINE 0
    if t1.laneSt lane = 6 then
      let p := t1.lanePort lane
      let t2 := (t1.setLaneSt lane 0).dropLane lane
      if p < 32 then (t2.showPort p).countShort (laneDie lane) else t2
    else t1

/-- LANE_ONLINE: LANE_CTL.OFFLINE from 1 to 0 makes the engine idle again (R303, R389). -/
def execLaneOnline (src : Source) (lane : Nat) (s : State) : Host.Outcome State Fault Refusal :=
  .next (s.command src (cmdLaneOnline lane) fun t => t.doLaneOnline lane)

/-- What the command of the same row does. -/
def State.doLaneRetrain (t : State) (lane : Nat) : State :=
  if t.laneSt lane = 2 && decide (lane < 384) then
    ((((t.laneStop lane).setLaneSt lane 4).modLane lane fun x => { x with since := t.tideOf (laneDie lane), cause := 0 }).portEmptied
      (t.lanePort lane) false).showPort (t.lanePort lane)
  else t

/-- LANE_RETRAIN: LANE_CTL.RETRAIN recalibrates a lane in place, counting no fault (R302, R309). -/
def execLaneRetrain (src : Source) (lane : Nat) (s : State) : Host.Outcome State Fault Refusal :=
  .next (s.command src (cmdLaneRetrain lane) fun t => t.doLaneRetrain lane)

/-- Since when a slot's power has been below a limit, 1 more than the tide; 0 where it is not. -/
def lowSince (t : Tbl Nat) (slot now : Nat) (below : Bool) : Tbl Nat :=
  if !below then Tbl.set 0 t slot 0 else if Tbl.get 0 t slot = 0 then Tbl.set 0 t slot (now + 1) else t

/-- A slot's received power below 178 µW for 1 s: recorded, once per crossing; it rearms above 178 µW (R306). -/
def State.lowPower (s : State) (port slot power : Nat) : State :=
  let now := s.tideOf (portDie port)
  let s1 := s.modPort port fun y => { y with
    low := lowSince y.low slot now (decide (power < 178))
    lowTold := if 178 < power then y.lowTold &&& (0x1FFFF ^^^ 2 ^ slot) else y.lowTold }
  let since := Tbl.get 0 (s1.port port).low slot
  if since ≠ 0 && decide (since + 1_000_000_000 ≤ now + 1) && !bit (s1.port port).lowTold slot then
    (s1.modPort port fun y => { y with lowTold := y.lowTold ||| 2 ^ slot }).report Code.OPTICAL_LOW_POWER (portDie port) (s.portPart port) []
  else s1

/-- A slot's received power below 63 µW for 10 µs: the lane on it has lost its signal (R301). -/
def State.noSignal (s : State) (port slot power : Nat) : State :=
  let now := s.tideOf (portDie port)
  let s1 := s.modPort port fun y => { y with dim := lowSince y.dim slot now (decide (power < 63)) }
  let since := Tbl.get 0 (s1.port port).dim slot
  if since ≠ 0 && decide (since + 10_000 ≤ now + 1) then
    match (s1.portLanes port).find? fun l => s1.laneSlot l == slot with
    | some l => (s1.modPort port fun y => { y with dim := Tbl.set 0 y.dim slot 0 }).laneFault l 1 false
    | none => s1
  else s1

/-- OPTICAL_LOW_POWER: a sample of a slot's received power in µW, on a port whose receiver is not ignored (R305): a usable slot's is held
against the limits of R301 and R306. -/
def execOpticalLowPower (port slot power : Nat) (s : State) : Host.Outcome State Fault Refusal :=
  .next (if !(decide (port < 32) && decide (slot < 17)) || s.fld (a_port port) f_PHX_PORT_DISABLE == 1 then s
    else
      let s1 := s.setFld (a_PHX_SLOT (portDie port) (portNo port) slot) f_PHX_SLOT_RXPWR power
      if (s.usable port).contains slot then (s1.lowPower port slot power).noSignal port slot power
      else s1.modPort port fun y => { y with low := Tbl.set 0 y.low slot 0, dim := Tbl.set 0 y.dim slot 0 })

/-! ### Codewords -/

/-- Whether uncorrectable codewords of a slot do not count (R284): from the first bad sample of one of its lasers until 10 µs after the
declaration. -/
def State.exempt (s : State) (die k : Nat) : Bool :=
  let d := Tbl.get 0 s.declared (die * 32 + k)
  (d != 0 && decide (s.tideOf die ≤ d + 10000)) || (List.range 4).any fun j => (s.laser die j k).bad != 0

/-- A codeword of a lane decoded (R292, R309): counted, with the bytes it had wrong within the last 1 ms, and named as the last one
taken (R328). -/
def State.takeWord (s : State) (l n seq idx : Nat) : State :=
  let die := laneDie l
  let now := s.tideOf die
  let s1 := (s.addWrap (a_LANE_CW die (laneNo l)) f_LANE_CW_COUNT 1).modLane l fun x =>
    { x with
      rxSeq := seq
      rxIdx := idx
      took := (seq, idx)
      corr := (x.corr.filter fun t => decide (now < t.1 + 1_000_000)) ++ if n = 0 then [] else [(now, n)] }
  let s2 := if n = 0 then s1 else s1.bump (a_LANE_FEC die (laneNo l)) f_LANE_FEC_CORR
  s2.setFld (a_LANE_EYE die (laneNo l)) f_LANE_EYE_SYMERR (min 65535 ((s2.lane l).corr.map Prod.snd).sum)

/-- A codeword of a lane that is uncorrectable (R292): counted. -/
def State.spoilWord (s : State) (l seq idx : Nat) : State :=
  let die := laneDie l
  ((s.addWrap (a_LANE_CW die (laneNo l)) f_LANE_CW_COUNT 1).modLane l fun x => { x with rxSeq := seq, rxIdx := idx }).bump
    (a_LANE_FEC die (laneNo l)) f_LANE_FEC_UNCORR

/-- What an uncorrectable codeword means for its lane (R284, R301): outside the interval of R284 the sixteenth within 1 ms is a lane
fault. -/
def State.spoils (s : State) (l : Nat) : State :=
  let now := s.tideOf (laneDie l)
  let s0 := s.modLane l fun x => { x with spoilt := (x.spoilt.filter fun t => decide (now < t + 1_000_000)) ++ [now] }
  if s.exempt (laneDie l) (s.laneSlot l) then s0
  else
    let s1 := s0.modLane l fun x => { x with uncorr := (x.uncorr.filter fun t => decide (now < t + 1_000_000)) ++ [now] }
    if 16 ≤ (s1.lane l).uncorr.length then s1.laneFault l 3 false else s1

/-- A MARK looked for at a block boundary of a lane: the second in a row that is missing is a lane fault (R291, R301). -/
def State.marked (s : State) (l : Nat) (found : Bool) : State :=
  let s1 := s.modLane l fun x => { x with marks := if found then 0 else x.marks + 1, markAt := s.tideOf (laneDie l) }
  if 2 ≤ (s1.lane l).marks then s1.laneFault l 2 false else s1

/-- LANE_CODEWORD_RECEIVE: a data codeword of a lane in service, as its 136 bytes by position: decoded whole, its cells go to the
router; uncorrectable, it forms a NAK, and the sixteenth within 1 ms is a lane fault (R290, R292, R301, R328). The descrambler takes its
bits either way, as they came. -/
def execLaneCodewordReceive (lane : Nat) (raw : List Byte) (s : State) : Host.Outcome State Fault Refusal :=
  let die := laneDie lane
  let p := s.lanePort lane
  .next (if decide (384 ≤ lane) || s.laneSt lane != 2 || raw.length != 136 || s.portSt p == 3 then s
    else
      let x := s.lane lane
      let idx := x.rxIdx + 1
      match rsDecode (raw.map BitVec.toNat) with
      | some (w, n) =>
        let (data, scr) := descrambleWord x.scr (w.drop 8)
        let bs := data.map fun n => BitVec.ofNat 8 n
        let c0 := cellOf (bs.take 64)
        let c1 := cellOf (bs.drop 64)
        ((s.takeWord lane n x.rxSeq idx).modLane lane fun y => { y with scr := scr }).modRouter die fun r =>
          { r with arr := r.arr ++ [⟨lane, c0.1, c0.2⟩, ⟨lane, c1.1, c1.2⟩] }
      | none =>
        let scr := (descrambleWord x.scr ((raw.map BitVec.toNat).drop 8)).2
        (((s.spoilWord lane x.rxSeq idx).modLane lane fun y => { y with scr := scr }).formEntry p false (s.lanePos lane) x.rxSeq idx).spoils lane)

/-- Whether a codeword's name is still held at a tide (R329): it is among the codewords held, or the control codeword of its block is and
the codeword, which carried no cell, left its place of 8.5 ns in the block less than 8,000 tide units ago. -/
def holdsName (mine : List HeldWord) (now bseq index : Nat) : Bool :=
  mine.any fun w => w.bseq == bseq && (w.index == index || (w.index == 0 && decide (now < w.since + 17 * index / 2 + 8000)))

/-- The codewords that a link entry has replayed (R329): the one named, or those sent on the position after it, but for what has been
replayed; none where the name is no longer held. -/
def replayed (ws : List HeldWord) (now p : Nat) (fault : Bool) (pos bseq index : Nat) : Option (List HeldWord) :=
  let mine := ws.filter fun w => w.port == p && w.pos == pos
  if !holdsName mine now bseq index then none
  else
    let l := if fault then (mine.dropWhile fun w => w.bseq != bseq).filter fun w => w.bseq != bseq || decide (index < w.index)
      else mine.filter fun w => w.bseq == bseq && w.index == index
    some (l.filter fun w => !w.done && !w.cells.isEmpty)

/-- A link entry received (R329, R330): acted on once under its name. A time-transfer cell is replayed on its own port (12_the_tide.md R377). -/
def State.takeEntry (s : State) (p e : Nat) : State :=
  let b := portDie p
  let fault := bit e 31
  let pos := bits e 27 24
  let bseq := bits e 23 8
  let index := bits e 7 0
  let r := s.router b
  if r.acted.any fun a => a.port == p && a.fault == fault && a.pos == pos && a.bseq == bseq && a.index == index then s
  else
    let s1 := s.modRouter b fun x => { x with acted := x.acted ++ [⟨p, fault, pos, bseq, index, s.tideOf b⟩] }
    match replayed r.words (s.tideOf b) p fault pos bseq index with
    | none => s1.replayLost p
    | some ws =>
      (s1.modRouter b fun x =>
        { x with
          words := x.words.map fun w => if ws.contains w then { w with done := true } else w
          held := x.held ++ ws.flatMap fun w => w.cells.map fun c =>
            ⟨c, w.since, true, some (s.portPart p), if c.kind = 0xE && decide (bits c.g0 7 0 < 0x10) then some p else none⟩ }).addWrap
        (a_RTR_COUNT b 13) f_RTR_COUNT_COUNT ws.length

/-- What the LINK field of a control codeword brings (R324, R327). -/
def State.takeLink (s : State) (p : Nat) (bs : List Byte) : State :=
  let b := portDie p
  let s1 := s.modRouter b fun r =>
    { r with starved := if bit (natLE ((bs.drop 32).take 1)) 0 then
        (if (Tbl.find r.starved p).isSome then r.starved else Tbl.insert r.starved p false)
      else Tbl.erase r.starved p }
  let n := min 7 (natLE ((bs.drop 33).take 1))
  (List.range n).foldl (fun t i => t.takeEntry p (natLE ((bs.drop (36 + 4 * i)).take 4))) s1

/-- Whether 128 bytes are a control codeword with no reserved bit set (R291, R327). -/
def controlOk (bs : List Byte) : Bool :=
  let f (a n : Nat) : Nat := natLE ((bs.drop a).take n)
  f 120 8 == 0xB8249E71C60FA35D && f 2 2 / 2 ^ 12 == 0 && f 4 1 / 2 ^ 5 == 0 && f 5 1 / 2 ^ 5 == 0 && f 6 1 / 2 == 0 && f 7 1 == 0
    && f 12 4 / 2 ^ 17 == 0 && f 28 4 == 0 && f 32 1 / 2 == 0 && f 34 2 == 0 && f 72 48 == 0
    && (List.range 7).all fun i => bits (f (36 + 4 * i) 4) 30 28 == 0

/-- What the fields of a control codeword change at a port (R288, R297, R300, R302). A position that the peer does not fill holds its engine
acquiring; a lane on a slot that is dark waits for the mapping. -/
def State.takeControl (s : State) (p : Nat) (bs : List Byte) : State :=
  let f (a n : Nat) : Nat := natLE ((bs.drop a).take n)
  let now := s.tideOf (portDie p)
  let was := s.port p
  let sync := if bit (f 6 1) 0 then some (f 64 8) else none
  let s1 := s.modPort p fun x =>
    { x with
      peer := f 12 4
      peerAt := f 16 8
      peerSync := sync
      filled := f 24 2
      ident := some (bits (f 2 2) 11 0, bits (f 4 1) 4 0, f 8 4) }
  let s2 := if was.peerSync.isSome && sync.isNone && was.rotating then s1.freezePort p
    else if !was.rotating && was.peer != f 12 4 then (s1.applyDark p now).remap p (now + 20000)
    else s1
  let s3 := (s2.portLanes p).foldl (fun t l =>
    let here := bit (f 24 2) (t.lanePos l)
    if !here && !(t.lane l).dropped && decide (2 ≤ t.laneSt l) && decide (t.laneSt l ≤ 4) then t.setLaneSt l 1
    else if t.laneSt l = 1 && here && (t.lane l).due.isNone && !bit (t.ownDark p ||| (t.port p).peer) (t.laneSlot l) && t.slotOf p (t.lanePos l) == some (t.laneSlot l) then t.enterService l
    else t) s2
  let s4 := (s3.portLanes p).foldl (fun t l => if bit (f 26 2) (t.lanePos l) then t.laneFault l 4 false else t) s3
  (s4.takeLink p bs).showPort p

/-- Whether 128 bytes end with MARK (R291). -/
def hasMark (bs : List Byte) : Bool := natLE ((bs.drop 120).take 8) == 0xB8249E71C60FA35D

/-- Whether a port takes the codewords of a lane's position: not of one that this end has faulted, or that is moving (R296, R302). -/
def State.listens (s : State) (l : Nat) : Bool :=
  s.laneSt l == 2 || (s.laneSt l == 1 && (s.lane l).due.isNone && !bit (s.port (s.lanePort l)).lfault (s.lanePos l))

/-- CONTROL_CODEWORD_RECEIVE: the control codeword of a lane block, on a lane or (none) on the calibration slot. Its MARK and its
correction count; one that is uncorrectable or has a reserved bit set is then ignored (R291, R292). -/
def execControlCodewordReceive (port : Nat) (lane : Option Nat) (raw : List Byte) (s : State) : Host.Outcome State Fault Refusal :=
  .next (if decide (32 ≤ port) || s.portSt port == 3 || raw.length != 136
      || (match lane with
        | some l => s.lanePort l != port || decide (384 ≤ l) || !s.listens l
        | none => false) then s
    else match rsDecode (raw.map BitVec.toNat) with
      | none => match lane with
        | none => s
        | some l => ((s.spoilWord l (((s.lane l).rxSeq + 1) % 65536) 0).spoils l).marked l false
      | some (w, n) =>
        let bs := (w.drop 8).map fun b => BitVec.ofNat 8 b
        let seq (l : Nat) : Nat := if controlOk bs then natLE (bs.take 2) else ((s.lane l).rxSeq + 1) % 65536
        let s1 := match lane with
          | none => s
          | some l => (s.takeWord l n (seq l) 0).marked l (hasMark bs)
        if controlOk bs then s1.takeControl port bs else s1)

/-- LINK_ENTRY_EXPIRE: the oldest link entry of a port that is 3,000 tide units old is taken out; one that no control codeword has
carried becomes a FAULT from the last codeword taken, and its lane takes a fault of cause 3 (R328). -/
def execLinkEntryExpire (port : Nat) (s : State) : Host.Outcome State Fault Refusal :=
  let b := portDie port
  .next (match (s.router b).ents.find? fun e => e.port == port && decide (e.since + 3000 ≤ s.tideOf b) with
    | none => s
    | some e =>
      let s1 := s.modRouter b fun r => { r with ents := r.ents.erase e }
      if e.carried then s1
      else match s1.laneAt port e.pos with
        | some l =>
          if s1.laneSt l = 2 then s1.laneFault l 3 false
          else (s1.formEntry port true e.pos (s1.lane l).took.1 (s1.lane l).took.2).laneFault l 3 false
        | none => s1.formEntry port true e.pos e.bseq e.index)

/-- REPLAY_HOLD_EXPIRE: codewords that a base die's ports have held for 8,000 tide units are held no longer (R329); a control codeword
stands for its block until the last of that is. -/
def execReplayHoldExpire (base : Nat) (s : State) : Host.Outcome State Fault Refusal :=
  .next (s.modRouter base fun r =>
    { r with
      words := r.words.filter fun w => decide (s.tideOf base < w.since + 8000 + if w.index = 0 then 2176 else 0)
      acted := r.acted.filter fun a => decide (s.tideOf base < a.since + 11000) })

end Sys2Proof.Machine
end

