-- ==== Sys2Proof/Machine/Send.lean ====
section
/-! DEFINITION. What a base die's lanes and calibration slots send: control codewords at the start of each lane block
(09_pholux_photonics.md R288, R291, R297, R300, R302, 10_tideway_fabric.md R324, R327, R328), data codewords with the cells that the router
gives them (R290, R329). -/

namespace Sys2Proof.Machine
open Sys2Proof

/-! ### Control codewords -/

/-- The tide units that a lane block takes (R289). -/
def blockTime : Nat := 2176

/-- The positions of a port that this end fills (R291, R300): those of engines that are neither FAILED nor OFFLINE. -/
def State.fills (s : State) (p : Nat) : Nat :=
  ((List.range 16).map fun j => match s.laneAt p j with
    | some l => if 5 ≤ s.laneSt l then 0 else 2 ^ j
    | none => 0).sum

/-- The router's own STARVE (R324): a local cell has waited RTR_CTL.STARVE · 100 tide units; 0 disables it. -/
def State.starves (s : State) (b : Nat) : Bool :=
  let n := s.fld (a_RTR_CTL b) f_RTR_CTL_STARVE
  n != 0 && (s.router b).loc.any fun w => decide (w.since + 100 * n ≤ s.tideOf b)

/-- The link entries that a control codeword of a port carries (R328): its seven oldest of the last 3,000 tide units. -/
def State.carries (s : State) (p : Nat) : List LinkEnt :=
  (((s.router (portDie p)).ents.filter fun e => e.port == p && decide (s.tideOf (portDie p) < e.since + 3000))).take 7

/-- A link entry as four bytes (R327). -/
def LinkEnt.word (e : LinkEnt) : Nat := b2n e.fault * 2 ^ 31 + e.pos % 16 * 2 ^ 24 + e.bseq % 65536 * 2 ^ 8 + e.index % 256

/-- The 128 bytes of a control codeword of port p, of position `pos` (0x1F on the calibration slot) and block `bseq` (R291, R327). -/
def State.controlBytes (s : State) (p pos bseq : Nat) : List Byte :=
  let es := s.carries p
  bytesLE 2 bseq ++ bytesLE 2 s.nodeId ++ bytesLE 1 p ++ bytesLE 1 pos ++ bytesLE 1 (b2n s.stide.isSome) ++ bytesLE 1 0
    ++ bytesLE 4 (s.calStep p) ++ bytesLE 4 (s.ownDark p) ++ bytesLE 8 (s.port p).ownAt ++ bytesLE 2 (s.fills p)
    ++ bytesLE 2 (s.port p).lfault ++ bytesLE 4 0
    ++ bytesLE 1 (b2n (s.starves (portDie p))) ++ bytesLE 1 es.length ++ bytesLE 2 0
    ++ (List.range 7).flatMap (fun i => bytesLE 4 ((es[i]?.map LinkEnt.word).getD 0))
    ++ bytesLE 8 (s.stide.getD 0) ++ bytesLE 48 0 ++ bytesLE 8 0xB8249E71C60FA35D

/-- A control codeword sent: it is not scrambled; the entries that it carries are marked so. -/
def State.sendControl (s : State) (kind : OutKind) (dest p pos bseq : Nat) : State :=
  let es := s.carries p
  (s.send kind dest (pamLevels (rsEncode ((s.controlBytes p pos bseq).map BitVec.toNat)))).modRouter (portDie p) fun r =>
    { r with ents := r.ents.map fun e => if es.contains e then { e with carried := true } else e }

/-! ### Blocks -/

/-- The codeword of its block that a lane sends next, by the time since the block began (8.5 ns each, R289) and what it has sent; past 255
where no block is under way or this one is over. -/
def State.txIndex (s : State) (l : Nat) : Nat :=
  let x := s.lane l
  match x.txAt with
  | none => 256
  | some t => max x.txIdx (2 * (s.tideOf (laneDie l) - t) / 17)

/-- A new block of a lane, where one is due: its control codeword, whose name the sender keeps as it keeps those of data codewords
(R291, R328, R329). -/
def State.startBlock (s : State) (l : Nat) : State :=
  if s.txIndex l < 256 then s
  else
    let x := s.lane l
    let p := s.lanePort l
    let b := laneDie l
    let seq := if x.txAt.isSome then (x.txSeq + 1) % 65536 else x.txSeq
    ((s.sendControl .lane l p (s.lanePos l) seq).modRouter b fun r =>
      { r with words := r.words ++ [⟨p, s.lanePos l, seq, 0, [], s.tideOf b, false⟩] }).modLane l fun y =>
      { y with txSeq := seq, txIdx := 1, txAt := some (s.tideOf b) }

/-- A new block of a port's calibration slot, where one is due: from step 3 of bring-up on its engine sends blocks (R293). -/
def State.startCalBlock (s : State) (p : Nat) : State :=
  let x := s.port p
  let now := s.tideOf (portDie p)
  let due := match x.calAt with
    | none => true
    | some t => decide (t + blockTime ≤ now)
  if x.step < 3 || s.portSt p == 3 || !due then s
  else (s.sendControl .control p p 0x1F x.calSeq).modPort p fun y => { y with calSeq := (y.calSeq + 1) % 65536, calAt := some now }

/-! ### Data codewords -/

/-- A cell as its codeword begins to leave: a time-transfer cell of this node takes its departure tide, and the servo keeps that of its
SYNC_REQ (12_the_tide.md R377). -/
def State.departs (s : State) (c : Cell) : State × Cell :=
  let t := s.stamp 12
  if c.kind ≠ 0xE || c.src != s.nodeId then (s, c)
  else if bits c.g0 7 0 = 1 then
    ({ s with servo := { s.servo with req := s.servo.req.map fun q => if q.1 = bits c.g1 63 0 then (q.1, t) else q } },
      { c with g0 := c.g0 % 2 ^ 64 + t * 2 ^ 64 })
  else if bits c.g0 7 0 = 2 then (s, { c with g1 := c.g1 % 2 ^ 64 + t * 2 ^ 64 })
  else (s, c)

/-- A data codeword sent: scrambled, encoded, and held under its name (R290, R329). What stands in the second half of a codeword that
carries one cell is not stated: free bytes. -/
def State.sendWord (s : State) (l : Nat) (c0 : Cell) (c1 : Option Cell) : State :=
  let b := laneDie l
  let (s1, d0) := s.departs c0
  let (s2, d1, half) := match c1 with
    | some c => let q := s1.departs c; (q.1, [q.2], cellBytes q.2)
    | none => let q := s1.freeBytes 64; (q.2, [], q.1)
  let x := s.lane l
  let i := s.txIndex l
  let (data, scr) := scrambleWord x.txScr ((cellBytes d0 ++ half).map BitVec.toNat)
  ((s2.send .lane l (pamLevels (rsEncode data))).modRouter b fun r =>
    { r with words := r.words ++ [⟨s.lanePort l, s.lanePos l, x.txSeq, i, d0 :: d1, s.tideOf b, false⟩] }).modLane l fun y =>
    { y with tx := none, txIdx := i + 1, txScr := scr }

/-- A cell given to a lane (R289): the second of a codeword sends it. -/
def State.sendLane (s : State) (l : Nat) (c : Cell) : State :=
  match (s.lane l).tx with
  | none => s.modLane l fun y => { y with tx := some c }
  | some c0 => s.sendWord l c0 (some c)

/-- The slot's end for a lane that had one cell as it began: where no second has come, the codeword leaves without. -/
def State.sendAlone (s : State) (l : Nat) : State :=
  match (s.lane l).tx with
  | some c0 => s.sendWord l c0 none
  | none => s

/-- A cell that a lane had not sent when it left service goes back to the router; a time-transfer cell, which no other port may send,
ends there (12_the_tide.md R377). -/
def State.unsent (s : State) (l : Nat) : State :=
  match (s.lane l).tx with
  | some c =>
    if s.laneSt l = 2 then s
    else
      let s1 := s.modLane l fun y => { y with tx := none }
      if c.kind = 0xE && decide (bits c.g0 7 0 < 0x10) then s1
      else s1.modRouter (laneDie l) fun r =>
        { r with held := r.held ++ [⟨c, s.tideOf (laneDie l), true, some (s.fld (a_lctl l) f_LANE_CTL_PART), none⟩] }
  | none => s

/-- What a base die's lanes do as a slot begins: cells of stopped lanes go back, and blocks that are due begin. -/
def State.openSlot (s : State) (b : Nat) : State :=
  let s1 := (dieLanes b).foldl (fun t l => t.unsent l) s
  let s2 := ((dieLanes b).filter fun l => s1.laneSt l == 2).foldl (fun t l => t.startBlock l) s1
  (diePorts b).foldl (fun t p => t.startCalBlock p) s2

end Sys2Proof.Machine
end

