-- ==== Sys2Proof/Machine/RouterRows.lean ====
section
/-! DEFINITION. The routers (10_tideway_fabric.md R316 to R336): what a slot does with its cells, combining, ejection, and the
responses of merged cells. -/

namespace Sys2Proof.Machine
open Sys2Proof

/-! ### Cells and their order -/

/-- A cell that a slot considers: where it came from (0 lane, 1 held, 2 Quay link, 3 local), its lane, and the rest of R318. -/
structure SlotCell where
  cls : Nat
  lane : Nat
  w : WaitCell
deriving DecidableEq, Repr

/-- The age of a cell at a router (R320). -/
def State.age (s : State) (b : Nat) (c : Cell) : Nat := (bits (s.tideOf b) 15 8 + 256 - c.itide % 256) % 256

/-- Whether a cell is older than another (R320). -/
def State.older (s : State) (b : Nat) (x y : Cell) : Bool :=
  let a := s.age b x
  let a' := s.age b y
  decide (a' < a) || (a == a' &&
    (decide (x.src < y.src) || (x.src == y.src &&
      (decide (x.core < y.core) || (x.core == y.core &&
        (decide (x.rid < y.rid) || (x.rid == y.rid && decide (x.addr < y.addr))))))))

/-- A cell put into its place, oldest first. -/
def State.insertOld (s : State) (b : Nat) (x : SlotCell) : List SlotCell → List SlotCell
  | [] => [x]
  | y :: r => if s.older b x.w.cell y.w.cell then x :: y :: r else y :: s.insertOld b x r

def State.sortOld (s : State) (b : Nat) (l : List SlotCell) : List SlotCell := l.foldl (fun a x => s.insertOld b x a) []

/-- Whether a cell is aged 96 or more (R325): MGMT time transfer and local cells as any other. -/
def State.stale (s : State) (b : Nat) (c : Cell) : Bool := decide (96 ≤ s.age b c)

/-! ### Dropping -/

/-- A counter of R347. -/
def State.rtrCount (s : State) (b i : Nat) : State := s.addWrap (a_RTR_COUNT b i) f_RTR_COUNT_COUNT 1

/-- A cell dropped with a record of the base die and a teardown of its partition (R316, R325). -/
def State.dropTorn (s : State) (b i code part : Nat) : State :=
  ((s.rtrCount b i).detect8 b code 0xF 0 0 0).askTeardown part code

/-- Whether a partition is torn down here (R336). -/
def State.tornAt (s : State) (b part : Nat) : Bool :=
  decide (part < 24) && (bit (s.fld (a_RTR_STATUS b) f_RTR_STATUS_TORN) part || s.pstate part == 0)

/-- Whether a cell is a TEARDOWN, which a torn-down partition still takes (14_faults_checkpoint_recovery.md R438). -/
def isTeardown (c : Cell) : Bool := c.kind == 0xD && bits c.g0 7 0 == 1

/-- Whether a cell's kind is one that a router takes (R314, R377, 16_host_network_management.md R496). -/
def kindOk (c : Cell) : Bool :=
  if c.kind = 0xD then bits c.g0 7 0 == 1 || bits c.g0 7 0 == 2
  else if c.kind = 0xE then
    c.part == 31 && (bits c.g0 7 0 == 1 || bits c.g0 7 0 == 2 || (decide (0x10 ≤ bits c.g0 7 0) && decide (bits c.g0 7 0 ≤ 0x14)))
  else c.kind != 0 && c.kind != 0xF

/-- A cell from a lane looked at (R316, R325, R336, R346): dropped, or some cell to go on with. -/
def State.screen (s : State) (b : Nat) (a : Arrival) : State × Option SlotCell :=
  let s1 := s.rtrCount b 0
  let c := a.cell
  let p := s.lanePort a.lane
  let part := s.portPart p
  if !a.good then (s1.dropTorn b 10 Code.FABRIC_CELL_CRC c.part, none)
  else if !kindOk c then (s1.rtrCount b 9, none)
  else if c.part ≠ part && c.part != 31 then ((s1.rtrCount b 9).reportSlow p Code.FOREIGN_CELL b part [], none)
  else if s.tornAt b c.part && !(isTeardown c && s.pstate c.part == 3) then (s1.rtrCount b 12, none)
  else if s.stale b c then (s1.dropTorn b 11 Code.FABRIC_STALE_CELL c.part, none)
  else (s1, some ⟨0, a.lane, ⟨c, s.tideOf b, false, some part, none⟩⟩)

/-- The cells that have crossed the Quay link to a router since its last slot, in order: their CRC is checked (R316); bit i of `bad` says
that the i-th has failed. -/
def State.crossed (s : State) (b bad : Nat) : State :=
  (s.router b).crossing.zipIdx.foldl (fun t x =>
    if bit bad x.2 then t.dropTorn b 10 Code.FABRIC_CELL_CRC x.1.2.cell.part
    else t.modRouter b fun r => { r with quay := r.quay ++ [x.1.2] }) (s.modRouter b fun r => { r with crossing := [] })

/-- Waiting cells of a router that are stale or torn down are dropped (R325, R336), but for this node's own copies of a TEARDOWN
(R346). -/
def State.sweep (s : State) (b : Nat) (l : List WaitCell) : State × List WaitCell :=
  l.foldl (fun (q : State × List WaitCell) w =>
    if q.1.tornAt b w.cell.part && !(isTeardown w.cell && w.port.isSome) then (q.1.rtrCount b 12, q.2)
    else if q.1.stale b w.cell then (q.1.dropTorn b 11 Code.FABRIC_STALE_CELL w.cell.part, q.2)
    else (q.1, q.2 ++ [w])) (s, [])

/-! ### Ejecting -/

/-- The target die of a cell that ejects (R322, R334). -/
def cellDie (c : Cell) : Nat :=
  if cellResponse c then answerDie c.core
  else if c.kind = 0xC then coreDie (signalOf c).1
  else addrDie (match cellRanges c with
    | x :: _ => x.1
    | [] => c.addr * 16)

/-- Whether a cell opens a transfer context on a base die, or waits for one to be opened (R342). -/
def State.opensCtx (s : State) (b : Nat) (c : Cell) : Bool :=
  (c.kind == 4 || c.kind == 5) && decide (c.core < 0xC0) && baseOf (cellDie c) == b && !s.loadClose (coreDie c.core) c
    && !(s.ctxList b).any (TransferCtx.of c)

/-- The transfers whose contexts on a base die cells of the ejection buffers are still to open, each named once (R342). -/
def State.toOpen (s : State) (b : Nat) : List (Nat × Nat × Nat) :=
  ((((upFrom 12 4).flatMap fun r => (s.router r).eject).filter fun c => s.opensCtx b c).map fun c => (c.src, c.core, c.rid)).eraseDups

/-- Whether a cell finds its transfer context, or a free one (R342). -/
def State.ctxRoom (s : State) (c : Cell) : Bool :=
  let b := baseOf (cellDie c)
  !s.opensCtx b c || (s.toOpen b).contains (c.src, c.core, c.rid) || decide ((s.ctxList b).length + (s.toOpen b).length < 2048)

/-- Whether the ejection buffer takes a cell (R322). -/
def State.canEject (s : State) (b : Nat) (c : Cell) : Bool := decide ((s.router b).eject.length < 4096) && s.ctxRoom c

/-- A cell for this node ejected: CONTROL and MGMT cells to the node's own units, others into the buffer (R322, R346, R377). -/
def State.eject (s : State) (b : Nat) (x : SlotCell) : State :=
  let s1 := s.rtrCount b 2
  if x.w.cell.kind = 0xD || x.w.cell.kind == 0xE then { s1 with ctl := s1.ctl ++ [(s.lanePort x.lane, x.w.cell)] }
  else s1.modRouter b fun r => { r with eject := r.eject ++ [x.w.cell] }

/-! ### Combining -/

/-- What must agree for two cells to merge (R331); none for a kind that never does. -/
def mergeKey (c : Cell) : Option (List Nat) :=
  match c.kind with
  | 6 => some [6, c.part, c.dst, c.addr, bits c.g2 95 62, bits c.g2 61 29, bits c.g2 28 28, bits c.g2 11 0]
  | 7 => some [7, c.part, c.dst, c.addr, bits c.g1 95 62, bits c.g1 61 29, bits c.g1 28 28, bits c.g1 11 0]
  | 8 => some [8, c.part, c.dst, c.addr, bits c.g0 64 64, bits c.g0 71 68]
  | 1 => some [1, c.part, c.dst, c.addr, bits c.g0 5 0, bits c.g0 19 8, bits c.g0 20 20]
  | _ => none

/-- Sums of `w`-bit elements of two numbers of `n` elements. -/
def addLanes (w n a b : Nat) : Nat :=
  ((List.range n).map fun i => (bits a (w * i + w - 1) (w * i) + bits b (w * i + w - 1) (w * i)) % 2 ^ w * 2 ^ (w * i)).sum

/-- The trailer of two merged RL add cells: flags joined, tallies added modulo their width; the rest agrees (R331). -/
def mergeTrailer (wide : Bool) (a b : Nat) : Nat :=
  let (lo, w) := if wide then (192, 64) else (96, 32)
  let t := (bits a (lo + w - 1) lo + bits b (lo + w - 1) lo) % 2 ^ w
  a % 2 ^ 22 + (bits a 27 22 ||| bits b 27 22) * 2 ^ 22 + bits a (lo - 1) 28 * 2 ^ 28 + t * 2 ^ lo

/-- Two cells merged (R331), with the ITIDE of the older (R333). -/
def State.mergeCells (s : State) (b : Nat) (x y : Cell) : Cell :=
  let it := if s.age b x < s.age b y then y.itide else x.itide
  match x.kind with
  | 6 => { x with itide := it, g0 := addLanes 32 4 x.g0 y.g0, g1 := addLanes 32 4 x.g1 y.g1, g2 := mergeTrailer false x.g2 y.g2 }
  | 7 =>
    let t := mergeTrailer true (x.g1 + x.g2 * 2 ^ 128) (y.g1 + y.g2 * 2 ^ 128)
    { x with itide := it, g0 := addLanes 64 2 x.g0 y.g0, g1 := t % 2 ^ 128, g2 := t / 2 ^ 128 }
  | 8 =>
    let w := if bit x.g0 64 then 64 else 32
    { x with itide := it, g0 := x.g0 - x.g0 % 2 ^ 64 + (x.g0 % 2 ^ w + y.g0 % 2 ^ w) % 2 ^ w }
  | _ => { x with itide := it }

/-- A requester's ticket taken in an entry (R332): a requester that has one adds to its count; none where eight are out. -/
def addTicket (c : Cell) (ts : List Ticket) : Option (List Ticket) :=
  let off := if c.kind = 1 then bits c.g0 19 8 else 0
  let mine (t : Ticket) : Bool := t.src == c.src && t.core == c.core && t.rid == c.rid && t.offset == off
  if c.kind ≠ 1 && ts.any mine then some (ts.map fun t => if mine t then { t with cells := t.cells + 1 } else t)
  else if 8 ≤ ts.length then none
  else some (ts ++ [⟨c.src, c.core, c.rid, off, 1⟩])

/-- The open entry that a cell matches: one whose cell has not gone, and which has been open fewer slots than `cwin` (R331, R333,
R335). -/
def RouterState.matching (r : RouterState) (cwin : Nat) (c : Cell) : Option (Nat × Combo) :=
  r.combos.findSome? fun e => match e.2 with
    | some x => if !x.sent && decide (x.age < cwin) && (mergeKey x.cell).isSome && mergeKey x.cell == mergeKey c then some (e.1, x) else none
    | none => none

/-- A free entry for a partition, and whether it counts against its reserve (R332). -/
def State.freeEntry (s : State) (b part : Nat) : Option (Nat × Bool) :=
  let used := ((s.router b).combos.filterMap fun e => e.2)
  let res (q : Nat) : Nat := s.fld (a_RTR_CRES b q) f_RTR_CRES_RESERVE
  let total := ((List.range 24).map res).sum
  let mine := (used.filter fun x => x.reserved && x.cell.part == part).length
  let open_ := (used.filter fun x => !x.reserved).length
  let n := (List.range 4096).find? fun i => (Tbl.get none (s.router b).combos i).isNone
  if part < 24 && decide (mine < res part) then n.map fun i => (i, true)
  else if open_ < 4096 - total then n.map fun i => (i, false)
  else none

/-- A combinable cell at a router (R331 to R333): it joins or opens an entry and is absorbed, or passes. -/
def State.combine (s : State) (b : Nat) (x : SlotCell) : State × Bool :=
  let c := x.w.cell
  if (mergeKey c).isNone || x.w.nocomb || s.fld (a_RTR_CTL b) f_RTR_CTL_CWIN == 0 then (s, false)
  else match (s.router b).matching (s.fld (a_RTR_CTL b) f_RTR_CTL_CWIN) c with
    | some (n, e) =>
      (match addTicket c e.tickets with
        | none => (s, false)
        | some ts =>
          let e1 := { e with cell := s.mergeCells b e.cell c, tickets := ts }
          ((s.rtrCount b 7).modRouter b fun r => { r with combos := Tbl.set none r.combos n (some e1) }, true))
    | none => match s.freeEntry b c.part with
      | none => (s.rtrCount b 8, false)
      | some (n, res) =>
        let e : Combo := ⟨c, (addTicket c []).getD [], 0, false, 0, res⟩
        (s.modRouter b fun r => { r with combos := Tbl.set none r.combos n (some e) }, true)

/-! ### Outputs -/

/-- The lanes of a base die that carry traffic (R300, R318). -/
def State.outputs (s : State) (b : Nat) : List Nat := (dieLanes b).filter fun l => s.laneSt l == 2

/-- Whether a cell may leave by a port (R336). -/
def State.mayLeave (s : State) (x : SlotCell) (p : Nat) : Bool :=
  if x.w.port.any (· != p) then false
  else if x.w.cell.part = 31 then (match x.w.via with
    | some q => s.portPart p == q
    | none => true)
  else s.portPart p == x.w.cell.part

/-- Of some ports the one with the most free lanes, the lower number on a tie; then its lowest position (R320). -/
def State.pickLane (s : State) (free : List Nat) (ports : List Nat) : Option Nat :=
  let count (p : Nat) : Nat := (free.filter fun l => s.lanePort l == p).length
  let best := ports.foldl (fun (a : Option Nat) p =>
    match a with
    | none => if count p = 0 then none else some p
    | some q => if count q < count p then some p else some q) none
  match best with
  | none => none
  | some p => (List.range 16).findSome? fun j => (free.find? fun l => s.lanePort l == p && s.lanePos l == j)

/-- The preferred ports of a cell (R317). -/
def State.preferred (s : State) (b : Nat) (c : Cell) : List Nat :=
  (List.range 32).filter fun p => bit (s.fld (a_RTR_ROUTE b c.dst) f_RTR_ROUTE_MASK) p

/-- A cell put out on a lane, and counted (R347). -/
def State.output (s : State) (b l : Nat) (c : Cell) : State := (s.rtrCount b 1).sendLane l c

/-- A cell back where it waits (R321). -/
def State.keepCell (s : State) (b : Nat) (x : SlotCell) : State :=
  s.modRouter b fun r => match x.cls with
    | 1 => { r with held := r.held ++ [x.w] }
    | 2 => { r with quay := r.quay ++ [x.w] }
    | _ => { r with loc := r.loc ++ [x.w] }

/-- An admitted cell that found no output: it stays, and a local one counts in INJ_WAIT (R321). -/
def State.stays (s : State) (b : Nat) (x : SlotCell) : State :=
  if x.cls = 3 then (s.keepCell b x).rtrCount b 5 else s.keepCell b x

/-- Whether a cell may cross from one base die to another (R323, R239): the way is up, and its first link holds credits of MEM.REQ for the
packet. -/
def State.crossRoom (s : State) (b b' : Nat) : Bool :=
  s.routeUp b b' && (match s.route b b' with
    | p :: _ => decide (flitsOf 48 ≤ s.credit p.1 p.2 0)
    | [] => false)

/-- Whether STARVE lets a local cell use a port this slot (R324): `shut` holds the ports that receive STARVE and admitted a local cell in the
slot before. -/
def starveOk (shut : Tbl Bool) (x : SlotCell) (p : Nat) : Bool := x.cls != 3 || !Tbl.get false shut p

/-- A local cell counted as injected, and noted at a port that receives STARVE (R324, R347). -/
def State.injected (s : State) (b p : Nat) (x : SlotCell) : State :=
  if x.cls ≠ 3 then s
  else (s.rtrCount b 3).modRouter b fun r =>
    { r with starved := if (Tbl.find r.starved p).isSome then Tbl.insert r.starved p true else r.starved }

/-- The preferred outputs of a cell as ports (R317): the one that it is bound to, else those of the table by which it may leave; none of a
cell for this node. -/
def State.prefers (s : State) (b : Nat) (x : SlotCell) : List Nat :=
  match x.w.port with
  | some p => [p]
  | none => if x.w.cell.dst = s.nodeId then [] else (s.preferred b x.w.cell).filter fun p => s.mayLeave x p

/-- One cell given an output (R320, R321, R323), the free lanes after it. -/
def State.assign (s : State) (b : Nat) (shut : Tbl Bool) (free : List Nat) (x : SlotCell) : State × List Nat :=
  let c := x.w.cell
  let here := diePorts b
  let pref := s.prefers b x
  match s.pickLane free (pref.filter fun p => here.contains p && starveOk shut x p) with
  | some l => ((s.injected b (s.lanePort l) x).output b l c, free.erase l)
  | none =>
    let b' := portDie (pref.headD 0)
    if !pref.isEmpty && x.cls != 2 && !(pref.any fun p => here.contains p) && s.crossRoom b b' then
      (((s.injected b 0xFF x).carry b b' 0 (flitsOf 48)).modRouter b' fun r =>
        { r with crossing := r.crossing ++ [(b, { x.w with since := s.tideOf b' })] }, free)
    else if x.cls = 0 then
      match s.pickLane free (here.filter fun p => s.mayLeave x p) with
      | some l => ((s.rtrCount b 4).output b l c, free.erase l)
      | none => (s.modRouter b fun r => { r with held := r.held ++ [x.w] }, free)
    else (s.stays b x, free)

/-- The first arrival of each lane, in order of lanes, and the rest (R318). -/
def firstArrivals (l : List Arrival) : List Arrival × List Arrival :=
  l.foldl (fun (q : List Arrival × List Arrival) a =>
    if q.1.any fun x => x.lane == a.lane then (q.1, q.2 ++ [a]) else (q.1 ++ [a], q.2)) ([], [])

/-- The second arrivals of a slot: of each lane whose FIFO held six codewords or more, twelve cells, as the slot began (R469). `rest` is what
the first arrivals leave. -/
def secondArrivals (rest : List Arrival) : List Arrival × List Arrival :=
  let q := firstArrivals rest
  (q.1.filter fun a => decide (11 ≤ (rest.filter fun x => x.lane == a.lane).length),
    (q.1.filter fun a => (rest.filter fun x => x.lane == a.lane).length < 11) ++ q.2)

/-- A list sorted by lane. -/
def byLane (l : List Arrival) : List Arrival :=
  (upFrom 0 384).filterMap fun n => l.find? fun a => a.lane == n

/-- The lane arrivals of a slot looked at in ascending order of lane: those for this node eject, those that join or open a combining
entry are absorbed, and the others need an output (R318, R322, R332). -/
def State.slotArrivals (s : State) (b : Nat) (now : List Arrival) : State × List SlotCell :=
  (byLane now).foldl (fun (q : State × List SlotCell) a =>
    match q.1.screen b a with
    | (t, none) => (t, q.2)
    | (t, some x) =>
      if x.w.cell.dst = t.nodeId || x.w.cell.kind == 0xD then
        if x.w.cell.kind == 0xD || x.w.cell.kind == 0xE || t.canEject b x.w.cell then (t.eject b x, q.2)
        else (t.rtrCount b 6, q.2 ++ [x])
      else match t.combine b x with
        | (u, true) => (u, q.2)
        | (u, false) => (u, q.2 ++ [x])) (s, [])

/-- The second cells that full FIFOs give a slot: screened as any arrival, and then held cells (R318, R469). -/
def State.slotSeconds (s : State) (b : Nat) (l : List Arrival) : State × List WaitCell :=
  (byLane l).foldl (fun (q : State × List WaitCell) a =>
    match q.1.screen b a with
    | (t, none) => (t, q.2)
    | (t, some x) =>
      if x.w.cell.kind = 0xD || (x.w.cell.kind == 0xE && x.w.cell.dst == t.nodeId) then (t.eject b x, q.2)
      else (t, q.2 ++ [x.w])) (s, [])

/-- Waiting cells of a class as a slot considers them: those for this node eject where there is room; a local one may be absorbed, and one that
has passed uncombined is not tried again (R318, R332). -/
def State.slotWaiting (s : State) (b cls : Nat) (l : List WaitCell) : State × List SlotCell :=
  (l.map fun w => (⟨cls, 0, w⟩ : SlotCell)).foldl (fun (q : State × List SlotCell) x =>
    if x.w.port.isNone && x.w.cell.dst == q.1.nodeId && q.1.canEject b x.w.cell then (q.1.eject b x, q.2)
    else if cls ≠ 3 then (q.1, q.2 ++ [x])
    else match q.1.combine b x with
      | (u, true) => (u, q.2)
      | (u, false) => (u, q.2 ++ [{ x with w := { x.w with nocomb := true } }])) (s, [])

/-- Outputs assigned oldest first (R320), and codewords that have waited a slot for a second cell sent; a port that receives STARVE
and admitted a local cell in the last slot admits none in this one (R324). -/
def State.slotOutputs (s : State) (b : Nat) (outs : List Nat) (cells : List SlotCell) : State :=
  let alone := outs.filter fun l => (s.lane l).tx.isSome
  let starved := (s.router b).starved
  let s1 := ((s.sortOld b cells).foldl (fun (q : State × List Nat) x => q.1.assign b starved q.2 x) (s, outs)).1
  (alone.foldl (fun t l => t.sendAlone l) s1).modRouter b fun r =>
    { r with starved := r.starved.map fun e => (e.1, if Tbl.get false starved e.1 then false else e.2) }

/-- ROUTER_SLOT: one slot of a base die's router (R316 to R325, R331 to R336), and what its ports send in it (State.openSlot): arrivals
screened, ejected or absorbed; held, Quay and local cells admitted up to the outputs left; outputs assigned oldest first. Bit i of `bad`
says that the i-th cell that has crossed the Quay link fails its CRC. -/
def execRouterSlot (base bad : Nat) (s : State) : Host.Outcome State Fault Refusal :=
  .next (if base < 12 || 15 < base then s
    else
      let b := base
      let so := (s.openSlot b).crossed b bad
      let r0 := so.router b
      let (now, rest) := firstArrivals r0.arr
      let (second, later) := secondArrivals rest
      let age1 (e : Option Combo) : Option Combo := e.map fun x => if x.sent then x else { x with age := x.age + 1 }
      let s0 := so.setRouter b { r0 with arr := later, held := [], quay := [], loc := [], combos := r0.combos.map fun e => (e.1, age1 e.2) }
      let (s1a, cells) := s0.slotArrivals b now
      let (s1, more) := s1a.slotSeconds b second
      let (s2, held) := s1.sweep b (r0.held ++ more)
      let (s3, quay) := s2.sweep b r0.quay
      let (s4, loc) := s3.sweep b r0.loc
      let (s5, heldC) := s4.slotWaiting b 1 held
      let (s6, quayC) := s5.slotWaiting b 2 quay
      let (s7, locC) := s6.slotWaiting b 3 loc
      let outs := s7.outputs b
      let want := s7.sortOld b heldC ++ s7.sortOld b quayC ++ s7.sortOld b locC
      let room := outs.length - cells.length
      ((want.drop room).foldl (fun t x => t.keepCell b x) s7).slotOutputs b outs (cells ++ want.take room))

/-- EJECTION_HANDOFF: the first cell of the ejection buffer goes on as a MEM.REQ packet to its die (R322, R334, R342); one of a
partition that has been torn down is dropped (R336). A response to a cell that another router of the node merged crosses the Quay link to that
router, which checks its CRC (R316). -/
def execEjectionHandoff (base : Nat) (s : State) : Host.Outcome State Fault Refusal :=
  .next (match (s.router base).eject with
    | [] => s
    | c :: r =>
      let die := if s.loadClose (coreDie c.core) c then coreDie c.core else if c.kind = 5 && decide (0xC0 ≤ c.core) then answerDie c.core
        else cellDie c
      let s1 := s.modRouter base fun x => { x with eject := r }
      if s.tornAt base c.part then s1.rtrCount base 12
      else if decide (0xC0 ≤ c.core) && (cellResponse c || c.kind == 5) && die != base then
        if !s.crossRoom base die then s
        else (s1.carry base die 0 (flitsOf 48)).modRouter die fun x =>
          { x with crossing := x.crossing ++ [(base, ⟨c, s.tideOf die, false, none, none⟩)] }
      else
      let fresh := (c.kind == 4 || c.kind == 5) && !s.loadClose (coreDie c.core) c && decide (c.core < 0xC0)
        && !(s1.ctxList (baseOf die)).any (TransferCtx.of c)
      let s2 := if fresh then s1.setCtxs (baseOf die) (⟨c.src, c.core, c.rid, 0⟩ :: s1.ctxList (baseOf die)) else s1
      s2.quayPush die ⟨base, c.part, .cell c, 0, 0, none⟩)

/-- COMBINING_RELEASE: the first entry that has been open CWIN slots sends its cell on as a held cell; one that merged with nothing
leaves unchanged and its entry closes (R333). -/
def execCombiningRelease (base : Nat) (s : State) : Host.Outcome State Fault Refusal :=
  let due (x : Combo) : Bool := !x.sent && decide (s.fld (a_RTR_CTL base) f_RTR_CTL_CWIN ≤ x.age)
  .next (match (s.router base).combos.findSome? fun e => match e.2 with
      | some x => if due x then some (e.1, x) else none
      | none => none with
    | none => s
    | some (n, x) =>
      let lone := match x.tickets with
        | [t] => t.cells == 1
        | _ => false
      let c := if lone then x.cell
        else { x.cell with src := s.nodeId, core := 0xC0 + 16 * (base - 12) + n / 256, rid := n % 256 }
      let left := if x.cell.kind = 1 then bits x.cell.g0 5 0 + bits x.cell.g0 20 20 else 1
      s.modRouter base fun r =>
        { r with
          held := r.held ++ [⟨c, s.tideOf base, true, none, none⟩]
          combos := Tbl.set none r.combos n (if lone then none else some { x with sent := true, left := left }) })

/-- A response sent to a ticket (R334): an ACK counts the cells that the requester sent into the entry. -/
def State.toTicket (s : State) (die : Nat) (c : Cell) (t : Ticket) : State :=
  let g0 := if c.kind = 0xB then c.g0 - c.g0 % 65536 + t.cells else c.g0
  let c1 := { c with dst := t.src, src := s.nodeId, core := t.core, rid := t.rid, g0 := g0 }
  if t.src = s.nodeId then s.quayPush (answerDie t.core) ⟨die, c1.part, .cell c1, 0, 0, none⟩
  else s.routeLocal die c1 false true

/-- How much of what an entry waits for a response brings (R334): an ACK ends it. -/
def Combo.less (x : Combo) (c : Cell) : Nat :=
  if c.kind = 0xB then 0 else if c.kind = 2 then x.left - granules c.gmask else x.left - 1

/-- COMBINED_RESPONSE_FANOUT: the first response to a merged cell at its owner router goes to every ticket of the entry, which closes
with the last (R334). -/
def execCombinedResponseFanout (die : Nat) (s : State) : Host.Outcome State Fault Refusal :=
  .next (match s.takeCell die fun c => decide (0xC0 ≤ c.core) && (cellResponse c || c.kind == 5) && answerDie c.core == die with
    | none => s
    | some (c, s1) =>
      let n := (c.core - 0xC0) % 16 * 256 + c.rid
      match Tbl.get none (s1.router die).combos n with
      | none => s1
      | some x =>
        let s2 := x.tickets.foldl (fun t k => t.toTicket die c k) s1
        let x1 := { x with left := x.less c }
        s2.modRouter die fun r => { r with combos := Tbl.set none r.combos n (if x1.left = 0 then none else some x1) })

end Sys2Proof.Machine
end

