-- ==== Sys2Proof/Machine/Sched.lean ====
section
/-! DEFINITION. The tide schedule (12_the_tide.md R381 to R387): the fields of an entry, its checks and its slot, the order in which
actions act, and slips. -/

namespace Sys2Proof.Machine
open Sys2Proof

/-! ### Fields of an entry (R381, R382) -/

def enMark (e : Nat) : Nat := bits e 255 192
def enPeriod (e : Nat) : Nat := bits e 191 152
def enRepeat (e : Nat) : Nat := bits e 151 136
def enKind (e : Nat) : Nat := bits e 135 128
def enDie (e : Nat) : Nat := bits e 127 124
def enCore (e : Nat) : Nat := bits e 123 120
def enPart (e : Nat) : Nat := bits e 119 115
def enAll (e : Nat) : Bool := bit e 114
def enTag (e : Nat) : Nat := bits e 111 96
def enArg (e : Nat) : Nat := bits e 95 0

/-- What R382 gives a kind: the bits of ARG it defines, whether a compute die acts, whether a base die acts, and which sources may
give it (bit 0 I, 1 M, 2 P). None for any other kind. -/
structure KindRule where
  arg : Nat
  compute : Bool
  base : Bool
  sources : Nat

/-- Bits `hi` down to `lo`, all ones. -/
def ones (hi lo : Nat) : Nat := (2 ^ (hi + 1 - lo) - 1) * 2 ^ lo

def kindRule (kind : Nat) : Option KindRule :=
  match kind with
  | 0x01 => some ⟨ones 95 48 + ones 12 0, true, false, 7⟩
  | 0x02 => some ⟨ones 25 24 + ones 17 0, true, false, 7⟩
  | 0x03 => some ⟨ones 95 48 + ones 16 0, true, false, 7⟩
  | 0x04 => some ⟨ones 36 0, true, false, 4⟩
  | 0x05 => some ⟨ones 95 0, true, false, 7⟩
  | 0x08 => some ⟨ones 2 0, false, true, 3⟩
  | 0x09 => some ⟨ones 39 0, false, true, 7⟩
  | 0x0A => some ⟨ones 38 0, false, true, 3⟩
  | 0x0C => some ⟨ones 15 0, true, true, 3⟩
  | 0x0D => some ⟨ones 7 0, true, true, 1⟩
  | _ => none

/-- The kinds' order within one tick (R386). -/
def kindRank (kind : Nat) : Nat :=
  match kind with
  | 0x0D => 1
  | 0x08 => 2
  | 0x09 => 3
  | 0x0A => 4
  | 0x0C => 5
  | 0x05 => 6
  | 0x03 => 7
  | 0x02 => 8
  | _ => 9

/-- The dies an entry acts on (R381, R382). -/
def enDies (e : Nat) : List Nat :=
  if enAll e then (if enKind e = 0x0D then List.range 16 else [12, 13, 14, 15]) else [enDie e]

/-! ### Checks (R384) -/

/-- The core whose ring gave an entry, for a pilot's entry: its place on its die. -/
structure PutBy where
  source : Nat
  die : Nat
  core : Nat

/-- The cluster that a core's place on a die belongs to, for a pilot's own (R384): the proof core's by what it stands in for. -/
def State.slotCluster (s : State) (die k : Nat) : Nat := s.clusterOf (13 * die + k)

/-- Whether every core of a mask lies in a pilot's cluster. -/
def State.maskOk (s : State) (die own mask : Nat) : Bool :=
  (List.range 13).all fun k => !bit mask k || s.slotCluster die k == s.slotCluster die own

/-- What R384's second row asks of a pilot's entry. -/
def State.pilotEntryOk (s : State) (e : Nat) (by_ : PutBy) : Bool :=
  let r := (kindRule (enKind e)).getD ⟨0, false, false, 0⟩
  (r.base || (enDie e == by_.die && (enCore e == 0xF || s.slotCluster by_.die (enCore e) == s.slotCluster by_.die by_.core)))
    && (enKind e != 0x01 || s.maskOk by_.die by_.core (bits e 12 0))
    && (enKind e != 0x03 || s.maskOk by_.die by_.core (bits e 16 4))
    && enPart e == s.partOf (13 * by_.die + by_.core)
    && (enKind e != 0x09 || (List.range 8).all fun p => !bit (bits e 39 32) p || s.portPart (8 * (enDie e - 12) + p) == enPart e)

/-- The first two rows of R384: fields, kinds and places. -/
def State.entryOk (s : State) (e : Nat) (by_ : PutBy) : Bool :=
  match kindRule (enKind e) with
  | none => false
  | some r =>
    bit r.sources by_.source && bits e 113 112 == 0 && enArg e &&& r.arg == enArg e && decide (enPart e < 24)
      && (enRepeat e == 0 || enPeriod e != 0)
      && !((enKind e == 0x04 || enKind e == 0x05) && enPeriod e != 0)
      && (if enAll e then (enKind e == 0x08 || enKind e == 0x0D) && enDie e == 0
          else enKind e != 0x0D && (if enDie e < 12 then r.compute else r.base))
      && (enCore e == 0xF || (decide (enCore e < 13) && r.compute && !enAll e && decide (enDie e < 12)))
      && !((enKind e == 0x02 || enKind e == 0x04) && enCore e == 0xF)
      && (enKind e != 0x0A || (bits e 38 37 != 3 && decide (bits e 31 0 ≤ 1_500_000)))
      && (by_.source != 2 || s.pilotEntryOk e by_)

/-- The addresses in ARG (R384): aligned and within the partition's windows. A due record may lie anywhere in them. -/
def State.entryAddrOk (s : State) (e : Nat) : Bool :=
  let p := enPart e
  let due := bits e 95 48
  match enKind e with
  | 0x01 => due == 0 || s.galleyWinOk p due 16 || s.hbmWinOk p due 16
  | 0x03 => due == 0 || s.galleyWinOk p due 16 || s.hbmWinOk p due 16
  | 0x02 => bits e 17 0 % 16 == 0
  | 0x05 => due % 16 == 0 && bits e 47 0 % 8 == 0 && isGalley due && isGalley (bits e 47 0)
      && s.galleyWinOk p due 16 && s.galleyWinOk p (bits e 47 0) 8
  | _ => true

/-! ### Slots -/

/-- A slot of a die by its number; a number that no slot has holds nothing. -/
def State.slot (s : State) (die i : Nat) : Option SchedSlot := if i < 1024 then Tbl.get none s.entries (die * 1024 + i) else none
def State.setSlot (s : State) (die i : Nat) (x : Option SchedSlot) : State :=
  { s with entries := Tbl.set none s.entries (die * 1024 + i) x }

/-- The pending slots of a die, by number. -/
def State.slots (s : State) (die : Nat) : List (Nat × SchedSlot) :=
  s.entries.filterMap fun x => if x.1 / 1024 = die then x.2.map fun y => (x.1 % 1024, y) else none

/-- The pending slots of a die that a partition uses, and its reservation (R384). -/
def State.partUse (s : State) (die p : Nat) : Nat := ((s.slots die).filter fun x => enPart x.2.entry == p).length
def State.partRes (s : State) (die p : Nat) : Nat := s.fld (a_TIDE_PRES die p) f_TIDE_PRES_SLOTS

/-- Slots that partitions use beyond their reservations, and unreserved slots. -/
def State.overUse (s : State) (die : Nat) : Nat := ((List.range 24).map fun p => s.partUse die p - s.partRes die p).sum
def State.unreserved (s : State) (die : Nat) : Nat :=
  s.fld (a_TIDE_SCHED die) f_TIDE_SCHED_CAP - ((List.range 24).map fun p => s.partRes die p).sum

/-- A free slot for a partition's entry on a die: within its reservation, or among the unreserved slots (R384). -/
def State.freeSlot (s : State) (die p : Nat) : Option Nat :=
  if s.partUse die p < s.partRes die p || decide (s.overUse die < s.unreserved die) then
    (List.range (s.fld (a_TIDE_SCHED die) f_TIDE_SCHED_CAP)).find? fun i => (s.slot die i).isNone
  else none

/-- An entry put into a slot of a die, which knows it, or will with its TIDE_NOTE. -/
def State.putSlot (s : State) (die i e source : Nat) (known : Bool) : State :=
  s.setSlot die i (some ⟨e, source, s.tideOf die, 0, none, false, none, known⟩)

/-- The slot that an entry of another die took when that die accepted it, and whose TIDE_NOTE has not come (R382, R384). -/
def State.notedSlot (s : State) (die e source : Nat) : Option (Nat × SchedSlot) :=
  (s.slots die).find? fun x => !x.2.known && x.2.entry == e && x.2.source == source

/-- A refusal counted (R384). -/
def State.schedRefused (s : State) (die n : Nat) : State :=
  let a := a_TIDE_SCHED die
  s.setFld a f_TIDE_SCHED_REFUSED (min 65535 (s.fld a f_TIDE_SCHED_REFUSED + n))

/-- An entry at the die that first takes it (R384): the code of its refusal, or its acceptance: a slot on each acting die (R382), TIDE_NOTEs to
those that are others, and a COLLECTIVE passed to the COLL block. -/
def State.acceptEntry (s : State) (e : Nat) (by_ : PutBy) : Except Nat State :=
  if !s.entryOk e by_ then .error Code.SCHED_BAD_ENTRY
  else if !s.entryAddrOk e then .error Code.BAD_ADDRESS
  else if enKind e = 0x04 then
    .ok { s with collAsks := s.collAsks ++ [⟨13 * enDie e + enCore e, bits e 36 32, bits e 31 0, enMark e⟩] }
  else if (enDies e).any fun d => (s.freeSlot d (enPart e)).isNone then .error Code.SCHED_FULL
  else .ok ((enDies e).foldl (fun t d =>
    let u := match t.freeSlot d (enPart e) with
      | some i => t.putSlot d i e by_.source (d == by_.die)
      | none => t
    if d = by_.die then u else u.sendEvt by_.die d 2 0xF (e + by_.source * 2 ^ 256)) s)

/-- Pending entries removed from their slots. A ramp that one of them has begun goes on, and starts nothing. -/
def State.dropSlots (s : State) (ok : Nat → SchedSlot → Bool) : State :=
  let s1 := { s with entries := s.entries.filter fun x => match x.2 with
    | some y => !ok (x.1 / 1024) y
    | none => true }
  (List.range 12).foldl (fun t d =>
    let r := t.ramp d
    if r.prewarms.isEmpty then t
    else t.setRamp d { r with prewarms := r.prewarms.map fun x => if (s1.slot d x.entry).isNone then { x with entry := 1024 } else x }) s1

/-! ### When actions act -/

/-- The due tide of the next action. -/
def SchedSlot.due (x : SchedSlot) : Nat := enMark x.entry + x.done * enPeriod x.entry

/-- The tide at which a slot acts next: its due tide, or at once when it was accepted later (R385); a PREWARM begins at the latest wave
boundary at or before 32,000 ahead (R388). -/
def SchedSlot.acts (x : SchedSlot) : Nat :=
  max x.accepted (if enKind x.entry = 3 then (x.due - 32000) / 2000 * 2000 else x.due)

/-- Whether slot (i, x) acts before (j, y): by tide, then kind, then number (R386). -/
def slotBefore (a b : Nat × SchedSlot) : Bool :=
  decide (a.2.acts < b.2.acts) || (a.2.acts == b.2.acts &&
    (decide (kindRank (enKind a.2.entry) < kindRank (enKind b.2.entry))
      || (enKind a.2.entry == enKind b.2.entry && decide (a.1 < b.1))))

/-- The first of a list by R386. -/
def firstSlot : List (Nat × SchedSlot) → Option (Nat × SchedSlot)
  | [] => none
  | a :: r => match firstSlot r with
    | none => some a
    | some b => if slotBefore b a then some b else some a

/-- The slot of a die that acts first of those due, in R386's order. -/
def State.firstDue (s : State) (die : Nat) : Option (Nat × SchedSlot) :=
  firstSlot ((s.slots die).filter fun x => x.2.known && !x.2.busy && decide (x.2.acts ≤ s.tideOf die))

/-- The PREWARM of a die that can start: its ramp is done and S has come (R388). -/
def State.readyStart (s : State) (die : Nat) : Option Prewarm :=
  (s.ramp die).prewarms.find? fun p => p.done && decide (p.due ≤ s.tideOf die)

/-- Whether a PREWARM's start, which acts among the kinds as PREWARM does, comes before a due slot (R386). It acts at the later of S and the
boundary of its last wave. -/
def Prewarm.before (p : Prewarm) (now : Nat) (x : Nat × SchedSlot) : Bool :=
  let at_ := max p.due (min (p.base + 32000) now)
  let rank := kindRank (enKind x.2.entry)
  decide (at_ < x.2.acts) || (at_ == x.2.acts && (decide (7 < rank) || (rank == 7 && decide (p.entry < x.1))))

/-- The slot of a die that acts now, when it is one of kind `kind` (R386). -/
def State.dueSlot (s : State) (die kind : Nat) : Option (Nat × SchedSlot) :=
  match s.firstDue die with
  | none => none
  | some x =>
    if enKind x.2.entry = kind && !(s.readyStart die).any fun p => p.before (s.tideOf die) x then some x else none

/-- The PREWARM of a die that starts now (R386, R388). -/
def State.dueStart (s : State) (die : Nat) : Option Prewarm :=
  (s.readyStart die).filter fun p => !(s.firstDue die).any fun x => !p.before (s.tideOf die) x

/-- A slot after an action: the next one, or free (R382). -/
def State.slotDone (s : State) (die i : Nat) (x : SchedSlot) : State :=
  s.setSlot die i (if enRepeat x.entry ≤ x.done then none else some { x with done := x.done + 1, busy := false, held := none })

/-- A slip, if the action is more than 16 tide units late: counted, and recorded at most once per second for the entry (R387). A COMMIT that
came after its mark is never acted on, and has not slipped (R385). Answers the slot with the record's tide. -/
def State.slip (s : State) (die : Nat) (x : SchedSlot) : State × SchedSlot :=
  let now := s.tideOf die
  let late := now - x.due
  if late ≤ 16 || (enKind x.entry == 5 && decide (x.due < x.accepted)) then (s, x)
  else
    let a := a_TIDE_SLIP die
    let s1 := (s.bump a f_TIDE_SLIP_COUNT).setFld a f_TIDE_SLIP_MAX (max (s.fld a f_TIDE_SLIP_MAX) (min (2 ^ 32 - 1) late))
    if (match x.told with
      | some t => decide (now < t + 1_000_000_000)
      | none => false) then (s1, x)
    else (s1.report Code.TIDE_SLIP die (enPart x.entry) [enKind x.entry, enTag x.entry, x.due, late], { x with told := some now })

/-- The due record of an entry, where it names an address, and event TIDE at the cores of a mask (R382). -/
def State.dueRecord (s : State) (die addr mask : Nat) (x : SchedSlot) : State :=
  let now := s.tideOf die
  let w := now % 2 ^ 64 + enTag x.entry * 2 ^ 64 + enKind x.entry * 2 ^ 80 + b2n (decide (16 < now - x.due)) * 2 ^ 88
  let s1 := if addr = 0 then s else (s.writeThrough die none addr (bytesLE 16 w)).st
  ((List.range 13).filter fun k => bit mask k).foldl (fun t k => t.fire (t.actor (13 * die + k)) 3) s1

/-! ### Actions as commands (R389) -/

/-- Whether a teardown of a partition comes in this tick: acted on already, or waiting to be. -/
def State.tearsNow (s : State) (p : Nat) : Bool :=
  (match Tbl.get none s.torn p with
    | some t => t.first == s.tideOf 12
    | none => false)
    || (s.pending.contains .teardown && s.ctl.any fun x => isTeardown x.2 && x.2.part == p)

/-- The loader's commands of this tick that can have an effect: RELEASE and DISCARD with the partitions they name. -/
def State.loaderTick (s : State) : List Command :=
  (s.pending.filterMap fun i => match i with
    | .impoRelease src parts => if Source.barred src then none else some (Command.impoRelease parts)
    | .impoDiscard src parts => if Source.barred src then none else some (Command.impoDiscard parts)
    | .registerWrite src a 8 v =>
      if Source.barred src || a ≠ a_IMPO_CMD then none
      else match bits v.toNat 2 0 with
        | 2 => some (.impoRelease (bits v.toNat 31 8))
        | 3 => some (.impoDiscard (bits v.toNat 31 8))
        | _ => none
    | _ => none) ++ (s.gathered.filter fun w => !s.inert w).flatMap s.rowsOf

/-- Whether a schedule action that acts on a partition meets a command of a lower class than its own there (R389): a teardown or a RELEASE
(class 1), or a DISCARD (class 2), whose staged sections an APPLY (class 3) would put in force. -/
def State.actionBeaten (s : State) (p : Nat) (apply : Bool) : Bool :=
  s.tearsNow p || s.loaderTick.any fun c => match c with
    | .impoRelease parts => bit parts p
    | .impoDiscard parts => apply && bit parts p
    | _ => false

/-- A schedule action journaled as overridden (R389), at word 0 of its slot (log entry 15). -/
def State.actionLost (s : State) (die i : Nat) (x : SchedSlot) : State :=
  s.journal1 .device (a_TIDE_ENTRY die i 0) Code.COMMAND_OVERRIDDEN 0 (BitVec.ofNat 64 x.entry)

/-- The first action of a die's kind carried out: the slip counted, the slot moved on, and then `f`. -/
def State.act (s : State) (die kind : Nat) (f : State → SchedSlot → State) : State :=
  match s.dueSlot die kind with
  | none => s
  | some (i, x) =>
    let q := s.slip die x
    f (q.1.slotDone die i q.2) x

/-- The same for a kind that counts as a command of its class (R389): where it is beaten it is journaled, and `lost` is all it does. -/
def State.actUnless (s : State) (die kind : Nat) (beaten : SchedSlot → Bool) (lost f : State → SchedSlot → State) : State :=
  match s.dueSlot die kind with
  | none => s
  | some (i, x) =>
    if beaten x then
      let q := s.slip die x
      lost ((q.1.slotDone die i q.2).actionLost die i x) x
    else s.act die kind f

end Sys2Proof.Machine
end

