-- ==== Sys2Proof/Machine/Checkpoint.lean ====
section
/-! DEFINITION. What a member of a job does at the marks of its commit: the replica vote (06_result_checking.md R224 to R227), and writing
and restoring its shard (14_faults_checkpoint_recovery.md R444, R445, R447). The job description supplies the member's part (log
entry 28). -/

namespace Sys2Proof.Machine
open Sys2Proof

/-- A descriptor put into a queue, as ENQ puts it (R119). -/
def State.enqueue (s : State) (c q : Nat) (d : Desc) : State :=
  let t := s.modCore c fun k => { k with queues := Tbl.set [] k.queues q (k.queue q ++ [d]) }
  if isStream d.num then t.modPress c fun p => p.addStream q d.num else t

/-! ### The vote -/

/-- A vote entry (R225). -/
structure VoteEntry where
  u : Nat
  step : Nat
  node : Nat
  ridx : Nat
  valid : Bool
deriving DecidableEq, Repr

/-- The 32 bytes of an entry as one number, and an entry read from them (R225). -/
def VoteEntry.num (e : VoteEntry) : Nat :=
  b2n e.valid * 2 ^ 125 + e.ridx % 2 ^ 6 * 2 ^ 126 + e.node % 2 ^ 12 * 2 ^ 132 + e.step % 2 ^ 48 * 2 ^ 144 + e.u % 2 ^ 64 * 2 ^ 192
def voteEntry (n : Nat) : VoteEntry := ⟨bits n 255 192, bits n 191 144, bits n 143 132, bits n 131 126, bit n 125⟩

/-- The address of slot `i` of a vote table. -/
def voteSlot (table i : Nat) : Nat := table + 32 * i

/-- The entries of a member's vote table. -/
def State.voteTable (s : State) (m : Member) : List VoteEntry :=
  (List.range m.replicas).map fun i => voteEntry (s.num (voteSlot m.table i) 32)

/-- Whether an entry is a vote for tally u at a step. -/
def VoteEntry.votes (e : VoteEntry) (step u : Nat) : Bool := e.valid && e.step == step && e.u == u

/-- The majority of a full table at a step, and the lowest node id that holds it (R226). -/
def majority (t : List VoteEntry) (step : Nat) : Option (Nat × Nat) :=
  t.findSome? fun a =>
    let holders := t.filter fun b => b.votes step a.u
    if a.valid && a.step == step && decide (t.length < 2 * holders.length) then
      some (a.u, holders.foldl (fun n b => min n b.node) 0xFFF)
    else none

/-- The outcomes of a vote (R226). -/
inductive VoteOutcome
  | keep
  | odd (src u : Nat)
  | noMajority
deriving DecidableEq, Repr

/-- What the member of replica index `self` makes of a table (R226). -/
def vote (t : List VoteEntry) (step self : Nat) : VoteOutcome :=
  match majority t step with
  | none => .noMajority
  | some (u, src) => if (t[self]?.map VoteEntry.u) = some u then .keep else .odd src u

/-- The vote held of a partition. -/
def State.voteOf (s : State) (part : Nat) : Vote := Tbl.get Vote.init s.votes part
def State.setVote (s : State) (part : Nat) (v : Vote) : State := { s with votes := Tbl.set Vote.init s.votes part v }

/-- The detection of a vote's outcome: ORIGIN 7, UKIND 7, the step and both tallies (R214, R215, R227). -/
def State.voteRecord (s : State) (m : Member) (code own other : Nat) : State :=
  let die := coreDie m.core
  s.detect ⟨die, s.tideOf die, code, 7, 7, die, coreNo m.core, 0xF, s.partOf m.core, m.step % 2 ^ 48, own, other, false, false⟩

/-- The job halts with DIVERGENCE (R227, R436). -/
def State.diverge (s : State) (part : Nat) (m : Member) (own other : Nat) : State :=
  (s.voteRecord m Code.DIVERGENCE own other).askTeardown part Code.DIVERGENCE

/-- Whether the vote of a member may be taken: its context is FINAL (R225, R364). -/
def State.voteFinal (s : State) (m : Member) : Bool := s.collState (coreDie m.core) (coreNo m.core) m.ctr == 3

/-- The vote mark (R226, R227): nothing is recorded for KEEP; an odd member's repair waits for the majority's tally; a first NO_MAJORITY of
the step lets it be replayed, a second halts the job. -/
def State.voteMark (s : State) (part : Nat) (m : Member) : State :=
  if !s.voteFinal m then s
  else
    let t := s.voteTable m
    let own := (t[m.ridx]?.map VoteEntry.u).getD 0
    let v := s.voteOf part
    match vote t m.step m.ridx with
    | .keep => s.setVote part ⟨m.step, v.replayed && v.step == m.step, none⟩
    | .odd src u => (s.setVote part ⟨m.step, v.replayed && v.step == m.step, some ⟨src, u⟩⟩).voteRecord m Code.REPLICA_ODD own u
    | .noMajority =>
      if v.replayed && v.step == m.step then s.diverge part m own 0
      else (s.setVote part ⟨m.step, true, none⟩).voteRecord m Code.VOTE_NO_MAJORITY own 0

/-! ### The update tally -/

/-- The elements of a tensor, from its bytes. -/
def tensorElems (x : Tensor) (bs : List Byte) : List Nat := (pieces (2 ^ x.esz) x.count bs).map natLE

/-- The bytes of a tensor. -/
def tensorSize (x : Tensor) : Nat := x.count * 2 ^ x.esz

/-- The elements of a shard's tensors as they follow one another in bytes (R224). -/
def shardElems : List Tensor → List Byte → List Nat
  | [], _ => []
  | x :: r, bs => tensorElems x (bs.take (tensorSize x)) ++ shardElems r (bs.drop (tensorSize x))

/-- The bytes of a shard's tensors, in job-description order. -/
def State.tensorBytes (s : State) (l : List Tensor) : List Byte := l.flatMap fun x => s.bytes x.addr (tensorSize x)

/-- The update tally of a shard's tensors as memory holds them (R224). -/
def State.updateTally (s : State) (m : Member) : Nat :=
  (contentTally (s.ltrKey m.core) 0 (shardElems m.tensors (s.tensorBytes m.tensors))).toNat

/-- After an odd member's copy (R227): its tally taken again must be the majority's. -/
def State.repairMark (s : State) (part : Nat) (m : Member) : State :=
  match (s.voteOf part).odd with
  | none => s
  | some o =>
    let own := s.updateTally m
    if own = o.u then s.setVote part { s.voteOf part with odd := none } else s.diverge part m own o.u

/-! ### Entering the vote -/

/-- The PUT that sends a member's entry to another replica's table, with its signal (R225, R338, R339). -/
def votePut (m : Member) (p : VotePeer) : Desc :=
  ⟨bytesLE 48 (2 + 3 * 2 ^ 8 + m.step % 2 ^ 48 * 2 ^ 64 + voteSlot m.table m.ridx % 2 ^ 48 * 2 ^ 128
    + voteSlot p.table m.ridx % 2 ^ 64 * 2 ^ 256 + 31 * 2 ^ 320 + p.core % 2 ^ 8 * 2 ^ 354 + p.ctr % 2 ^ 5 * 2 ^ 362 + 2 ^ 367 + 2 ^ 368)⟩

/-- A member entering the vote (R225): its entry, with the tally of the prepared step (R440), written into its own table, and sent to every
other replica from queue 0, where that has room for all. -/
def State.enterVote (s : State) (m : Member) : State :=
  let e : VoteEntry := ⟨s.num (m.record + 0x50) 8, m.step, s.nodeId, m.ridx, true⟩
  let t := s.galleyWrite (galleyDie m.table) (coreNo m.core) 0 (voteSlot m.table m.ridx) (bytesLE 32 e.num)
  let k := t.core m.core
  if k.cap 0 < (k.queue 0).length + m.peers.length then t
  else m.peers.foldl (fun u p => u.enqueue m.core 0 (votePut m p)) t

/-! ### Shards -/

/-- The fields of a shard header that are not fixed by its layout (R444). -/
structure ShardHeader where
  flags : Nat
  job : Nat
  step : Nat
  shard : Nat
  ridx : Nat
  replicas : Nat
  dbytes : Nat
  sbytes : Nat
  tally : Nat
  hbytes : Nat
deriving DecidableEq, Repr

/-- Bytes 0 to 59 of a shard header, and all 64 with HCRC (R444). -/
def ShardHeader.body (h : ShardHeader) : List Byte :=
  [0x53, 0x48, 0x52, 0x44] ++ bytesLE 2 0x0100 ++ bytesLE 2 h.flags ++ bytesLE 8 h.job ++ bytesLE 8 h.step ++ bytesLE 4 h.shard
    ++ bytesLE 1 h.ridx ++ bytesLE 1 h.replicas ++ bytesLE 2 0 ++ bytesLE 8 h.dbytes ++ bytesLE 8 h.sbytes ++ bytesLE 8 h.tally
    ++ bytesLE 4 h.hbytes
def ShardHeader.bytes (h : ShardHeader) : List Byte := h.body ++ bytesLE 4 (crc32c h.body)

/-- The HSAVE images of a shard's histories, each by its die and slot (R182, R444). -/
def State.histBytes (s : State) (l : List (Nat × Nat)) : List Byte := l.flatMap fun x => (s.histSlot x.1 x.2).image

/-- Data as a compressed stream (R163): blocks of 4,096 bytes, the last filled with zeros. -/
def packStream (esz : Nat) (bs : List Byte) : List Byte :=
  (pieces 4096 (ceilDiv bs.length 4096) (bs ++ List.replicate (ceilDiv bs.length 4096 * 4096 - bs.length) 0)).flatMap fun b =>
    packBlock esz b

/-- The blocks of a compressed stream put back (R163, R164); none where one is corrupt. `n` bounds how many records there are. -/
def unpackStream : Nat → List Byte → Option (List Byte)
  | _, [] => some []
  | 0, _ => none
  | n + 1, bs =>
    let head := natLE (bs.take 8)
    let plen := bits head 31 16
    if bs.length < 8 + plen then none
    else match unpackBlock head ((bs.drop 8).take plen), unpackStream n (bs.drop (8 + ceilDiv plen 8 * 8)) with
      | some b, some r => some (b ++ r)
      | _, _ => none

/-- Whether a member writes its shard's data (R445): its TALLY is the majority's, and no lower node holds that. -/
def State.writesData (s : State) (m : Member) (tally : Nat) : Bool :=
  match majority (s.voteTable m) m.step with
  | some (u, node) => tally == u && node == s.nodeId
  | none => false

/-- The object that a member writes of its shard (R444, R445). -/
def State.shardObject (s : State) (m : Member) : List Byte :=
  let tally := s.num (m.record + 0x58) 8
  let hs := s.histBytes m.hists
  let data := s.tensorBytes m.tensors ++ hs
  if s.writesData m tally then
    let stored := match m.pack with
      | some e => packStream e data
      | none => data
    (ShardHeader.mk (2 * b2n m.pack.isSome) m.job m.step m.shard m.ridx m.replicas data.length stored.length tally hs.length).bytes
      ++ stored
  else (ShardHeader.mk 1 m.job m.step m.shard m.ridx m.replicas 0 0 tally 0).bytes

/-- The data of a shard object read back (R447): none where it is shorter than a header, or HCRC, the compressed stream or the tally is wrong. -/
def State.restoredData (s : State) (m : Member) (obj : List Byte) : Option (List Byte) :=
  let head := obj.take 60
  let at_ (o n : Nat) : Nat := natLE ((obj.drop o).take n)
  let rest := (obj.drop 64).take (at_ 40 8)
  let data := if bit (at_ 6 2) 1 then unpackStream rest.length rest else some rest
  if obj.length < 64 ∨ crc32c head ≠ at_ 60 4 then none
  else match data with
    | none => none
    | some bs =>
      let bs := bs.take (at_ 32 8)
      if (contentTally (s.ltrKey m.core) 0 (shardElems m.tensors bs)).toNat = at_ 48 8 then some bs else none

/-- Whether a checkpoint is complete (R446): its manifest has its MAGIC, VERSION and MCRC, and TSUM is the sum of the tallies of its NSHARD
shard headers. -/
def checkpointWhole (manifest : List Byte) (tallies : List Nat) : Bool :=
  let at_ (o n : Nat) : Nat := natLE ((manifest.drop o).take n)
  manifest.length == 64 && manifest.take 4 == [0x43, 0x4B, 0x4D, 0x46] && at_ 4 2 == 0x0100 && at_ 60 4 == crc32c (manifest.take 60)
    && at_ 24 4 == tallies.length && at_ 32 8 == tallies.sum % 2 ^ 64

/-- Tensors put into memory one after another. -/
def State.putTensors (s : State) (die : Nat) : List Tensor → List Byte → State
  | [], _ => s
  | x :: r, bs => (s.writeThrough die none x.addr (bs.take (tensorSize x))).st.putTensors die r (bs.drop (tensorSize x))

/-- Histories loaded from their images (R158, R182). -/
def State.putHists (s : State) : List (Nat × Nat) → List Byte → State
  | [], _ => s
  | x :: r, bs => (s.setHist x.1 x.2 (histOfImage (bs.take 128))).putHists r (bs.drop 128)

/-- A member restoring its shard from the object read back (R447): a failure ends it with CHECKPOINT_CORRUPT. -/
def State.restoreShard (s : State) (part : Nat) (m : Member) (obj : List Byte) : State :=
  match s.restoredData m obj with
  | none => s.report Code.CHECKPOINT_CORRUPT (coreDie m.core) part [m.step]
  | some bs => (s.putTensors (coreDie m.core) m.tensors bs).putHists m.hists (bs.drop ((m.tensors.map tensorSize).sum))

/-! ### The numeric policy (11_collectives_and_job_mapping.md R367, R368) -/

/-- The tensors that a job flag array flags: NAN, PINF, NINF or OVF set (R37, R367). -/
def flaggedTensors (flags : List Byte) : List Nat :=
  (flags.zipIdx.filter fun x => x.1.toNat % 16 != 0).map Prod.snd

/-- A block of a flagged tensor under ZERO_TENSOR: its elements zero, its flag word clear, its G kept (R368). -/
def State.zeroBlock (s : State) (die : Nat) (b : GradBlock) : State :=
  let w := bits (s.num b.word 4) 15 0
  ((s.writeThrough die none b.addr (List.replicate b.size 0)).st.writeThrough die none b.word (bytesLE 4 w)).st

/-- The policy mark (R368), by COLL_CTL.NF0 or NF1 for the member's cluster: nothing where no tensor is flagged; SKIP_STEP and ZERO_TENSOR
are recorded, ABORT asks for a teardown. What a member's program does after it (the records of R181, no commit, XVERIFY) is its program's. -/
def State.policyMark (s : State) (part : Nat) (m : Member) (flags count : Nat) (owned : List GradBlock) : State :=
  let die := coreDie m.core
  let bad := flaggedTensors (s.bytes flags count)
  match bad with
  | [] => s
  | t :: _ =>
    match s.fld (a_COLL_CTL die) (if s.clusterOf m.core % 2 = 0 then f_COLL_CTL_NF0 else f_COLL_CTL_NF1) with
    | 0 => s.report Code.NONFINITE_SKIP die part [m.step, t]
    | 1 => ((owned.filter fun b => bad.contains b.tensor).foldl (fun u b => u.zeroBlock die b) s).report Code.NONFINITE_ZEROED die part [bad.length, t]
    | _ => s.askTeardown part Code.NONFINITE_ABORT

/-- The HBM lines of a shard's tensors. -/
def tensorLines (l : List Tensor) : List Nat := (l.filter fun x => isHbm x.addr).flatMap fun x => linesOf x.addr (tensorSize x)

/-- The HBM lines of a job flag array and of the block words of the gradient blocks owned, which the policy mark reads. -/
def policyLines (flags count : Nat) (owned : List GradBlock) : List Nat :=
  (((flags, count) :: owned.map fun b => (b.word, 4)).filter fun x => isHbm x.1).flatMap fun x => linesOf x.1 x.2

/-- What a member does with the bytes of lines, once their homes can let it read them: it waits for requests that came earlier, channels that
hold theirs, and recalls of lines held modified (07_package_and_quay_link.md R246, R247). -/
def State.onLines (s : State) (part : Nat) (m : Member) (duty : MarkDuty) (ls : List Nat) (f : State → State) : State :=
  if s.reachNow (coreDie m.core) false ls then f s
  else
    let t := s.sendMissing false ls
    { t with duties := t.duties ++ [(part, ⟨duty, m⟩)] }

/-- What a member does at a mark of its job. A checkpoint that is not complete is never restored (R446). -/
def State.memberMark (s : State) (part : Nat) (m : Member) (duty : MarkDuty) : State :=
  match duty with
  | .enter => s.enterVote m
  | .vote => s.voteMark part m
  | .repair => s.onLines part m .repair (tensorLines m.tensors) fun t => t.repairMark part m
  | .policy flags count owned => s.onLines part m duty (policyLines flags count owned) fun t => t.policyMark part m flags count owned
  | .shard => s.onLines part m .shard (tensorLines m.tensors) fun t => t.send .hostWrite m.dest ((t.shardObject m).map BitVec.toNat)
  | .restore manifest tallies obj => if checkpointWhole manifest tallies then s.restoreShard part m obj else s

/-- The duties that waited for their tensors, tried again. -/
def State.retryDuties (s : State) : State :=
  s.duties.foldl (fun t d => t.memberMark d.1 d.2.member d.2.duty) { s with duties := [] }

end Sys2Proof.Machine
end

