-- ==== Sys2Proof/Machine/QuayRows.lean ====
section
/-! DEFINITION. The Quay link and the home directories at work (07_package_and_quay_link.md): packets that arrive, event messages,
link errors, clocks, and the order at the home. -/

namespace Sys2Proof.Machine
open Sys2Proof

/-! ### MEM.REQ packets -/

/-- Whether a request passes the check of R237 at its die. A signal, or a response, reaches a core of the partition. -/
def State.requestOk (s : State) (r : MemReq) : Bool :=
  match r.agent with
  | .cell c =>
    if cellResponse c || s.loadClose (answerDie c.core) c || (c.kind == 5 && decide (0xC0 ≤ c.core)) then true
    else if c.kind = 0xC then
      decide ((signalOf c).1 < 156) && (c.part == 31 || (decide (c.part < 24) && s.partOf (s.actor (signalOf c).1) == c.part))
    else r.ranges.all fun x => s.tagOk r.part x.1 x.2 r.writes
  | _ => r.ranges.all fun x => s.tagOk r.part x.1 x.2 r.writes

/-- The packets on their way to a die, and the place of the first that can arrive: its route is up, the buffer at its end has room, and the way
back for a refusal is up; one that waits stays behind none but those of its source and channel (R231 to R233, R235, R239). -/
def State.packets (s : State) (die : Nat) : List MemReq := Tbl.get [] s.quay die
def State.lands (s : State) (die : Nat) (r : MemReq) : Bool :=
  s.routeUp r.src die && s.landRoom r.src die r.channel (flitsOf r.dataBytes) && (s.requestOk r || s.answerUp die r)
def State.nextPacket (s : State) (die : Nat) : Option Nat :=
  let l := s.packets die
  (List.range l.length).find? fun i => match l[i]? with
    | some r => s.lands die r && !((l.take i).any fun x => x.src == r.src && x.channel == r.channel)
    | none => false

/-- A packet that has arrived: its flits counted on its channel, its rights checked (R232, R236, R237); a cell that leaves the node goes to the
router (R311). -/
def State.packetIn (s : State) (die : Nat) (r : MemReq) : State :=
  let s1 := s.carry r.src die r.channel (flitsOf r.dataBytes)
  if s.outbound r then
    match r.agent with
    | .cell c => s1.routeLocal die c (r.len == 1) (r.addr == 1)
    | _ => s1
  else if s1.requestOk r then s1.arriveHome die r
  else ((s1.bump (a_QUAY_TAGVIOL die) f_QUAY_TAGVIOL_COUNT).refuse die r Code.BAD_ADDRESS).settled r

/-- QUAY_MEM_REQUEST: the next packet for a die arrives over its route and is checked; one that fails is refused with BAD_ADDRESS
and counted, one that passes joins the die's requests (R231, R232, R236, R237). -/
def execQuayMemRequest (die : Nat) (s : State) : Host.Outcome State Fault Refusal :=
  .next (match s.nextPacket die with
    | none => s
    | some i => match (s.packets die)[i]? with
      | none => s
      | some r => { s with quay := Tbl.set [] s.quay die ((s.packets die).eraseIdx i) }.packetIn die r)

/-! ### The home -/

/-- HOME_WRITE: the first write of a memory-class agent at a home: it is held while copies are invalidated or recalled, or applied
at once where no other agent holds its lines (R246, R249). -/
def execHomeWrite (die : Nat) (found : DirErr) (s : State) : Host.Outcome State Fault Refusal :=
  let ok (e : HomeEnt) : Bool := !e.begun && (match e.req.agent with
    | .cell _ => false
    | _ => e.req.writes)
  match s.pick die ok with
  | none => .next (s.unitLookup die found)
  | some (i, e) => .next ((s.lookup die i e found fun t => t.begin die i e).settled e.req)

/-- Whether a held request is one that HOME_WRITE_APPLY takes: a write, or a cell; a read held for a recall goes on as a read. -/
def HomeEnt.applies (e : HomeEnt) : Bool :=
  e.begun && (e.req.writes || (match e.req.agent with
    | .cell _ => true
    | _ => false))

/-- HOME_WRITE_APPLY: a held request whose acknowledgements are all in is applied and answered (R246). -/
def execHomeWriteApply (die : Nat) (s : State) : Host.Outcome State Fault Refusal :=
  match s.pick die HomeEnt.applies with
  | none => .next s
  | some (i, e) => .next ((s.writeNow die i e).settled e.req)

/-- The presence bits of dies that are lost (R240). -/
def State.lostBits (s : State) : Nat := ((s.lost.filter fun d => decide (d < 12)).map fun d => 2 ^ d).foldl (fun a b => a ||| b) 0

/-- An acknowledgement of a holder at a home: its presence bit clears, an entry that nobody holds who can answer goes, a set that was lost
once every acknowledgement is in, and requests that wait for it wait no more (R240, R246, R248, R249). -/
def State.acked (s : State) (home line target : Nat) : State :=
  let s1 := match s.dirEnt line with
    | none => s
    | some e =>
      let h := e.holders &&& (0x1FFF ^^^ (2 ^ target ||| s.lostBits))
      if e.lost then
        let t := s.putDir { e with holders := h }
        if (t.dirSet (dirKey line)).all fun x => !x.lost || x.holders == 0 then
          { t with dirs := Tbl.set [] t.dirs (dirKey line) ((t.dirSet (dirKey line)).filter fun x => !x.lost) }
        else t
      else if h = 0 || (e.mod && target == 12) then s.dropDir line else s.putDir { e with holders := h }
  s1.setHome home ((s1.homeList home).map fun e => { e with waits := e.waits.filter fun w => w != (line, target) })

/-- Whether an invalidation or a recall can reach its target: the way there and back is up (R239), and fewer than 32 sent before it are on a
link of its way (R232). -/
def State.invalGoes (s : State) (v : Inval) : Bool :=
  s.routeUp v.home v.target && s.routeUp v.target v.home && (s.route v.home v.target).all fun p =>
    decide (((s.invals.takeWhile fun x => x != v).filter fun x => (s.route x.home x.target).contains p).length < 32)

/-- INVALIDATION: the first invalidation for a die (12 is the management processor) reaches its caches, which drop the line and
acknowledge (R245, R246). -/
def execInvalidation (die : Nat) (s : State) : Host.Outcome State Fault Refusal :=
  match s.invals.find? fun v => v.target == die && !v.recalls && s.invalGoes v with
  | none => .next s
  | some v =>
    let s1 := { s with invals := s.invals.erase v }
    let s2 := if die < 12 then s1.dropLine die v.line else s1
    .next (((s2.carry v.home die 2 1).carry die v.home 3 1).acked v.home v.line die)

/-- RECALL: the first recall of a home reaches the management processor, which writes the line it holds modified back, or has
nothing to write (R246, R249). -/
def execRecallLine (die : Nat) (data : Option (List Byte)) (s : State) : Host.Outcome State Fault Refusal :=
  match s.invals.find? fun v => v.home == die && v.recalls && s.invalGoes v with
  | none => .next s
  | some v =>
    let s1 := { s with invals := s.invals.erase v }
    let mod := match s1.dirEnt v.line with
      | some e => e.mod
      | none => false
    let s2 := match data with
      | some bs => if mod && bs.length == 64 then s1.writeBytes v.line bs else s1
      | none => s1
    .next (((s2.carry v.home 12 2 1).carry 12 v.home 3 (if data.isSome then 2 else 1)).acked v.home v.line 12)

/-- The holder that a read makes of its sender (R245): the die of an instruction cache, or the management processor. -/
def MemReq.holder (r : MemReq) : Option Nat :=
  match r.agent with
  | .fetch c => some (coreDie c)
  | .mgmt _ _ _ => some 12
  | _ => none

/-- A read served, its sender entered as a holder of the lines it caches (R245, R247). -/
def State.readNow (s : State) (die i : Nat) (e : HomeEnt) : State :=
  match e.req.holder with
  | none => s.complete die i e.req
  | some h =>
    match s.noRoom e.req with
    | some l => s.evictFor die i e l
    | none =>
      (e.req.hbmLines.foldl (fun t l => match t.dirEnt l with
        | some x => t.putDir { x with holders := x.holders ||| 2 ^ h }
        | none => t.putDir ⟨l, false, 2 ^ h, false⟩) s).complete die i e.req

/-- HOME_READ: the first read at a home, in order of arrival: a line the management processor holds modified is recalled first, a
caching reader becomes a holder, and the read is answered (R245, R247 to R249). -/
def execHomeRead (die : Nat) (found : DirErr) (s : State) : Host.Outcome State Fault Refusal :=
  let ok (e : HomeEnt) : Bool := match e.req.agent with
    | .cell _ => false
    | _ => !e.req.writes
  match s.pick die ok with
  | none => .next (s.unitLookup die found)
  | some (i, e) => .next (s.lookup die i e found fun t =>
      match t.needed e.req with
      | [] => t.readNow die i e
      | es => t.hold die i e es)

/-- CELL_READ: the first READ cell at a die is served with READ_RSP cells, and a TCLOSE where it is tallied (R342). -/
def execCellRead (die : Nat) (found : DirErr) (s : State) : Host.Outcome State Fault Refusal := .next (s.beginCell die found fun c => c.kind == 1)

/-- CELL_WRITE: the first WRITE cell at a die is written, after the copies of its lines have gone, and acknowledged (R246, R341). -/
def execCellWrite (die : Nat) (found : DirErr) (s : State) : Host.Outcome State Fault Refusal := .next (s.beginCell die found fun c => c.kind == 3)

/-- CELL_TWRITE: a tallied write cell is written and counted in its transfer's context (R342). -/
def execCellTwrite (die : Nat) (found : DirErr) (s : State) : Host.Outcome State Fault Refusal := .next (s.beginCell die found fun c => c.kind == 4)

/-- CELL_TCLOSE: once every data cell it counts has been dealt with, a TCLOSE has the range read back, tallied and judged (R342). -/
def execCellTclose (die : Nat) (found : DirErr) (s : State) : Host.Outcome State Fault Refusal :=
  .next (s.beginCell die found fun c => c.kind == 5 && decide (c.core < 0xC0) && !s.loadClose die c && decide (bits c.g0 79 64 ≤ s.ctxTotal c))

/-- CELL_SIGNAL: a SIGNAL adds INC to a completion counter and is acknowledged (R344). -/
def execCellSignal (die : Nat) (found : DirErr) (s : State) : Host.Outcome State Fault Refusal := .next (s.beginCell die found fun c => c.kind == 0xC)

/-! ### Event messages -/

/-- The bits of BODY that an event kind defines (R238, R376, R384, R459); a set bit outside them is reserved. -/
def bodyBits (ekind : Nat) : Nat :=
  match ekind with
  | 1 => (2 ^ 152 - 1) - 4095 * 2 ^ 52
  | 2 => 2 ^ 258 - 1
  | 3 => 0x1F
  | 4 => 0x1F
  | 5 => 2 ^ 40 - 1
  | 6 => 255 * 2 ^ 344 + (2 ^ 128 - 1)
  | 7 => 0x77
  | _ => 2 ^ 352 - 1

/-- An event message of kind `n` as its die takes it: one with an unknown kind or a reserved bit set is dropped and counted
(R238); one of another kind is none of this command's, and one whose route is not up waits with its sender (R239). -/
def State.takeEvt (s : State) (m : EvtMsg) (n : Nat) (f : State → State) : State :=
  if !s.routeUp m.src m.dst then s
  else if m.ekind = 0 || decide (7 < m.ekind) || m.reserved ≠ 0 || m.body &&& bodyBits m.ekind ≠ m.body then
    (s.carry m.src m.dst 4 1).bump (a_QUAY_EVDROP m.dst) f_QUAY_EVDROP_COUNT
  else if m.ekind ≠ n then s
  else f (s.carry m.src m.dst 4 1)

/-- EVENT_POST: the event's pending bit is set at the target core; numbers 12 to 31 never fire (R99, R238). -/
def execEventPost (msg : EvtMsg) (s : State) : Host.Outcome State Fault Refusal :=
  .next (s.takeEvt msg 3 fun t =>
    if msg.core < 13 && decide (msg.dst < 12) && decide (msg.body % 32 < 12) then t.fire (13 * msg.dst + msg.core) (msg.body % 32) else t)

/-- RECORD_READY: die 12 learns that a die's CHK log holds records (R217, R238). -/
def execRecordReady (msg : EvtMsg) (s : State) : Host.Outcome State Fault Refusal :=
  .next (s.takeEvt msg 4 fun t => { t with recordReady := Tbl.set 0 t.recordReady msg.src (msg.body % 32) })

/-- The cores of the partitions of a mask halted on a compute die (R238). -/
def State.haltParts (s : State) (die parts : Nat) : State :=
  (List.range 12).foldl (fun u n =>
    let c := 13 * die + n
    if bit parts (u.partOf c) && decide (u.partOf c < 24) then u.modCore (u.actor c) fun k => k.halt else u) s

/-- HALT: the cores of the named partitions halt on the die (R238). -/
def execHalt (msg : EvtMsg) (s : State) : Host.Outcome State Fault Refusal :=
  .next (s.takeEvt msg 5 fun t => if 12 ≤ msg.dst then t else t.haltParts msg.dst msg.body)

/-! ### Links -/

def State.link (s : State) (die l : Nat) : LinkState := Tbl.get LinkState.init s.links (die * 8 + l)
def State.setLink (s : State) (die l : Nat) (x : LinkState) : State := { s with links := Tbl.set LinkState.init s.links (die * 8 + l) x }

/-- The far end of a link: die and link index (R229, R256). -/
def farEnd (die l : Nat) : Nat × Nat := if die < 12 then (baseOf die, die % 3) else if l < 3 then (3 * (die - 12) + l, 0) else (quayPeer die l, l)

/-- The end of a link by which it is known: the base die's end of a stack port, the lower base die of a bridge. -/
def mainEnd (die l : Nat) : Nat × Nat :=
  if die < 12 then farEnd die l else if l < 3 then (die, l) else if (farEnd die l).1 < die then farEnd die l else (die, l)

/-- Whether die and link name a link. -/
def isLink (die l : Nat) : Bool := (decide (die < 12) && l == 0) || (decide (12 ≤ die) && decide (die < 16) && decide (l < 5))

/-- A link's state at both ends, with a LINK_NOTE to die 12 (R238, R240). -/
def State.setLinkState (s : State) (die l st : Nat) : State :=
  let m := mainEnd die l
  let f := farEnd m.1 m.2
  ((s.setFld (a_QUAY_LSTATUS m.1 m.2) f_QUAY_LSTATUS_STATE st).setFld (a_QUAY_LSTATUS f.1 f.2) f_QUAY_LSTATUS_STATE st).sendEvt
    m.1 12 7 0xF (m.2 + st * 16)

/-- A compute die lost (R240): packets to it and from it are lost with it, and the invalidations that it owes count as acknowledged. -/
def State.dieGone (s : State) (d : Nat) : State :=
  let s1 : State := { s with
    lost := s.lost ++ [d]
    quay := (List.range 16).foldl (fun t k => Tbl.set [] t k (if k = d then [] else (Tbl.get [] t k).filter fun r => r.src != d)) s.quay }
  let owed := s1.invals.filter fun v => v.target == d
  owed.foldl (fun t v => t.acked v.home v.line d) { s1 with invals := s1.invals.filter fun v => v.target != d }

/-- A link FAILED (R240): a stack port's die is lost at once; what it means for partitions follows its LINK_NOTE. -/
def State.linkFailed (s : State) (die l : Nat) : State :=
  let m := mainEnd die l
  let f := farEnd m.1 m.2
  let s1 := s.setLinkState die l 5
  if f.1 < 12 && !s1.lost.contains f.1 then s1.dieGone f.1 else s1

/-- A link begins to retrain (R239): counted at both ends. -/
def State.linkRetrain (s : State) (die l : Nat) (ordered : Bool) : State :=
  let m := mainEnd die l
  let f := farEnd m.1 m.2
  let s1 := (s.bump (a_QUAY_LERR m.1 m.2) f_QUAY_LERR_RETRAINS).bump (a_QUAY_LERR f.1 f.2) f_QUAY_LERR_RETRAINS
  (s1.setLinkState die l 3).setLink m.1 m.2 { s1.link m.1 m.2 with replays := 0, ordered := ordered }

/-- FLIT_CRC_REPLAY: `flits` flits are replayed from the buffer, and counted; `again` says that the replay fails too, and the eighth
such in a row starts a retrain (R239). -/
def execFlitCrcReplay (die link flits : Nat) (again : Bool) (s : State) : Host.Outcome State Fault Refusal :=
  .next (if !isLink die link || s.linkState die link != 2 then s
    else
      let a := a_QUAY_LERR die link
      let s1 := s.setFld a f_QUAY_LERR_REPLAYS (min (2 ^ 32 - 1) (s.fld a f_QUAY_LERR_REPLAYS + flits))
      let m := mainEnd die link
      let x := s1.link m.1 m.2
      if !again then s1.setLink m.1 m.2 { x with replays := 0 }
      else if x.replays + 1 < 8 then s1.setLink m.1 m.2 { x with replays := x.replays + 1 }
      else s1.linkRetrain die link false)

/-- LINK_RETRAIN_DONE: traffic resumes, or the retrain has failed: three failures within 1 s make the link FAILED, fewer start it
again (R239, R240). An ordered retrain does not count (R256). -/
def execLinkRetrainDone (die link : Nat) (good : Bool) (s : State) : Host.Outcome State Fault Refusal :=
  .next (if !isLink die link || s.linkState die link != 3 then s
    else
      let m := mainEnd die link
      let f := farEnd m.1 m.2
      let x := s.link m.1 m.2
      if good then (s.setLinkState die link 2).setLink m.1 m.2 { x with replays := 0, ordered := false }
      else
        let s1 := (s.bump (a_QUAY_LERR m.1 m.2) f_QUAY_LERR_FAILED).bump (a_QUAY_LERR f.1 f.2) f_QUAY_LERR_FAILED
        let now := s.tideOf m.1
        let fails := if x.ordered then x.fails else (x.fails.filter fun t => decide (now < t + 1_000_000_000)) ++ [now]
        let s2 := s1.setLink m.1 m.2 { x with fails := fails, ordered := false }
        if 3 ≤ fails.length then s2.linkFailed die link else s2.linkRetrain die link false)

/-- What the command of the same row does. -/
def State.doQuayLinkDisable (t : State) (die link : Nat) : State :=
  let was := t.fld (a_QUAY_LCTL die link) f_QUAY_LCTL_DISABLE
  let t1 := t.setFld (a_QUAY_LCTL die link) f_QUAY_LCTL_DISABLE 1
  if was = 1 then t1
  else if t.linkState die link = 2 || t.linkState die link == 3 then t1.linkFailed die link
  else if t.linkState die link = 0 || t.linkState die link == 1 then t1.setLinkState die link 4
  else t1

/-- QUAY_LINK_DISABLE: written while the link is up it fails the link; before training it keeps the link disabled (R240, R256). -/
def execQuayLinkDisable (src : Source) (die link : Nat) (s : State) : Host.Outcome State Fault Refusal :=
  .next (if !isLink die link then s
    else s.command src (cmdLinkDisable die link) fun t => t.doQuayLinkDisable die link)

/-- What the command of the same row does. -/
def State.doQuayLinkRetrain (t : State) (die link : Nat) : State := if t.linkState die link = 2 then t.linkRetrain die link true else t

/-- QUAY_LINK_RETRAIN: the link retrains, without a failure being counted (R239, R256). -/
def execQuayLinkRetrain (src : Source) (die link : Nat) (s : State) : Host.Outcome State Fault Refusal :=
  .next (if !isLink die link then s
    else s.command src (cmdLinkRetrain die link) fun t => t.doQuayLinkRetrain die link)

/-- The partitions with a cluster anywhere on the module. -/
def State.modulePartitions (s : State) : List Nat := ((List.range 12).flatMap fun d => s.diePartitions d).eraseDups

/-- LINK_NOTE: the management processor records a link's failure, and has the partitions it touches torn down: those of a lost
compute die, or every one where a bridge fails (R238, R240). -/
def execLinkNote (msg : EvtMsg) (s : State) : Host.Outcome State Fault Refusal :=
  .next (s.takeEvt msg 7 fun t =>
    let l := msg.body % 8
    if !isLink msg.src l || bits msg.body 6 4 != 5 then t
    else
      let m := mainEnd msg.src l
      let d := (farEnd m.1 m.2).1
      if d < 12 then
        let t1 := if t.lost.contains d then t else { t with lost := t.lost ++ [d] }
        ((t1.diePartitions d).foldl (fun u p => u.askTeardown p Code.COMPUTE_DIE_LOST) t1).report Code.COMPUTE_DIE_LOST d 31 []
      else (t.modulePartitions.foldl (fun u p => u.askTeardown p Code.QUAY_LINK_DOWN) t).report Code.QUAY_LINK_DOWN m.1 31 [])

/-! ### Clocks -/

/-- A die's clocks stop (R243): a compute die's stack port fails and its governor's slots go (R458), a base die's bridges fail. -/
def State.clocksStop (s : State) (die : Nat) : State :=
  let s1 := if s.clockLost.contains die then s else { s with clockLost := s.clockLost ++ [die] }.cutRamp die
  if die < 12 then (if s1.linkState die 0 = 5 then s1 else s1.linkFailed die 0)
  else [3, 4].foldl (fun t l => if t.linkState die l = 5 then t else t.linkFailed die l) s1

/-- The record and count of a lost PLL (R473): `pll` by its bit of CLK_STATUS. -/
def State.pllRecord (s : State) (die pll : Nat) : State :=
  (s.bump (a_CLK_PLLCNT die) f_CLK_PLLCNT_UNLOCKS).report Code.PLL_UNLOCK die 31 [pll]

/-- A PLL of a die losing lock, by its bit of CLK_STATUS (R243, R473). -/
def State.pllLoss (s : State) (die pll : Nat) : State :=
  ((s.setFld (a_CLK_STATUS die) ⟨pll, pll⟩ 0).pllRecord die pll).clocksStop die

/-- PLL_LOSS_OF_LOCK: a die's PLL (0 core or base logic, 1 galley, 2 Quay, 3 HBM and lane) loses lock: the die's clocks stop
(R243, R473). -/
def execPllLossOfLock (die pll : Nat) (s : State) : Host.Outcome State Fault Refusal :=
  .next (if !(decide (die < 16) && decide (pll < 4)) then s else s.pllLoss die pll)

/-- REFERENCE_LOSS: every die stops compute, its ramp's slots withdrawn at once (R458), and base die 0 reports REFERENCE_LOST; the module waits for a cold reset; in
start-up step 1 that is a hold (R243, R473, 18_start_up.md R532). -/
def execReferenceLoss (s : State) : Host.Outcome State Fault Refusal :=
  let s1 := (List.range 16).foldl (fun t d =>
    ((t.setFld (a_CLK_STATUS d) f_CLK_STATUS_REF 0).bump (a_CLK_PLLCNT d) f_CLK_PLLCNT_REFLOSS).cutRamp d) { s with refLost := true }
  let s2 := (s1.report Code.PLL_UNLOCK 12 31 [4]).report Code.REFERENCE_LOST 16 31 []
  .next (if s2.fld a_MGMT_BOOT f_MGMT_BOOT_STEP = 1 then s2.bootExit Code.REFERENCE_LOST true else s2)

end Sys2Proof.Machine
end

