-- ==== Sys2Proof/Machine/HbmRows.lean ====
section
/-! DEFINITION. The HBM controllers at work (08_memory_system.md): schedulers, symbol code, scrubs, channel states, margining, and the
commands of the adders. -/

namespace Sys2Proof.Machine
open Sys2Proof

/-! ### Schedulers -/

/-- Whether a request of a scheduler is the first of its line (R262). -/
def firstOfLine : List Nat → List SchedReq → List SchedReq
  | _, [] => []
  | seen, r :: rest => if seen.contains r.line then firstOfLine seen rest else r :: firstOfLine (r.line :: seen) rest

/-- Whether a request hits the open row of its bank. -/
def Sched.hit (q : Sched) (r : SchedReq) : Bool := Tbl.find q.rows (bankOf r.line) == some (bits r.line 35 22)

/-- The request a scheduler issues next (R261): one that has waited 2 µs, oldest first; a write while writes are drained; a read that
hits; another read; a write. -/
def Sched.next (q : Sched) (now : Nat) : Option SchedReq :=
  let rs := firstOfLine [] q.reqs
  let drain := q.drain || decide (48 ≤ (q.reqs.filter fun r => r.write).length)
  (rs.find? fun r => decide (r.since + 2000 ≤ now)).or
    ((if drain then rs.find? fun r => r.write else none).or
      ((rs.find? fun r => !r.write && q.hit r).or
        ((rs.find? fun r => !r.write).or (rs.find? fun r => r.write))))

/-- A scheduler after it issued a request: the row opened, whether it goes on draining writes, from 48 down to 16, and in the entry that is free
the first of the requests held for it (R261). -/
def Sched.issue (q : Sched) (r : SchedReq) : Sched :=
  let before := (q.reqs.filter fun x => x.write).length
  let left := ((q.reqs.erase r).filter fun x => x.write).length
  ⟨q.reqs.erase r ++ q.wait.take 1, Tbl.insert q.rows (bankOf r.line) (bits r.line 35 22),
    (q.drain || decide (48 ≤ before)) && decide (16 < left), q.wait.drop 1⟩

/-- HBM_SCHEDULER_ISSUE: pseudo-channel `pchan` (channel · 2 + PC) of a stack issues its next request (R261, R262). -/
def execHbmSchedulerIssue (stack pchan : Nat) (s : State) : Host.Outcome State Fault Refusal :=
  let q := Tbl.get Sched.init (s.hbm stack).scheds pchan
  .next (match q.next (s.tideOf (stackBase stack)) with
    | none => s
    | some r => if s.chanState r.line = 2 then
        s.modHbm stack fun h => { h with scheds := Tbl.set Sched.init h.scheds pchan (q.issue r) }
      else s)

/-- One bank (pseudo-channel · 64 + bank) refreshed when its interval has passed: 3.9 µs, or 1.95 µs above 85 °C; its open row closes
(R264). -/
def State.refreshBank (s : State) (stack bank : Nat) : State :=
  let b := stackBase stack
  let now := s.tideOf b
  let every := if 85 * 16 < signed 16 (s.fld (a_HBM_STACK_STATUS b (stackWin stack)) f_HBM_STACK_STATUS_TEMP) then 1950 else 3900
  let h := s.hbm stack
  let due := match Tbl.find h.refreshed bank with
    | some t => decide (t + every ≤ now)
    | none => true
  if due then
    let q := Tbl.get Sched.init h.scheds (bank / 64)
    s.setHbm stack { h with
      refreshed := Tbl.insert h.refreshed bank now
      scheds := Tbl.set Sched.init h.scheds (bank / 64) { q with rows := Tbl.erase q.rows (bank % 64) } }
  else s

/-- HBM_REFRESH: a refresh of one bank, by its number below 4,096 (pseudo-channel · 64 + bank), or of all banks of a pseudo-channel, which
4,096 + pseudo-channel names (R257, R264). -/
def execHbmRefresh (stack bank : Nat) (s : State) : Host.Outcome State Fault Refusal :=
  let a := a_HBM_STACK_STATUS (stackBase stack) (stackWin stack)
  .next (if !(s.fld a f_HBM_STACK_STATUS_STATE == 2 || s.fld a f_HBM_STACK_STATUS_STATE == 3) || decide (4160 ≤ bank) then s
    else if bank < 4096 then s.refreshBank stack bank
    else (List.range 64).foldl (fun t i => t.refreshBank stack ((bank - 4096) * 64 + i)) s)

/-! ### Reads, scrubs and the log -/

/-- The corrections that a stack reports of its own on-die ECC, counted (R257, R266). -/
def State.onDie (s : State) (line n : Nat) : State :=
  let a := a_HBM_ECC (homeOf line) (stackWin (stackOf line))
  s.setFld a f_HBM_ECC_DIE (min 65535 (s.fld a f_HBM_ECC_DIE + n))

/-- HBM_READ_DECODE: a read of a line whose codeword comes back with the errors given, after the stack's on-die ECC has reported `fixed`
corrections (R266, R267). -/
def execHbmReadDecode (line : Nat) (errs : List SymErr) (fixed : Nat) (s : State) : Host.Outcome State Fault Refusal :=
  .next (if line % 64 = 0 && inHbm line 64 && s.chanState line == 2 then
    (s.onDie line fixed).decodeLine line (errs.filter fun e => decide (e.pos < 36)) false else s)

/-- HBM_ROW_SCRUB: the 16 lines of the first row set down for a scrub whose channel is Active are read and rewritten; `errs` are their errors
by line (R268, R276). -/
def execHbmRowScrub (stack : Nat) (errs : List (List SymErr)) (s : State) : Host.Outcome State Fault Refusal :=
  let h := s.hbm stack
  match h.scrubs.find? fun p => s.chanState p == 2 with
  | none => .next s
  | some page =>
    .next ((List.range 16).foldl (fun t n =>
        t.decodeLine (pageLine page n) ((errs.getD n []).filter fun e => decide (e.pos < 36)) true)
        (s.setHbm stack { h with scrubs := h.scrubs.erase page }))

/-- HBM_PATROL_SCRUB: the patrol reads its next line where its scheduler holds no request, and corrects it; after the last line a
pass is complete (R268). A line whose channel does not serve requests is passed over (R276; DESIGN CHOICE, log entry 11). -/
def execHbmPatrolScrub (stack : Nat) (errs : List SymErr) (s : State) : Host.Outcome State Fault Refusal :=
  let a := a_HBM_SCRUB (stackBase stack) (stackWin stack)
  let h := s.hbm stack
  let line := stack * 2 ^ 36 + h.patrol * 64
  .next (if s.fld a f_HBM_SCRUB_HOURS = 0 || decide (s.chanState line < 2) || (s.chanState line == 2 && !(s.sched line).reqs.isEmpty)
      || decide (12 ≤ stack) then s
    else
      let s1 := if s.chanState line = 2 then s.decodeLine line (errs.filter fun e => decide (e.pos < 36)) true else s
      let next := (h.patrol + 1) % 2 ^ 30
      let s2 := s1.modHbm stack fun x => { x with patrol := next }
      if next = 0 then s2.bumpWrap a f_HBM_SCRUB_PASSES else s2)

/-- An HBM log entry as the registers hold it. -/
def State.hbmEntryAt (s : State) (stack n : Nat) : Nat :=
  ((List.range 4).map fun w => (s.reg (a_HBM_ERRLOG (stackBase stack) (stackWin stack) n w)).toNat * 2 ^ (64 * w)).sum

/-- One log entry taken by the management processor (R270): a status record, for a correction only the first of its row within 1 s. -/
def State.hbmTake (s : State) (stack n : Nat) : State :=
  let e := s.hbmEntryAt stack n
  let tide := bits e 255 192
  let code := bits e 191 176
  let page := pageOf (bits e 47 0)
  let told := Tbl.find (s.hbm stack).told page
  let skip := code == Code.HBM_SYMBOL_CORRECTED && (match told with
    | some t => decide (tide < t + 1_000_000_000)
    | none => false)
  if skip then s
  else
    let s1 := if code = Code.HBM_SYMBOL_CORRECTED then s.modHbm stack fun h => { h with told := Tbl.insert h.told page tide } else s
    s1.recordAt tide code 2 (bytesLE 32 e) (stackBase stack) 31 false

/-- HBM_LOG_COLLECT: the management processor takes every pending entry of a stack's log (R270). -/
def execHbmLogCollect (stack : Nat) (s : State) : Host.Outcome State Fault Refusal :=
  let s1 := (s.modHbm stack fun h => { h with pend := [] }).setFld (a_HBM_LOGPTR (stackBase stack) (stackWin stack)) f_HBM_LOGPTR_PENDING 0
  .next ((s.hbm stack).pend.foldl (fun t n => t.hbmTake stack n) s1)

/-! ### Channels -/

def a_chan (st ch : Nat) : Nat := a_HBM_CH_STATUS (stackBase st) (stackWin st) ch

/-- The state of a channel set; the tide at which it leaves Active is kept (R277). -/
def State.setChan (s : State) (st ch v : Nat) : State :=
  let was := s.fld (a_chan st ch) f_HBM_CH_STATUS_STATE
  let s1 := s.setFld (a_chan st ch) f_HBM_CH_STATUS_STATE v
  if was = 2 && v ≠ 2 then s1.modHbm st fun h => { h with since := Tbl.insert h.since ch (s.tideOf (stackBase st)) } else s1

/-- The partitions with a valid HBM window on a stack (R260, R278). -/
def State.stackPartitions (s : State) (st : Nat) : List Nat :=
  (List.range 24).filter fun p => (List.range 4).any fun w =>
    let a := a_HBM_WIN (stackBase st) p w
    s.fld a f_HBM_WIN_VALID == 1 && decide (s.fld a f_HBM_WIN_BASE < (st + 1) * 256) && decide (st * 256 ≤ s.fld a f_HBM_WIN_LIMIT)

/-- A channel FAILED (R278): logged, its schedulers and row scrubs given up, and every partition with a window on the stack to be torn
down. -/
def State.chanFail (s : State) (st ch : Nat) : State :=
  let b := stackBase st
  let s0 := s.modHbm st fun h => { h with
    scheds := Tbl.set Sched.init (Tbl.set Sched.init h.scheds (2 * ch) .init) (2 * ch + 1) .init
    scrubs := h.scrubs.filter fun p => chanOf p != ch }
  let s1 := (s0.setChan st ch 5).setFld (a_HBM_STACK_STATUS b (stackWin st)) f_HBM_STACK_STATUS_STATE 3
  let s2 := s1.hbmLog st (chanEntry (s.tideOf b) Code.HBM_CHANNEL_DOWN st ch)
  (s2.stackPartitions st).foldl (fun t p => t.askTeardown p Code.HBM_CHANNEL_DOWN) s2

/-- A channel begins to retrain, after its stack's add cache is written back (R275, R277): counted and logged. -/
def State.chanRetrain (s : State) (st ch : Nat) : State :=
  (((s.writeBackAll st).setChan st ch 3).bump (a_chan st ch) f_HBM_CH_STATUS_RETRAINS).hbmLog st
    (chanEntry (s.tideOf (stackBase st)) Code.HBM_RETRAIN st ch)

/-- Whether a channel is trained and not FAILED: Active, Retraining or Offline. -/
def State.chanLive (s : State) (st ch : Nat) : Bool :=
  let v := s.fld (a_chan st ch) f_HBM_CH_STATUS_STATE
  decide (st < 12) && decide (ch < 32) && (v == 2 || v == 3 || v == 4)

/-- HBM_CHANNEL_RETRAIN: more than 16 interface errors within 1 ms start a retrain of an Active channel (R277). -/
def execHbmChannelRetrain (stack chan errors : Nat) (s : State) : Host.Outcome State Fault Refusal :=
  .next (if 16 < errors && s.chanLive stack chan && s.fld (a_chan stack chan) f_HBM_CH_STATUS_STATE == 2 then s.chanRetrain stack chan
    else s)

/-- What the command of the same row does. -/
def State.doHbmRetrainCmd (t : State) (stack chan : Nat) : State :=
  if t.chanLive stack chan && t.fld (a_chan stack chan) f_HBM_CH_STATUS_STATE != 3 then t.chanRetrain stack chan else t

/-- HBM_RETRAIN_CMD: HBM_CH_CTL.RETRAIN retrains the channel now (R277). -/
def execHbmRetrainCmd (src : Source) (stack chan : Nat) (s : State) : Host.Outcome State Fault Refusal :=
  .next (s.command src (cmdHbmRetrain stack chan) fun t => t.doHbmRetrainCmd stack chan)

/-- The OFFLINE field of a channel. -/
def a_chanCtl (st ch : Nat) : Nat := a_HBM_CH_CTL (stackBase st) (stackWin st) ch

/-- What the command of the same row does. -/
def State.doHbmOffline (t : State) (stack chan : Nat) : State :=
  if t.fld (a_chanCtl stack chan) f_HBM_CH_CTL_OFFLINE = 1 then t
  else
    let t1 := t.setFld (a_chanCtl stack chan) f_HBM_CH_CTL_OFFLINE 1
    if t.chanLive stack chan then t1.setChan stack chan 4 else t1

/-- HBM_OFFLINE: OFFLINE from 0 to 1 takes the channel Offline; left at 1 it does nothing (R277). -/
def execHbmOffline (src : Source) (stack chan : Nat) (s : State) : Host.Outcome State Fault Refusal :=
  .next (s.command src (cmdHbmOffline stack chan) fun t => t.doHbmOffline stack chan)

/-- What the command of the same row does. -/
def State.doHbmOnline (t : State) (stack chan : Nat) : State :=
  if t.fld (a_chanCtl stack chan) f_HBM_CH_CTL_OFFLINE = 0 then t
  else
    let t1 := t.setFld (a_chanCtl stack chan) f_HBM_CH_CTL_OFFLINE 0
    if t.fld (a_chan stack chan) f_HBM_CH_STATUS_STATE = 4 then t1.chanRetrain stack chan else t1

/-- HBM_ONLINE: OFFLINE from 1 to 0 retrains the channel back to Active; left at 0 it does nothing (R277). -/
def execHbmOnline (src : Source) (stack chan : Nat) (s : State) : Host.Outcome State Fault Refusal :=
  .next (s.command src (cmdHbmOnline stack chan) fun t => t.doHbmOnline stack chan)

/-- HBM_RETRAIN_DONE: the channel is Active again (Offline where OFFLINE is still set), or the retrain has failed: the third in a row
makes it FAILED, an earlier one starts it again (R277, R278). -/
def execHbmRetrainDone (stack chan : Nat) (good : Bool) (s : State) : Host.Outcome State Fault Refusal :=
  .next (if !(s.chanLive stack chan && s.fld (a_chan stack chan) f_HBM_CH_STATUS_STATE == 3) then s
    else if good then
      (s.modHbm stack fun h => { h with fails := Tbl.set 0 h.fails chan 0 }).setChan stack chan
        (if s.fld (a_chanCtl stack chan) f_HBM_CH_CTL_OFFLINE = 1 then 4 else 2)
    else
      let n := Tbl.get 0 (s.hbm stack).fails chan + 1
      let s1 := s.modHbm stack fun h => { h with fails := Tbl.set 0 h.fails chan n }
      if 3 ≤ n then s1.chanFail stack chan else s1.chanRetrain stack chan)

/-- A request of a die that has been held for more than 2 ms on some channel: its place, itself, and the channel's line (R277). -/
def State.overHeld (s : State) (die : Nat) : Option (Nat × HomeEnt × Nat) :=
  let now := s.tideOf die
  let late (e : HomeEnt) : Option Nat := e.req.hbmLines.find? fun l =>
    s.answerUp die e.req && s.hbmHeld l 1 && decide (max e.since (Tbl.get 0 (s.hbm (stackOf l)).since (chanOf l)) + 2_000_000 < now)
  (s.homeList die).zipIdx.findSome? fun p => (late p.1).map fun l => (p.2, p.1, l)

/-- A request held too long, counted at the channel of a line (R277). -/
def State.heldOut (s : State) (l : Nat) : State := s.bump (a_chan (stackOf l) (chanOf l)) f_HBM_CH_STATUS_TIMEOUTS

/-- The line of a descriptor's local reads that a channel of a base die has held for more than 2 ms since `t`, with its span (R277). -/
def State.lateSpan (s : State) (die c d t : Nat) : Option (LocalSpan × Nat) :=
  (s.spansOf c d).findSome? fun x =>
    if !inHbm x.addr x.len then none
    else ((linesOf x.addr x.len).find? fun l => homeOf l == die && s.hbmHeld l 1
      && decide (max t (Tbl.get 0 (s.hbm (stackOf l)).since (chanOf l)) + 2_000_000 < s.tideOf die)).map fun l => (x, l)

/-- The first head of a lighter's queue that such a read has held: core, queue, descriptor, span and line. -/
def State.lateHead (s : State) (die : Nat) : Option (Nat × Nat × Nat × LocalSpan × Nat) :=
  (List.range 624).findSome? fun i =>
    let c := i / 4
    let t := Tbl.get 0 (s.ltr c).held (i % 4)
    if t = 0 || !s.headMay c (i % 4) then none
    else
      let d := s.headOf c (i % 4)
      (s.lateSpan die c d (t - 1)).map fun x => (c, i % 4, d, x.1, x.2)

/-- HBM_HELD_TIMEOUT: the first request held for more than 2 ms ends with HBM_CHANNEL_DOWN and changes nothing; where no request at the
home is, a descriptor whose own read is held ends so (R277, R343). -/
def execHbmHeldTimeout (die : Nat) (s : State) : Host.Outcome State Fault Refusal :=
  .next (match s.overHeld die with
    | some (i, e, l) => (((s.setHome die ((s.homeList die).eraseIdx i)).heldOut l).refuse die e.req Code.HBM_CHANNEL_DOWN).settled e.req
    | none => match s.lateHead die with
      | none => s
      | some (c, q, d, x, l) => ((s.takeHead c q d).heldOut l).lighterError c q d Code.HBM_CHANNEL_DOWN (x.unit (max l x.addr)) (targetOf d))

/-! ### Temperature -/

/-- PWR_HBMPACE of a stack (R467, R461): the lowest pace in force and its cause: stack temperature, base-die temperature, budget. -/
def State.repace (s : State) (st : Nat) : State :=
  let h := s.hbm st
  let b := stackBase st
  let base := s.fld (a_PWR_STATUS b) f_PWR_STATUS_THERMAL
  let pace := max h.hotPace (max base h.budgetPace)
  let cause := if pace = 0 then 0 else if h.hotPace = pace then 1 else if base = pace then 2 else 3
  s.setFlds (a_PWR_HBMPACE b (stackWin st)) [(f_PWR_HBMPACE_PACE, pace), (f_PWR_HBMPACE_CAUSE, cause)]

/-- HBM_TEMP_READ: the controller reads its stack's temperature, in 1/16 °C; at its throttle it paces, after 1 ms more so, and at
its trip every channel fails (R264, R466, R467). The throttle's record carries the temperature and the cause, by PWR_RAMP.HREASON's
numbers. -/
def execHbmTempRead (stack : Nat) (temp : Int) (s : State) : Host.Outcome State Fault Refusal :=
  let b := stackBase stack
  let now := s.tideOf b
  let th := a_PWR_THERM_HBM b
  let s1 := s.setFld (a_HBM_STACK_STATUS b (stackWin stack)) f_HBM_STACK_STATUS_TEMP (unsigned 16 temp)
  let h := s1.hbm stack
  let h1 := if (s1.fld th f_PWR_THERM_HBM_THROTTLE : Int) ≤ temp then
      let since := h.hotSince.getD now
      { h with
        hotSince := some since
        hotPace := if since + 1_000_000 ≤ now then 2 else 1 }
    else if temp < (s1.fld th f_PWR_THERM_HBM_CLEAR : Int) then { h with hotSince := none, hotPace := 0 }
    else h
  let s2 := (if h.hotSince.isNone && h1.hotSince.isSome then s1.report Code.THERMAL_THROTTLE b 31 [unsigned 16 temp, 2] else s1).setHbm stack h1
  let s2 := s2.repace stack
  .next (if 12 ≤ stack then s
    else if (s2.fld th f_PWR_THERM_HBM_TRIP : Int) ≤ temp
        && (List.range 32).any fun c => s2.fld (a_chan stack c) f_HBM_CH_STATUS_STATE != 5 then
      ((List.range 32).foldl (fun t c => if t.fld (a_chan stack c) f_HBM_CH_STATUS_STATE = 5 then t else t.chanFail stack c) s2).report
        Code.THERMAL_TRIP b 31 []
    else s2)

/-! ### Margining -/

/-- The longest run of true in a list. -/
def longestRun : Nat → Nat → List Bool → Nat
  | best, _, [] => best
  | best, cur, b :: r => if b then longestRun (max best (cur + 1)) (cur + 1) r else longestRun best 0 r

def a_margin (st : Nat) : Nat := a_HBM_MARGIN_STATUS (stackBase st) (stackWin st)

/-- What the command of the same row does. -/
def State.doHbmMarginStart (t : State) (stack pc chan pin mode : Nat) : State :=
  let ctl := a_HBM_MARGIN_CTL (stackBase stack) (stackWin stack)
  let t1 := t.setFlds ctl [(f_HBM_MARGIN_CTL_PC, pc), (f_HBM_MARGIN_CTL_CH, chan), (f_HBM_MARGIN_CTL_PIN, pin),
    (f_HBM_MARGIN_CTL_MODE, mode)]
  if t.fld (a_margin stack) f_HBM_MARGIN_STATUS_BUSY = 1 then t1
  else if t1.fld (a_chan stack (chan % 32)) f_HBM_CH_STATUS_STATE ≠ 4 then t1.setFld (a_margin stack) f_HBM_MARGIN_STATUS_RESULT 1
  else if 35 < pin % 64 then t1.setFld (a_margin stack) f_HBM_MARGIN_STATUS_RESULT 2
  else t1.setFlds (a_margin stack) [(f_HBM_MARGIN_STATUS_BUSY, 1), (f_HBM_MARGIN_STATUS_DONE, 0), (f_HBM_MARGIN_STATUS_RESULT, 0)]

/-- HBM_MARGIN_START: a run on an Offline channel; another state gives NOT_OFFLINE, a pin above 35 measures nothing (R279, R280). -/
def execHbmMarginStart (src : Source) (stack pc chan pin mode : Nat) (s : State) : Host.Outcome State Fault Refusal :=
  .next (s.command src (cmdMargin stack pc chan pin mode) fun t => t.doHbmMarginStart stack pc chan pin mode)

/-- HBM_MARGIN_DONE: a run ends with its eye: bit t of step v passes at timing step t − 32 and voltage step v (R279). -/
def execHbmMarginDone (stack : Nat) (eye : List Word) (s : State) : Host.Outcome State Fault Refusal :=
  .next (if s.fld (a_margin stack) f_HBM_MARGIN_STATUS_BUSY = 0 then s
    else
      let row (v : Nat) : Nat := (eye.getD v 0).toNat
      let width := longestRun 0 0 ((List.range 64).map fun t => bit (row 16) t)
      let height := longestRun 0 0 ((List.range 32).map fun v => bit (row v) 32)
      let s1 := (List.range 32).foldl (fun t v => t.setReg (a_HBM_EYE (stackBase stack) (stackWin stack) v) (eye.getD v 0)) s
      s1.setFlds (a_margin stack) [(f_HBM_MARGIN_STATUS_BUSY, 0), (f_HBM_MARGIN_STATUS_DONE, 1), (f_HBM_MARGIN_STATUS_RESULT, 0),
        (f_HBM_MARGIN_STATUS_WIDTH, width), (f_HBM_MARGIN_STATUS_HEIGHT, height)])

/-! ### Adders -/

/-- Whether a cell is an RL add packet (R314). -/
def isRlAdd (c : Cell) : Bool := c.kind == 6 || c.kind == 7

/-- The block of the add caches behind a die that is read next: that of the first request of the die that touches a cached block; with none,
the changed block that was used longest ago, which is written back next (R275). -/
def State.nextBlock (s : State) (die : Nat) : Option Nat :=
  match ((s.homeList die).flatMap fun e => e.req.lines.filter fun l => (s.cached l).isSome).head? with
  | some l => some l
  | none =>
    let all := if die < 12 then (s.galley die).cache else (upFrom (3 * (die - 12)) 3).flatMap fun st => (s.hbm st).cache
    (all.reverse.find? fun b => b.dirty).map fun b => b.block

/-- What SECDED finds in the block of an add cache that is read next: an uncorrectable error poisons it, a single-bit one is corrected
(R275). -/
def State.cacheErr (s : State) (die : Nat) (cache : DirErr) : State :=
  match cache, s.nextBlock die with
  | .double, some a => s.blockLost a
  | _, _ => s

/-- ADDER_RL_ADD: the first RL add packet at a die is applied to its block, block word and check word, or refused (R271, R272,
R275). `found` and `cache` say what SECDED finds in the directory and in the add cache; the block read next need not be the packet's. -/
def execAdderRlAdd (die : Nat) (found cache : DirErr) (s : State) : Host.Outcome State Fault Refusal :=
  .next ((s.cacheErr die cache).beginCell die found isRlAdd)

/-- The first waiting atomic of an operation at a die (R271). -/
def State.beginAtomic (s : State) (die : Nat) (found : DirErr) (aop : Nat) : State :=
  s.beginCell die found fun c => (c.kind == 9 && (atomicReq c).aop == aop) || (c.kind == 8 && aop == 0)

/-- ATOMIC_ADD (R271): also an IADD cell; codes 11 to 15, which no operation has, are refused here (R314). -/
def execAtomicAdd (die : Nat) (found : DirErr) (s : State) : Host.Outcome State Fault Refusal :=
  .next (s.beginCell die found fun c => c.kind == 8 || (c.kind == 9 && ((atomicReq c).aop == 0 || decide (10 < (atomicReq c).aop))))

/-- ATOMIC_MAX (R271). -/
def execAtomicMax (die : Nat) (found : DirErr) (s : State) : Host.Outcome State Fault Refusal := .next (s.beginAtomic die found 1)

/-- ATOMIC_MIN (R271). -/
def execAtomicMin (die : Nat) (found : DirErr) (s : State) : Host.Outcome State Fault Refusal := .next (s.beginAtomic die found 2)

/-- ATOMIC_MAXU (R271). -/
def execAtomicMaxu (die : Nat) (found : DirErr) (s : State) : Host.Outcome State Fault Refusal := .next (s.beginAtomic die found 3)

/-- ATOMIC_MINU (R271). -/
def execAtomicMinu (die : Nat) (found : DirErr) (s : State) : Host.Outcome State Fault Refusal := .next (s.beginAtomic die found 4)

/-- ATOMIC_AND (R271). -/
def execAtomicAnd (die : Nat) (found : DirErr) (s : State) : Host.Outcome State Fault Refusal := .next (s.beginAtomic die found 5)

/-- ATOMIC_OR (R271). -/
def execAtomicOr (die : Nat) (found : DirErr) (s : State) : Host.Outcome State Fault Refusal := .next (s.beginAtomic die found 6)

/-- ATOMIC_XOR (R271). -/
def execAtomicXor (die : Nat) (found : DirErr) (s : State) : Host.Outcome State Fault Refusal := .next (s.beginAtomic die found 7)

/-- ATOMIC_SWAP (R271): stores the operand. -/
def execAtomicSwap (die : Nat) (found : DirErr) (s : State) : Host.Outcome State Fault Refusal := .next (s.beginAtomic die found 8)

/-- ATOMIC_CAS (R271): stores the operand where the old value equals the comparand. -/
def execAtomicCas (die : Nat) (found : DirErr) (s : State) : Host.Outcome State Fault Refusal := .next (s.beginAtomic die found 9)

/-- ATOMIC_FADD32 (R271, R273): the binary32 add, refused for a partition in Invariant mode. -/
def execAtomicFadd32 (die : Nat) (found : DirErr) (s : State) : Host.Outcome State Fault Refusal := .next (s.beginAtomic die found 10)

/-- Pilot firmware staged (14_faults_checkpoint_recovery.md R451) if its image passes (16_host_network_management.md R504); it waits for every
core of a cluster to write WUMARK. -/
def State.stagePilot (s : State) : State :=
  if Config.imageGood 3 s.pilotImage then { s with pilotFw := ⟨s.pilotInForce, some s.pilotImage, 0, 0⟩ }
  else s.report Code.FIRMWARE_BAD_SIGNATURE 12 31 []

/-- MICROCODE_UPDATE: microcode that passes (R504) goes into a case engine that is idle; it changes no bit, and is recorded (R3, R451). An
`engine` of 9 or more stands for the pilot firmware, whose staging has no row of its own (log entry 17). -/
def execMicrocodeUpdate (die engine : Nat) (s : State) : Host.Outcome State Fault Refusal :=
  .next (if 9 ≤ engine then s.stagePilot
    else if 12 ≤ die then s
    else if !Config.imageGood 4 s.microImage then s.report Code.FIRMWARE_BAD_SIGNATURE 12 31 []
    else if (Tbl.get EngState.init s.engines (die * 16 + engine)).run.isSome then s
    else s.report Code.MICROCODE_UPDATED die 31 [])

end Sys2Proof.Machine
end

