-- ==== Sys2Proof/Machine/SchedRows.lean ====
section
/-! DEFINITION. The tide schedule at work (12_the_tide.md R382 to R390): how entries come in, and what each kind does at its mark; with
the injections of 14_faults_checkpoint_recovery.md R449 and R450. -/

namespace Sys2Proof.Machine
open Sys2Proof

/-! ### Entries coming in -/

/-- TIDE_NOTE: an entry accepted elsewhere comes to its acting die, where it has a pending slot since (R382, R384). One that no die here
accepted takes a slot as it comes. -/
def execTideNote (msg : EvtMsg) (s : State) : Host.Outcome State Fault Refusal :=
  .next (s.takeEvt msg 2 fun t =>
    let e := msg.body % 2 ^ 256
    let src := bits msg.body 257 256
    match t.notedSlot msg.dst e src with
    | some (i, _) => t.putSlot msg.dst i e src true
    | none => match t.freeSlot msg.dst (enPart e) with
      | some i => t.putSlot msg.dst i e src true
      | none => t.schedRefused msg.dst 1)

/-- The command of the register write it names (R389). -/
def cmdTidePut (die : Nat) (v : Word) : CmdId := ⟨a_TIDE_PUT die 3, v.toNat, a_TIDE_PUT die 3, 5, none, 0⟩

/-- The write of TIDE_PUT word 3 submits the entry (R384, R392): a refusal is journaled with its code, and counted. -/
def State.tidePut (s : State) (src : Source) (die : Nat) (v : Word) : State :=
  let w (i : Nat) : Nat := Tbl.get 0 s.puts (die * 4 + i) * 2 ^ (64 * i)
  match s.acceptEntry (w 0 + w 1 + w 2 + v.toNat * 2 ^ 192) ⟨1, die, 0xF⟩ with
  | .ok t => t.journal1 src (a_TIDE_PUT die 3) 0 0 v
  | .error code => (s.schedRefused die 1).journal1 src (a_TIDE_PUT die 3) code 0 v

/-- TIDE_PUT_SUBMIT: an interface writes TIDE_PUT word 3 (R384). -/
def execTidePutSubmit (src : Source) (die : Nat) (value : Word) (s : State) : Host.Outcome State Fault Refusal :=
  .next (if 16 ≤ die then s
    else if !s.dieUp die then (if src = .pcie then s.hostAbort (a_TIDE_PUT die 3 - 0xF0_0000_0000) else s.journal1 src (a_TIDE_PUT die 3) Code.DIE_UNAVAILABLE 0 value)
    else
      let o := s.orderCode src s.orderSources
      if !s.alone || !s.wayOpen src (a_TIDE_PUT die 3) then s.gather ⟨src, a_TIDE_PUT die 3, true, true, value⟩
      else if o ≠ 0 then s.journal1 src (a_TIDE_PUT die 3) o 0 value else ((s.regFlits src (a_TIDE_PUT die 3) 8 0).orderTaken src).tidePut src die value)

/-- One entry of a pilot's ring: accepted, or refused with an error record in the core's lighter log and LIGHTER_ERR (R384). -/
def State.ringEntry (s : State) (c e : Nat) : State :=
  let die := coreDie c
  match s.acceptEntry e ⟨2, die, coreNo c⟩ with
  | .ok t => t
  | .error code => (s.schedRefused die 1).collError die (coreNo c) code (enTag e)

/-- Entries n to n + k − 1 of the ring at `base` taken in order, CONS moved past each (R383). A word that cannot be read ends the
reading. -/
def State.ringTake (s : State) (c base kind : Nat) : Nat → Nat → State
  | 0, _ => s
  | k + 1, n =>
    let q := s.galleyRead (coreDie c) 0xF kind (base + 64 + 32 * (n % 64)) 32
    match q.2 with
    | some _ => q.1
    | none =>
      let e := q.1.num (base + 64 + 32 * (n % 64)) 32
      let t := (q.1.ringEntry c e).galleyWrite (coreDie c) 0xF kind (base + 8) (bytesLE 8 ((n + 1) % 2 ^ 64))
      t.ringTake c base kind k (n + 1)

/-- TIDE_RING_POLL: a die's TIDE block reads core c's PROD and takes the new entries; more than 64 of them are lost (R383). -/
def execTideRingPoll (c : Nat) (s : State) : Host.Outcome State Fault Refusal :=
  .next (if 156 ≤ c then s
    else
      let die := coreDie c
      let base := s.fld (a_TIDE_RING die (coreNo c)) f_TIDE_RING_BASE
      if base = 0 || !s.dieUp die then s
      else
        let kind := s.free.1.toNat
        let q := s.free.2.galleyRead die 0xF kind base 16
        match q.2 with
        | some _ => q.1
        | none =>
          let prod := q.1.num base 8
          let cons := q.1.num (base + 8) 8
          let n := (prod + 2 ^ 64 - cons) % 2 ^ 64
          if n = 0 then q.1
          else if n ≤ 64 then q.1.ringTake c base kind n cons
          else ((q.1.galleyWrite die 0xF kind (base + 8) (bytesLE 8 prod)).schedRefused die n).report Code.SCHED_RING_OVERRUN die
            (q.1.partOf c) [])

/-- COLLECTIVE_OPEN: the COLL block of a die opens the first context that the TIDE block has passed to it (R358). -/
def execCollectiveOpen (die : Nat) (s : State) : Host.Outcome State Fault Refusal :=
  match s.collAsks.find? fun a => coreDie a.core == die with
  | none => .next s
  | some a =>
    let s1 := { s with collAsks := s.collAsks.erase a }
    let c := s1.actor a.core
    .next (s1.collOpen die (coreNo c) a.ctr a.cid a.deadline)

/-! ### MARK, PREFETCH, PREWARM, COMMIT -/

/-- SCHED_MARK: the due record, and event TIDE at each core of the mask (R382); then what the job description has the member do at this mark
(log entry 28). -/
def execSchedMark (die : Nat) (job : Option MemberMark) (s : State) : Host.Outcome State Fault Refusal :=
  .next (s.act die 1 fun t x =>
    let u := t.dueRecord die (bits x.entry 95 48) (bits x.entry 12 0) x
    match job with
    | some j => u.memberMark (enPart x.entry) j.member j.duty
    | none => u)

/-- The checks of ENQ on the descriptor that a PREFETCH names (R119, R189). -/
def CoreState.prefetchCheck (k : CoreState) (q a : Nat) : Option (Nat × Nat) :=
  let hd := natLE (k.pbytes a 16)
  k.enqCheck q a (!(k.pmarked a (16 * hdLen hd) 2).isEmpty) hd

/-- The descriptor that a PREFETCH names, enqueued as an ENQ would (R119, R189): none while earlier stores of the core are not visible, and
while its queue is full. A held entry enqueues the descriptor that it holds. Where an ENQ would trap for another cause, the lighter's
log takes an error record with that code. -/
def State.prefetch (s : State) (die : Nat) (x : SchedSlot) : Option State :=
  let c := s.actor (13 * die + enCore x.entry)
  let k := s.core c
  let q := bits x.entry 25 24
  let a := bits x.entry 17 0
  match x.held with
  | some bs => if k.cap q ≤ (k.queue q).length then none else some (s.enqueue c q ⟨bs⟩)
  | none =>
    if !k.stores.isEmpty then none
    else
      let hd := natLE (k.pbytes a 16)
      let reach := k.enqReach q a hd
      let t := if reach = 0 then s else (s.ownRead c a reach).1
      match k.prefetchCheck q a with
      | some (code, _) => if code = Code.QUEUE_FULL then none else some (t.lighterError c q hd code 0 0)
      | none => some (t.enqueue c q ⟨k.pbytes a (16 * hdLen hd)⟩)

/-- A PREFETCH that must wait (R189): once the core's earlier stores are visible it takes its descriptor, and holds it. -/
def State.prefetchHold (s : State) (die i : Nat) (x : SchedSlot) : State :=
  let c := s.actor (13 * die + enCore x.entry)
  let k := s.core c
  let a := bits x.entry 17 0
  let y := { x with busy := true }
  if x.held.isSome || !k.stores.isEmpty then s.setSlot die i (some y)
  else
    let n := 16 * hdLen (natLE (k.pbytes a 16))
    (s.ownRead c a n).1.setSlot die i (some { y with held := some (k.pbytes a n) })

/-- SCHED_PREFETCH: the descriptor is enqueued, or held for a full queue (R189). -/
def execSchedPrefetch (die : Nat) (s : State) : Host.Outcome State Fault Refusal :=
  match s.dueSlot die 2 with
  | none => .next s
  | some (i, x) => .next (match s.prefetch die x with
    | some _ => s.act die 2 fun t y => (t.prefetch die y).getD t
    | none => s.prefetchHold die i x)

/-- The PREFETCHes of a die that wait, by slot. -/
def State.heldPrefetches (s : State) (die : Nat) : List (Nat × SchedSlot) :=
  (s.slots die).filter fun x => x.2.busy && enKind x.2.entry == 2

/-- The first PREFETCH of a die that waits and can be enqueued now. -/
def State.heldPrefetch (s : State) (die : Nat) : Option (Nat × SchedSlot) :=
  (s.heldPrefetches die).find? fun x => (s.prefetch die x.2).isSome

/-- PREFETCH_ENQUEUE: a held descriptor is enqueued once its queue has room, and the delay has slipped (R189, R387); where none can be, one
that waited for its core's stores takes its descriptor once they are visible. -/
def execPrefetchEnqueue (die : Nat) (s : State) : Host.Outcome State Fault Refusal :=
  match s.heldPrefetch die with
  | none => .next (match (s.heldPrefetches die).find? fun x => x.2.held.isNone with
    | none => s
    | some (i, x) => s.prefetchHold die i x)
  | some (i, x) =>
    let q := s.slip die x
    let t := q.1.slotDone die i q.2
    .next ((t.prefetch die x).getD t)

/-- SCHED_PREWARM: the governor begins the ramp of the entry at its boundary B (R388). -/
def execSchedPrewarm (die : Nat) (s : State) : Host.Outcome State Fault Refusal :=
  match s.dueSlot die 3 with
  | none => .next s
  | some (i, x) =>
    let r := s.ramp die
    let b := x.acts / 2000 * 2000
    .next ((s.setSlot die i (some { x with busy := true })).setRamp die { r with prewarms := r.prewarms ++ [⟨i, x.due, b, 0, false⟩] })

/-- PREWARM_START: at the later of S and the boundary that has released the last wave, the entry's due record and event TIDE (R388). -/
def execPrewarmStart (die : Nat) (s : State) : Host.Outcome State Fault Refusal :=
  let r := s.ramp die
  match s.dueStart die with
  | none => .next s
  | some p =>
    let s1 := s.setRamp die { r with
      prewarms := r.prewarms.erase p
      keep := s.tideOf die + s.fld (a_PWR_RAMP die) f_PWR_RAMP_HOLD }
    match s1.slot die p.entry with
    | none => .next s1
    | some x =>
      let q := s1.slip die x
      .next ((q.1.slotDone die p.entry q.2).dueRecord die (bits x.entry 95 48) (bits x.entry 16 4) x)

/-- The highest STEP among the commit words of the step record whose prepare word is at `a` (14_faults_checkpoint_recovery.md R440). -/
def State.lastStep (s : State) (a : Nat) : Option Nat :=
  ((List.range 4).filterMap fun i =>
    let w := s.num (a - 0x40 + 16 * i) 8
    if bit w 63 then some (w % 2 ^ 63) else none).max?

/-- Whether a collective of a partition has ended ABORTED in a context of the module. -/
def State.collLost (s : State) (part : Nat) : Bool :=
  (s.partDies part).any fun d => (List.range 416).any fun i => s.collState d (i / 32) (i % 32) == 4 && s.partOf (13 * d + i / 32) == part

/-- A COMMIT withheld for want of READY (R432): where a collective of the step has ended ABORTED, the step after the last one committed is
replayed; where that was a replay of the same step already, the member asks for a teardown. -/
def State.stepReplay (s : State) (die part pa : Nat) : State :=
  if !s.collLost part then s
  else
    let key := match s.lastStep pa with
      | some n => n + 3
      | none => 1
    if Tbl.get 0 s.replays part = key then s.askTeardown part Code.COLL_DEADLINE
    else
      let s1 := { s with replays := Tbl.set 0 s.replays part key }
      match s.lastStep pa with
      | some n => s1.report Code.STEP_REPLAY die part [n + 1]
      | none => s1.free.2.report Code.STEP_REPLAY die part [s1.free.1.toNat]

/-- A COMMIT at its mark C (R390): refused when it was accepted after C, when a teardown of its partition has reached the die by C, when
a command beats it (R389), or when the prepare word is not READY; else the commit word takes the prepared step and READY clears, in one step. -/
def State.commit (s : State) (die : Nat) (beaten : Bool) (x : SchedSlot) : State :=
  let e := x.entry
  let ca := bits e 95 48
  let pa := bits e 47 0
  let now := s.tideOf die
  let torn := match Tbl.get none s.torn (enPart e) with
    | some t => decide (t.first ≤ x.due)
    | none => false
  let q := s.free.2.galleyRead (galleyDie pa) 0xF s.free.1.toNat pa 8
  let prep := q.1.num pa 8
  let ok := !decide (x.due < x.accepted) && !torn && !beaten && q.2.isNone && bit prep 63
  let s1 :=
    if ok then
      (q.1.galleyWrite (galleyDie ca) 0xF s.free.1.toNat ca (bytesLE 8 prep ++ bytesLE 8 now)).galleyWrite (galleyDie pa) 0xF s.free.1.toNat pa (bytesLE 8 (prep % 2 ^ 63))
    else
      let f := q.1.free
      let t := (f.2.galleyWrite (galleyDie ca) 0xF s.free.1.toNat ca (bytesLE 8 (f.1.toNat % 2 ^ 63) ++ bytesLE 8 now)).report Code.COMMIT_WITHHELD
        die (enPart e) []
      if q.2.isNone && !bit prep 63 && !torn && !beaten then t.stepReplay die (enPart e) pa else t
  if enCore e = 0xF then s1 else s1.fire (s1.actor (13 * die + enCore e)) 3

/-- SCHED_COMMIT (R390): refused too where a teardown or a RELEASE of its partition meets it (R389). -/
def execSchedCommit (die : Nat) (s : State) : Host.Outcome State Fault Refusal :=
  .next (s.actUnless die 5 (fun x => s.actionBeaten (enPart x.entry) false) (fun t x => t.commit die true x) fun t x => t.commit die false x)

/-! ### LANE, CALHOLD, HBM_MAINT -/

/-- The LANE entries of a die due in the tick of the first one, by slot. -/
def State.lanePeers (s : State) (die : Nat) (x : SchedSlot) : List (Nat × SchedSlot) :=
  (s.slots die).filter fun y => y.2.known && enKind y.2.entry == 8 && y.2.acts == x.acts

/-- The entry that prevails among LANE entries of one tick (R386): source I before M, then the lower slot. -/
def laneWinner : List (Nat × SchedSlot) → Option (Nat × SchedSlot)
  | [] => none
  | a :: r => match laneWinner r with
    | none => some a
    | some b => if b.2.source < a.2.source then some b else some a

/-- SCHED_LANE: step boundaries of the tick first, then the plan that prevails; an entry with another plan has no effect and is counted
as a conflict (R299, R386). -/
def execSchedLane (die : Nat) (s : State) : Host.Outcome State Fault Refusal :=
  match s.dueSlot die 8 with
  | none => .next s
  | some (_, x) =>
    let peers := s.lanePeers die x
    match laneWinner peers with
    | none => .next s
    | some w =>
      let plan (y : SchedSlot) : Nat := bits y.entry 2 0
      let s1 := (diePorts die).foldl (fun t p =>
        if (t.port p).rotating && decide ((t.port p).boundary < t.tideOf die / t.calStep p) then t.stepBoundary p else t) s
      let s2 := peers.foldl (fun t y =>
        let q := t.slip die y.2
        let u := q.1.slotDone die y.1 q.2
        if plan y.2 = plan w.2 then u
        else (u.bump (a_TIDE_SCHED die) f_TIDE_SCHED_CONFLICTS).report Code.SCHED_CONFLICT die (enPart y.2.entry) []) s1
      .next (s2.applyPlan die (plan w.2) false)

/-- SCHED_CALHOLD: a hold on each named port, of LENGTH but at most STEP (R298). -/
def execSchedCalhold (die : Nat) (s : State) : Host.Outcome State Fault Refusal :=
  .next (s.act die 9 fun t x =>
    (diePorts die).foldl (fun u p =>
      if bit (bits x.entry 39 32) (p % 8) then
        u.modPort p fun y => { y with hold := some (x.due + min (bits x.entry 31 0) (t.calStep p)) }
      else u) t)

/-- CALHOLD_END: at a hold's end the mapping is applied, with the one deferred move (R298). -/
def execCalholdEnd (port : Nat) (s : State) : Host.Outcome State Fault Refusal :=
  .next (match (s.port port).hold with
    | none => s
    | some e =>
      if s.tideOf (portDie port) < e || decide (32 ≤ port) then s
      else if (s.port port).rotating && decide ((s.port port).boundary < s.tideOf (portDie port) / s.calStep port) then s.stepBoundary port
      else s.modPort port fun y => { y with hold := none })

/-- SCHED_HBM_MAINT: the channel goes Offline at the mark (R277, R382). -/
def execSchedHbmMaint (die : Nat) (s : State) : Host.Outcome State Fault Refusal :=
  .next (s.act die 0xA fun t x =>
    let st := 3 * (die - 12) + bits x.entry 38 37
    let ch := bits x.entry 36 32
    let t1 := { t with maints := t.maints ++ [⟨st, ch, x.due + bits x.entry 31 0⟩] }
    if t.chanLive st ch then t1.setChan st ch 4 else t1)

/-- HBM_MAINT_END: at MARK + LENGTH the channel is retrained to Active (R382). -/
def execHbmMaintEnd (stack chan : Nat) (s : State) : Host.Outcome State Fault Refusal :=
  .next (match s.maints.find? fun m => m.stack == stack && m.chan == chan && decide (m.stop ≤ s.tideOf (stackBase stack)) with
    | none => s
    | some m =>
      let s1 := { s with maints := s.maints.erase m }
      if s1.fld (a_chan stack chan) f_HBM_CH_STATUS_STATE = 4 && s1.fld (a_chanCtl stack chan) f_HBM_CH_CTL_OFFLINE == 0 then
        s1.chanRetrain stack chan
      else s1)

/-! ### Injections -/

/-- The lanes of a port that an injection or a hold meets. -/
def State.fiLanes (s : State) (die i : Nat) : List Nat :=
  let target := s.fld (a_FI_INJ die i 0) f_FI_INJ_TARGET
  if s.fld (a_FI_INJ die i 0) f_FI_INJ_KIND = 1 then [96 * (die - 12) + target] else s.portLanes (8 * (die - 12) + target)

/-- Whether the target of an injection exists and belongs to its partition (R449, R450). -/
def State.targetOk (s : State) (die i : Nat) : Bool :=
  let a := a_FI_INJ die i 0
  let t := s.fld a f_FI_INJ_TARGET
  let p := s.fld a f_FI_INJ_PART
  let coreOk (n : Nat) : Bool := decide (die < 12) && decide (t < n) && s.partOf (13 * die + t) == p
    && bit (Tbl.get Claim.init s.claims p).clusters (2 * die + s.clusterOf (13 * die + t)) && (t != 12 || s.standingIn die)
  match s.fld a f_FI_INJ_KIND with
  | 1 => decide (12 ≤ die) && decide (t < 96) && s.fld (a_lctl (96 * (die - 12) + t)) f_LANE_CTL_PART == p
  | 2 => coreOk 12
  | 3 => coreOk 13
  | 4 => decide (12 ≤ die) && decide (t < 8) && s.portPart (8 * (die - 12) + t) == p
  | 5 => coreOk 13
  | _ => false

/-- The units that an injection's rehearsal names to the CHK block (R219, R450). -/
def State.fiUnits (s : State) (die i : Nat) : List Nat :=
  let t := s.fld (a_FI_INJ die i 0) f_FI_INJ_TARGET
  match s.fld (a_FI_INJ die i 0) f_FI_INJ_KIND with
  | 2 => [unitId 0 die t (bits (s.reg (a_FI_INJ die i 1)).toNat 1 0)]
  | 3 => [unitId 3 die t 0xF]
  | 5 => [unitId 3 die t 0xF]
  | _ => (s.fiLanes die i).map fun l => unitId 6 die (laneNo l / 16) (laneNo l % 16)

/-- An injection starting, or refused with FI_BUSY (R449, R450). -/
def State.rehearse (s : State) (die i part : Nat) : State :=
  let a := a_FI_INJ die i 0
  let kind := s.fld a f_FI_INJ_KIND
  let dur := s.fld a f_FI_INJ_DURATION * 1000
  let now := s.tideOf die
  if s.fld (a_FI_CTL die) f_FI_CTL_ENABLE = 0 || decide (16 ≤ i) || s.fld a f_FI_INJ_VALID == 0
      || (Tbl.get none s.injections (die * 16 + i)).isSome || s.pstate (s.fld a f_FI_INJ_PART) != 2 || !s.targetOk die i
      || (dur == 0 && (kind == 1 || kind == 4 || kind == 5)) then
    (s.bump (a_FI_STATUS die) f_FI_STATUS_REFUSED).report Code.FI_BUSY die part []
  else
    let stop := if dur = 0 then 2 ^ 64 else now + dur
    let s1 := { s with
      injections := Tbl.set none s.injections (die * 16 + i) (some ⟨now, false⟩)
      rehearsals := s.rehearsals ++ (s.fiUnits die i).map fun u => Rehearsal.mk u now stop
      delays := if kind = 5 then s.delays ++ [DelayRun.mk (s.fld a f_FI_INJ_PART) now stop] else s.delays }
    let st := a_FI_STATUS die
    let s2 := ((s1.setFld st f_FI_STATUS_ACTIVE (s1.fld st f_FI_STATUS_ACTIVE ||| 2 ^ i)).bump st f_FI_STATUS_STARTED).report
      Code.REHEARSAL_START die (s.fld a f_FI_INJ_PART) []
    if kind = 1 || kind == 4 then
      (s.fiLanes die i).foldl (fun t l =>
        let st0 := t.laneSt l
        if st0 = 0 || 5 ≤ st0 then t
        else ((t.laneFault l 6 false).setLaneSt l 4).modLane l fun x => { x with dropped := true }) s2
    else s2

/-- Whether FI_RETIRE of a core comes in this tick: taken already, or waiting in a row or a register write. -/
def State.retiresNow (s : State) (c : Nat) : Bool :=
  s.standAsks.contains (c, true) || s.pending.any (fun i => match i with
    | .fiRetire _ die core => decide (core < 12) && 13 * die + core == c
    | .registerWrite _ a 8 v => decide (c % 13 < 12) && a == a_FI_RETIRE (c / 13) && bits v.toNat 4 0 == 16 + c % 13
    | _ => false)
    || s.gathered.any fun w => !s.inert w && (s.rowsOf w).any fun x => x.id == cmdFiRetire (c / 13) (c % 13)

/-- Whether a REHEARSE is beaten by a command of class 1 of its tick (R389): a teardown of its partition (R449), or FI_RETIRE of the core that
its injection targets (R451). -/
def State.rehearseBeaten (s : State) (die : Nat) (x : SchedSlot) : Bool :=
  let a := a_FI_INJ die (bits x.entry 15 0 % 16) 0
  s.tearsNow (enPart x.entry) || ([2, 3, 5].contains (s.fld a f_FI_INJ_KIND) && decide (die < 12)
    && s.retiresNow (13 * die + s.fld a f_FI_INJ_TARGET))

/-- SCHED_REHEARSE (R449): with a teardown of its partition or a FI_RETIRE of its target in the tick, none starts. -/
def execSchedRehearse (die : Nat) (s : State) : Host.Outcome State Fault Refusal :=
  .next (s.actUnless die 0xC (s.rehearseBeaten die) (fun t _ => t) fun t x => t.rehearse die (bits x.entry 15 0) (enPart x.entry))

/-- An injection ending (R449): ACTIVE clears, its interval ends, a dropped lane recovers by R302, and REHEARSAL_END is written. -/
def State.endInjection (s : State) (die i : Nat) : State :=
  match Tbl.get none s.injections (die * 16 + i) with
  | none => s
  | some j =>
    let now := s.tideOf die
    let st := a_FI_STATUS die
    let units := s.fiUnits die i
    let s1 := { s with
      injections := Tbl.set none s.injections (die * 16 + i) none
      rehearsals := s.rehearsals.map fun (r : Rehearsal) => if units.contains r.unit && r.start == j.start then { r with stop := min r.stop now } else r
      delays := if s.fld (a_FI_INJ die i 0) f_FI_INJ_KIND = 5 then s.delays.map fun (d : DelayRun) =>
        if d.part = s.fld (a_FI_INJ die i 0) f_FI_INJ_PART && d.start == j.start then { d with stop := min d.stop now } else d else s.delays }
    let s2 := (s1.setFld st f_FI_STATUS_ACTIVE (s1.fld st f_FI_STATUS_ACTIVE &&& (0xFFFF ^^^ 2 ^ i))).report Code.REHEARSAL_END die
      (s.fld (a_FI_INJ die i 0) f_FI_INJ_PART) []
    let kind := s.fld (a_FI_INJ die i 0) f_FI_INJ_KIND
    if kind = 1 || kind == 4 then
      (s.fiLanes die i).foldl (fun t l =>
        if (t.lane l).dropped then t.modLane l fun x => { x with dropped := false, since := now } else t) s2
    else s2

/-- INJECTION_END: an injection whose duration has passed, or whose kind's own end is reached, ends (R449). -/
def execInjectionEnd (die index : Nat) (s : State) : Host.Outcome State Fault Refusal :=
  .next (match Tbl.get none s.injections (die * 16 + index) with
    | none => s
    | some j =>
      let dur := s.fld (a_FI_INJ die index 0) f_FI_INJ_DURATION * 1000
      if j.used || (dur != 0 && decide (j.start + dur ≤ s.tideOf die)) then s.endInjection die index else s)

end Sys2Proof.Machine
end

