-- ==== Sys2Proof/Machine/Tide.lean ====
section
/-! DEFINITION. The tide itself (12_the_tide.md R374 to R379): stamps, jumps, alignment within the package, and the servo that follows a
parent over a port. -/

namespace Sys2Proof.Machine
open Sys2Proof

/-- Whether some partition is imposed (R375). -/
def State.anyImposed (s : State) : Bool := (List.range 24).any fun p => s.pstate p == 2

def State.setFollow (s : State) (die : Nat) (f : Follow) : State := { s with follow := Tbl.set Follow.init s.follow die f }

/-- A die's count set, in 2^−40 of a tide unit. -/
def State.setCount (s : State) (die n : Nat) : State :=
  { s with tide := Tbl.set 0 s.tide die (n / 2 ^ 40 % 2 ^ 64) }.setFollow die { s.followOf die with frac := n % 2 ^ 40 }

/-- A die's count in 2^−40 of a tide unit. -/
def State.count40 (s : State) (die : Nat) : Nat := s.tideOf die * 2 ^ 40 + (s.followOf die).frac

/-- A die's count moved by `d` of 2^−40 of a tide unit. -/
def State.moveCount (s : State) (die : Nat) (d : Int) : State := s.setCount die (Int.toNat (s.count40 die + d))

/-- (T2 − T1) − (T4 − T3) and (T2 − T1) + (T4 − T3), as signed differences (R376, R378): twice the offset and twice the delay. -/
def twoWay (t1 t2 t3 t4 : Nat) : Int × Int :=
  let d (a b : Nat) : Int := signed 64 ((a + 2 ^ 64 - b) % 2 ^ 64)
  (d t2 t1 - d t4 t3, d t2 t1 + d t4 t3)

/-- The time stamps that the management processor itself compares, moved with a jump. -/
def MgrState.shift (m : MgrState) (d : Int) : MgrState :=
  let f (t : Nat) : Nat := Int.toNat (t + d)
  { m with
    window := m.window.map f
    peers := m.peers.map fun x => (x.1, x.2.map fun p => { p with last := f p.last, pause := f p.pause })
    out := m.out.map fun x => { x with sent := f x.sent } }

/-- The time stamps of die 12 that are still to be compared, moved with a jump. -/
def State.shift (s : State) (d : Int) : State :=
  let f (t : Nat) : Nat := Int.toNat (t + d)
  { s with
    mgr := s.mgr.shift d
    recs := { s.recs with lastAt := s.recs.lastAt.map fun x => (x.1, f x.2) }
    hostReads := s.hostReads.map fun x => { x with sent := x.sent.map f }
    qps := s.qps.map fun x => (x.1, { x.2 with since := f x.2.since, rateAt := f x.2.rateAt })
    ethPause := (s.ethPause.map fun x => (x.1, f x.2)).filter fun x => x.2 != 0
    ptp := { s.ptp with last := f s.ptp.last }
    supply := { s.supply with t0 := f s.supply.t0, offAt := s.supply.offAt.map f }
    uart := { s.uart with busy := s.uart.busy.map f }
    boot := { s.boot with again := s.boot.again.map f } }

/-- A port's tides moved with a jump of its die, so that waiting goes on as before; its next step boundary is the first after the new tide
(09_pholux_photonics.md R297). -/
def State.shiftPort (s : State) (p : Nat) (d : Int) : State :=
  let f (t : Nat) : Nat := Int.toNat (t + d)
  let s1 := s.modPort p fun x => { x with
    boundary := s.tideOf (portDie p) / s.calStep p
    since := f x.since
    calAt := x.calAt.map f
    hold := x.hold.map f
    low := x.low.map fun e => (e.1, if e.2 = 0 then 0 else f e.2)
    dim := x.dim.map fun e => (e.1, if e.2 = 0 then 0 else f e.2) }
  (s1.portLanes p).foldl (fun t l => t.modLane l fun x => { x with
    faults := x.faults.map f
    due := x.due.map f
    since := f x.since
    uncorr := x.uncorr.map f
    corr := x.corr.map fun e => (f e.1, e.2)
    txAt := x.txAt.map f
    markAt := f x.markAt }) s1

/-- A die's count jumping, its ports with it where it is a base die (R375). -/
def State.jumpDie (s : State) (die : Nat) (d : Int) : State :=
  let s1 := s.moveCount die d
  if die < 12 then s1 else (diePorts die).foldl (fun t p => t.shiftPort p ((s1.tideOf die : Int) - s.tideOf die)) s1

/-- A jump of die 12's tide (R375): every pending entry of the module goes, a TIDE_UNLOCKED record and a journal entry are written. The other
dies follow it by their exchanges (R376). -/
def State.jump (s : State) (d : Int) : State :=
  let old := s.tideOf 12
  let s1 := (s.jumpDie 12 d).dropSlots fun _ _ => true
  let moved : Int := (s1.tideOf 12 : Int) - old
  let s2 := { s1.shift moved with servo := { s1.servo with since := s1.tideOf 12, sent := none } }
  let s3 := s2.journalAs .device 3 (a_TIDE_NOW 12) 0 (BitVec.ofNat 64 old) (BitVec.ofNat 64 (s2.tideOf 12))
  s3.report Code.TIDE_UNLOCKED 12 31 []

/-! ### Within the package -/

/-- The body of a TIDE_ALIGN message (R376). -/
def alignBody (sub t1 t2 : Nat) : Nat := t1 + t2 * 2 ^ 64 + sub * 2 ^ 344

/-- A TIDE_ALIGN message leaving a die, stamped; a RATE is a copy of a broadcast. -/
def State.sendAlign (s : State) (src dst sub t1 t2 : Nat) : State :=
  s.send .quay dst [quayHead 4 31 src dst 6 0 (sub == 2), 6, 0xF, s.stamp src, alignBody sub t1 t2]

/-- A TIDE_ALIGN message of one SUB as its die takes it; one with another SUB above 2 is dropped and counted (R376). -/
def State.takeAlign (s : State) (m : EvtMsg) (sub : Nat) (f : State → State) : State :=
  s.takeEvt m 6 fun t =>
    let n := bits m.body 351 344
    if 2 < n then t.bump (a_QUAY_EVDROP m.dst) f_QUAY_EVDROP_COUNT else if n = sub then f t else t

/-- TIDE_PROBE_SEND: every 100,000 tide units a die sends a PROBE to die 12 (R376). -/
def execTideProbeSend (die : Nat) (s : State) : Host.Outcome State Fault Refusal :=
  .next (if die = 12 || decide (16 ≤ die) || !s.dieUp die || s.clockLost.contains die then s
    else
      let f := s.followOf die
      let now := s.tideOf die
      if (match f.sent with
        | some t => decide (t ≤ now) && decide (now < t + 100_000)
        | none => false) then s
      else (s.sendAlign die 12 0 0 0).setFollow die { f with sent := some now })

/-- TIDE_ALIGN_PROBE: die 12 answers with a REPLY (R376). -/
def execTideAlignProbe (msg : EvtMsg) (s : State) : Host.Outcome State Fault Refusal :=
  .next (s.takeAlign msg 0 fun t => if msg.dst = 12 then t.sendAlign 12 msg.src 1 msg.tide (t.stamp 12) else t)

/-- TIDE_ALIGN_REPLY: the first exchange after reset jumps the die's count by the offset, a later one slews it over the 100,000 units that the
package tide takes meanwhile; a die that would have to jump while a partition is imposed is at FAULT (R375, R376). -/
def execTideAlignReply (msg : EvtMsg) (s : State) : Host.Outcome State Fault Refusal :=
  .next (s.takeAlign msg 1 fun t =>
    let die := msg.dst
    let o := (twoWay (bits msg.body 63 0) (bits msg.body 127 64) msg.tide (t.stamp die)).1
    let f := t.followOf die
    if die = 12 || decide (16 ≤ die) then t
    else if f.aligned then
      t.setFollow die { f with slew := (o * 2 ^ 35) / 100_000, until_ := t.tideOf die + max 1 (Int.toNat (100_000 + o / 32)) }
    else if t.anyImposed && o ≠ 0 then
      if t.fld (a_TIDE_STATUS die) f_TIDE_STATUS_STATE = 4 then t
      else (t.setFld (a_TIDE_STATUS die) f_TIDE_STATUS_STATE 4).report Code.TIDE_FAULT die 31 []
    else
      let u := t.jumpDie die (o * 2 ^ 35)
      u.setFollow die { u.followOf die with aligned := true })

/-- TIDE_ALIGN_RATE: a rate change at its effective tide (R376). -/
def execTideAlignRate (msg : EvtMsg) (s : State) : Host.Outcome State Fault Refusal :=
  .next (s.takeAlign msg 2 fun t =>
    let f := t.followOf msg.dst
    if 16 ≤ msg.dst || bits msg.body 63 32 ≠ 0 then t.bump (a_QUAY_EVDROP msg.dst) f_QUAY_EVDROP_COUNT
    else t.setFollow msg.dst { f with rates := f.rates ++ [(bits msg.body 127 64, bits msg.body 31 0)] })

/-- RATE_APPLY: at the effective tide the die's RATE changes (R376). -/
def execRateApply (die : Nat) (s : State) : Host.Outcome State Fault Refusal :=
  let f := s.followOf die
  .next (match f.rates.find? fun r => decide (r.1 ≤ s.tideOf die) with
    | none => s
    | some r => (s.setFollow die { f with rates := f.rates.erase r }).setFld (a_TIDE_OFFSET die) f_TIDE_OFFSET_RATE r.2)

/-- A new RATE sent to every die, for a tide at least 2,000 ahead (R376). `r` is within ±100 ppm (R374). -/
def State.sendRate (s : State) (r : Int) : State :=
  let at_ := s.tideOf 12 + 2000 + Config.rateLead
  (List.range 16).foldl (fun t d => t.sendAlign 12 d 2 (unsigned 32 r) at_) s

/-- The rate that a steering of the servo chooses: a free value within ±`bound` of 2^−40 (R374, R378, R379). -/
def State.steer (s : State) (bound : Nat) : State :=
  let w := s.free.1.toNat
  s.free.2.sendRate ((w % (2 * bound + 1) : Nat) - (bound : Int))

/-- ±100 ppm in units of 2^−40 (R374). -/
def ratePpm100 : Nat := 109_951_162

/-! ### The servo -/

/-- Whether the module is the root, and ready (18_start_up.md R538). -/
def State.isRoot (s : State) : Bool := s.fld (a_TIDE_CTL 12) f_TIDE_CTL_ROOT == 1
def State.rootReady (s : State) : Bool :=
  s.isRoot && (s.fld (a_TIDE_CTL 12) f_TIDE_CTL_PTPSTEER == 0 || s.servo.ptp)

/-- The servo's state (R378). -/
def State.servoSt (s : State) : Nat := s.fld (a_TIDE_STATUS 12) f_TIDE_STATUS_STATE

/-- TSYNC with its STIDE, from the first moment at which the servo is LOCKED or the root is ready (09_pholux_photonics.md R297). -/
def State.syncUp (s : State) : State :=
  if s.stide.isNone && (s.servoSt == 2 || s.rootReady) then { s with stide := some (s.tideOf 12) } else s

/-- The servo entering FAULT (R378): a TIDE_FAULT record, once, and TSYNC falls, which freezes the ports (R297). -/
def State.tideFault (s : State) : State :=
  let s1 := { s.servoTo 4 with servo := { (s.servoTo 4).servo with fresh := 0 } }
  let s2 := if s1.servo.told then s1 else { s1.report Code.TIDE_FAULT 12 31 [] with servo := { (s1.report Code.TIDE_FAULT 12 31 []).servo with told := true } }
  (List.range 32).foldl (fun t p => if (t.port p).rotating then t.freezePort p else t) { s2 with stide := none }

/-- A time-transfer cell for a port, which it may leave by alone (R377). Its departure tide is taken when it leaves
(State.departs). -/
def State.timeCell (s : State) (p g0 g1 g2 : Nat) : State :=
  s.portCell p ⟨0xE, 31, s.farNode p, s.nodeId, 0, 0, bits (s.tideOf 12) 15 8, 7, 0, g0, g1, g2⟩

/-- What a write of TIDE_CTL on die 12 brings: a root's DEPTH is 0 (R379), and TSYNC where the root is ready (09_pholux_photonics.md R297);
another PARENT is the port in use (R378). -/
def State.tideCtlChanged (s old : State) : State :=
  let a := a_TIDE_CTL 12
  let st := a_TIDE_STATUS 12
  let s1 := if s.isRoot && !old.isRoot then s.setFld st f_TIDE_STATUS_DEPTH 0 else s
  let s2 := if s1.fld a f_TIDE_CTL_PARENT = old.fld a f_TIDE_CTL_PARENT then s1 else
    { s1.setFld st f_TIDE_STATUS_PORT (s1.fld a f_TIDE_CTL_PARENT) with servo := { s1.servo with req := none } }
  s2.syncUp

/-- SYNC_REQ_SEND: every 125,000 tide units a non-root module asks on its parent port (R378). -/
def execSyncReqSend (s0 : State) : Host.Outcome State Fault Refusal :=
  let s := if s0.isRoot then s0 else s0.takeAlt
  let now := s.tideOf 12
  .next (if s.isRoot || (match s.servo.sent with
      | some t => decide (t ≤ now) && decide (now < t + 125_000)
      | none => false) then s
    else
      let a := a_TIDE_STATUS 12
      let s1 := if s.fld a f_TIDE_STATUS_PORT = 0x3F then s.setFld a f_TIDE_STATUS_PORT (s.fld (a_TIDE_CTL 12) f_TIDE_CTL_PARENT) else s
      let p := s1.fld a f_TIDE_STATUS_PORT
      if !s1.portLive p then s1
      else
        let v := s1.servo
        { s1 with servo := { v with seq := (v.seq + 1) % 2 ^ 64, sent := some now, req := some (v.seq, s1.stamp 12) } }.timeCell p
          (1 + s1.stamp 12 * 2 ^ 64) v.seq 0)

/-- The first time-transfer cell of a kind that has come in, with its port (R377). -/
def State.timeArrival (s : State) (mkind : Nat) : Option (Nat × Cell) :=
  s.ctl.find? fun x => x.2.kind == 0xE && bits x.2.g0 7 0 == mkind

/-- SYNC_REQ: a parent that is LOCKED, or a root that is ready, answers a child (R377, R538). `arrival` is its arrival in 1/16 ns. A
cell with a reserved bit set is dropped (R17). -/
def execSyncReq (arrival : Nat) (s : State) : Host.Outcome State Fault Refusal :=
  match s.timeArrival 1 with
  | none => .next s
  | some x =>
    let s1 := { s with ctl := s.ctl.erase x }
    let c := x.2
    .next (if bits c.g0 63 8 ≠ 0 || bits c.g1 127 64 ≠ 0 || c.g2 ≠ 0 || !(s1.servoSt == 2 || s1.rootReady) then s1
      else
        let a := a_TIDE_STATUS 12
        let root := if s1.isRoot then s1.nodeId else s1.fld a f_TIDE_STATUS_ROOTNODE
        let epoch := if s1.isRoot then s1.myEpoch else s1.servo.epoch
        let depth := if s1.isRoot then 0 else s1.fld a f_TIDE_STATUS_DEPTH
        s1.timeCell x.1 (2 + arrival % 2 ^ 64 * 2 ^ 64) (bits c.g1 63 0 + s1.stamp 12 * 2 ^ 64)
          (root + depth * 2 ^ 12 + epoch % 2 ^ 32 * 2 ^ 32))

/-- Half of a sum of stamps as the registers show it: where it is odd the rounding is not stated, a free choice. -/
def halfSum (n : Int) : Int := (n + (if Config.halfUp n then 1 else 0)) / 2

/-- OFFSET and DELAY of an exchange; a value beyond 32 bits is a free one (R392). -/
def State.showExchange (s : State) (o d : Int) : State :=
  let fits (x : Int) : Bool := decide (-(2 : Int) ^ 31 ≤ x) && decide (x < (2 : Int) ^ 31)
  let s1 := if fits (halfSum o) then s.setFld (a_TIDE_OFFSET 12) f_TIDE_OFFSET_OFFSET (unsigned 32 (halfSum o))
    else s.free.2.setFld (a_TIDE_OFFSET 12) f_TIDE_OFFSET_OFFSET s.free.1.toNat
  if 0 ≤ d && halfSum d < (2 : Int) ^ 32 then s1.setFld (a_TIDE_DELAY 12) f_TIDE_DELAY_DELAY (halfSum d).toNat
  else s1.free.2.setFld (a_TIDE_DELAY 12) f_TIDE_DELAY_DELAY s1.free.1.toNat

/-- What an exchange of offset `o`, in 1/32 ns, makes the servo do (R378): 0.125 ns is 4 of them, 0.25 ns 8, 100 ns 3,200. -/
def State.servoStep (s : State) (o : Int) : State :=
  let n := o.natAbs
  let st := s.servoSt
  if st = 4 then s
  else if 3200 < n && s.anyImposed then s.tideFault
  else if !s.servo.first then
    if s.anyImposed then
      if n ≠ 0 then s.tideFault else { s.servoTo 1 with servo := { (s.servoTo 1).servo with first := true } }
    else { (s.jump (o * 2 ^ 35)).servoTo 1 with servo := { ((s.jump (o * 2 ^ 35)).servoTo 1).servo with first := true } }
  else
    let s1 := if st = 0 || st == 3 then s.servoTo 1 else s
    if s1.servoSt = 2 then
      if 8 < n then
        (s1.servoTo 1).report Code.TIDE_UNLOCKED 12 31 [] |>.steer ratePpm100
      else s1.steer ratePpm100
    else
      let good := if n ≤ 4 then s1.servo.good + 1 else 0
      if 8 ≤ good then (s1.servoTo 2).syncUp.steer ratePpm100
      else { s1 with servo := { s1.servo with good := good } }.steer ratePpm100

/-- SYNC_RSP: an exchange completes (R378): the offset and the delay, the depth and the root, and the servo's next state. `arrival` is
T4 in 1/16 ns. A cell that answers no SYNC_REQ in hand is dropped. -/
def execSyncRsp (arrival : Nat) (s : State) : Host.Outcome State Fault Refusal :=
  match s.timeArrival 2 with
  | none => .next s
  | some x =>
    let s1 := { s with ctl := s.ctl.erase x }
    let c := x.2
    let a := a_TIDE_STATUS 12
    .next (match s1.servo.req with
      | none => s1
      | some (seq, t1) =>
        if s1.isRoot || bits c.g0 63 8 ≠ 0 || bits c.g1 63 0 ≠ seq || x.1 ≠ s1.fld a f_TIDE_STATUS_PORT
          || bits c.g2 31 20 ≠ 0 || bits c.g2 127 64 ≠ 0 then s1
        else
          let w := twoWay t1 (bits c.g0 127 64) (bits c.g1 127 64) arrival
          let s2 := s1.setFlds a [(f_TIDE_STATUS_ROOTNODE, bits c.g2 11 0), (f_TIDE_STATUS_DEPTH, bits c.g2 19 12 + 1)]
          let s3 := { s2 with servo := { s2.servo with req := none, epoch := bits c.g2 63 32 } }.addWrap (a_TIDE_SYNCCNT 12)
            f_TIDE_SYNCCNT_EXCHANGES 1
          (s3.showExchange w.1 w.2).servoStep w.1)

/-- TIDE_SERVO_TIMEOUT: 10 ms without lock while a partition is imposed, or 50 ms of HOLDOVER, take the servo to FAULT (R378, R539). -/
def execTideServoTimeout (s : State) : Host.Outcome State Fault Refusal :=
  let now := s.tideOf 12
  let st := s.servoSt
  .next (if s.isRoot then s
    else if st = 3 then
      if s.portLive (s.fld (a_TIDE_CTL 12) f_TIDE_CTL_ALT) then s.takeAlt else if s.servo.since + 50_000_000 ≤ now then s.tideFault else s
    else if (st = 0 || st == 1) && s.anyImposed && decide (max s.servo.since s.servo.imposed + 10_000_000 ≤ now) then s.tideFault
    else s)

end Sys2Proof.Machine
end

