-- ==== Sys2Proof/Machine/Teardown.lean ====
section
/-! DEFINITION. Teardowns and aborts (10_tideway_fabric.md R346, 11_collectives_and_job_mapping.md R361, 14_faults_checkpoint_recovery.md
R436 to R438). -/

namespace Sys2Proof.Machine
open Sys2Proof

/-- A partition's state set (13_imposition_image.md R412). -/
def State.setPstate (s : State) (p st : Nat) : State :=
  s.setFld a_IMPO_PSTATE ⟨2 * p + 1, 2 * p⟩ st

/-- The lighter of a core ended (R346 step 3): every request in flight and every queued descriptor gets an error completion with the
code; its streams release their sets. A retired core's lighter is its stand-in's. -/
def State.endLighter (s : State) (c code : Nat) : State :=
  if (s.core c).run = .retired then s
  else
    let reqs := (s.ltr c).reqs
    let s1 := reqs.foldl (fun t e => match e.2 with
      | some r =>
        let u := t.setRequest c e.1 none
        if r.quiet || r.ghost then u else u.lighterError c r.queue r.desc code 0 (targetOf r.desc)
      | none => t) s
    let s2 := (List.range 4).foldl (fun t q =>
      let l := (t.core c).queue q
      let u := l.foldl (fun v d => v.lighterError c q d.num code 0 (targetOf d.num)) t
      u.modCore c fun k => { k with queues := Tbl.set [] k.queues q [] }) s1
    s2.modPress c fun p => { p with streams := [] }

/-- A partition's staged sections dropped (13_imposition_image.md R424). -/
def State.dropStaged (s : State) (p : Nat) : State :=
  let s1 := { s with staged := s.staged.filter fun x => x.1 / 16 % 24 != p }
  (List.range 3).foldl (fun t i => t.setFld (a_IMPO_STAGED i) ⟨p, p⟩ 0) s1

/-- The routers' TORN bits of a partition (R346, R413, R417). -/
def State.setTorn (s : State) (p v : Nat) : State := [12, 13, 14, 15].foldl (fun t b => t.setFld (a_RTR_STATUS b) ⟨p, p⟩ v) s

/-- A partition torn down here (R346, R437): routers drop its cells, its lighters end, its cores are told to halt, its pending entries
but COMMITs and its injections end. A load that is writing it finishes first (R412). -/
def State.tearNow (s : State) (p code tide node : Nat) : State :=
  let s1 := ({ s with
    torn := Tbl.set none s.torn p (some ⟨s.tideOf 12, code, tide, node, false⟩)
    replays := Tbl.set 0 s.replays p 0 }).setTorn p 1
  let s2 := if s1.pstate p = 2 then s1.setPstate p 3 else s1
  let s3 := (List.range 156).foldl (fun t c => if t.partOf c = p then t.endLighter c code else t) s2
  let s4 := s3.sendAll 12 5 (2 ^ p + code * 2 ^ 24)
  let s5 := (s4.dropSlots fun _ x => enPart x.entry == p && enKind x.entry != 5).dropStaged p
  (s5.injections.map Prod.fst).foldl (fun t k =>
    if t.fld (a_FI_INJ (k / 16) (k % 16) 0) f_FI_INJ_PART = p then t.endInjection (k / 16) (k % 16) else t) s5

/-- A TEARDOWN cell acted on (R346, R438): a copy with a CODE and TIDE seen before is ignored; any other is forwarded once; the first
tears the partition down, and a later one may lower what the record will carry. -/
def State.tearDown (s : State) (c : Cell) : State :=
  let p := c.part
  let code := bits c.g0 23 8
  let tide := bits c.g0 127 64
  let node := if bit c.g0 36 then bits c.g0 35 24 else 0x1000
  if 24 ≤ p || s.pstate p == 0 || s.teardownsSeen.contains (p, code, tide) then s
  else
    let s1 := { s with teardownsSeen := s.teardownsSeen ++ [(p, code, tide)] }.flood c
    match Tbl.get none s1.torn p with
    | none => s1.tearNow p code tide node
    | some t =>
      if t.told || !(decide (tide < t.tide) || (tide == t.tide && decide (code < t.code))) then s1
      else { s1 with torn := Tbl.set none s1.torn p (some { t with code := code, tide := tide, node := node }) }

/-- A harbourmaster declaring a teardown of a partition, with its own tide (R436): it sends the cell, and acts on it as any node. One that
is torn down already is not declared again. -/
def State.declareTear (s : State) (p code : Nat) (node : Option Nat) : State :=
  if 24 ≤ p || s.pstate p == 3 || (Tbl.get none s.torn p).isSome then s
  else
    let cell : Cell := ⟨0xD, p, 0, s.nodeId, 0, 0, bits (s.tideOf 12) 15 8, 7, 0, controlWord 1 code node (s.tideOf 12), 0, 0⟩
    if s.pstate p = 0 then s.flood cell else s.tearDown cell

/-- TEARDOWN: the first TEARDOWN cell that has come in (R346). -/
def execTeardown (s : State) : Host.Outcome State Fault Refusal :=
  match s.ctl.find? fun x => isTeardown x.2 with
  | none => .next s
  | some x => .next ({ s with ctl := s.ctl.erase x }.tearDown x.2)

/-- TEARDOWN_RECORD: 1,000,000 tide units after the first copy the teardown is recorded, with the lowest TIDE, then the lowest CODE: the
dead node or 0x1000, and the TIDE (R438, 16_host_network_management.md R484). One from before a load that has begun since goes first. -/
def execTeardownRecord (part : Nat) (s : State) : Host.Outcome State Fault Refusal :=
  let due (t : TornPart) : Bool := !t.told && decide (t.first + 1_000_000 ≤ s.tideOf 12)
  match Tbl.get none s.tornOld part with
  | some t => .next (if due t then { s with tornOld := Tbl.set none s.tornOld part none }.report t.code 16 part [t.node, t.tide] else s)
  | none => match Tbl.get none s.torn part with
    | some t => .next (if due t then
        { s with torn := Tbl.set none s.torn part (some { t with told := true }) }.report t.code 16 part [t.node, t.tide] else s)
    | none => .next s

/-- ABORT: the first ABORT cell that has come in is flooded, unless its CID and TIDE have been, and goes to the COLL block of every
compute die of the partition (R361, R362). -/
def execAbort (s : State) : Host.Outcome State Fault Refusal :=
  match s.ctl.find? fun x => x.2.kind == 0xD && bits x.2.g0 7 0 == 2 with
  | none => .next s
  | some x =>
    let s1 := { s with ctl := s.ctl.erase x }
    let c := x.2
    let cid := bits c.g1 31 0
    let tide := bits c.g0 127 64
    .next (if s1.abortsFlooded.contains (cid, tide) then s1
      else
        let s2 := { s1 with abortsFlooded := s1.abortsFlooded ++ [(cid, tide)] }.flood c
        (s2.partDies c.part).foldl (fun t d => t.collAbort d cid (bits c.g0 23 8) tide c.part) s2)

/-- What a module does with a teardown that one of its own units asks for (R431, R434, R436): a harbourmaster declares it; another asks its
harbourmaster by an order; with none known it waits. Part 31 stands for every partition of the module. -/
def State.carryAsk (s : State) (ask : Nat × Nat) : State :=
  if s.fld a_MGMT_ROLE f_MGMT_ROLE_ROLE = 1 then
    (if ask.1 = 31 then s.modulePartitions else [ask.1]).foldl (fun t p => t.declareTear p ask.2 none) s
  else match s.master with
    | some n => s.sendMgr n 0x11 (bytesLE 32 (3 + ask.2 * 2 ^ 16))
    | none => { s with teardownAsks := s.teardownAsks ++ [ask] }

/-- Every teardown asked for carried on. -/
def State.carryAsks (s : State) : State := s.teardownAsks.foldl (fun t a => t.carryAsk a) { s with teardownAsks := [] }

end Sys2Proof.Machine
end

