-- ==== Sys2Proof/Machine/Manager.lean ====
section
/-! DEFINITION. The manager control channel and the roles of the board (16_host_network_management.md R496 to R498,
14_faults_checkpoint_recovery.md R433 to R436, R442 to R446, R451, 18_start_up.md R537). -/

namespace Sys2Proof.Machine
open Sys2Proof

/-! ### Messages -/

/-- Fields of granule 0 of a manager cell (R496). -/
def mcKind (c : Cell) : Nat := bits c.g0 7 0
def mcIndex (c : Cell) : Nat := bits c.g0 15 8
def mcCount (c : Cell) : Nat := bits c.g0 23 16 + 1
def mcNode (c : Cell) : Nat := bits c.g0 35 24
def mcMsg (c : Cell) : Nat := bits c.g0 95 64
def mcEpoch (c : Cell) : Nat := bits c.g0 127 96

/-- The cells of the message that a first cell begins, if all have come in, by index. -/
def gatherCells (l : List (Nat × Cell)) (c : Cell) : Option (List (Nat × Cell)) :=
  let of (i : Nat) : Option (Nat × Cell) := l.find? fun x =>
    x.2.kind == 0xE && mcKind x.2 == mcKind c && mcNode x.2 == mcNode c && mcMsg x.2 == mcMsg c && mcIndex x.2 == i
  let got := (List.range (mcCount c)).filterMap of
  if got.length = mcCount c && decide (mcCount c ≤ 16) then some got else none

/-- The bytes of a message, as one number (R496). -/
def messageBody (l : List (Nat × Cell)) : Nat := l.foldr (fun x n => x.2.g1 + x.2.g2 * 2 ^ 128 + n * 2 ^ 256) 0

/-- The highest epoch that a module has seen, after one more (R433). -/
def State.sawEpoch (s : State) (e : Nat) : State :=
  s.setFld a_MGMT_ROLE f_MGMT_ROLE_EPOCH (max e (s.fld a_MGMT_ROLE f_MGMT_ROLE_EPOCH))

/-- The first whole message of a kind that `ok` takes by its bytes, and the state without its cells. -/
def State.takeMsg (s : State) (kind : Nat) (ok : Nat → Bool) : Option (MgrIn × State) :=
  s.ctl.findSome? fun x =>
    let c := x.2
    if c.kind = 0xE && mcKind c == kind && mcIndex c == 0 then
      match gatherCells s.ctl c with
      | some l =>
        if ok (messageBody l) then
          some (⟨mcNode c, mcMsg c, mcEpoch c, messageBody l, false⟩, { s with ctl := s.ctl.filter fun y => !l.contains y })
        else none
      | none => none
    else none

/-- Whether an ORDER or RECORD is acted on: it is acknowledged, and acted on once for its sender and MSGID (R497). -/
def State.once (s : State) (m : MgrIn) : State × Bool :=
  if m.tcp then (s, true)
  else
    let s1 := s.sendMgr m.src 0x14 (bytesLE 4 m.msgid)
    let seen := Tbl.get [] s1.mgr.acted m.src
    if seen.contains m.msgid then (s1, false)
    else ({ s1 with mgr := { s1.mgr with acted := Tbl.set [] s1.mgr.acted m.src ((m.msgid :: seen).take 256) } }, true)

/-- The answer to an order: over the fabric, or over the TCP connection it came by. -/
def State.answerOrder (s : State) (m : MgrIn) (code : Nat) (data : List Byte) : State :=
  if m.tcp then s.send .eth 7411 ([code, data.length] ++ data.map BitVec.toNat) else s.reply m.src m.msgid code data

/-! ### Register reads -/

/-- The interface of a reader (R15). -/
def RegReader.source : RegReader → Source
  | .pcie _ => .pcie
  | .half src _ => src
  | .jtag => .jtag
  | .mctp _ => .mctp
  | .order m => .manager m.src m.epoch

/-- The answer to a read by an interface; `tag` names a PCIe request. -/
def State.readAnswer (s : State) (src : Source) (tag : Nat) (data : List Nat) : State :=
  match src with
  | .pcie => s.send .hostCompletion tag data
  | .jtag => s.send .jtag tag data
  | .mctp => s.send .mctp tag data
  | _ => s.send .manager tag data

/-- The value that a read returns, to the one who asked. -/
def State.regAnswer (s : State) (r : RegReader) (v : Nat) : State :=
  match r with
  | .pcie tag => s.send .hostCompletion tag [0, v]
  | .half src tag => s.readAnswer src tag [0, v]
  | .jtag => s.send .jtag 0 [v]
  | .mctp tag => s.send .mctp tag [0, v]
  | .order m => s.answerOrder m 0 (bytesLE 8 v)

/-- The answer to a read of a die that does not answer (R543). -/
def State.regGone (s : State) (r : RegReader) (a : Nat) : State :=
  let host (tag : Nat) : State := s.hostCa tag (a - 0xF0_0000_0000)
  match r with
  | .pcie tag => host tag
  | .half .pcie tag => host tag
  | .half .jtag tag => s.readAnswer .jtag tag [0, 2 ^ 32 - 1]
  | .half src tag => s.readAnswer src tag [Code.DIE_UNAVAILABLE]
  | .jtag => s.send .jtag 0 [2 ^ 64 - 1]
  | .mctp tag => s.send .mctp tag [Code.DIE_UNAVAILABLE]
  | .order m => s.answerOrder m Code.DIE_UNAVAILABLE []

/-- A read of a register ended with an error completion. -/
def State.readFailed (s : State) (r : RegReader) (code : Nat) : State :=
  match r with
  | .pcie tag => s.send .hostCompletion tag [code, 0]
  | .half .pcie tag => s.send .hostCompletion tag [code, 0]
  | .half src tag => s.readAnswer src tag [code]
  | .jtag => s.send .jtag 0 [2 ^ 64 - 1]
  | .mctp tag => s.send .mctp tag [code]
  | .order m => s.answerOrder m code []

/-- A naturally aligned read of a register, of 8 bytes or of half (R15): its flits, its value, its answer. -/
def State.regRead (s : State) (x : RegRead) : State :=
  if !s.dieUp (regDie x.addr) then s.regGone x.reader x.addr
  else
    let t := (s.regFlits x.reader.source x.addr 0 x.len).touch (x.addr - x.addr % 8)
    if x.len = 8 then t.regAnswer x.reader (t.readReg x.addr).toNat
    else
      let q := t.readHalf (Source.iface x.reader.source) x.addr
      q.2.regAnswer x.reader q.1

/-- A register read as it comes in: it waits while its way is not up, or an earlier one to its die waits (R235, R239). -/
def State.askReg (s : State) (x : RegRead) : State :=
  if s.wayOpen x.reader.source x.addr && !(s.regReads.any fun y => regDie y.addr == regDie x.addr) then s.regRead x
  else { s with regReads := s.regReads ++ [x] }

/-- The register reads that waited, tried again. -/
def State.retryReads (s : State) : State := s.regReads.foldl (fun t x => t.askReg x) { s with regReads := [] }

/-- An order's sender as the interface of what it writes (R391, R505). -/
def MgrIn.source (m : MgrIn) : Source := .manager m.src m.epoch

/-- Whether a row takes an order in. -/
def takesOrder : Instr → Bool
  | .orderWrite _ => true
  | .orderRead _ => true
  | .orderTeardownReq _ _ => true
  | .orderMemread _ => true
  | .orderPreempt _ _ => true
  | .orderPause _ => true
  | .orderHandover _ => true
  | _ => false

/-- The orders of this tick that another meets (R391): those gathered or accepted, and with a row to take them in still waiting, those that
have come in. -/
def State.ordersMet (s : State) : List Source :=
  s.orderSources ++ if s.pending.any takesOrder then
    (s.ctl.filter fun x => x.2.kind == 0xE && mcKind x.2 == 0x11).map fun x => .manager (mcNode x.2) (mcEpoch x.2) else []

/-- An order that acts when it comes in: settled and accepted by R391, or journaled and answered with the reason it has no effect. A register
write is settled where the journal applies it. -/
def State.settleOrder (s : State) (m : MgrIn) (addr : Nat) (f : State → State) : State :=
  let code := s.orderCode m.source s.ordersMet
  if code = 0 then f (s.orderTaken m.source)
  else (s.journal1 m.source addr code 0 0).answerOrder m code []

/-- An ORDER of a kind as it comes in (R498): from the fabric, or over TCP at a harbourmaster, which carries it out as one of its own
(R497). One of an undefined kind is answered with BAD_DESCRIPTOR; a stale one with STALE_MANAGER and journaled (R391), with
the register that a WRITE or READ names. -/
def State.order (s : State) (okind : Nat) (tcp : Option (List Byte)) (f : State → MgrIn → State) : State :=
  let kindOf (b : Nat) : Nat := bits b 7 0
  let good (b : Nat) : Bool := decide (1 ≤ kindOf b) && decide (kindOf b ≤ 7)
  let run (t : State) (m : MgrIn) : State :=
    let q := t.once m
    if !q.2 then q.1
    else if !good m.body || bits m.body 15 8 != 0 then q.1.answerOrder m Code.BAD_DESCRIPTOR []
    else
      let a := if okind ≤ 2 then bits m.body 111 64 else 0
      if m.epoch < q.1.fld (a_TIDE_MGR 12) f_TIDE_MGR_EPOCH then
        (q.1.answerOrder m Code.STALE_MANAGER []).journal1 m.source a Code.STALE_MANAGER (if okind = 1 then q.1.readReg a else 0)
          (if okind = 1 then BitVec.ofNat 64 (bits m.body 191 128) else 0)
      else if okind = 1 then f q.1 m
      else q.1.settleOrder m a fun t => f t m
  match tcp with
  | some bs =>
    if s.fld a_MGMT_ROLE f_MGMT_ROLE_ROLE = 1 && (kindOf (natLE bs) == okind || !good (natLE bs)) then
      run s ⟨s.nodeId, 0, s.myEpoch, natLE bs, true⟩
    else s
  | none => match s.takeMsg 0x11 fun b => kindOf b == okind || !good b with
    | some q => run (q.2.sawEpoch q.1.epoch) q.1
    | none => s

/-- ORDER_WRITE: a register write with the interface manager control channel, on its way to the journal (R389, R498). -/
def execOrderWrite (tcp : Option (List Byte)) (s : State) : Host.Outcome State Fault Refusal :=
  .next (s.order 1 tcp fun t m =>
    t.gather ⟨m.source, bits m.body 111 64, true, true, BitVec.ofNat 64 (bits m.body 191 128)⟩)

/-- ORDER_READ: a REPLY with the register's value, or with DIE_UNAVAILABLE; at a misaligned address all ones, journaled with BAD_REG_ACCESS (R15,
R498, R543). -/
def execOrderRead (tcp : Option (List Byte)) (s : State) : Host.Outcome State Fault Refusal :=
  .next (s.order 2 tcp fun t m =>
    let a := bits m.body 111 64
    if inRegs a && !t.dieUp (regDie a) then t.answerOrder m Code.DIE_UNAVAILABLE []
    else if a % 8 ≠ 0 then (t.gather ⟨m.source, a, false, false, 0⟩).answerOrder m 0 (bytesLE 8 (2 ^ 64 - 1))
    else if !inRegs a then t.answerOrder m 0 (bytesLE 8 (t.readReg a).toNat)
    else t.askReg ⟨.order m, a, 8⟩)

/-- The partitions of a mask. -/
def maskParts (m : Nat) : List Nat := (List.range 24).filter fun p => bit m p

/-- ORDER_TEARDOWN_REQ: a harbourmaster declares the teardown that a worker asks for, of the partitions `parts` of the jobs that include
it, as their descriptions give them; an unlisted code becomes TEARDOWN_REQUESTED (R434, R436). -/
def execOrderTeardownReq (tcp : Option (List Byte)) (parts : Nat) (s : State) : Host.Outcome State Fault Refusal :=
  .next (s.order 3 tcp fun t m =>
    let code := bits m.body 31 16
    let node := if bit m.body 76 then some (bits m.body 75 64) else none
    if t.fld a_MGMT_ROLE f_MGMT_ROLE_ROLE ≠ 1 then t
    else (maskParts parts).foldl (fun u p => u.declareTear p (if Code.listed code then code else Code.TEARDOWN_REQUESTED) node) t)

/-- ORDER_MEMREAD: bytes of memory, read at their home; 16 to 480 of them (R498). -/
def execOrderMemread (tcp : Option (List Byte)) (s : State) : Host.Outcome State Fault Refusal :=
  .next (s.order 4 tcp fun t m =>
    let a := bits m.body 111 64
    let n := bits m.body 127 112
    if n < 16 || decide (480 < n) then t.answerOrder m Code.BAD_DESCRIPTOR []
    else if !(inHbm a n || (isGalley a && inGalley (galleyDie a) a n)) then t.answerOrder m Code.BAD_ADDRESS []
    else if !t.dieUp (addrDie a) then t.answerOrder m Code.DIE_UNAVAILABLE []
    else t.quayPush (addrDie a) ⟨12, 31, .mgmt (if m.tcp then .eth else .manager) (if m.tcp then 7411 else m.src) m.msgid, a, n, none⟩)

/-! ### Pre-emption and checkpoints -/

/-- The mark for a checkpoint of a partition (R443): 100,000 tide units after its first commit mark after the notice, once a COMMIT gives
one. -/
def State.checkpointMark (s : State) (die part notice : Nat) : Option Nat :=
  (((s.slots die).filter fun x => enKind x.2.entry == 5 && enPart x.2.entry == part && decide (notice ≤ x.2.due)).map fun x =>
    x.2.due + 100_000).min?

/-- The MARK entry of a pre-emption at a member (R443). -/
def preemptEntry (part die cores mark : Nat) : Nat :=
  cores % 2 ^ 13 + 0xC0C0 * 2 ^ 96 + part * 2 ^ 115 + 0xF * 2 ^ 120 + die * 2 ^ 124 + 1 * 2 ^ 128 + mark % 2 ^ 64 * 2 ^ 192

/-- An ORDER WRITE sent to a node (R498). -/
def State.orderWrite (s : State) (node addr value : Nat) : State :=
  s.sendMgr node 0x11 (bytesLE 32 (1 + addr * 2 ^ 64 + value % 2 ^ 64 * 2 ^ 128))

/-- The MARK entries of a pre-emption placed at its mark: the leader's own, and every other member's by an order (R443). -/
def State.placeMarks (s : State) (j : JobMark) (mark : Nat) : State :=
  let s1 := match s.acceptEntry (preemptEntry j.part j.die j.cores mark) ⟨1, j.die, 0xF⟩ with
    | .ok t => t
    | .error _ => s.schedRefused j.die 1
  j.members.foldl (fun t m => (List.range 4).foldl (fun u w =>
    u.orderWrite m.node (a_TIDE_PUT m.die w) (preemptEntry j.part m.die m.cores mark / 2 ^ (64 * w))) t) s1

/-- Whether a pre-emption's MARK entries are still to be placed, and its mark is known. -/
def State.markOf (s : State) (p : Preempt) : Option Nat :=
  if p.marked || p.past then none else s.checkpointMark p.job.die p.job.part p.notice

/-- Pre-emptions whose commit mark was not known at the notice: their MARK entries placed once it is (R443). -/
def State.markPreempts (s : State) : State :=
  s.preempts.foldl (fun t p => match s.markOf p with
    | some mark => t.placeMarks p.job mark
    | none => t) { s with preempts := s.preempts.map fun (p : Preempt) => { p with marked := p.marked || (s.markOf p).isSome } }

/-- A job's leader taking a pre-emption notice (R443): PREEMPT_NOTICE, and the MARK entry at every member, at once or when its mark is
known. -/
def State.preemptJob (s : State) (deadline : Nat) (j : JobMark) : State :=
  ({ s with preempts := s.preempts ++ [Preempt.mk j deadline (s.tideOf j.die) false false false false] }.report Code.PREEMPT_NOTICE 16 j.part []).markPreempts

/-- ORDER_PREEMPT: the leader of the jobs given begins their pre-emption (R443, R487). -/
def execOrderPreempt (tcp : Option (List Byte)) (jobs : List JobMark) (s : State) : Host.Outcome State Fault Refusal :=
  .next (s.order 5 tcp fun t m => jobs.foldl (fun u j => u.preemptJob (bits m.body 127 64) j) t)

/-- PREEMPT_DEADLINE: at Dp the leader declares the teardown with PREEMPTED; a checkpoint that is not complete is CHECKPOINT_LATE (R443,
R446). -/
def execPreemptDeadline (s : State) : Host.Outcome State Fault Refusal :=
  match s.preempts.find? fun p => !p.past && decide (p.deadline ≤ s.tideOf 12) with
  | none => .next s
  | some p =>
    let s1 := { s with preempts := s.preempts.map fun q => if q = p then { p with past := true, late := p.late || !p.saved } else q }
    let s2 := if p.saved || p.late then s1 else s1.report Code.CHECKPOINT_LATE 16 p.job.part []
    .next (if s2.fld a_MGMT_ROLE f_MGMT_ROLE_ROLE = 1 then s2.declareTear p.job.part Code.PREEMPTED none
      else s2.askTeardown p.job.part Code.PREEMPTED)

/-- The checkpoint manifest (R446) without its MCRC. -/
def manifest (job step shards tsum tide : Nat) : List Byte :=
  [0x43, 0x4B, 0x4D, 0x46] ++ bytesLE 2 0x0100 ++ bytesLE 2 0 ++ bytesLE 8 job ++ bytesLE 8 step ++ bytesLE 4 shards ++ bytesLE 4 0
    ++ bytesLE 8 (tsum % 2 ^ 64) ++ bytesLE 8 tide ++ List.replicate 12 0

/-- What becomes of the checkpoints of a partition's pre-emptions. -/
def State.endCheckpoints (s : State) (part : Nat) (f : Preempt → Preempt) : State :=
  { s with preempts := s.preempts.map fun p => if p.job.part = part then f p else p }

/-- CHECKPOINT_MANIFEST: every member has reported; with a data object of every shard, whose tallies are given, the leader writes the
manifest at `addr` and CHECKPOINT_DONE; a shard with no majority ends the checkpoint with CHECKPOINT_LATE. One that has ended late is never
completed (R445, R446). -/
def execCheckpointManifest (part job step addr : Nat) (tallies : List (Option Nat)) (s : State) : Host.Outcome State Fault Refusal :=
  if s.preempts.any fun p => p.job.part == part && p.late then .next s
  else if tallies.any Option.isNone then
    .next ((s.endCheckpoints part fun p => { p with late := !p.saved }).report Code.CHECKPOINT_LATE 16 part [])
  else
    let m := manifest job step tallies.length (tallies.filterMap id).sum (s.tideOf 12)
    let s1 := s.send .hostWrite addr ((m ++ bytesLE 4 (crc32c m)).map BitVec.toNat)
    .next ((s1.endCheckpoints part fun p => { p with saved := true }).report Code.CHECKPOINT_DONE 16 part [step])

/-! ### Restart -/

/-- What `decide` of R442 sees of a member's step record (R440). -/
structure StepRec where
  cstep : Nat
  ready : Bool
  pstep : Nat
  gvalid : Bool
  gstep : Nat
  shard : Nat
deriving DecidableEq, Repr

/-- A step record of 128 bytes read (R440): the highest committed step among its four commit words, PREPARE, GSTATE and SHARD. -/
def stepRec (bs : List Byte) : StepRec :=
  let w (o : Nat) : Nat := natLE ((bs.drop o).take 8)
  ⟨((List.range 4).filterMap fun i => if bit (w (16 * i)) 63 then some (w (16 * i) % 2 ^ 63) else none).max?.getD 0,
    bit (w 0x40) 63, w 0x40 % 2 ^ 63, bit (w 0x48) 63, w 0x48 % 2 ^ 63, w 0x60 % 2 ^ 32⟩

/-- Whether a member's state is step `n` at least (cstep + 1 ≥ s in R442). -/
def StepRec.has (r : StepRec) (s : Nat) : Bool := decide (s ≤ r.cstep + 1)

/-- Some member of a shard has step s as its state, committed or prepared. -/
def holdsStep (rs : List StepRec) (h s : Nat) : Bool := rs.any fun r => r.shard == h && (r.cstep == s || (r.ready && r.pstep == s))
/-- Some member of a shard keeps the verified slices of step s. -/
def holdsSlices (rs : List StepRec) (h s : Nat) : Bool := rs.any fun r => r.shard == h && r.has s && r.gvalid && r.gstep == s
/-- Some member of a shard has step s − 1. -/
def holdsBefore (rs : List StepRec) (h s : Nat) : Bool := rs.any fun r => r.shard == h && r.has s

/-- The decision of R442. -/
def decideStep (rs : List StepRec) (shards s : Nat) : Nat :=
  let all (f : Nat → Bool) : Bool := (List.range shards).all f
  if all fun h => holdsStep rs h s then Code.ROLL_FORWARD
  else if all fun h => holdsStep rs h s || holdsSlices rs h s then Code.RECOVERY_REPLAY
  else if all fun h => holdsBefore rs h s then Code.STEP_REPLAY
  else Code.ROLLBACK

/-- The highest step that a survivor has committed, or prepared with READY (R442). -/
def lastHeld (rs : List StepRec) : Nat :=
  rs.foldl (fun m r => max m (max r.cstep (if r.ready then r.pstep else 0))) 0

/-- RESTART_DECIDE: the leader decides from the step records of the surviving members of a job with `shards` shards, and records the
decision with s (R442). -/
def execRestartDecide (part : Nat) (records : List (List Byte)) (shards : Nat) (s : State) : Host.Outcome State Fault Refusal :=
  let rs := records.map stepRec
  let n := lastHeld rs
  .next (s.report (decideStep rs shards n) 16 part [n])

/-! ### Roles -/

/-- MGMT_ROLE.ROLE set: 0 worker, 1 harbourmaster, 2 standby, 3 candidate. A harbourmaster that ceases to be one follows PTP no more, and its
PTPOFF is 0 (12_the_tide.md R379, R392). -/
def State.setRole (s : State) (r : Nat) : State :=
  let s1 := s.setFld a_MGMT_ROLE f_MGMT_ROLE_ROLE r
  if r = 1 then s1
  else { s1.setFld (a_TIDE_DELAY 12) f_TIDE_DELAY_PTPOFF 0 with ptp := { s1.ptp with locked := false, good := 0, bad := 0 } }

/-- The standby that a module knows (R551); none clears the field. -/
def State.setSb (s : State) (n : Option Nat) : State :=
  s.setFlds a_MGMT_ROLE [(f_MGMT_ROLE_SBV, b2n n.isSome), (f_MGMT_ROLE_SBNODE, n.getD 0)]

/-- The harbourmaster that a module knows (R551). A standby that takes the role is the standby no more, so that the candidates elect another
(R435). -/
def State.setHm (s : State) (n : Nat) (epoch : Nat) : State :=
  let s1 := { s.setFlds a_MGMT_ROLE [(f_MGMT_ROLE_HMV, 1), (f_MGMT_ROLE_HMNODE, n)] with mgr := { s.mgr with hmEpoch := epoch } }
  if s.fld a_MGMT_ROLE f_MGMT_ROLE_SBV = 1 && s.fld a_MGMT_ROLE f_MGMT_ROLE_SBNODE == n then s1.setSb none else s1

def State.role (s : State) : Nat := s.fld a_MGMT_ROLE f_MGMT_ROLE_ROLE
def State.hmKnown (s : State) : Bool := s.fld a_MGMT_ROLE f_MGMT_ROLE_HMV == 1
def State.sbKnown (s : State) : Bool := s.fld a_MGMT_ROLE f_MGMT_ROLE_SBV == 1
def State.boardSlot (s : State) : Nat := s.fld a_MGMT_STRAP f_MGMT_STRAP_SLOT
def State.strapRole (s : State) : Nat := s.fld a_MGMT_STRAP f_MGMT_STRAP_ROLE

/-- The other modules of the board that a route leads to (R310, R537). -/
def State.boardNodes (s : State) : List Nat :=
  (upFrom (s.nodeId / 16 * 16) 16).filter fun n => n != s.nodeId && s.fld (a_RTR_ROUTE 12 n) f_RTR_ROUTE_MASK != 0

/-- A heartbeat to one module (R496). -/
def State.heartbeat (s : State) (n : Nat) : State :=
  let now := s.tideOf 12
  let left := s.mgr.pause - now
  s.sendMgr n 0x10 (bytesLE 32 (s.role + s.boardSlot * 2 ^ 2 + b2n (left != 0) * 2 ^ 6
    + s.fld a_MGMT_ROLE f_MGMT_ROLE_EPOCH * 2 ^ 32 + min 10_000 ((left + 999_999) / 1_000_000) * 2 ^ 64))

/-- Heartbeats as the role has them sent (R434, R537): a harbourmaster, and a module that knows none, to the board; a standby to the board
too, whose candidates hear its claim and its loss so (R433, R435, log entry 17); another to its harbourmaster. -/
def State.beatAll (s : State) : State :=
  let board := s.boardNodes
  let targets := match s.master with
    | some n => if s.role = 1 then board else if s.role = 2 then (if board.contains n then board else n :: board) else [n]
    | none => board
  targets.foldl (fun t m => t.heartbeat m) s

/-- Start-up step 8 ending (R532, R537); with step 6 done the module is READY. -/
def State.settle (s : State) : State :=
  let s1 := { s with mgr := { s.mgr with settled := true } }
  let step := s1.fld a_MGMT_BOOT f_MGMT_BOOT_STEP
  if s1.boot.hbmDone && (step == 8 || step == 9) then s1.toStep 0x0A else s1

/-- A claim of the harbourmaster role with an epoch (R433). -/
def State.claim (s : State) (epoch : Nat) : State :=
  let s1 := ((s.sawEpoch epoch).setRole 1).setHm s.nodeId epoch
  { s1 with mgr := { s1.mgr with own := epoch } }.beatAll.settle

/-- HEARTBEAT_SEND: every 100,000 tide units (R434). The first one opens the heartbeat window at W, where start-up step 7 has ended, and a
strapped standby takes its role (R537). -/
def execHeartbeatSend (s : State) : Host.Outcome State Fault Refusal :=
  let now := s.tideOf 12
  .next (if s.mgr.window.isNone && s.fld a_MGMT_BOOT f_MGMT_BOOT_STEP != 7 then s
    else if (match s.mgr.beat with
      | some t => decide (now < t + 100_000)
      | none => false) then s
    else
      let s1 := match s.mgr.window with
        | some _ => s
        | none =>
          let t := { s.toStep 8 with mgr := { s.mgr with window := some now } }
          match t.strapRole with
          | 1 => ((t.setRole 2).setSb (some t.nodeId)).settle
          | 3 => t.setRole 0
          | _ => t
      { s1 with mgr := { s1.mgr with beat := some now } }.beatAll)

/-- A claim heard (R433): one above every epoch seen replaces the harbourmaster known; of two of equal epoch the lower node id stands, and
the other module yields with a MANAGER_CONFLICT. -/
def State.heardClaim (s : State) (seen src epoch : Nat) : State :=
  if s.role = 1 then
    if seen < epoch then (s.setRole 3).setHm src epoch
    else if epoch = s.mgr.own && src < s.nodeId then ((s.setRole 3).setHm src epoch).report Code.MANAGER_CONFLICT 16 31 []
    else s
  else if !s.hmKnown || decide (seen < epoch) then s.setHm src epoch
  else if epoch = s.mgr.hmEpoch && src < s.fld a_MGMT_ROLE f_MGMT_ROLE_HMNODE then s.setHm src epoch
  else s

/-- HEARTBEAT: a heartbeat updates what is known of its sender, and settles claims (R433, R434, R496). -/
def execHeartbeat (s : State) : Host.Outcome State Fault Refusal :=
  match s.takeMsg 0x10 fun _ => true with
  | none => .next s
  | some (m, s0) =>
    let now := s0.tideOf 12
    let role := bits m.body 1 0
    let seen := s0.fld a_MGMT_ROLE f_MGMT_ROLE_EPOCH
    let s1 := s0.sawEpoch (max m.epoch (bits m.body 63 32))
    let old := Tbl.get none s1.mgr.peers m.src
    let pause := if bit m.body 6 then now + min 10_000 (bits m.body 95 64) * 1_000_000 else (match old with
      | some p => p.pause
      | none => 0)
    let s2 := { s1 with mgr := { s1.mgr with peers := Tbl.set none s1.mgr.peers m.src (some ⟨role, bits m.body 5 2, now, pause⟩) } }
    .next (if role = 1 then s2.heardClaim seen m.src m.epoch
      else if role = 2 && !s2.sbKnown then s2.setSb (some m.src)
      else s2)

/-- HARBOURMASTER_CLAIM: a strapped harbourmaster claims at W + 200 µs, unless it has heard one, and then acts as a candidate (R433,
R537). -/
def execHarbourmasterClaim (s : State) : Host.Outcome State Fault Refusal :=
  .next (match s.mgr.window with
    | none => s
    | some w =>
      if s.strapRole ≠ 0 || s.mgr.settled || decide (s.tideOf 12 < w + 200_000) || s.role == 1 then s
      else if s.hmKnown then s.setRole 3
      else s.claim (s.fld a_MGMT_ROLE f_MGMT_ROLE_EPOCH + 1))

/-- CANDIDATE_CLAIM: from W + 2 ms + 200 µs × slot a candidate claims the role where none is known, or becomes the standby where no
standby is (R433, R537). -/
def execCandidateClaim (s : State) : Host.Outcome State Fault Refusal :=
  .next (match s.mgr.window with
    | none => s
    | some w =>
      if s.role ≠ 3 || decide (s.tideOf 12 < w + 2_000_000 + 200_000 * s.boardSlot) || (s.strapRole == 0 && !s.hmKnown) then s
      else if !s.hmKnown then s.claim (s.fld a_MGMT_ROLE f_MGMT_ROLE_EPOCH + 1)
      else if !s.sbKnown then ((s.setRole 2).setSb (some s.nodeId)).beatAll.settle
      else s)

/-- HEARTBEAT_WINDOW_END: at W + 5.2 ms step 8 ends without a role (R537). -/
def execHeartbeatWindowEnd (s : State) : Host.Outcome State Fault Refusal :=
  .next (match s.mgr.window with
    | none => s
    | some w => if s.mgr.settled || decide (s.tideOf 12 < w + 5_200_000) then s else s.settle)

/-- A peer that is forgotten. -/
def State.dropPeer (s : State) (n : Nat) : State := { s with mgr := { s.mgr with peers := Tbl.set none s.mgr.peers n none } }

/-- MODULE_LOST: five intervals without a heartbeat, pauses apart, lose a module (R435). A harbourmaster declares a teardown of the partitions
`parts` of the jobs that include it; the standby of a lost harbourmaster first takes the role. -/
def execModuleLost (node parts : Nat) (s : State) : Host.Outcome State Fault Refusal :=
  .next (match Tbl.get none s.mgr.peers node with
    | none => s
    | some p =>
      let hm := s.hmKnown && s.fld a_MGMT_ROLE f_MGMT_ROLE_HMNODE == node
      if s.tideOf 12 < max p.last p.pause + 500_000 then s
      else
        let s1 := s.dropPeer node
        let s2 := if s1.sbKnown && s1.fld a_MGMT_ROLE f_MGMT_ROLE_SBNODE == node then s1.setSb none else s1
        let tear (t : State) : State := (maskParts parts).foldl (fun u q => u.declareTear q Code.MODULE_LOST (some node)) t
        if s2.role = 1 then tear s2
        else if s2.role = 2 && hm then tear ((s2.claim (s2.mgr.hmEpoch + 1)).report Code.MANAGER_TAKEOVER 16 31 [])
        else s2)

/-- MAILBOX_POLL: the teardown requests that pilots of imposed partitions have left in their mailboxes (R434). -/
def execMailboxPoll (s : State) : Host.Outcome State Fault Refusal :=
  .next ((List.range 156).foldl (fun t c =>
    let w := (t.reg (a_PILOT_MAILBOX (coreDie c) (coreNo c))).toNat
    let p := t.partOf c
    let code := bits w 15 0
    if bits w 63 48 = 0x7D0A && decide (p < 24) && t.pstate p == 2 && t.dieUp (coreDie c) then
      t.askTeardown p (if t.role = 1 && !Code.listed code then Code.TEARDOWN_REQUESTED else code)
    else t) s)

/-- ORDER_PAUSE: the sender's losses are not counted for the length it names (R451). -/
def execOrderPause (tcp : Option (List Byte)) (s : State) : Host.Outcome State Fault Refusal :=
  .next (s.order 6 tcp fun t m =>
    match Tbl.get none t.mgr.peers m.src with
    | none => t
    | some p =>
      let p' := { p with pause := t.tideOf 12 + min 10_000 (bits m.body 95 64) * 1_000_000 }
      { t with mgr := { t.mgr with peers := Tbl.set none t.mgr.peers m.src (some p') } })

/-- ORDER_HANDOVER: the standby takes the harbourmaster's role with the sender's epoch + 1 (R451, R498). -/
def execOrderHandover (tcp : Option (List Byte)) (s : State) : Host.Outcome State Fault Refusal :=
  .next (s.order 7 tcp fun t m => if t.role = 2 then t.claim (m.epoch + 1) else t)

/-! ### Other messages -/

/-- MGMT_REPLY: the answer to an order is kept (R496). -/
def execMgmtReply (s : State) : Host.Outcome State Fault Refusal :=
  match s.takeMsg 0x12 fun _ => true with
  | none => .next s
  | some (m, s1) =>
    let t := s1.sawEpoch m.epoch
    .next { t with mgr := { t.mgr with
      replies := t.mgr.replies ++ [(m.src, bits m.body 63 32, bits m.body 15 0, bytesLE (bits m.body 31 16) (m.body / 2 ^ 64))] } }

/-- MGMT_RECORD: a status record of another module; on a code of R436 the harbourmaster declares a teardown of its partition, or, for one of
module scope, of the partitions `parts` of the jobs that include the module (R436, R496). -/
def execMgmtRecord (parts : Nat) (s : State) : Host.Outcome State Fault Refusal :=
  match s.takeMsg 0x13 fun _ => true with
  | none => .next s
  | some (m, s0) =>
    let q := (s0.sawEpoch m.epoch).once m
    let code := bits m.body 143 128
    let part := bits m.body 172 168
    let t := if q.2 then q.1.countRehearsed code part (bits m.body 383 320) else q.1
    .next (if q.2 && t.role == 1 && teardownCodes.contains code then
        if part < 24 then t.declareTear part code none else (maskParts parts).foldl (fun t p => t.declareTear p code none) t
      else t)

/-- MGMT_ACK: the message acknowledged is sent no more (R497). -/
def execMgmtAck (s : State) : Host.Outcome State Fault Refusal :=
  match s.takeMsg 0x14 fun _ => true with
  | none => .next s
  | some (m, s1) =>
    let t := s1.sawEpoch m.epoch
    .next { t with mgr := { t.mgr with
      out := t.mgr.out.filter fun x => !(x.dest == m.src && x.msgid == bits m.body 31 0) } }

/-- MGMT_RETRANSMIT: a message without an ACK for 100 µs is sent again, up to 8 times in all, and then dropped (R497). -/
def execMgmtRetransmit (s : State) : Host.Outcome State Fault Refusal :=
  let now := s.tideOf 12
  match s.mgr.out.find? fun x => decide (x.sent + 100_000 ≤ now) with
  | none => .next s
  | some x =>
    .next (if 8 ≤ x.tries then { s with mgr := { s.mgr with out := s.mgr.out.erase x } }
      else
        let y := { x with tries := x.tries + 1, sent := now }
        { s with mgr := { s.mgr with out := s.mgr.out.map fun z => if z = x then y else z } }.sendMsg y)

/-- What the command of the same row does. -/
def State.doFiRetire (t : State) (die core : Nat) : State :=
  if 12 ≤ die || decide (12 ≤ core) then t else { t with standAsks := t.standAsks ++ [(13 * die + core, true)] }

/-- FI_RETIRE: GO retires a core by a stand-in; CORE 12 to 15 is refused (R430, R452). -/
def execFiRetire (src : Source) (die core : Nat) (s : State) : Host.Outcome State Fault Refusal :=
  .next (if 12 ≤ die then s
    else if 12 ≤ core then s.journal1 src (a_FI_RETIRE die) Code.BAD_REG_ACCESS 0 (BitVec.ofNat 64 (16 + core))
    else s.command src (cmdFiRetire die core) fun t => t.doFiRetire die core)

end Sys2Proof.Machine
end

