-- ==== Sys2Proof/Machine/Host.lean ====
section
/-! DEFINITION. The PCIe endpoint: host accesses, the host-memory window, the status ring, doorbells
(16_host_network_management.md R476 to R487, R510), and register accesses as they arrive (00_scope.md R15, R16). -/

namespace Sys2Proof.Machine
open Sys2Proof

/-! ### Register accesses -/

/-- Whether a register access reaches a die that does not answer (R543). -/
def State.noDie (s : State) (a : Nat) : Bool := inRegs a && !s.dieUp (regDie a)

/-- REGISTER_WRITE: a write arrives from an interface and waits for the end of its tide tick (R15, R16, R389). Over PCIe a write to a die that
does not answer is discarded (R543). A pilot's and the device's own writes come by their own rows. -/
def execRegisterWrite (src : Source) (addr size : Nat) (value : Word) (s : State) : Host.Outcome State Fault Refusal :=
  .next (match src with
    | .pilot _ => s
    | .device => s
    | .pcie => if s.noDie addr then s.hostAbort (addr - 0xF0_0000_0000) else if inRegs addr then s.arrive .pcie addr size value else s
    | _ => s.arrive src addr size value)

/-- REGISTER_HALF_READ: a 32-bit read by an interface (R15); one that is not aligned reads as ones and is journaled as BAD_REG_ACCESS; a die
that does not answer completes as R543 states. -/
def execRegisterHalfRead (src : Source) (addr tag : Nat) (s : State) : Host.Outcome State Fault Refusal :=
  .next (match src with
    | .pilot _ => s
    | .device => s
    | _ =>
      if s.noDie addr then s.regGone (.half src tag) addr
      else if addr % 4 ≠ 0 then (s.gather ⟨src, addr, false, false, 0⟩).readAnswer src tag [0, 2 ^ 32 - 1]
      else s.askReg ⟨.half src tag, addr, 4⟩)

/-- ERROR_LOG_READ: a read of a word of an ERRLOG or LTR_ERRLOG record marks the record as read (R167, R348). -/
def execErrorLogRead (addr : Nat) (s : State) : Host.Outcome State Fault Refusal := .next (s.touch addr)

/-! ### BAR2 and BAR4 -/

/-- The local address that an access through a BAR reaches, if it reaches memory (R477). -/
def barAddr (bar off len : Nat) : Option Nat :=
  if bar = 2 && decide (off + len ≤ 0xC000_0000) then some (0xE0_0000_0000 + off)
  else if bar = 4 && decide (off + len ≤ 0xC0_0000_0000) then some off
  else none

/-- Whether a host access reaches its memory: its die answers, and start-up has made it ready (R478, 18_start_up.md R533). -/
def State.hostReach (s : State) (a : Nat) : Bool :=
  s.dieUp (addrDie a) && (if isGalley a then decide (5 < s.fld a_MGMT_BOOT f_MGMT_BOOT_STEP) else s.boot.hbmDone)

/-- Whether a request is one that PCIe allows: within its largest size and a 4 KiB page (R476). -/
def tlpOk (off len most : Nat) : Bool := decide (len ≤ most) && decide (off % 4096 + len ≤ 4096)

/-- A read of register space by the host (R15, R477, R478): 64 or 32 bits of a register, naturally aligned; one of another width or
alignment reads as ones and is journaled as BAD_REG_ACCESS; a die that does not answer completes as R543 states. -/
def State.hostRegRead (s : State) (off len tag : Nat) : State :=
  let a := 0xF0_0000_0000 + off
  if s.noDie a then s.regGone (.pcie tag) a
  else if (len == 8 && a % 8 == 0) || (len == 4 && a % 4 == 0) then s.askReg ⟨.pcie tag, a, len⟩
  else (s.gather ⟨.pcie, a, false, false, 0⟩).send .hostCompletion tag [0, 2 ^ (8 * len) - 1]

/-- A write of register space by the host (R15, R477, R478), of its bytes as one access. -/
def State.hostRegWrite (s : State) (off : Nat) (data : List Byte) : State :=
  let a := 0xF0_0000_0000 + off
  if s.noDie a then s.hostAbort off else s.arrive .pcie a data.length (BitVec.ofNat 64 (natLE data))

/-- Whether an access lies in BAR0, all of whose 64 GiB reach register space (R477). -/
def inBar0 (bar off len : Nat) : Bool := bar == 0 && decide (0 < len) && decide (off + len ≤ 0x10_0000_0000)

/-- The request of a read of host memory: the core that answers for it, its request id, and the request. -/
def State.hostRequest (s : State) (tag : Nat) : Option (Nat × Nat × Request) :=
  let c := s.actor (tag / 256)
  match s.request c (tag % 256) with
  | some r => if r.host then some (c, tag % 256, r) else none
  | none => none

/-- A read of host memory that ends its descriptor with an error completion. -/
def State.hostReadEnd (s : State) (tag code off : Nat) : State :=
  match s.hostRequest tag with
  | none => s.hostReadGone tag
  | some (c, rid, r) => (s.finish c rid (r.failed code off (targetOf r.desc))).hostReadGone tag

/-- A read of host memory that ends its descriptor with HOST_WINDOW_FAULT (R481). -/
def State.hostReadFail (s : State) (tag off : Nat) : State :=
  ((if (s.hostRequest tag).isSome then s.bump a_PCIE_ERRCNT f_PCIE_ERRCNT_HOSTFAULT else s)).hostReadEnd tag Code.HOST_WINDOW_FAULT off

/-- A Function Level Reset (R479): PCIE_RING_CTL.EN is cleared, transfers in flight through the window end with HOST_WINDOW_FAULT, and
configuration space, of which PCIE_STATUS shows Max_Payload_Size, takes its reset values (R510). -/
def State.functionReset (s : State) : State :=
  let s1 := { (s.setFld a_PCIE_RING_CTL f_PCIE_RING_CTL_EN 0).setFld a_PCIE_STATUS f_PCIE_STATUS_MPS 0 with pcie := PcieFn.init }
  ((s1.hostReads.map fun x => x.tag).eraseDups).foldl (fun t tag => t.hostReadFail tag 0) s1

/-- A word of configuration space (R476): vendor and device id, class code and revision, the BARs, no Interrupt Pin, power management at 0x40,
the PCI Express capability at 0x50 and Advanced Error Reporting at 0x100 (the header's layout PRESUMED, the places of the capabilities a
DESIGN CHOICE: log entry 21). The others are free values. -/
def State.cfgWord (s : State) (i : Nat) : Nat :=
  let p := s.pcie
  if i = 0 then 0x4712_1F6E
  else if i = 1 then p.command + 0x0010_0000
  else if i = 2 then 0x1200_00A1
  else if 4 ≤ i && decide (i ≤ 9) then Tbl.get 0 p.bars (i - 4) + (if i = 4 then 4 else if i = 6 || i == 8 then 0xC else 0)
  else if i = 12 || i == 15 then 0
  else if i = 13 then 0x40
  else if i = 17 then b2n p.d3hot * 3
  else if i = 22 then p.devCtl
  else if i = 65 then p.uncorr
  else if i = 66 then p.uncorrMask
  else if i = 67 then p.uncorrSev
  else if i = 68 then p.corr
  else if i = 69 then p.corrMask
  else Config.pcieWord i

/-- The bits of a BAR's word that hold an address (R477): BAR0 is of 64 GiB, BAR2 of 4 GiB, BAR4 of 1 TiB. -/
def barMask (i : Nat) : Nat :=
  if i = 1 then 0xFFFF_FFF0 else if i = 3 then 0xFFFF_FFFF else if i = 5 then 0xFFFF_FF00 else 0

/-- A word of configuration space written (R476): D3hot is accepted only while no partition is IMPOSED, the attributes of Relaxed Ordering are
never set, and Initiate Function Level Reset is R479's. -/
def State.cfgPut (s : State) (i v : Nat) : State :=
  let put (p : PcieFn) : State := { s with pcie := p }
  let p := s.pcie
  if i = 1 then put { p with command := v &&& 0x146 }
  else if 4 ≤ i && decide (i ≤ 9) then put { p with bars := Tbl.set 0 p.bars (i - 4) (v &&& barMask (i - 4)) }
  else if i = 17 then
    if v % 4 = 3 then (if (List.range 24).any fun q => s.pstate q == 2 then s else put { p with d3hot := true })
    else if v % 4 = 0 then put { p with d3hot := false } else s
  else if i = 22 then
    if bit v 15 then s.functionReset
    else { s with pcie := { p with devCtl := v &&& 0x70EF } }.setFld a_PCIE_STATUS f_PCIE_STATUS_MPS (min 2 (bits v 7 5))
  else if i = 65 then put { p with uncorr := p.uncorr - (p.uncorr &&& v) }
  else if i = 66 then put { p with uncorrMask := v % 2 ^ 32 }
  else if i = 67 then put { p with uncorrSev := v % 2 ^ 32 }
  else if i = 68 then put { p with corr := p.corr - (p.corr &&& v) }
  else if i = 69 then put { p with corrMask := v % 2 ^ 32 }
  else s

/-- A configuration read or write of the host, of bytes within one word. The bytes of a status word that a write leaves out are written as
zeros. -/
def State.cfgRead (s : State) (off len tag : Nat) : State :=
  if decide (4096 < off + len) || decide (4 < off % 4 + len) then s
  else s.send .hostCompletion tag [0, s.cfgWord (off / 4) / 2 ^ (8 * (off % 4)) % 2 ^ (8 * len)]

def State.cfgWrite (s : State) (off : Nat) (data : List Byte) : State :=
  if data.isEmpty || decide (4096 < off + data.length) || decide (4 < off % 4 + data.length) then s
  else
    let i := off / 4
    let old := if i = 65 || i == 68 then 0 else s.cfgWord i
    let lo := 8 * (off % 4)
    s.cfgPut i (old - bits old (lo + 8 * data.length - 1) lo * 2 ^ lo + natLE data * 2 ^ lo)

/-- HOST_MEMORY_READ: a read through BAR2 or BAR4 goes to its home as a Quay packet with PART 31, or completes with Completer Abort where it
reaches nothing; one through BAR0 reads a register (R477, R478). `bar` 8 stands for configuration space (R476; DESIGN CHOICE, log entry
21). -/
def execHostMemoryRead (bar off len tag : Nat) (s : State) : Host.Outcome State Fault Refusal :=
  let abort (t : State) : State := t.hostCa tag off
  .next (if bar = 8 then s.cfgRead off len tag
    else if inBar0 bar off len && tlpOk off len 4096 then s.hostRegRead off len tag
    else if !((bar == 2 || bar == 4) && tlpOk off len 4096) then s
    else match barAddr bar off len with
      | none => abort s
      | some a => if s.hostReach a then s.quayPush (addrDie a) ⟨12, 31, .pcie tag, a, len, none⟩ else abort s)

/-- HOST_MEMORY_WRITE: a write through BAR2 or BAR4 goes to its home, or is discarded where it reaches nothing; one through BAR0 is a
register write (R477, R478); `bar` 8 is configuration space, as for a read. -/
def execHostMemoryWrite (bar off : Nat) (data : List Byte) (s : State) : Host.Outcome State Fault Refusal :=
  .next (if bar = 8 then s.cfgWrite off data
    else if inBar0 bar off data.length && tlpOk off data.length 512 then s.hostRegWrite off data
    else if !((bar == 2 || bar == 4) && tlpOk off data.length 512) then s
    else match barAddr bar off data.length with
      | none => s.hostAbort off
      | some a => if s.hostReach a then s.quayPush (addrDie a) ⟨12, 31, .pcie 0, a, data.length, some data⟩ else s.hostAbort off)

/-! ### The host-memory window -/

/-- HOST_WINDOW_COMPLETION: data of a completion is written where the LOAD puts it, and the last one completes the LOAD; one that is not good
ends it with HOST_WINDOW_FAULT (R481). A tallied transfer is tallied by the endpoint as it reads and by the lighter as it writes, each with
the key of its die, and the last completion compares them (R199, R200). -/
def execHostWindowCompletion (tag off : Nat) (data : List Byte) (good : Bool) (s : State) : Host.Outcome State Fault Refusal :=
  .next (match s.hostRequest tag with
    | none => s
    | some (c, rid, r) =>
      if !good then s.hostReadFail tag off
      else
        let s := s.hostGot tag off data.length
        let tally (key : Word) (old : Nat) : Nat :=
          if r.tallied then (old + (contentTally key (off / 8) (wordsLE ((data.length + 7) / 8) data)).toNat) % 2 ^ 64 else 0
        let r1 := { r with
          own := tally (s.ltrKey c) r.own
          theirs := tally (s.reg (a_CHK_PKEY 12 (s.partOf c))) r.theirs }
        if r.ghost then s.advance c rid { r1 with acked := r.acked + data.length }
        else ((s.setRequest c rid (some r1)).writeLocal c rid data.length off (bits r.desc 175 128 + off) data).settleRequest (s.logical c) rid)

/-- Whether a read request has gone uncompleted for 50 ms (R481). -/
def HostRead.late (x : HostRead) (now : Nat) : Bool :=
  match x.sent with
  | some t => decide (t + 50_000_000 ≤ now)
  | none => false

/-- HOST_COMPLETION_TIMEOUT: a read request not completed within 50 ms ends the descriptor of its transfer (R481). -/
def execHostCompletionTimeout (tag : Nat) (s : State) : Host.Outcome State Fault Refusal :=
  .next (match s.hostReads.find? fun x => x.tag == tag && x.late (s.tideOf 12) with
    | none => s
    | some x => (s.pcieError 14).hostReadFail tag x.off)

/-- FUNCTION_LEVEL_RESET (R479). -/
def execFunctionLevelReset (s : State) : Host.Outcome State Fault Refusal := .next s.functionReset

/-- PCIE_LINK_RESET: the PCIe side of the crossing is reset after whole units have gone, and PCIE_STATUS follows the link's training (R472,
R510). -/
def execPcieLinkReset (state width speed mps : Nat) (flit : Bool) (s : State) : Host.Outcome State Fault Refusal :=
  .next (s.setFlds a_PCIE_STATUS [(f_PCIE_STATUS_STATE, state), (f_PCIE_STATUS_WIDTH, width), (f_PCIE_STATUS_SPEED, speed),
    (f_PCIE_STATUS_MPS, mps), (f_PCIE_STATUS_FLIT, b2n flit)])

/-! ### The status ring -/

/-- TAIL − HEAD modulo 2^32: the records that the host has not consumed (R485, R486). -/
def State.ringUsed (s : State) : Nat :=
  (s.fld a_PCIE_RING_TAIL f_PCIE_RING_TAIL_TAIL + 2 ^ 32 - s.fld a_PCIE_RING_HEAD f_PCIE_RING_HEAD_HEAD) % 2 ^ 32

/-- Whether the ring is enabled and has room (R486). -/
def State.ringRoom (s : State) : Bool :=
  s.fld a_PCIE_RING_CTL f_PCIE_RING_CTL_EN == 1 && decide (s.ringUsed < 2 ^ s.fld a_PCIE_RING_CTL f_PCIE_RING_CTL_LOG2SIZE)

/-- The host bus address and PHASE of the slot that TAIL names (R485). -/
def State.ringSlot (s : State) : Nat × Bool :=
  let log := s.fld a_PCIE_RING_CTL f_PCIE_RING_CTL_LOG2SIZE
  let tail := s.fld a_PCIE_RING_TAIL f_PCIE_RING_TAIL_TAIL
  (s.fld a_PCIE_RING_BASE f_PCIE_RING_BASE_BASE * 4096 + 128 * (tail % 2 ^ log), tail / 2 ^ log % 2 == 0)

/-- A record written into the ring by two posted writes, bytes 0 to 119 and SEAL; TAIL moves on (R485). -/
def State.writeRing (s : State) (r : StatusRec) : State :=
  let bs := (r.bytes s.ringSlot.2).map BitVec.toNat
  ((s.send .hostWrite s.ringSlot.1 (bs.take 120)).send .hostWrite (s.ringSlot.1 + 120) (bs.drop 120)).bumpWrap a_PCIE_RING_TAIL
    f_PCIE_RING_TAIL_TAIL

/-- The record of records dropped (R486): the next of the module's records, kept and forwarded as any other. -/
def State.overrunRecord (s : State) : State :=
  let r : StatusRec := ⟨s.recs.seq + 1, s.tideOf 12, Code.STATUS_RING_OVERRUN, 0, argBody [s.recs.dropped], 16, 31, s.nodeId, false, false⟩
  let s1 := { s with recs := { s.recs with
    seq := r.seq, last := (s.recs.last ++ [r]).drop (s.recs.last.length - 255), dropped := 0, markNext := true } }
  (match s1.master with
    | some n => s1.sendMgr n 0x13 r.sent
    | none => s1).writeRing r

/-- STATUS_RECORD_WRITE: with room in the ring the next record is written, a STATUS_RING_OVERRUN first where records were dropped, and
LOSTBEFORE in the record after it (R485, R486). -/
def execStatusRecordWrite (s : State) : Host.Outcome State Fault Refusal :=
  .next (if !s.ringRoom then s
    else if s.recs.dropped ≠ 0 then s.overrunRecord
    else match s.recs.buf with
      | [] => s
      | r :: rest =>
        { s with recs := { s.recs with buf := rest, markNext := false } }.writeRing { r with lostBefore := s.recs.markNext })

/-- Setting EN: TAIL and HEAD start at 0; LOG2SIZE outside 6 to 16, or another one while EN is 1, leaves the register unchanged (R510). -/
def State.doRingEnable (s : State) (log : Nat) : State × Nat :=
  let l := log % 32
  if s.fld a_PCIE_RING_CTL f_PCIE_RING_CTL_EN = 1 then
    (s, if s.fld a_PCIE_RING_CTL f_PCIE_RING_CTL_LOG2SIZE = l then 0 else Code.BAD_REG_ACCESS)
  else if l < 6 || decide (16 < l) then (s, Code.BAD_REG_ACCESS)
  else
    (((s.setFlds a_PCIE_RING_CTL [(f_PCIE_RING_CTL_EN, 1), (f_PCIE_RING_CTL_LOG2SIZE, l)]).setFld a_PCIE_RING_TAIL
      f_PCIE_RING_TAIL_TAIL 0).setFld a_PCIE_RING_HEAD f_PCIE_RING_HEAD_HEAD 0, 0)

/-- RING_ENABLE: PCIE_RING_CTL.EN written with 1 (R510). -/
def execRingEnable (src : Source) (log : Nat) (s : State) : Host.Outcome State Fault Refusal :=
  .next (s.commandWith src (cmdRingEnable log) fun t => t.doRingEnable log)

/-! ### Doorbells -/

/-- A HEAD written (R487): one that would move HEAD back, or past TAIL, is ignored and counted. -/
def State.doHead (s : State) (head : Nat) : State :=
  let held := s.fld a_PCIE_RING_HEAD f_PCIE_RING_HEAD_HEAD
  if (head % 2 ^ 32 + 2 ^ 32 - held) % 2 ^ 32 ≤ s.ringUsed then s.setFld a_PCIE_RING_HEAD f_PCIE_RING_HEAD_HEAD head
  else (s.bump a_PCIE_ERRCNT f_PCIE_ERRCNT_DOORBELL).reportSlow 0 Code.DOORBELL_BAD 12 31 [head % 2 ^ 32, held]

/-- PCIE_RING_HEAD: the HEAD doorbell, which is not journaled (R487). -/
def execPcieRingHead (head : Nat) (s : State) : Host.Outcome State Fault Refusal := .next (s.doHead head)

/-- A deadline passed to job leaders (R443, R487): an ORDER of kind PREEMPT to the leaders on other modules, and the jobs that this module
leads. -/
def State.preemptAll (s : State) (dp : Nat) (leaders : List Nat) (jobs : List JobMark) : State :=
  let s1 := leaders.foldl (fun t n => if n = t.nodeId then t else t.sendMgr n 0x11 (bytesLE 16 (5 + dp % 2 ^ 64 * 2 ^ 64))) s
  jobs.foldl (fun t j => t.preemptJob (dp % 2 ^ 64) j) s1

/-- PCIE_PREEMPT: the deadline that the host writes, or the oldest one written over another interface, goes to the leaders of the jobs that
include the module (R487). -/
def execPciePreempt (dp : Option Nat) (leaders : List Nat) (jobs : List JobMark) (s : State) : Host.Outcome State Fault Refusal :=
  .next (match dp with
    | some d => s.preemptAll d leaders jobs
    | none => match s.preemptDps with
      | [] => s
      | d :: rest => { s with preemptDps := rest }.preemptAll d leaders jobs)

end Sys2Proof.Machine
end

