-- ==== Sys2Proof/Machine/Console.lean ====
section
/-! DEFINITION. The UART console and the JTAG port (16_host_network_management.md R507 to R509, 19_register_address_map.md R552). -/

namespace Sys2Proof.Machine
open Sys2Proof

/-! ### UART -/

/-- A framing error (R507): the character is discarded, counted, and told at most once per second. -/
def State.framing (s : State) : State :=
  let t := s.bump a_UART_CNT f_UART_CNT_FRAMING
  t.reportSlow 0 Code.UART_FRAMING 12 31 []

/-- A byte accepted: into the receive FIFO, or dropped and counted where it is full (R507). -/
def State.uartByte (s : State) (b : Byte) : State :=
  if s.uartRx.length < 256 then { s with uartRx := s.uartRx ++ [b] } else s.bump a_UART_CNT f_UART_CNT_OVERRUN

/-- The level of a line at 10 ns sample `k`: the line is told in runs of samples by their number and level, and idles high behind them. -/
def lineAt : List (Nat × Bool) → Nat → Bool
  | [], _ => true
  | (n, v) :: r, k => if k < n then v else lineAt r (k - n)

/-- The line from its first start edge on, for a receiver that first looks for a high sample where `high` (R507). -/
def startEdge (high : Bool) : List (Nat × Bool) → List (Nat × Bool)
  | [] => []
  | (n, v) :: r =>
    if n = 0 then startEdge high r
    else if v then startEdge false r
    else if high then startEdge high r else (n, v) :: r

/-- The decision on bit `i` of a character, 0 its start bit and 9 its stop bit, `div` sixteenths of a sample each: the majority of three samples
centred on the bit's middle, counted from the start edge (R507). -/
def lineBit (line : List (Nat × Bool)) (div i : Nat) : Bool :=
  let m := (2 * i + 1) * div / 32
  decide (2 ≤ ([m - 1, m, m + 1].filter fun k => lineAt line k).length)

/-- The character of a line from its start edge on: eight bits, the least significant first (R507). -/
def lineByte (line : List (Nat × Bool)) (div : Nat) : Byte :=
  BitVec.ofNat 8 ((List.range 8).map fun i => b2n (lineBit line div (i + 1)) * 2 ^ i).sum

/-- How many samples a line stands low from its start edge. -/
def lowFor : List (Nat × Bool) → Nat
  | [] => 0
  | (n, v) :: r => if v && n != 0 then 0 else n + lowFor r

/-- What the receiver looks for next. -/
def State.uartHigh (s : State) (v : Bool) : State := { s with uart := { s.uart with high := v } }

/-- A line that the receiver sees from its start edge on (R507): a character whose stop bit decides high is accepted; one whose stop bit decides low is
a framing error, unless the line is held low for two whole frames, which is a break. -/
def State.uartLine (s : State) (line : List (Nat × Bool)) : State :=
  let div := s.fld a_UART_CFG f_UART_CFG_DIV
  if line.isEmpty then s
  else if lineBit line div 9 then (s.uartHigh false).uartByte (lineByte line div)
  else if 20 * div ≤ 16 * lowFor line then s.uartHigh true
  else (s.uartHigh true).framing

/-- The management processor at the FIFOs: bytes taken from the one, and as many put into the other as it has room for (R507). -/
def State.uartMove (s : State) (m : UartMove) : State :=
  { s with
    uartRx := s.uartRx.drop m.taken
    uart := { s.uart with tx := s.uart.tx ++ m.put.take (256 - s.uart.tx.length) } }

/-- UART_CHARACTER_RECEIVE: the line of one character, after what the management processor does at the FIFOs (R507). -/
def execUartCharacterReceive (read : UartMove) (char : List (Nat × Bool)) (s : State) : Host.Outcome State Fault Refusal :=
  .next (if s.off || s.crossStopped 12 9 then s else (s.uartMove read).uartLine (startEdge s.uart.high char))

/-- UART_BREAK: a line held low for two whole frames is counted (R507). -/
def execUartBreak (s : State) : Host.Outcome State Fault Refusal :=
  .next (if s.off || s.crossStopped 12 9 then s else (s.bump a_UART_CNT f_UART_CNT_BREAKS).uartHigh true)

/-- The transmitter at the end of a tick (R507, R552): a character that has ended leaves the line, and the next one takes it for ten bits of the
rate set as it begins. -/
def State.uartOn (s : State) : State :=
  let now := s.tideOf 12
  let busy := s.uart.busy.filter fun t => decide (now < t)
  match busy, s.uart.tx with
  | none, b :: r =>
    if s.crossStopped 12 9 then { s with uart := { s.uart with busy := none } }
    else { s with uart := { s.uart with
      tx := r
      busy := some (now + (100 * s.fld a_UART_CFG f_UART_CFG_DIV + 15) / 16) } }.send .uart 1 [b.toNat]
  | _, _ => { s with uart := { s.uart with busy := busy } }

/-- A DIV written: outside 533 to 13,889 it is refused (R552). -/
def State.doUartDivWrite (s : State) (div : Nat) : State × Nat :=
  if 533 ≤ div && decide (div ≤ 13889) then (s.setFld a_UART_CFG f_UART_CFG_DIV div, 0) else (s, Code.BAD_REG_ACCESS)

/-- UART_DIV_WRITE: UART_CFG.DIV written; a character on its way out keeps its bit time, and one that comes in is whole in its row, so the new bit time
holds from the next one (R552). -/
def execUartDivWrite (src : Source) (div : Nat) (s : State) : Host.Outcome State Fault Refusal :=
  .next (s.commandWith src (cmdUartDiv div) fun t => t.doUartDivWrite div)

/-! ### JTAG -/

/-- The TAP takes an instruction. -/
def State.tapTo (s : State) (i : TapInstr) : State := { s with tap := { s.tap with instr := i } }

/-- JTAG_BYPASS: the TAP's one-bit bypass (R509). -/
def execJtagBypass (s : State) : Host.Outcome State Fault Refusal := .next (if s.off then s else s.tapTo .bypass)

/-- JTAG_IDCODE: reads 0x1C12_A8F3 (R509). -/
def execJtagIdcode (s : State) : Host.Outcome State Fault Refusal :=
  .next (if s.off then s else (s.tapTo .idcode).send .jtag 0 [0x1C12_A8F3])

/-- JTAG_SAMPLE_PRELOAD: the boundary's contacts are read, and the bits that EXTEST and CLAMP drive are loaded (R509). -/
def execJtagSamplePreload (pins preload : Nat) (s : State) : Host.Outcome State Fault Refusal :=
  .next (if s.off then s
    else
      let t := s.tapTo .sample
      { t with tap := { t.tap with preload := preload } }.send .jtag 0 [pins])

/-- Whether EXTEST and CLAMP take effect (R509): under PERST#, with no partition IMPOSED. -/
def State.pinsFree (s : State) (perst : Bool) : Bool := perst && !(List.range 24).any fun p => s.pstate p == 2

/-- A pin-driving instruction (R509): the preloaded bits reach the pins, or it acts as BYPASS and is journaled with BAD_REG_ACCESS; its entry's
ADDR, OLD and NEW, which name no register, are free values. -/
def State.drivePins (s : State) (perst : Bool) (i : TapInstr) : State :=
  if s.off then s
  else if s.pinsFree perst then (s.tapTo i).send .pin 0 [s.tap.preload]
  else
    let a := s.free
    let o := a.2.free
    let n := o.2.free
    (n.2.tapTo .bypass).journalAs .jtag 0 (a.1.toNat % 2 ^ 48) Code.BAD_REG_ACCESS o.1 n.1

/-- JTAG_EXTEST: the boundary register drives the pins. -/
def execJtagExtest (perst : Bool) (s : State) : Host.Outcome State Fault Refusal := .next (s.drivePins perst .extest)

/-- JTAG_CLAMP: the boundary register drives the pins with the bypass bit in the scan path. -/
def execJtagClamp (perst : Bool) (s : State) : Host.Outcome State Fault Refusal := .next (s.drivePins perst .clamp)

/-- JTAG_DEBUG_ACCESS: the debug instruction reads or writes register space (R509, R422, R543): a read of a die that does not answer gives all
ones. Its packets to another die and back go on channel DBG (R232), and wait
while the way is not up (R239). -/
def execJtagDebugAccess (addr : Nat) (value : Option Word) (s : State) : Host.Outcome State Fault Refusal :=
  let t := s.tapTo .debug
  .next (if s.off then s
    else match value with
      | some v => t.arrive .jtag addr 8 v
      | none =>
        if !inRegs addr || t.noDie addr then t.send .jtag 0 [2 ^ 64 - 1]
        else if addr % 8 ≠ 0 then (t.gather ⟨.jtag, addr, false, false, 0⟩).send .jtag 0 [2 ^ 64 - 1]
        else t.askReg ⟨.jtag, addr, 8⟩)

/-- JTAG_TAP_RESET: TRST# resets the TAP controller alone (R519). -/
def execJtagTapReset (s : State) : Host.Outcome State Fault Refusal := .next { s with tap := TapState.init }

end Sys2Proof.Machine
end

