-- ==== Sys2Proof/Machine/Ethernet.lean ====
section
/-! DEFINITION. The Ethernet ports, RoCEv2 and PTP (16_host_network_management.md R488 to R495, R511). -/

namespace Sys2Proof.Machine
open Sys2Proof

/-! ### Ports -/

/-- Whether a port's PCS has block lock: 1 or 0. ETH_PORT.STATE shows it, and 2 while DISABLE is set (R511). -/
def State.ethSt (s : State) (k : Nat) : Nat := s.fld (a_ETH_PORT k 0) f_ETH_PORT_STATE
def State.ethCount (s : State) (k i : Nat) : State := s.addWrap (a_ETH_CNT k i) f_ETH_CNT_COUNT 1

/-- Whether a port takes frames in. -/
def State.ethUp (s : State) (k : Nat) : Bool := decide (k < 2) && s.ethSt k == 1

/-- A frame sent by a port; one with no link or a transmitter that is off sends nothing (R489). -/
def State.frame (s : State) (k : Nat) (data : List Nat) : State :=
  if s.ethUp k && s.fld (a_ETH_PORT k 0) f_ETH_PORT_DISABLE == 0 then (s.send .eth k data).ethCount k 0 else s

/-- Whether a port's RoCEv2 priority stands paused (R488). -/
def State.ethPaused (s : State) (k : Nat) : Bool := decide (s.tideOf 12 < Tbl.get 0 s.ethPause k)

/-- A RoCEv2 frame: it waits while its priority is paused. -/
def State.roceFrame (s : State) (k : Nat) (data : List Nat) : State :=
  if s.ethPaused k then { s with ethHeld := s.ethHeld ++ [(k, data)] } else s.frame k data

/-- The frames that waited for a pause which is over. -/
def State.releaseFrames (s : State) : State :=
  let go := s.ethHeld.filter fun x => !s.ethPaused x.1
  go.foldl (fun t x => t.frame x.1 x.2) { s with ethHeld := s.ethHeld.filter fun x => s.ethPaused x.1 }

/-- ETH_LINK_DOWN: a port whose PCS has lost block lock for 1 ms is down, told once per loss (R489). -/
def execEthLinkDown (port : Nat) (s : State) : Host.Outcome State Fault Refusal :=
  .next (if s.ethUp port then (s.setFld (a_ETH_PORT port 0) f_ETH_PORT_STATE 0).report Code.ETH_LINK_DOWN 12 31 [] else s)

/-- ETH_LINK_UP: a port that is down regains block lock (R489). -/
def execEthLinkUp (port : Nat) (s : State) : Host.Outcome State Fault Refusal :=
  .next (if port < 2 && s.ethSt port == 0 then s.setFld (a_ETH_PORT port 0) f_ETH_PORT_STATE 1 else s)

/-- The address of a port: IPv6 or IPv4; 0 is none (R511). -/
def State.ethAddr (s : State) (k : Nat) (v6 : Bool) : Nat :=
  if v6 then (s.reg (a_ETH_PORT k 2)).toNat + (s.reg (a_ETH_PORT k 3)).toNat * 2 ^ 64 else s.fld (a_ETH_PORT k 1) f_ETH_PORT_IP4

def State.ethMac (s : State) (k : Nat) : Nat :=
  s.fld (a_ETH_PORT k 0) f_ETH_PORT_MAC_0 + s.fld (a_ETH_PORT k 1) f_ETH_PORT_MAC_1 * 2 ^ 16

/-- Whether a request names the port's own address. -/
def State.ethMine (s : State) (k : Nat) (v6 : Bool) (target : Nat) : Bool :=
  s.ethUp k && target != 0 && s.ethAddr k v6 == target

/-- ARP_REQUEST: an ARP request, or an IPv6 neighbour solicitation, for the port's address is answered with its MAC (R488). -/
def execArpRequest (port : Nat) (v6 : Bool) (target asker : Nat) (s : State) : Host.Outcome State Fault Refusal :=
  .next (if !s.ethUp port then s
    else
      let t := s.ethCount port 1
      if t.ethMine port v6 target then t.frame port [5, b2n v6, target, t.ethMac port, asker] else t)

/-- Whether a frame with `n` bytes behind its Ethernet header and before its FCS is one that the ports take, of up to 9,216 bytes; a shorter one
than 64 is padded (R488). -/
def frameFits (n : Nat) : Bool := decide (n + 18 ≤ 9216)

/-- ICMP_ECHO_REQUEST: an echo request to the port's address is answered; one in too large a frame is dropped and counted (R488). -/
def execIcmpEchoRequest (port : Nat) (v6 : Bool) (target asker : Nat) (data : List Byte) (s : State) : Host.Outcome State Fault Refusal :=
  .next (if !s.ethUp port then s
    else
      let t := s.ethCount port 1
      if !frameFits ((if v6 then 48 else 28) + data.length) then t.ethCount port 3
      else if t.ethMine port v6 target then t.frame port ([6, b2n v6, target, asker] ++ data.map BitVec.toNat) else t)

/-- PRIORITY_FLOW_CONTROL: a PFC frame for PRIO pauses it for its quanta of 512 bit times, each 1.28 ns at 400 Gb/s (R488). -/
def execPriorityFlowControl (port prio quanta : Nat) (s : State) : Host.Outcome State Fault Refusal :=
  .next (if !s.ethUp port then s
    else
      let t := s.ethCount port 1
      if t.fld (a_ETH_PORT port 0) f_ETH_PORT_PFC = 1 && t.fld (a_ETH_PORT port 0) f_ETH_PORT_PRIO == prio then
        { t with ethPause := Tbl.set 0 t.ethPause port (t.tideOf 12 + (quanta % 2 ^ 16 * 128 + 99) / 100) }
      else t)

/-! ### Queue pairs -/

/-- The bits of ETH_QP(n), over its six words (R511), and a field of it set. -/
def State.qpNum (s : State) (n : Nat) : Nat := ((List.range 6).map fun w => (s.reg (a_ETH_QP n w)).toNat * 2 ^ (64 * w)).sum
def State.qpBits (s : State) (n hi lo : Nat) : Nat := bits (s.qpNum n) hi lo
def State.setQpBits (s : State) (n hi lo v : Nat) : State :=
  let x := s.qpNum n
  let y := x - bits x hi lo * 2 ^ lo + v % 2 ^ (hi + 1 - lo) * 2 ^ lo
  (List.range 6).foldl (fun t w => t.setReg (a_ETH_QP n w) (BitVec.ofNat 64 (y / 2 ^ (64 * w)))) s

def State.qpPart (s : State) (n : Nat) : Nat := s.qpBits n 302 298
def State.qpPort (s : State) (n : Nat) : Nat := s.qpBits n 297 297
def State.qpMtu (s : State) (n : Nat) : Nat := 1024 * 2 ^ s.qpBits n 289 288
def State.npsn (s : State) (n : Nat) : Nat := s.qpBits n 359 336
def State.epsn (s : State) (n : Nat) : Nat := s.qpBits n 335 312

/-- Whether a queue pair is enabled and ready. -/
def State.qpReady (s : State) (n : Nat) : Bool := decide (n < 64) && s.qpBits n 303 303 == 1 && s.qpBits n 307 304 == 1

def State.qp (s : State) (n : Nat) : QpState := Tbl.get QpState.init s.qps n
def State.modQp (s : State) (n : Nat) (f : QpState → QpState) : State := { s with qps := Tbl.set QpState.init s.qps n (f (s.qp n)) }

/-- The three rings of a queue pair (R491): base, log2 of the entries, bytes of an entry. -/
inductive QpRing where
  | send | recv | compl
deriving DecidableEq, Repr

def State.ringBase (s : State) (n : Nat) : QpRing → Nat
  | .send => s.qpBits n 159 112
  | .recv => s.qpBits n 107 60
  | .compl => s.qpBits n 55 8

def State.ringLog (s : State) (n : Nat) : QpRing → Nat
  | .send => s.qpBits n 111 108
  | .recv => s.qpBits n 59 56
  | .compl => s.qpBits n 7 4

def QpRing.size : QpRing → Nat
  | .send => 64
  | _ => 32

/-- PROD and CONS of a ring. -/
def State.ringProd (s : State) (n : Nat) (r : QpRing) : Nat := s.num (s.ringBase n r) 8
def State.ringCons (s : State) (n : Nat) (r : QpRing) : Nat := s.num (s.ringBase n r + 8) 8

/-- How many entries a ring holds that its consumer has not taken. -/
def State.ringHeld (s : State) (n : Nat) (r : QpRing) : Nat :=
  min (2 ^ s.ringLog n r) ((s.ringProd n r + 2 ^ 64 - s.ringCons n r) % 2 ^ 64)

/-- The address of the entry that a count names. -/
def State.ringEntryAt (s : State) (n : Nat) (r : QpRing) (i : Nat) : Nat := s.ringBase n r + 64 + i % 2 ^ s.ringLog n r * r.size

/-- What a ring's consumer, or for the completion ring its producer, reads and writes next: address, bytes, whether it writes. -/
def State.ringSpans (s : State) (n : Nat) (r : QpRing) : List (Nat × Nat × Bool) :=
  let b := s.ringBase n r
  if r = .compl then [(s.ringEntryAt n r (s.ringProd n r), 32, true), (b, 8, true), (b + 8, 8, false)]
  else [(b, 8, false), (b + 8, 8, true), (s.ringEntryAt n r (s.ringCons n r), r.size, false)]

/-- Whether a ring's memory can be used now (R246, R247, R277): a queue pair waits for it. -/
def State.ringOpen (s : State) (n : Nat) (r : QpRing) : Bool := (s.ringSpans n r).all fun x => s.rangeOpen 12 x.2.2 x.1 x.2.1

/-- What stands in the way of a ring's memory sent for (R246). -/
def State.askRing (s : State) (n : Nat) (r : QpRing) : State :=
  (s.ringSpans n r).foldl (fun t x => if inHbm x.1 x.2.1 then t.sendMissing x.2.2 (linesOf x.1 x.2.1) else t) s

/-- The entry that the consumer takes next, with CONS moved past it; none where the ring is empty or its memory cannot be used. -/
def State.qpTake (s : State) (n : Nat) (r : QpRing) : Option (Nat × State) :=
  if s.ringHeld n r = 0 || !s.ringOpen n r then none
  else
    let cons := s.ringCons n r
    let m := s.readMem (s.ringEntryAt n r cons) r.size 0xF 5
    if m.code ≠ 0 then none
    else some (natLE m.bytes, ((m.st.unitFlits 12 false (s.ringEntryAt n r cons) r.size).openWrite 12 (s.ringBase n r + 8) (bytesLE 8 (cons + 1))).st)

/-- A signal as SIGNAL gives it, to a core of the queue pair's partition (R344, R492). -/
def State.qpSignal (s : State) (n : Nat) (g : Nat × Nat × Nat) : State :=
  if g.1 < 156 && s.partOf (s.actor g.1) == s.qpPart n then s.ccAdd (s.actor g.1) g.2.1 g.2.2 s.nodeId 0xFF else s

/-- The CQEs that wait, written while the ring has room, each with its signal (R492). -/
def State.flushCqes (s : State) (n : Nat) : List CqeWait → State
  | [] => s.modQp n fun q => { q with cqes := [] }
  | c :: rest =>
    if 2 ^ s.ringLog n .compl ≤ s.ringHeld n .compl || !s.ringOpen n .compl then s.modQp n fun q => { q with cqes := c :: rest }
    else
      let prod := s.ringProd n .compl
      let s1 := (s.openWrite 12 (s.ringEntryAt n .compl prod) (bytesLE 32 c.cqe)).st
      let s2 := (s1.openWrite 12 (s.ringBase n .compl) (bytesLE 8 (prod + 1))).st
      (match c.signal with
        | some g => s2.qpSignal n g
        | none => s2).flushCqes n rest

/-- CQEs added behind those that wait. -/
def State.addCqes (s : State) (n : Nat) (l : List CqeWait) : State := s.flushCqes n ((s.qp n).cqes ++ l)

/-- A CQE (R491). -/
def cqeNum (wrid tally len code op n : Nat) : Nat :=
  wrid * 2 ^ 192 + tally * 2 ^ 128 + len * 2 ^ 96 + code * 2 ^ 80 + op * 2 ^ 72 + n * 2 ^ 64

/-! Fields of a WQE (R491). -/
def wqOp (w : Nat) : Nat := bits w 239 232
def wqLen (w : Nat) : Nat := bits w 351 320
def wqLaddr (w : Nat) : Nat := bits w 319 272

/-- The completion of a WQE: its CQE and its signal (R492). -/
def SendJob.cqe (j : SendJob) (n : Nat) : CqeWait :=
  ⟨cqeNum (bits j.wqe 511 448) j.tally (if j.code = 0 then wqLen j.wqe else 0) j.code (wqOp j.wqe) n,
    if bit j.wqe 242 then some (bits j.wqe 255 248, bits j.wqe 247 243, bits j.wqe 271 256) else none⟩

/-- The difference of two PSNs, modulo 2^24. -/
def psnDiff (a b : Nat) : Nat := (a + 2 ^ 24 - b % 2 ^ 24) % 2 ^ 24

/-- Whether every packet of a job is acknowledged, where `una` is the first PSN that is not. -/
def SendJob.acked (j : SendJob) (una next : Nat) : Bool := decide (psnDiff next una + j.packets ≤ psnDiff next j.psn)

/-- The jobs at the front that are complete leave with their CQEs, in order (R492). -/
def State.completeJobs (s : State) (n : Nat) : State :=
  let q := s.qp n
  let done := q.jobs.takeWhile fun j => j.acked q.una (s.npsn n)
  (s.modQp n fun x => { x with jobs := x.jobs.drop done.length }).addCqes n (done.map fun j => j.cqe n)

/-- The packets of a job from PSN `from` on: WRITE or SEND, the queue pair there, PSN, place in the message, and the bytes. -/
def State.sendPackets (s : State) (n : Nat) (j : SendJob) (first : Nat) : State :=
  let mtu := s.qpMtu n
  let bs := s.bytes (wqLaddr j.wqe) (wqLen j.wqe)
  let last := j.packets - 1
  (List.range j.packets).foldl (fun t i =>
    if psnDiff (j.psn + i) first < 2 ^ 23 then
      let pos := if last = 0 then 3 else if i = 0 then 0 else if i = last then 2 else 1
      t.roceFrame (t.qpPort n) ([wqOp j.wqe - 1, t.qpBits n 383 360, (j.psn + i) % 2 ^ 24, pos, bits j.wqe 447 384, bits j.wqe 383 352,
        wqLen j.wqe] ++ ((bs.drop (mtu * i)).take mtu).map BitVec.toNat)
    else t) s

/-- The check of R492 on a WQE of a queue pair. -/
def State.wqeCheck (s : State) (n w : Nat) : Nat :=
  let a := wqLaddr w
  let len := wqLen w
  if bits w 231 0 ≠ 0 || (wqOp w != 1 && wqOp w != 2) || len == 0 || decide (2 ^ 30 < len) then Code.BAD_DESCRIPTOR
  else if !(if isGalley a then s.galleyWinOk (s.qpPart n) a len else s.hbmWinOk (s.qpPart n) a len) then Code.BAD_ADDRESS
  else 0

/-- A WQE started (R492, R494): checked, its bytes read, its packets sent. -/
def State.startWqe (s : State) (n w : Nat) : State :=
  let code := s.wqeCheck n w
  let psn := s.npsn n
  let add (t : State) (j : SendJob) : State := t.modQp n fun q => { q with jobs := q.jobs ++ [j] }
  if code ≠ 0 then add s ⟨w, psn, 0, 0, code⟩
  else
    let m := (s.unitFlits 12 false (wqLaddr w) (wqLen w)).readMem (wqLaddr w) (wqLen w) 0xF 5
    if m.code ≠ 0 then add m.st ⟨w, psn, 0, 0, m.code⟩
    else
      let mtu := s.qpMtu n
      let tally := if bit w 241 then (bytesTally (s.reg (a_CHK_PKEY 12 (s.qpPart n))) m.bytes).toNat else 0
      let j : SendJob := ⟨w, psn, (wqLen w + mtu - 1) / mtu, tally, 0⟩
      let idle := (s.qp n).jobs.isEmpty
      let s1 := (add m.st j).setQpBits n 359 336 (psn + j.packets)
      (s1.modQp n fun q => if idle then { q with since := s.tideOf 12 } else q).sendPackets n j psn

/-- The WQEs that a queue pair may take now, `k` at most: a FENCE waits for the earlier ones, a full completion ring stops it, and one whose data
cannot be read now waits (R491, R492). -/
def State.takeWqes (s : State) (n : Nat) : Nat → State
  | 0 => s
  | k + 1 =>
    if !(s.qp n).cqes.isEmpty then s
    else match s.qpTake n .send with
      | none => s
      | some (w, t) =>
        if bit w 240 && !(s.qp n).jobs.isEmpty then s
        else if s.wqeCheck n w = 0 && !s.rangeOpen 12 false (wqLaddr w) (wqLen w) then
          s.sendMissing false (linesOf (wqLaddr w) (wqLen w))
        else ((t.startWqe n w).completeJobs n).takeWqes n k

/-! ### Errors -/

/-- The entries of a ring that were posted when its queue pair entered error, taken one by one while its memory can be used: `k` at most. -/
def State.drainRing (s : State) (n : Nat) (r : QpRing) : Nat → List Nat × State
  | 0 => ([], s)
  | k + 1 => match s.qpTake n r with
    | none => ([], s)
    | some (w, t) => let q := t.drainRing n r k; (w :: q.1, q.2)

/-- The completions with RDMA_ERROR of a WQE and of an RQE (R494). -/
def lostWqe (n w : Nat) : CqeWait := (SendJob.mk w 0 0 0 Code.RDMA_ERROR).cqe n
def lostRqe (n r : Nat) : CqeWait := ⟨cqeNum (bits r 255 192) 0 0 Code.RDMA_ERROR 0x82 n, none⟩

/-- What is left to complete of a queue pair in error (R494): its rings are drained of what was posted, as far as their memory can be used
now. -/
def State.drainQp (s : State) (n : Nat) : State :=
  match (s.qp n).drain with
  | none => s
  | some (a, b) =>
    let d1 := s.drainRing n .send a
    let d2 := d1.2.drainRing n .recv b
    let left := (a - d1.1.length, b - d2.1.length)
    (d2.2.modQp n fun q => { q with drain := if left = (0, 0) then none else some left }).addCqes n
      (d1.1.map (lostWqe n) ++ d2.1.map (lostRqe n))

/-- A queue pair entering error (R494): every outstanding WQE and RQE completes with RDMA_ERROR, and it is told with the PSN. -/
def State.qpError (s : State) (n psn : Nat) : State :=
  let q := s.qp n
  let open_ := match q.incoming with
    | some (.recv rqe _) => [rqe]
    | _ => []
  let cqes := (q.jobs.map fun j => (if j.code = 0 then { j with code := Code.RDMA_ERROR } else j).cqe n) ++ open_.map (lostRqe n)
  let s1 := (s.setQpBits n 307 304 2).modQp n fun x =>
    { x with jobs := [], incoming := none, drain := some (s.ringHeld n .send, s.ringHeld n .recv) }
  ((s1.addCqes n cqes).drainQp n).report Code.RDMA_ERROR 12 (s.qpPart n) [n, psn % 2 ^ 24]

/-- Received data that could not be written at its home (08_memory_system.md R277): its queue pair enters error. -/
def State.unitErrors (s : State) : State :=
  s.unitErrs.foldl (fun t x => if t.qpReady x.1 then t.qpError x.1 x.2 else t) { s with unitErrs := [] }

/-- Packets sent again from the first that is not acknowledged, and counted (R494). -/
def State.resend (s : State) (n : Nat) : State :=
  let q := s.qp n
  let again := psnDiff (s.npsn n) q.una
  let s1 := s.addWrap (a_ETH_CNT (s.qpPort n) 6) f_ETH_CNT_COUNT again
  (q.jobs.foldl (fun t j => if j.code = 0 then t.sendPackets n j q.una else t) s1).modQp n fun x => { x with since := s.tideOf 12 }

/-- A failed attempt (R494): the RETRY-th puts the queue pair in error; `rnr` one for want of an RQE. -/
def State.failedTry (s : State) (n : Nat) (rnr : Bool) : State :=
  let q := s.qp n
  let k := (if rnr then q.rnr else q.tries) + 1
  let s1 := s.modQp n fun x => if rnr then { x with rnr := k } else { x with tries := k }
  if s.qpBits n 292 290 ≤ k then s1.qpError n q.una else s1.resend n

/-- Packets before `psn` acknowledged. -/
def State.ackBefore (s : State) (n psn : Nat) : State :=
  let q := s.qp n
  if psnDiff psn q.una ≤ psnDiff (s.npsn n) q.una then
    (s.modQp n fun x => if psn % 2 ^ 24 = q.una then x else
      { x with una := psn % 2 ^ 24, tries := 0, rnr := 0, since := s.tideOf 12 }).completeJobs n
  else s

/-- ETH_SEND_POLL: the ETH block looks at the send rings of every enabled queue pair, writes CQEs that have waited for room, and starts new
WQEs (R491, R492); of one in error it completes what is left (R494). -/
def execEthSendPoll (s : State) : Host.Outcome State Fault Refusal :=
  .next ((List.range 64).foldl (fun t n =>
    if t.qpBits n 303 303 = 0 then t
    else
      let t1 := ([QpRing.send, .recv, .compl].foldl (fun u r => u.askRing n r) t).addCqes n []
      if t1.qpReady n then t1.takeWqes n (2 ^ t1.ringLog n .send) else t1.drainQp n) s.releaseFrames.unitErrors)

/-! ### What comes back to a requester -/

/-- A frame that reaches a queue pair: counted at its port, and acted on by a ready queue pair with a link. -/
def State.atQp (s : State) (n : Nat) (f : State → State) : State :=
  if !(decide (n < 64) && s.ethUp (s.qpPort n)) then s
  else
    let t := s.ethCount (s.qpPort n) 1
    if t.qpReady n then f t else t

/-- ROCE_ACK: an ACK of every packet up to `psn`; a WQE whose last packet is acknowledged completes (R492). -/
def execRoceAck (qp psn : Nat) (s : State) : Host.Outcome State Fault Refusal :=
  .next (s.atQp qp fun t => t.ackBefore qp (psn + 1))

/-- ROCE_NAK: kind 0, a sequence error, sends again from `psn`; 1, no RQE there, sends again; 2 to 4, remote access, remote operational and
invalid request, put the queue pair in error (R490, R494). -/
def execRoceNak (qp psn kind : Nat) (s : State) : Host.Outcome State Fault Refusal :=
  .next (s.atQp qp fun t =>
    let t1 := (t.ethCount (t.qpPort qp) 5).ackBefore qp psn
    if (t1.qp qp).jobs.isEmpty then t1
    else if kind = 0 then t1.failedTry qp false
    else if kind = 1 then t1.failedTry qp true
    else t1.qpError qp psn)

/-- ROCE_RETRY_TIMEOUT: no acknowledgement within 4.096 µs × 2^TO (R494). -/
def execRoceRetryTimeout (qp : Nat) (s : State) : Host.Outcome State Fault Refusal :=
  .next (if s.qpReady qp && !(s.qp qp).jobs.isEmpty && decide ((s.qp qp).since + 4096 * 2 ^ s.qpBits qp 296 293 ≤ s.tideOf 12) then
      s.failedTry qp false
    else s)

/-- ROCE_CNP: the sending rate of the queue pair halves, down to 1 Gb/s (R494). -/
def execRoceCnp (qp : Nat) (s : State) : Host.Outcome State Fault Refusal :=
  .next (s.atQp qp fun t => (t.ethCount (t.qpPort qp) 7).modQp qp fun q =>
    { q with rate := max 1_000_000_000 (q.rate / 2), rateAt := t.tideOf 12 })

/-- ROCE_RATE_RESTORE: 55 µs without a CNP give back 5 % of line rate (R494). -/
def execRoceRateRestore (qp : Nat) (s : State) : Host.Outcome State Fault Refusal :=
  .next (if s.qpReady qp && decide ((s.qp qp).rateAt + 55_000 ≤ s.tideOf 12) && decide ((s.qp qp).rate < 400_000_000_000) then
      s.modQp qp fun q => { q with rate := min 400_000_000_000 (q.rate + 20_000_000_000), rateAt := s.tideOf 12 }
    else s)

/-! ### What comes in at a responder -/

/-- An acknowledgement, or a NAK of a kind, counted (R490, R493). -/
def State.roceAck (s : State) (n psn : Nat) : State := s.roceFrame (s.qpPort n) [2, s.qpBits n 383 360, psn]
def State.roceNak (s : State) (n psn kind : Nat) : State :=
  (s.roceFrame (s.qpPort n) [3, s.qpBits n 383 360, psn, kind]).ethCount (s.qpPort n) 4

/-- An incoming packet by its opcode (R490): `pos` is 0 First, 1 Middle, 2 Last, 3 Only; from 4 on it is one of another opcode, answered with
NAK invalid request, but 5 stands for a packet whose ICRC is bad, which is dropped and counted among the drops, and 6 for a frame whose FCS is
bad, which is counted as such alone (R511; DESIGN CHOICE, log entry 22). -/
def State.supported (s : State) (n psn pos : Nat) (f : State → State) : State :=
  if pos < 4 then f s
  else if pos = 5 then (if s.ethUp (s.qpPort n) then (s.ethCount (s.qpPort n) 1).ethCount (s.qpPort n) 3 else s)
  else if pos = 6 then (if s.ethUp (s.qpPort n) then s.ethCount (s.qpPort n) 2 else s)
  else s.atQp n fun t => t.roceNak n psn 4

/-- An incoming request packet (R490, R494): ECN-CE is answered by a CNP; a packet out of sequence by a NAK, once; one received before by its
ACK again; the next one by `f`, unless a full completion ring stops the queue pair (R492). -/
def State.request_ (s : State) (n psn : Nat) (ecn : Bool) (f : State → State) : State :=
  s.atQp n fun t =>
    let t1 := if ecn then t.roceFrame (t.qpPort n) [4, t.qpBits n 383 360] else t
    let ahead := psnDiff psn (t1.epsn n)
    if !(t1.qp n).cqes.isEmpty then t1
    else if ahead = 0 then f (t1.modQp n fun q => { q with naked := false })
    else if ahead < 2 ^ 23 then
      if (t1.qp n).naked then t1 else (t1.modQp n fun q => { q with naked := true }).roceNak n (t1.epsn n) 0
    else t1.roceAck n (psnDiff (t1.epsn n) 1)

/-- The next packet taken: the PSN expected moves on and it is acknowledged. -/
def State.taken_ (s : State) (n psn : Nat) : State := (s.setQpBits n 335 312 (psn + 1)).roceAck n (psn % 2 ^ 24)

/-- The region of ETH_MR that a WRITE may use (R493): its base address. -/
def State.regionOf (s : State) (n raddr rkey dlen : Nat) : Option Nat :=
  ((List.range 64).find? fun m =>
    s.fld (a_ETH_MR m 1) f_ETH_MR_VALID == 1 && s.fld (a_ETH_MR m 1) f_ETH_MR_RKEY == rkey % 2 ^ 32
      && s.fld (a_ETH_MR m 1) f_ETH_MR_PART == s.qpPart n && s.fld (a_ETH_MR m 1) f_ETH_MR_WRITE == 1
      && decide (raddr + dlen ≤ s.fld (a_ETH_MR m 0) f_ETH_MR_SIZE * 4096)).map fun m => s.fld (a_ETH_MR m 0) f_ETH_MR_BASE * 4096

/-- Whether a packet's length fits its place in a message of which `left` bytes are due: full packets but the last (R490). -/
def sizeOk (pos len left mtu : Nat) : Bool :=
  if pos = 0 || pos == 1 then len == mtu && decide (len < left) else len == left && decide (len ≤ mtu)

/-- An incoming WRITE's bytes written at `a`, with `left` bytes of the message due (R493). -/
def State.writePacket (s : State) (n psn pos a left : Nat) (data : List Byte) : State :=
  if !sizeOk pos data.length left (s.qpMtu n) then s.roceNak n psn 4
  else
    let m := if data.isEmpty then ⟨s, 0, 0, []⟩ else s.writeThrough 12 (some (n, psn)) a data
    if m.code ≠ 0 then (m.st.roceNak n psn 3).qpError n psn
    else (m.st.modQp n fun q => { q with incoming :=
      if pos = 2 || pos == 3 then none else some (.write (a + data.length) (left - data.length)) }).taken_ n psn

/-- ROCE_WRITE_RECEIVE: a packet of an incoming RDMA WRITE; `pos` as State.supported has it. The first is checked against ETH_MR:
one that fails is answered with a remote access error and puts the queue pair in error (R493). -/
def execRoceWriteReceive (qp psn pos raddr rkey dlen : Nat) (data : List Byte) (ecn : Bool) (s : State) :
    Host.Outcome State Fault Refusal :=
  .next (s.supported qp psn pos fun u => u.request_ qp psn ecn fun t =>
    if pos = 0 || pos == 3 then
      if (t.qp qp).incoming.isSome then t.roceNak qp psn 4
      else match t.regionOf qp raddr rkey dlen with
        | none => (t.roceNak qp psn 2).qpError qp psn
        | some base => t.writePacket qp psn pos (base + raddr) dlen data
    else match (t.qp qp).incoming with
      | some (.write a left) => t.writePacket qp psn pos a left data
      | _ => t.roceNak qp psn 4)

/-- An incoming SEND's bytes written into its RQE's buffer, `got` bytes being there (R493). -/
def State.recvPacket (s : State) (n psn pos rqe got : Nat) (data : List Byte) : State :=
  let mtu := s.qpMtu n
  let cqe (len code : Nat) : CqeWait := ⟨cqeNum (bits rqe 255 192) 0 len code 0x82 n, none⟩
  if !(if pos = 0 || pos == 1 then data.length == mtu else decide (data.length ≤ mtu)) then s.roceNak n psn 4
  else if bits rqe 191 160 < got + data.length then
    ((s.roceNak n psn 3).modQp n fun q => { q with incoming := none }).addCqes n [cqe 0 Code.RDMA_ERROR]
  else
    let a := bits rqe 159 112 + got
    let m := if data.isEmpty then ⟨s, 0, 0, []⟩
      else if inHbm a data.length || (isGalley a && isGalley (a + data.length - 1)) then s.writeThrough 12 (some (n, psn)) a data
      else ⟨s, Code.BAD_ADDRESS, a, []⟩
    if m.code ≠ 0 then (m.st.roceNak n psn 3).qpError n psn
    else if pos = 2 || pos == 3 then
      ((m.st.modQp n fun q => { q with incoming := none }).taken_ n psn).addCqes n [cqe (got + data.length) 0]
    else (m.st.modQp n fun q => { q with incoming := some (.recv rqe (got + data.length)) }).taken_ n psn

/-- ROCE_SEND_RECEIVE: a packet of an incoming SEND, `pos` as for a WRITE. The first takes the next RQE; none posted is answered by an RNR NAK,
one too short by a remote operational error with the RQE completed as RDMA_ERROR (R493). Where the ring's memory cannot be used now the packet
is not taken, and its sender repeats it (R494). -/
def execRoceSendReceive (qp psn pos : Nat) (data : List Byte) (ecn : Bool) (s : State) : Host.Outcome State Fault Refusal :=
  .next (s.supported qp psn pos fun u => u.request_ qp psn ecn fun t =>
    if pos = 0 || pos == 3 then
      if (t.qp qp).incoming.isSome then t.roceNak qp psn 4
      else match t.qpTake qp .recv with
        | none => if t.ringOpen qp .recv then t.roceNak qp psn 1 else t
        | some (rqe, u) => u.recvPacket qp psn pos rqe 0 data
    else match (t.qp qp).incoming with
      | some (.recv rqe got) => t.recvPacket qp psn pos rqe got data
      | _ => t.roceNak qp psn 4)

/-- EN of a queue pair set from 0: it is ready, with nothing outstanding (R511). -/
def State.doQpEnable (s : State) (n : Nat) : State :=
  if s.qpBits n 303 303 = 1 then s
  else ((s.setQpBits n 303 303 1).setQpBits n 307 304 1).modQp n fun _ => { QpState.init with una := s.npsn n, since := s.tideOf 12 }

/-- QP_ENABLE: ETH_QP(n).EN set (R511). -/
def execQpEnable (src : Source) (qp : Nat) (s : State) : Host.Outcome State Fault Refusal :=
  .next (s.command src (cmdQpEnable qp) fun t => t.doQpEnable qp)

/-- EN cleared: the queue pair does nothing more (R494, R511). -/
def State.qpOff (s : State) (n : Nat) : State :=
  { s.setQpBits n 307 304 0 with qps := Tbl.set QpState.init s.qps n QpState.init }

/-! ### PTP -/

/-- PTPOFF in TIDE_DELAY (R379, R392, R495): PTP time minus tide, 0 at a harbourmaster that is not locked; a difference beyond 32 bits shows
a free value. -/
def State.showPtp (s : State) : State :=
  let o := s.ptp.offset
  if !s.ptp.locked then s.setFld (a_TIDE_DELAY 12) f_TIDE_DELAY_PTPOFF 0
  else if decide (-(2 : Int) ^ 31 ≤ o) && decide (o < (2 : Int) ^ 31) then s.setFld (a_TIDE_DELAY 12) f_TIDE_DELAY_PTPOFF (unsigned 32 o)
  else s.free.2.setFld (a_TIDE_DELAY 12) f_TIDE_DELAY_PTPOFF s.free.1.toNat

/-- PTP unlocked: told, and the root's RATE stays (R495). -/
def State.ptpUnlock (s : State) : State :=
  ({ s with ptp := { s.ptp with locked := false, good := 0, bad := 0 } }.showPtp).report Code.PTP_UNLOCKED 12 31 []

/-- 10 ppm in units of 2^−40 (R379). -/
def ratePpm10 : Nat := 10_995_116

/-- A root that steers by PTP: at its first lock it jumps to facility time, which a partition imposed turns into a fault; after that it slews
(R375, R379). -/
def State.ptpSteer (s : State) : State :=
  if !(s.isRoot && s.fld (a_TIDE_CTL 12) f_TIDE_CTL_PTPSTEER == 1 && s.ptp.locked) then s
  else if s.servo.ptp then s.steer ratePpm10
  else if s.anyImposed then s.tideFault
  else
    let t := s.jump (s.ptp.offset * 2 ^ 40)
    ({ t with servo := { t.servo with ptp := true }, ptp := { t.ptp with offset := 0 } }.showPtp).syncUp

/-- The choice of the time transmitter over both ports (R495): the first that is heard, then a better one, or any once the chosen one has sent
no Sync for 4 s. -/
def PtpState.chooses (p : PtpState) (port rank now : Nat) : Bool :=
  match p.chosen with
  | none => true
  | some x => x == (port, rank) || decide (rank < x.2) || decide (p.last + 4_000_000_000 ≤ now)

/-- A Sync of the transmitter chosen (R495): the mean path delay, end to end, where a delay request has been answered; the offset beyond it; and
the Syncs in a row that count for the lock, anew for another transmitter. -/
def PtpState.sync (p : PtpState) (port rank now : Nat) (x : PtpTimes) (time : Nat) : PtpState :=
  let delay := match x.delay with
    | some y => ((x.t2 - x.t1) + (y.2 - y.1)) / 2
    | none => p.delay
  let n := (x.t2 - x.t1 - delay).natAbs
  let same := p.chosen == some (port, rank)
  { p with
    last := now
    offset := (time : Int) - now
    delay := delay
    chosen := some (port, rank)
    good := if n ≤ 100 then (if same then p.good else 0) + 1 else 0
    bad := if 500 < n then (if same then p.bad else 0) + 1 else 0 }

/-- PTP_SYNC: a Sync, at which PTP time is `time` (R495). A module that is no harbourmaster drops it; one of another domain than its port's, and
of a time transmitter that is not chosen, does nothing. Each Sync taken is followed by a delay request of the module's. -/
def execPtpSync (port : Nat) (domain : PtpFrom) (offset : PtpTimes) (time : Nat) (s : State) : Host.Outcome State Fault Refusal :=
  .next (if !s.ethUp port then s
    else
      let t := s.ethCount port 1
      if t.role ≠ 1 then t.ethCount port 3
      else if t.fld (a_ETH_PORT port 0) f_ETH_PORT_PTPDOM ≠ domain.domain || !t.ptp.chooses port domain.rank (t.tideOf 12) then t
      else
        let p := t.ptp.sync port domain.rank (t.tideOf 12) offset time
        let v := t.frame port [7, domain.domain]
        if p.locked && decide (4 ≤ p.bad) then { v with ptp := p }.ptpUnlock
        else
          let u := { v with ptp := { p with locked := p.locked || decide (8 ≤ p.good) } }
          u.showPtp.ptpSteer)

/-- PTP_SYNC_TIMEOUT: 4 s without a Sync unlock (R495). -/
def execPtpSyncTimeout (s : State) : Host.Outcome State Fault Refusal :=
  .next (if s.ptp.locked && decide (s.ptp.last + 4_000_000_000 ≤ s.tideOf 12) then s.ptpUnlock else s)

end Sys2Proof.Machine
end

