-- ==== Sys2Proof/Machine/Image.lean ====
section
/-! DEFINITION. The imposition image (13_imposition_image.md R394 to R411): its layout, its records, and the checks of R415 from step 5 on. -/

namespace Sys2Proof.Machine
open Sys2Proof

/-! ### Layout -/

/-- `n` bytes of an image from an offset, as one number (R10). -/
def imgNum (img : List Byte) (off n : Nat) : Nat := natLE ((img.drop off).take n)

/-- A section (R395): its index in the table, its entry's fields, and its records. -/
structure Sect where
  idx : Nat
  typ : Nat
  count : Nat
  off : Nat
  size : Nat
  crc : Nat
  recs : List Nat
deriving DecidableEq, Repr

/-- The header of an image and its sections (R394). -/
structure Image where
  mod : Bool
  replace : Bool
  parts : Nat
  id : Nat
  hcrc : Nat
  sects : List Sect
deriving DecidableEq, Repr

/-- What R396 gives a section type: record bytes, fewest and most records, and whether a module or partial image and a replacement image
require it (2), allow it (1) or not (0). -/
structure SectRule where
  bytes : Nat
  least : Nat
  most : Nat
  mod : Nat
  partial_ : Nat
  replace : Nat

def sectRule (t : Nat) : Option SectRule :=
  match t with
  | 0x01 => some ⟨32, 1, 1, 2, 0, 0⟩
  | 0x02 => some ⟨16, 1, 24, 2, 2, 0⟩
  | 0x03 => some ⟨64, 1, 24, 2, 2, 0⟩
  | 0x04 => some ⟨48, 1, 24, 2, 2, 0⟩
  | 0x05 => some ⟨16, 0, 384, 1, 1, 0⟩
  | 0x06 => some ⟨32, 0, 144, 1, 1, 0⟩
  | 0x07 => some ⟨16, 0, 384, 1, 1, 0⟩
  | 0x08 => some ⟨16416, 1, 1, 2, 0, 0⟩
  | 0x09 => some ⟨16, 0, 32, 1, 1, 0⟩
  | 0x0A => some ⟨16, 0, 96, 1, 1, 0⟩
  | 0x0B => some ⟨16, 0, 32, 1, 1, 1⟩
  | 0x0C => some ⟨32, 0, 16384, 1, 1, 1⟩
  | 0x0D => some ⟨32, 1, 24, 2, 2, 1⟩
  | 0x0F => some ⟨16, 0, 256, 1, 1, 1⟩
  | _ => none

/-- The section types of R396, in order. -/
def sectTypes : List Nat := [1, 2, 3, 4, 5, 6, 7, 8, 9, 0xA, 0xB, 0xC, 0xD, 0xF]

/-- What the rule says of a type for an image of a kind. -/
def SectRule.use (r : SectRule) (mod replace : Bool) : Nat := if mod then r.mod else if replace then r.replace else r.partial_

/-- Section i of an image, with its records by its type's record size. -/
def sectAt (img : List Byte) (i : Nat) : Sect :=
  let o := 0x40 + 16 * i
  let typ := imgNum img o 1
  let count := imgNum img (o + 2) 2
  let off := imgNum img (o + 4) 4
  let n := ((sectRule typ).map SectRule.bytes).getD 1
  ⟨i, typ, count, off, imgNum img (o + 8) 4, imgNum img (o + 12) 4,
    if (sectRule typ).isSome then (pieces n count (img.drop off)).map natLE else []⟩

/-- An image parsed. -/
def parseImage (img : List Byte) : Image :=
  let flags := imgNum img 0x0E 2
  ⟨bit flags 0, bit flags 1, imgNum img 0x10 4, imgNum img 0x18 8, imgNum img 0x3C 4,
    (List.range (imgNum img 0x0C 2)).map (sectAt img)⟩

/-- The section of a type, and its records. -/
def Image.sect (im : Image) (t : Nat) : Option Sect := im.sects.find? fun x => x.typ == t
def Image.recs (im : Image) (t : Nat) : List Nat := ((im.sect t).map Sect.recs).getD []

/-- The partitions an image names. -/
def Image.plist (im : Image) : List Nat := maskParts im.parts

/-! ### Fields of records -/

/-- Byte b of a record, and n bytes from b. -/
def rb (r b : Nat) : Nat := bits r (8 * b + 7) (8 * b)
def rn (r b n : Nat) : Nat := bits r (8 * (b + n) - 1) (8 * b)

/-- MODULE (R398). -/
def modRoot (r : Nat) : Bool := bit (rb r 3) 0
/-- PART (R399). -/
def partClusters (r : Nat) : Nat := rn r 4 3
/-- GALLEY: pool p (R401). -/
def galPool (r p : Nat) : Nat := rn r (8 + 8 * p) 8
/-- POOL's COUNT and the address of its BASE (R176). -/
def poolCount (v : Nat) : Nat := bits v 55 36
def poolBase (v : Nat) : Nat := bits v 35 0 * 4096
/-- The cluster of a core with a place from 0 to 11 (R400). -/
def coreCluster (c : Nat) : Nat := 2 * (c / 13) + (if c % 13 < 6 then 0 else 1)
/-- The clusters of a mask. -/
def maskClusters (m : Nat) : List Nat := (List.range 24).filter fun k => bit m k

/-- The clusters that an image gives partition p, and the partition of cluster k. -/
def Image.clusters (im : Image) (p : Nat) : Nat :=
  ((im.recs 2).filter fun r => rb r 0 == p).foldl (fun m r => m ||| partClusters r) 0
def Image.clusterPart (im : Image) (k : Nat) : Option Nat := im.plist.find? fun p => bit (im.clusters p) k

/-- The CORES record of a cluster, and whether a core is enabled (R400). -/
def Image.coresRec (im : Image) (k : Nat) : Option Nat := (im.recs 3).find? fun r => rb r 0 == k
def Image.enabled (im : Image) (c : Nat) : Bool :=
  decide (c % 13 < 12) && match im.coresRec (coreCluster c) with
    | some r => bit (rb r 1) ((c % 13) % 6)
    | none => false

/-- The GALLEY record of a cluster (R401), and its MEMORY windows in 256 MiB units (R402). -/
def Image.galleyRec (im : Image) (k : Nat) : Option Nat := (im.recs 4).find? fun r => rb r 0 == k
def Image.unitIn (im : Image) (p u : Nat) : Bool :=
  (im.recs 5).any fun r => rb r 0 == p && decide (rn r 4 2 ≤ u) && decide (u ≤ rn r 6 2)

/-- The 256 MiB units that `n` bytes from `a` touch. -/
def unitsOf (a n : Nat) : List Nat := if n = 0 then [] else upFrom (a / 2 ^ 28) ((a + n - 1) / 2 ^ 28 - a / 2 ^ 28 + 1)

/-- Whether bytes lie in the MEMORY windows that the image gives a partition. -/
def Image.hbmIn (im : Image) (p a n : Nat) : Bool := inHbm a n && (unitsOf a n).all (im.unitIn p)

/-- Whether bytes lie in the galley window that the image gives cluster k. -/
def Image.galleyIn (im : Image) (k a n : Nat) : Bool :=
  match im.galleyRec k with
  | some r => inGalley (k / 2) a n && decide (galleyBase (k / 2) + rn r 2 2 * 2 ^ 20 ≤ a)
      && decide (a + n ≤ galleyBase (k / 2) + rn r 2 2 * 2 ^ 20 + rn r 4 2 * 2 ^ 20)
  | none => false

/-- The PORT record of a port (R406), and the partition of a port after the load. -/
def Image.portRec (im : Image) (p : Nat) : Option Nat := (im.recs 9).find? fun r => rb r 0 == p
def State.partAfter (s : State) (im : Image) (port : Nat) : Nat :=
  match im.portRec port with
  | some r => rb r 2
  | none => if im.mod then 0 else s.portPart port

/-- The ports and the engines that an image's records give a partition, as masks. -/
def Image.portMask (im : Image) (p : Nat) : Nat :=
  ((im.recs 9).filter fun r => rb r 2 == p).foldl (fun m r => m ||| 2 ^ rb r 0) 0
def Image.engineMask (im : Image) (p : Nat) : Nat :=
  ((im.recs 0xA).filter fun r => rb r 1 == p).foldl (fun m r => m ||| rn r 4 12 * 2 ^ (96 * rb r 0)) 0

/-- The bits of a mask that lie outside another. -/
def maskLess (a b : Nat) : Nat := (a ||| b) ^^^ b

/-- What a load gives a partition that its image names: what its records say and, for a partial image, the ports of the partition that no
record names, which stay as they stand (R406). -/
def State.claimOf (s : State) (im : Image) (p : Nat) : Claim :=
  let named := (im.recs 9).foldl (fun m r => m ||| 2 ^ rb r 0) 0
  ⟨im.clusters p, im.portMask p ||| (if im.mod then 0 else maskLess (Tbl.get Claim.init s.claims p).ports named), im.engineMask p⟩

/-! ### A record against its own rule (R398 to R410) -/

/-- Whether a record names a partition of PARTS. -/
def Image.names (im : Image) (p : Nat) : Bool := decide (p < 24) && bit im.parts p

def moduleOk (r : Nat) : Bool :=
  let parent := rb r 6
  let alt := rb r 7
  bits (rn r 0 2) 15 12 == 0 && decide (rb r 2 ≤ 2) && bits (rb r 3) 7 2 == 0 && (modRoot r || !bit (rb r 3) 1)
    && (if rb r 2 = 2 then decide (900 ≤ rn r 4 2) && decide (rn r 4 2 ≤ 2000) else rn r 4 2 == 0)
    && (decide (parent < 32) || (parent == 0x3F && modRoot r))
    && (alt == 0x3F || (decide (alt < 32) && alt != parent && !modRoot r))
    && rn r 10 2 == 0 && decide (1_000_000 ≤ rn r 12 4) && decide (rn r 12 4 ≤ 100_000_000) && rn r 16 16 == 0

def Image.partOk (im : Image) (r : Nat) : Bool :=
  im.names (rb r 0) && bits (rb r 1) 2 1 != 3 && bits (rb r 1) 7 3 == 0 && partClusters r != 0 && rb r 7 == 0
    && decide (10_000 ≤ rn r 8 4) && decide (rn r 8 4 ≤ 10_000_000) && rn r 12 4 == 0

def Image.coresOk (im : Image) (r : Nat) : Bool :=
  match im.clusterPart (rb r 0) with
  | none => false
  | some p => bits (rb r 1) 7 6 == 0 && rn r 2 14 == 0 && (List.range 6).all fun i =>
      let e := rn r (16 + 8 * i) 8
      if bit (rb r 1) i then e % 4 == 0 && decide (e < 2 ^ 48) && im.hbmIn p e 4 else e == 0

def Image.galleyOk (im : Image) (r : Nat) : Bool :=
  let k := rb r 0
  match im.clusterPart k with
  | none => false
  | some p => bits (rb r 1) 7 2 == 0 && decide (rn r 2 2 ≤ 255) && decide (rn r 4 2 ≤ 256) && rn r 6 2 == 0
      && (List.range 5).all fun q =>
        let v := galPool r q
        bits v 63 56 == 0 && (poolCount v == 0 || (poolBase v % berthSize q == 0
          && (if q < 3 then im.galleyIn k (poolBase v) (poolCount v * berthSize q) else im.hbmIn p (poolBase v) (poolCount v * berthSize q))))

def Image.memoryOk (im : Image) (r : Nat) : Bool :=
  let b := rb r 1
  im.names (rb r 0) && decide (b ≤ 3) && decide (rb r 2 ≤ 3) && bits (rb r 3) 7 1 == 0
    && decide (768 * b ≤ rn r 4 2) && decide (rn r 4 2 ≤ rn r 6 2) && decide (rn r 6 2 ≤ 768 * b + 767) && rn r 8 8 == 0

def Image.queueOk (im : Image) (r : Nat) : Bool :=
  let c := rb r 0
  let lq := (List.range 4).map fun i => rb r (2 + i)
  let ring := rn r 16 8
  decide (c < 156) && im.enabled c && (im.clusterPart (coreCluster c)).isSome && rb r 1 == 0
    && lq.all (fun n => decide (n ≤ 64)) && decide (lq.sum ≤ 128)
    && (List.range 9).all (fun e => decide (rb r (6 + e) ≤ 16)) && rb r 15 == 0
    && (ring == 0 || (ring % 64 == 0 && im.galleyIn (coreCluster c) ring 2112)) && rn r 24 8 == 0

def Image.shareOk (im : Image) (r : Nat) : Bool :=
  let d := rb r 1
  im.names (rb r 0) && decide (d < 16) && decide (rn r 2 2 ≤ 1023) && decide (rn r 2 2 + rn r 4 2 ≤ 1024)
    && (if d < 12 then rn r 8 2 == 0 && im.plist.any fun p => bits (im.clusters p) (2 * d + 1) (2 * d) != 0 else rn r 4 2 == 0)
    && rn r 10 6 == 0

/-- DIM of port p, and the mask of node n, in a ROUTE record (R405). -/
def routeDim (r p : Nat) : Nat := rb r p
def routeMask (r n : Nat) : Nat := rn r (32 + 4 * n) 4

def Image.routeOk (im : Image) (r : Nat) : Bool :=
  let shut := (List.range 32).filter fun p => routeDim r p == 0xF || (match im.portRec p with
    | some x => bit (rb x 1) 0
    | none => false)
  (List.range 32).all (fun p => decide (routeDim r p ≤ 11) || routeDim r p == 0xF)
    && (List.range 4096).all fun n => shut.all fun p => !bit (routeMask r n) p

def Image.portOk (im : Image) (r : Nat) : Bool :=
  decide (rb r 0 < 32) && bits (rb r 1) 7 2 == 0 && im.names (rb r 2) && rb r 3 == 0 && bits (rn r 4 2) 15 12 == 0
    && decide (rb r 6 < 32) && rn r 7 9 == 0

def Image.engineOk (im : Image) (r : Nat) : Bool := decide (rb r 0 ≤ 3) && im.names (rb r 1) && rn r 2 2 == 0

/-- COUNT of a LANE record for local port p′ (R408). -/
def laneCount (r q : Nat) : Nat := bits (rn r 8 8) (5 * q + 4) (5 * q)

def State.laneOk (s : State) (im : Image) (r : Nat) : Bool :=
  decide (rb r 0 ≤ 3) && decide (rb r 1 ≤ 7) && rn r 2 6 == 0 && bits (rn r 8 8) 63 40 == 0
    && (List.range 8).all fun q => decide (laneCount r q ≤ 16)
      && (im.names (s.partAfter im (8 * rb r 0 + q)) || laneCount r q == 0)

/-- Whether an address of a schedule entry lies in the partition's windows: those of the image, or, for a replacement image, those in
force. -/
def State.dueIn (s : State) (im : Image) (p a n : Nat) : Bool :=
  if im.replace then s.galleyWinOk p a n || (inHbm a n && (unitsOf a n).all fun u => s.hbmWinOk p (u * 2 ^ 28) 1)
  else (maskClusters (im.clusters p)).any (fun k => im.galleyIn k a n) || im.hbmIn p a n

/-- The clusters of a partition as the load leaves them. -/
def State.clustersOf (s : State) (p : Nat) : Nat := (Tbl.get Claim.init s.claims p).clusters
def State.clustersAfter (s : State) (im : Image) (p : Nat) : Nat := if im.replace then s.clustersOf p else im.clusters p

/-- Whether a die, and a core of it, belong to a partition that the image names: a base die serves every partition, the proof core both
clusters of its die. -/
def State.placeIn (s : State) (im : Image) (die core : Nat) : Bool :=
  let mine := im.plist.foldl (fun m p => m ||| s.clustersAfter im p) 0
  decide (12 ≤ die) || (if core < 12 then bit mine (2 * die + core / 6) else bit mine (2 * die) || bit mine (2 * die + 1))

/-- A TIDE record (R409): R382, and the checks of R384 that no time of acceptance enters. -/
def State.tideOk (s : State) (im : Image) (e : Nat) : Bool :=
  let p := enPart e
  let due := bits e 95 48
  s.entryOk e ⟨0, 16, 0xF⟩ && im.names p && (enKind e != 0x0D || [0x0B, 0x0C, 0x0D].contains (bits e 7 0))
    && (enAll e || s.placeIn im (enDie e) (enCore e))
    && (match enKind e with
      | 0x01 => due == 0 || s.dueIn im p due 16
      | 0x03 => due == 0 || s.dueIn im p due 16
      | 0x02 => bits e 17 0 % 16 == 0
      | 0x05 => due % 16 == 0 && bits e 47 0 % 8 == 0 && isGalley due && isGalley (bits e 47 0)
          && s.dueIn im p due 16 && s.dueIn im p (bits e 47 0) 8
      | _ => true)

def Image.checkOk (im : Image) (r : Nat) : Bool :=
  im.names (rb r 0) && decide (rb r 1 ≤ 2) && (rb r 2 == 0 || (decide (4 ≤ rb r 2) && decide (rb r 2 ≤ 16))) && rn r 3 5 == 0
    && rn r 16 16 == 0

/-- A record of a type against its own rule. -/
def State.recOk (s : State) (im : Image) (t r : Nat) : Bool :=
  match t with
  | 0x01 => moduleOk r
  | 0x02 => im.partOk r
  | 0x03 => im.coresOk r
  | 0x04 => im.galleyOk r
  | 0x05 => im.memoryOk r
  | 0x06 => im.queueOk r
  | 0x07 => im.shareOk r
  | 0x08 => im.routeOk r
  | 0x09 => im.portOk r
  | 0x0A => im.engineOk r
  | 0x0B => s.laneOk im r
  | 0x0C => s.tideOk im r
  | 0x0D => im.checkOk r
  | _ => true

/-- The key of a record within its section, for the types that have one (R415). -/
def recKey (t r : Nat) : Option Nat :=
  match t with
  | 0x02 => some (rb r 0)
  | 0x0D => some (rb r 0)
  | 0x03 => some (rb r 0)
  | 0x04 => some (rb r 0)
  | 0x05 => some (rn r 0 3)
  | 0x06 => some (rb r 0)
  | 0x07 => some (rn r 0 2)
  | 0x09 => some (rb r 0)
  | 0x0A => some (rn r 0 2)
  | 0x0B => some (rn r 0 2)
  | _ => none

/-! ### The checks of R415 -/

/-- A check of the header, at the field that fails. -/
def headBad (code off : Nat) (ok : Bool) : Option ImgBad := if ok then none else some ⟨code, 0xFF, 0xFFFF, some off⟩

/-- A check of the image as a whole, where no one field, entry, section or record fails. -/
def wholeBad (code : Nat) (ok : Bool) : Option ImgBad := if ok then none else some ⟨code, 0xFF, 0xFFFF, none⟩

/-- The index of the first record of a section that a check fails; the check sees the records before it. -/
def recAt (bad : List Nat → Nat → Bool) : List Nat → Nat → List Nat → Option Nat
  | _, _, [] => none
  | seen, j, r :: rest => if bad seen r then some j else recAt bad (r :: seen) (j + 1) rest

/-- A check of the records of a type, at the first record that fails it: of two records that clash, the later (log entry 18). -/
def Image.recBad (im : Image) (code t : Nat) (bad : List Nat → Nat → Bool) : Option ImgBad :=
  match im.sect t with
  | none => none
  | some x => (recAt bad [] 0 x.recs).map fun j =>
    ⟨code, x.idx, j, some (x.off + ((sectRule t).map SectRule.bytes).getD 0 * j)⟩

/-- The first check that fails. -/
def firstFail : List (Option ImgBad) → Option ImgBad
  | [] => none
  | some b :: _ => some b
  | none :: r => firstFail r

/-- Steps 5 to 9: the header. -/
def headChecks (img : List Byte) : Option ImgBad :=
  let n := imgNum img 0x0C 2
  let len := imgNum img 0x08 4
  let flags := imgNum img 0x0E 2
  let parts := imgNum img 0x10 4
  firstFail [headBad Code.IMPO_BAD_MAGIC 0 (imgNum img 0 4 == 0x4F504D49),
    headBad Code.IMPO_BAD_VERSION 4 (imgNum img 4 2 == 0x0100),
    headBad Code.IMPO_BAD_LENGTH 6 (imgNum img 6 2 == 64),
    headBad Code.IMPO_BAD_LENGTH 8 (len % 16 == 0 && decide (80 ≤ len) && decide (len ≤ 2 ^ 20)),
    headBad Code.IMPO_BAD_LENGTH 0x0C (decide (1 ≤ n) && decide (n ≤ 64) && decide (0x40 + 16 * n ≤ len)),
    headBad Code.IMPO_BAD_CRC 0x3C (crc32c (img.take 0x3C ++ (img.drop 0x40).take (16 * n)) == imgNum img 0x3C 4),
    headBad Code.IMPO_BAD_HEADER 0x0E (decide (flags < 3)),
    headBad Code.IMPO_BAD_HEADER 0x10 (parts != 0 && decide (parts < 2 ^ 24)),
    headBad Code.IMPO_BAD_HEADER 0x14 (imgNum img 0x14 4 == 0),
    headBad Code.IMPO_BAD_HEADER 0x20 (imgNum img 0x20 28 == 0)]

/-- Step 10: table entry i against R395, and its COUNT against R396. -/
def entryBad (img : List Byte) (im : Image) (x : Sect) : Option ImgBad :=
  let clash := im.sects.any fun y => decide (y.idx < x.idx) && decide (x.off < y.off + y.size) && decide (y.off < x.off + x.size)
  let ok := rb (imgNum img (0x40 + 16 * x.idx) 16) 1 == 0 && x.off % 16 == 0 && decide (0x40 + 16 * im.sects.length ≤ x.off)
    && decide (x.off + x.size ≤ imgNum img 8 4) && !clash && (match sectRule x.typ with
      | some r => x.size == x.count * r.bytes && decide (r.least ≤ x.count) && decide (x.count ≤ r.most)
      | none => true)
  if ok then none else some ⟨Code.IMPO_BAD_LENGTH, x.idx, 0xFFFF, some (0x40 + 16 * x.idx)⟩

/-- Step 11: a section's CRC. -/
def crcBad (img : List Byte) (x : Sect) : Option ImgBad :=
  if crc32c ((img.drop x.off).take x.size) = x.crc then none else some ⟨Code.IMPO_SECTION_CRC, x.idx, 0xFFFF, some x.off⟩

/-- Step 12: a section's type. -/
def typeBad (im : Image) (x : Sect) : Option ImgBad :=
  let ok := (match sectRule x.typ with
    | some r => r.use im.mod im.replace != 0
    | none => false) && !im.sects.any fun y => decide (y.idx < x.idx) && y.typ == x.typ
  if ok then none else some ⟨Code.IMPO_BAD_SECTION, x.idx, 0xFFFF, some (0x40 + 16 * x.idx)⟩

/-- Step 13: every required section and record is there (R396). -/
def Image.complete (im : Image) : Bool :=
  let has (t : Nat) : Bool := (im.sect t).isSome
  sectTypes.all (fun t => match sectRule t with
    | some r => r.use im.mod im.replace != 2 || has t
    | none => true)
    && (if im.replace then has 0xB || has 0xC || has 0xD
      else im.plist.all fun p => (im.recs 2).any (fun r => rb r 0 == p) && (im.recs 0xD).any (fun r => rb r 0 == p)
        && (maskClusters (im.clusters p)).all fun k => (im.coresRec k).isSome && (im.galleyRec k).isSome)

/-- Step 14: the first record of a section that fails its rule or repeats a key; `seen` holds the keys before it. -/
def State.recsBad (s : State) (im : Image) (x : Sect) (bytes : Nat) : Nat → List Nat → List Nat → Option ImgBad
  | _, _, [] => none
  | j, seen, r :: rest =>
    let again := match recKey x.typ r with
      | some k => seen.contains k
      | none => false
    if again || !s.recOk im x.typ r then some ⟨Code.IMPO_BAD_RECORD, x.idx, j, some (x.off + bytes * j)⟩
    else s.recsBad im x bytes (j + 1) ((recKey x.typ r).toList ++ seen) rest

/-- The partitions that stay IMPOSED beside those the image names. -/
def State.others (s : State) (im : Image) : List Nat := (List.range 24).filter fun q => s.pstate q == 2 && !bit im.parts q

/-- Step 15 (R396). -/
def State.stateOk (s : State) (im : Image) : Bool :=
  if im.replace then im.plist.all fun p => s.pstate p == 2
  else im.plist.all (fun p => s.pstate p != 2) && !(im.mod && (List.range 24).any fun p => s.pstate p == 2)

/-- What a partition holds. -/
def State.claimed (s : State) (p : Nat) : Claim := Tbl.get Claim.init s.claims p

/-- Whether two masks of clusters share a die. -/
def shareDie (a b : Nat) : Bool := (List.range 12).any fun d => bits a (2 * d + 1) (2 * d) != 0 && bits b (2 * d + 1) (2 * d) != 0

/-- Step 16 on a PART record: a cluster that an earlier record or a partition that stays has, or a die shared with another GRACE. -/
def State.partClash (s : State) (im : Image) (seen : List Nat) (r : Nat) : Bool :=
  let mine := partClusters r
  seen.any (fun q => mine &&& partClusters q != 0 || (shareDie mine (partClusters q) && rn q 8 4 != rn r 8 4))
    || (s.others im).any fun q => mine &&& (s.claimed q).clusters != 0
      || (List.range 12).any fun d => bits mine (2 * d + 1) (2 * d) != 0 && bits (s.claimed q).clusters (2 * d + 1) (2 * d) != 0
        && s.fld (a_COLL_CTL d) f_COLL_CTL_GRACE != rn r 8 4

/-- Step 16 on a PORT, an ENGINE and a MEMORY record: a port, an engine or an HBM unit that an earlier record gives to another partition, or
that a partition that stays has. -/
def State.portClash (s : State) (im : Image) (r : Nat) : Bool := (s.others im).any fun q => bit (s.claimed q).ports (rb r 0)
def State.engineClash (s : State) (im : Image) (seen : List Nat) (r : Nat) : Bool :=
  seen.any (fun q => rb q 0 == rb r 0 && rb q 1 != rb r 1 && rn q 4 12 &&& rn r 4 12 != 0)
    || (s.others im).any fun q => (rn r 4 12 * 2 ^ (96 * rb r 0)) &&& (s.claimed q).engines != 0
def State.memoryClash (s : State) (im : Image) (seen : List Nat) (r : Nat) : Bool :=
  seen.any (fun q => rb q 0 != rb r 0 && decide (rn q 4 2 ≤ rn r 6 2) && decide (rn r 4 2 ≤ rn q 6 2))
    || (s.others im).any fun q => (upFrom (rn r 4 2) (rn r 6 2 - rn r 4 2 + 1)).any fun u => s.hbmWinOk q (u * 2 ^ 28) 1

/-- SHARED of a die against R401: in both records or in neither, both clusters in one partition, and the odd cluster's pools zero. -/
def Image.sharedOk (im : Image) (die : Nat) : Bool :=
  let g (i : Nat) : Option Nat := im.galleyRec (2 * die + i)
  let on (x : Option Nat) : Bool := (x.map fun r => bit (rb r 1) 0).getD false
  (!on (g 0) && !on (g 1)) || (on (g 0) && on (g 1) && im.clusterPart (2 * die) == im.clusterPart (2 * die + 1)
    && (List.range 5).all fun q => ((g 1).map fun r => galPool r q).getD 0 == 0)

/-- Step 16, at the record that clashes. A replacement has none of these sections. -/
def State.conflictBad (s : State) (im : Image) : Option ImgBad :=
  firstFail [im.recBad Code.IMPO_CONFLICT 2 (s.partClash im), im.recBad Code.IMPO_CONFLICT 9 (fun _ => s.portClash im),
    im.recBad Code.IMPO_CONFLICT 0xA (s.engineClash im), im.recBad Code.IMPO_CONFLICT 5 (s.memoryClash im),
    im.recBad Code.IMPO_CONFLICT 4 fun _ r => !im.sharedOk (rb r 0 / 2)]

/-- The SHARE record of a partition on a die. -/
def Image.shareRec (im : Image) (p die : Nat) : Option Nat := (im.recs 7).find? fun r => rn r 0 2 == p + 256 * die

/-- History range, reserved slots and combining reserve of a partition on a die after the load. -/
def State.shareAfter (s : State) (im : Image) (p die : Nat) : HistRange × Nat × Nat :=
  if bit im.parts p && !im.replace then match im.shareRec p die with
    | some r => (⟨rn r 2 2, rn r 4 2⟩, rn r 6 2, rn r 8 2)
    | none => (⟨0, 0⟩, 0, 0)
  else if im.mod then (⟨0, 0⟩, 0, 0)
  else (Tbl.get ⟨0, 0⟩ s.histRanges (die * 32 + p), s.partRes die p,
    if die < 12 then 0 else s.fld (a_RTR_CRES die p) f_RTR_CRES_RESERVE)

/-- Slots that a partition's entries take on a die after the load: those that stay pending, and those of the image. A replacement's TIDE
section takes the place of the entries of source I (R425). -/
def State.slotsAfter (s : State) (im : Image) (p die : Nat) : Nat :=
  let stay := (s.slots die).filter fun x => enPart x.2.entry == p
    && !(im.replace && (im.sect 0xC).isSome && bit im.parts p && x.2.source == 0)
  stay.length + ((im.recs 0xC).filter fun e => enPart e == p && (enDies e).contains die).length

/-- Whether two history ranges overlap. -/
def HistRange.meets (a b : HistRange) : Bool :=
  a.count != 0 && b.count != 0 && decide (a.first < b.first + b.count) && decide (b.first < a.first + a.count)

/-- Step 17, the sums of R404, on a SHARE record: with those before it and the partitions that stay, its die's slots, combining entries or
history slots do not suffice. -/
def State.shareBad (s : State) (im : Image) (seen : List Nat) (r : Nat) : Bool :=
  let d := rb r 1
  let before := seen.filter fun q => rb q 1 == d
  let stay := (s.others im).map fun q => s.shareAfter im q d
  decide (s.fld (a_TIDE_SCHED d) f_TIDE_SCHED_CAP < rn r 6 2 + (before.map fun q => rn q 6 2).sum + (stay.map fun x => x.2.1).sum)
    || decide (4096 < rn r 8 2 + (before.map fun q => rn q 8 2).sum + (stay.map fun x => x.2.2).sum)
    || (before.map fun q => (⟨rn q 2 2, rn q 4 2⟩ : HistRange)).any (HistRange.meets ⟨rn r 2 2, rn r 4 2⟩)
    || (stay.map fun x => x.1).any (HistRange.meets ⟨rn r 2 2, rn r 4 2⟩)

/-- Step 17, the slot fit of R409 on one die, with the reservations that TIDE_PRES holds after the load for every partition (R384). -/
def State.slotsFit (s : State) (im : Image) (die : Nat) : Bool :=
  let ps := List.range 24
  let cap := s.fld (a_TIDE_SCHED die) f_TIDE_SCHED_CAP
  let res := fun p => (s.shareAfter im p die).2.1
  decide ((ps.map fun p => s.slotsAfter im p die - res p).sum ≤ cap - (ps.map res).sum)
    && decide ((ps.map fun p => s.slotsAfter im p die).sum ≤ cap)

/-- Step 18: the envelope in watts (R457), and the floors. -/
def envelopeOf (mode cap : Nat) : Nat := if mode = 0 then 2000 else if mode = 1 then 1500 else cap
def State.powerOk (s : State) (im : Image) : Bool :=
  let e := match im.recs 1 with
    | r :: _ => envelopeOf (rb r 2) (rn r 4 2)
    | [] => envelopeOf (s.fld (a_PWR_MODE 12) f_PWR_MODE_MODE) (s.fld (a_PWR_MODE 12) f_PWR_MODE_CAP)
  im.replace || decide (((im.recs 2).map fun r => rn r 2 2).sum
    + ((s.others im).map fun q => s.fld (a_PWR_FLOOR 12 q) f_PWR_FLOOR_FLOOR).sum ≤ e)

/-- Step 19, for a replacement: a CHECK record with a KEY other than the one in force, and a section whose type has an APPLY within
1,000,000 tide units. -/
def State.keyBad (s : State) (im : Image) (r : Nat) : Bool :=
  im.replace && (maskClusters (s.clustersOf (rb r 0))).any fun k => (s.reg (a_CHK_KEY (k / 2) (k % 2))).toNat != rn r 8 8
def State.applyBad (s : State) (im : Image) (x : Sect) : Option ImgBad :=
  if im.replace && (s.slots 12).any fun y => enKind y.2.entry == 0x0D && bit im.parts (enPart y.2.entry) && bits y.2.entry 7 0 == x.typ
      && decide (y.2.due < s.tideOf 12 + 1_000_000) then
    some ⟨Code.IMPO_APPLY_TOO_NEAR, x.idx, 0xFFFF, some x.off⟩
  else none

/-- Whether a unit of kinds 0 to 3 of a core is quarantined (R222). -/
def State.coreQuar (s : State) (c : Nat) : Bool :=
  s.units.any fun u => u.2.quarantined && decide (u.1 / 0x1000 < 4) && bits u.1 11 8 == coreDie c && bits u.1 7 4 == coreNo c
def State.quar (s : State) (u : Nat) : Bool := (s.unit u).quarantined

/-- The cores that a CORES record enables. -/
def coresOn (r : Nat) : List Nat := ((List.range 6).filter fun i => bit (rb r 1) i).map (clusterCore (rb r 0))

/-- Step 20, first: an enabled core, an engine queue of nonzero capacity or an RL window on a quarantined unit, or the module itself. -/
def State.quarBad (s : State) (im : Image) : Option ImgBad :=
  firstFail [im.recBad Code.QUARANTINED_UNIT 3 (fun _ r => (coresOn r).any s.coreQuar),
    im.recBad Code.QUARANTINED_UNIT 6 (fun _ r => (List.range 9).any fun e => rb r (6 + e) != 0 && s.quar (unitId 8 (rb r 0 / 13) 0xF e)),
    im.recBad Code.QUARANTINED_UNIT 4 (fun _ r => bit (rb r 1) 1 && s.quar (unitId 5 (rb r 0 / 2) 0xF 0xF)),
    im.recBad Code.QUARANTINED_UNIT 5 (fun _ r => bit (rb r 3) 0 && (List.range 12).any fun st =>
      decide (rn r 4 2 / 256 ≤ st) && decide (st ≤ rn r 6 2 / 256) && s.quar (unitId 5 (stackBase st) 0xF st)),
    wholeBad Code.QUARANTINED_UNIT (!s.quar (unitId 7 0 0xF 0xF))]

/-- Step 20, second: an enabled core on a lost die (R240). -/
def State.dieBad (s : State) (im : Image) : Option ImgBad :=
  im.recBad Code.DIE_UNAVAILABLE 3 fun _ r => (coresOn r).any fun c => s.lost.contains (coreDie c)

/-- Whether a stack is in service whole: it is not rejected and has no FAILED channel (R278, 18_start_up.md R536). -/
def State.stackOk (s : State) (st : Nat) : Bool :=
  s.fld (a_HBM_STACK_STATUS (stackBase st) (stackWin st)) f_HBM_STACK_STATUS_STATE != 4
    && (List.range 32).all fun ch => s.fld (a_chan st ch) f_HBM_CH_STATUS_STATE != 5

/-- Step 20, third: a window, HBM berth pool or ENTRY on a stack with a FAILED channel. -/
def State.memoryBad (s : State) (im : Image) : Option ImgBad :=
  let bad (u : Nat) : Bool := !s.stackOk (u / 256)
  firstFail [im.recBad Code.MEMORY_UNAVAILABLE 5 (fun _ r =>
      (upFrom (rn r 4 2 / 256) (rn r 6 2 / 256 - rn r 4 2 / 256 + 1)).any fun st => !s.stackOk st),
    im.recBad Code.MEMORY_UNAVAILABLE 4 (fun _ r => [3, 4].any fun q =>
      (unitsOf (poolBase (galPool r q)) (poolCount (galPool r q) * berthSize q)).any bad),
    im.recBad Code.MEMORY_UNAVAILABLE 3 (fun _ r => (List.range 6).any fun i => bit (rb r 1) i && bad (rn r (16 + 8 * i) 8 / 2 ^ 28))]

/-- Steps 10 to 20 on a parsed image. -/
def State.bodyChecks (s : State) (img : List Byte) (im : Image) : Option ImgBad :=
  firstFail (im.sects.map (entryBad img im) ++ im.sects.map (crcBad img) ++ im.sects.map (typeBad im)
    ++ [wholeBad Code.IMPO_MISSING_SECTION im.complete]
    ++ im.sects.map (fun x => s.recsBad im x (((sectRule x.typ).map SectRule.bytes).getD 0) 0 [] x.recs)
    ++ [headBad Code.IMPO_STATE 0x10 (s.stateOk im), s.conflictBad im, im.recBad Code.IMPO_CAPACITY 7 (s.shareBad im),
      wholeBad Code.IMPO_CAPACITY ((List.range 16).all (s.slotsFit im)), wholeBad Code.IMPO_POWER (s.powerOk im),
      im.recBad Code.IMPO_KEY_CHANGE 0xD (fun _ => s.keyBad im)]
    ++ im.sects.map (s.applyBad im) ++ [s.quarBad im, s.dieBad im, s.memoryBad im])

/-- Steps 5 to 20 on the copy of an image. -/
def State.imageChecks (s : State) (img : List Byte) : Option ImgBad :=
  match headChecks img with
  | some b => some b
  | none => s.bodyChecks img (parseImage img)

end Sys2Proof.Machine
end

