-- ==== Sys2Proof/Machine/Imposition.lean ====
section
/-! DEFINITION. The imposition loader (13_imposition_image.md R397, R412 to R426): loading an image, releasing partitions, and replacing sections
at tide marks. -/

namespace Sys2Proof.Machine
open Sys2Proof

/-! ### The register writes of a load -/

/-- A register write of the loader: the register, and the fields it sets. -/
abbrev LoadWrite := Nat × List (Fld × Nat)

/-- The four base dies. -/
def baseDies : List Nat := [12, 13, 14, 15]

/-- LANE_PLAN's field of local port q (R408). -/
def f_plan (q : Nat) : Fld := ⟨5 * q + 4, 5 * q⟩

/-- The dies that hold clusters of a mask. -/
def maskDies (m : Nat) : List Nat := (List.range 12).filter fun d => bits m (2 * d + 1) (2 * d) != 0

/-- What a record of a type writes (R398 to R408, R410). -/
def State.recWrites (s : State) (im : Image) (t r : Nat) : List LoadWrite :=
  match t with
  | 0x01 =>
    baseDies.flatMap (fun b => [(a_RTR_NODE b, [(f_RTR_NODE_NODE, rn r 0 2)]),
      (a_RTR_CTL b, [(f_RTR_CTL_STARVE, rb r 8), (f_RTR_CTL_CWIN, rb r 9)]), (a_PHX_CAL b, [(f_PHX_CAL_STEP, rn r 12 4)])])
      ++ (List.range 16).map (fun d => (a_PWR_MODE d, [(f_PWR_MODE_MODE, rb r 2), (f_PWR_MODE_CAP, rn r 4 2)]))
      ++ [(a_TIDE_CTL 12, [(f_TIDE_CTL_ROOT, b2n (modRoot r)), (f_TIDE_CTL_PTPSTEER, bits (rb r 3) 1 1),
        (f_TIDE_CTL_PARENT, rb r 6), (f_TIDE_CTL_ALT, rb r 7)])]
  | 0x02 =>
    let p := rb r 0
    let ks := maskClusters (partClusters r)
    baseDies.map (fun b => (a_HBM_PART b p, [(f_HBM_PART_INVARIANT, bits (rb r 1) 0 0)]))
      ++ ks.flatMap (fun k => [(a_GALLEY_WIN (k / 2) (k % 2), [(f_GALLEY_WIN_PART, p)]),
        (a_COLL_CTL (k / 2), [(if k % 2 = 0 then f_COLL_CTL_NF0 else f_COLL_CTL_NF1, bits (rb r 1) 2 1),
          (f_COLL_CTL_GRACE, rn r 8 4)])])
      ++ (List.range 16).map fun d => (a_PWR_FLOOR d p, [(f_PWR_FLOOR_FLOOR, rn r 2 2)])
  | 0x03 => (List.range 6).map fun i =>
    let c := clusterCore (rb r 0) i
    (a_PILOT_ENTRY (coreDie c) (coreNo c), [(f_PILOT_ENTRY_ENTRY, rn r (16 + 8 * i) 8)])
  | 0x04 =>
    let d := rb r 0 / 2
    let k := rb r 0 % 2
    [(a_GALLEY_WIN d k, [(f_GALLEY_WIN_BASE, rn r 2 2), (f_GALLEY_WIN_SIZE, rn r 4 2)]),
      (a_BERTH_CTL d, [(f_BERTH_CTL_SHARED, bits (rb r 1) 0 0)])]
      ++ (List.range 5).map fun q => (a_BERTH_POOL d k q, [(f_BERTH_POOL_COUNT, poolCount (galPool r q)),
        (f_BERTH_POOL_BASE, bits (galPool r q) 35 0)])
  | 0x05 => [(a_HBM_WIN (12 + rb r 1) (rb r 0) (rb r 2),
      [(f_HBM_WIN_VALID, 1), (f_HBM_WIN_BASE, rn r 4 2), (f_HBM_WIN_LIMIT, rn r 6 2)])]
  | 0x06 => [(a_TIDE_RING (rb r 0 / 13) (rb r 0 % 13), [(f_TIDE_RING_BASE, rn r 16 8)])]
  | 0x07 => (a_TIDE_PRES (rb r 1) (rb r 0), [(f_TIDE_PRES_SLOTS, rn r 6 2)])
      :: (if 12 ≤ rb r 1 then [(a_RTR_CRES (rb r 1) (rb r 0), [(f_RTR_CRES_RESERVE, rn r 8 2)])] else [])
  | 0x08 => (List.range 32).map (fun p => (a_RTR_PORTDIM (12 + p / 8) (p % 8), [(f_RTR_PORTDIM_DIM, routeDim r p)]))
      ++ (List.range 4096).flatMap fun n => baseDies.map fun b => (a_RTR_ROUTE b n, [(f_RTR_ROUTE_MASK, routeMask r n)])
  | 0x09 =>
    let p := rb r 0
    [(a_port p, [(f_PHX_PORT_DISABLE, bits (rb r 1) 0 0), (f_PHX_PORT_PART, rb r 2)]),
      (a_PHX_PORT_EXP (portDie p) (portNo p), [(f_PHX_PORT_EXP_NODE, rn r 4 2), (f_PHX_PORT_EXP_PORT, rb r 6),
        (f_PHX_PORT_EXP_CHECK, bits (rb r 1) 1 1)])]
  | 0x0A => ((List.range 96).filter fun i => bit (rn r 4 12) i).map fun i =>
      (a_LANE_CTL (12 + rb r 0) i, [(f_LANE_CTL_PART, rb r 1), (f_LANE_CTL_ENABLE, 1)])
  | 0x0B => [(a_LANE_PLAN (12 + rb r 0) (rb r 1),
      ((List.range 8).filter fun q => im.names (s.partAfter im (8 * rb r 0 + q))).map fun q => (f_plan q, laneCount r q))]
  | 0x0D =>
    let p := rb r 0
    (maskClusters (im.clusters p)).flatMap (fun k =>
        [(a_CHK_CFG (k / 2) (k % 2), [(f_CHK_CFG_LEVEL, rb r 1), (f_CHK_CFG_SEXP, rb r 2)]),
          (a_CHK_KEY (k / 2) (k % 2), [(f_CHK_KEY_KEY, rn r 8 8)])])
      ++ baseDies.map fun b => (a_CHK_PKEY b p, [(f_CHK_PKEY_KEY, rn r 8 8)])
  | _ => []

/-- The writes of the sections, in ascending TYPE order and record order (R417 step 3). -/
def State.sectWrites (s : State) (im : Image) (types : List Nat) : List LoadWrite :=
  types.flatMap fun t => (im.recs t).flatMap (s.recWrites im t)

/-- The fields that cluster k gives to its partition (R397, R399 to R403, R410). -/
def clusterFields (k : Nat) : List (Nat × List Fld) :=
  let d := k / 2
  let i := k % 2
  [(a_GALLEY_WIN d i, [f_GALLEY_WIN_PART, f_GALLEY_WIN_SIZE, f_GALLEY_WIN_BASE]),
    (a_CHK_CFG d i, [f_CHK_CFG_LEVEL, f_CHK_CFG_SEXP]), (a_CHK_KEY d i, [f_CHK_KEY_KEY]), (a_BERTH_CTL d, [f_BERTH_CTL_SHARED]),
    (a_COLL_CTL d, [if i = 0 then f_COLL_CTL_NF0 else f_COLL_CTL_NF1])]
    ++ (List.range 5).map (fun q => (a_BERTH_POOL d i q, [f_BERTH_POOL_COUNT, f_BERTH_POOL_BASE]))
    ++ (clusterCores k).flatMap fun c => [(a_PILOT_ENTRY (coreDie c) (coreNo c), [f_PILOT_ENTRY_ENTRY]),
      (a_TIDE_RING (coreDie c) (coreNo c), [f_TIDE_RING_BASE])]

/-- The fields that partition p owns by its number. -/
def partFields (p : Nat) : List (Nat × List Fld) :=
  baseDies.flatMap (fun b => (List.range 4).map (fun i => (a_HBM_WIN b p i, [f_HBM_WIN_VALID, f_HBM_WIN_BASE, f_HBM_WIN_LIMIT]))
      ++ [(a_HBM_PART b p, [f_HBM_PART_INVARIANT]), (a_CHK_PKEY b p, [f_CHK_PKEY_KEY]), (a_RTR_CRES b p, [f_RTR_CRES_RESERVE])])
    ++ (List.range 16).flatMap fun d => [(a_PWR_FLOOR d p, [f_PWR_FLOOR_FLOOR]), (a_TIDE_PRES d p, [f_TIDE_PRES_SLOTS])]

/-- The clusters that a load resets: those it gives its partitions, and those that they held before; for a module image all. -/
def State.resetClusters (s : State) (im : Image) : List Nat :=
  let m := im.plist.foldl (fun m p => m ||| im.clusters p ||| s.clustersOf p) 0
  (List.range 24).filter fun k => im.mod || bit m k

/-- The lane engines that a load resets. -/
def State.resetEngines (s : State) (im : Image) : List Nat :=
  let m := im.plist.foldl (fun m p => m ||| im.engineMask p ||| (s.claimed p).engines) 0
  (List.range 384).filter fun l => im.mod || bit m l

/-- The fields of R397, by register. -/
def State.ownedFields (s : State) (im : Image) : List (Nat × List Fld) :=
  let ports := (List.range 32).filter fun p => im.names (s.partAfter im p)
  (s.resetClusters im).flatMap clusterFields
    ++ (if im.mod then List.range 24 else im.plist).flatMap partFields
    ++ (s.resetEngines im).map (fun l => (a_lctl l, [f_LANE_CTL_PART, f_LANE_CTL_ENABLE]))
    ++ baseDies.flatMap (fun b => (List.range 8).map fun n =>
      (a_LANE_PLAN b n, ((List.range 8).filter fun q => im.mod || ports.contains (8 * (b - 12) + q)).map f_plan))
    ++ (if im.mod then (List.range 32).flatMap (fun p => [(a_port p, [f_PHX_PORT_DISABLE, f_PHX_PORT_PART]),
          (a_PHX_PORT_EXP (portDie p) (portNo p), [f_PHX_PORT_EXP_NODE, f_PHX_PORT_EXP_PORT, f_PHX_PORT_EXP_CHECK])])
        ++ (List.range 12).map (fun d => (a_COLL_CTL d, [f_COLL_CTL_GRACE]))
        ++ (List.range 12).map (fun d => (a_PWR_RAMP d, [f_PWR_RAMP_HOLD, f_PWR_RAMP_WINC]))
        ++ (List.range 16).flatMap (fun d => [(a_PWR_MODE d, [f_PWR_MODE_LOSS]),
          (a_PWR_THERM d, [f_PWR_THERM_TRIP, f_PWR_THERM_CLEAR, f_PWR_THERM_THROTTLE])])
        ++ baseDies.map (fun b => (a_PWR_THERM_HBM b, [f_PWR_THERM_HBM_TRIP, f_PWR_THERM_HBM_CLEAR, f_PWR_THERM_HBM_THROTTLE]))
        ++ (List.range 16).flatMap fun d => (List.range (if d < 12 then 1 else 5)).map fun l => (a_QUAY_LCTL d l, [f_QUAY_LCTL_DISABLE])
      else [])

/-- Step 2 of R417: every field of R397 that no record sets, at its reset value; a port that no record of a module image names is
disabled (R406). -/
def State.resetWrites (s : State) (im : Image) : List LoadWrite :=
  let ws := s.sectWrites im (sectTypes.filter fun t => t != 8)
  (s.ownedFields im).filterMap fun x =>
    let fs := x.2.filter fun f => !ws.any fun w => w.1 == x.1 && w.2.any fun g => g.1 == f
    if fs.isEmpty then none
    else some (x.1, fs.map fun f =>
      (f, if f = f_PHX_PORT_DISABLE && regBlock x.1 == 9 && (List.range 32).any (fun p => a_port p == x.1) then 1
        else f.get (regReset x.1)))

/-- The register writes of a load in order (R417 steps 2 and 3). -/
def State.loadWrites (s : State) (im : Image) : List LoadWrite := s.resetWrites im ++ s.sectWrites im sectTypes

/-! ### Writing -/

/-- What a change of PHX_PORT does beyond the register: a port that is disabled closes, one that is enabled is down (R305). -/
def State.portChanged (s : State) (old : State) (port : Nat) : State :=
  if s.fld (a_port port) f_PHX_PORT_DISABLE = old.fld (a_port port) f_PHX_PORT_DISABLE then s
  else if s.fld (a_port port) f_PHX_PORT_DISABLE = 1 then s.portOff port
  else s.setFld (a_port port) f_PHX_PORT_STATE 0

/-- A write of the loader done and journaled under the loading interface (R16, R417). -/
def State.loadWrite (s : State) (src : Source) (w : LoadWrite) : State :=
  let old := s.readReg w.1
  let new := w.2.foldl (fun v p => p.1.set v p.2) (s.reg w.1)
  let s1 := s.setReg w.1 new
  let s2 := match (List.range 32).find? fun p => a_port p == w.1 with
    | some p => s1.portChanged s p
    | none => if w.1 = a_TIDE_CTL 12 then s1.tideCtlChanged s else s1
  s2.journal1 src w.1 0 old new

/-- Whether a write to a die can be carried out: it is in service with its clocks. -/
def State.writable (s : State) (die : Nat) : Bool := s.dieUp die && !s.stopped die

/-- Writes in order up to the first that cannot be carried out: its die (R418). -/
def State.writeAll (s : State) (src : Source) : List LoadWrite → State × Option Nat
  | [] => (s, none)
  | w :: r => if s.writable (regDie w.1) then (s.loadWrite src w).writeAll src r else (s, some (regDie w.1))

/-- The loader's write of a block's lock bit, with the tide at which it was first set (R417 step 4, R420, R544), journaled in its place
(R417, R545). -/
def State.lockBlock (s : State) (src : Source) (die blk : Nat) : State :=
  let a := a_BLK_LOCK die blk
  if s.fld a f_BLK_LOCK_LOCKED = 1 then s.loadWrite src (a, [(f_BLK_LOCK_LOCKED, 1)])
  else s.loadWrite src (a, [(f_BLK_LOCK_LOCKED, 1), (f_BLK_LOCK_LTIDE, s.tideOf die)])

/-! ### States and results -/

/-- Whether the loader takes a LOAD: it is IDLE, the module is READY and in no brownout hold (R415, R454, 18_start_up.md R533). -/
def State.loaderOpen (s : State) : Bool :=
  s.fld a_IMPO_STATUS f_IMPO_STATUS_STATE == 0 && decide (0x0A ≤ s.fld a_MGMT_BOOT f_MGMT_BOOT_STEP)
    && decide (s.fld a_PWR_SUPPLY f_PWR_SUPPLY_STATE < 2)

/-- The loader IDLE, with no load in hand. -/
def State.loaderIdle (s : State) : State := { s.setFld a_IMPO_STATUS f_IMPO_STATUS_STATE 0 with loader := none }

/-- An offset that no rule gives is a free value. -/
def State.offOf (s : State) (o : Option Nat) : Nat × State :=
  match o with
  | some n => (n, s)
  | none => (s.free.1.toNat, s.free.2)

/-- A refusal (R416): RESULT and IMPO_ERR, the journal and a status record. IMAGE_ID and HCRC of an image that was not read are free
values. -/
def State.refuseImage (s : State) (src : Source) (b : ImgBad) (img : List Byte) : State :=
  let known := decide (64 ≤ img.length)
  let f1 := s.free
  let f2 := f1.2.free
  let id := if known then imgNum img 0x18 8 else f1.1.toNat
  let hcrc := if known then imgNum img 0x3C 4 else f2.1.toNat % 2 ^ 32
  let s1 := if known then s else f2.2
  let o := s1.offOf b.off
  let s2 := (o.2.setFld a_IMPO_STATUS f_IMPO_STATUS_RESULT 3).setFlds a_IMPO_ERR
    [(f_IMPO_ERR_CODE, b.code), (f_IMPO_ERR_SECT, b.sect), (f_IMPO_ERR_RECORD, b.record), (f_IMPO_ERR_OFFSET, o.1)]
  (s2.journalAs src 2 0 b.code (BitVec.ofNat 64 id) (BitVec.ofNat 64 hcrc)).report Code.IMPO_REFUSED 12 31 [b.code, id]

/-- A load that a write failure has stopped (R418). -/
def State.loadFailed (s : State) (x : LoadRun) (die : Nat) : State :=
  let im := parseImage x.image
  let s1 := s.setFld a_IMPO_STATUS f_IMPO_STATUS_RESULT 3
  let o := s1.offOf none
  let s2 := o.2.setFlds a_IMPO_ERR [(f_IMPO_ERR_CODE, Code.IMPO_WRITE_FAILED), (f_IMPO_ERR_SECT, 0xFF), (f_IMPO_ERR_RECORD, 0xFFFF),
    (f_IMPO_ERR_OFFSET, o.1)]
  let s3 := im.plist.foldl (fun t p => t.setPstate p 0) s2
  ((s3.journalAs x.src 2 0 Code.IMPO_WRITE_FAILED (BitVec.ofNat 64 im.id) (BitVec.ofNat 64 im.hcrc)).report
    Code.IMPO_WRITE_FAILED 12 31 [die]).loaderIdle

/-- An image loaded or staged: RESULT, LOADS and IMPO_LAST, and its status record (R417, R424). -/
def State.loadDone (s : State) (im : Image) (result code : Nat) : State :=
  let s1 := (s.setFld a_IMPO_STATUS f_IMPO_STATUS_RESULT result).bump a_IMPO_STATUS f_IMPO_STATUS_LOADS
  (({ s1 with lastHcrc := im.hcrc }.setReg a_IMPO_LAST (BitVec.ofNat 64 im.id)).report code 12 31 [im.id]).loaderIdle

/-! ### RELEASE and DISCARD -/

/-- A partition taken to EMPTY (R413): its cores reset and halted, with a proof core that stands in for one of them (DEDUCED from R412),
its entries and its staged sections removed, its TORN bit set. One that is EMPTY or LOADING stays. -/
def State.releasePart (s : State) (p : Nat) : State :=
  if s.pstate p < 2 then s
  else
    let s1 := ((maskClusters (s.clustersOf p)).flatMap clusterCores).foldl (fun t c =>
      let u := t.coreReset c
      if u.actor c = c then u else u.coreReset (u.actor c)) (s.setPstate p 0)
    ((s1.dropSlots fun _ x => enPart x.entry == p).dropStaged p).setTorn p 1

/-- A command to the loader: none has an effect from JTAG or a pilot (R422). -/
def State.loaderCommand (s : State) (src : Source) (id : CmdId) (f : State → State) : State :=
  match src with
  | .jtag => if s.alone then s.journal1 src id.addr Code.BAD_REG_ACCESS (s.readReg id.addr) (s.commandWord id)
    else s.gather ⟨src, id.addr, true, true, s.commandWord id⟩
  | .pilot _ => s
  | _ => s.command src id f

/-- What the command of the same row does. -/
def State.doImpoRelease (t : State) (parts : Nat) : State := (maskParts parts).foldl (fun u p => u.releasePart p) t

/-- IMPO_RELEASE: RELEASE of the partitions of PARTS (R413). -/
def execImpoRelease (src : Source) (parts : Nat) (s : State) : Host.Outcome State Fault Refusal :=
  .next (s.loaderCommand src (cmdImpoRelease parts) fun t => t.doImpoRelease parts)

/-- What the command of the same row does. -/
def State.doImpoDiscard (t : State) (parts : Nat) : State := (maskParts parts).foldl (fun u p => u.dropStaged p) t

/-- IMPO_DISCARD: the staged sections of PARTS dropped (R424). -/
def execImpoDiscard (src : Source) (parts : Nat) (s : State) : Host.Outcome State Fault Refusal :=
  .next (s.loaderCommand src (cmdImpoDiscard parts) fun t => t.doImpoDiscard parts)

/-! ### LOAD -/

/-- The copy of the image at IMPO_SRC, and what refuses it before its first check (R415 steps 3 and 4). Its extent is LENGTH, or the header
alone where LENGTH is outside R394. The copy waits at the homes of its lines as any read (07_package_and_quay_link.md R246, R247): until it is
made it is empty. -/
def State.copyImage (s : State) (src : Source) : State :=
  let a := s.fld a_IMPO_SRC f_IMPO_SRC_ADDR
  let len := s.num (a + 8) 4
  let n := if 80 ≤ len && decide (len ≤ 2 ^ 20) && len % 16 == 0 then len else 64
  let start (t : State) (img : List Byte) (b : Option ImgBad) : State := { t with loader := some ⟨src, img, b, [], [], none⟩ }
  if a % 4096 ≠ 0 || !inHbm a n then start s [] (some ⟨Code.BAD_ADDRESS, 0xFF, 0xFFFF, none⟩)
  else if s.hbmDown a n then start s [] (some ⟨Code.HBM_CHANNEL_DOWN, 0xFF, 0xFFFF, none⟩)
  else if !s.rangeOpen 12 false a n then start (s.sendMissing false (linesOf a n)) [] none
  else
    let s1 := s.unitFlits 12 false a n
    match s1.hbmBad a n with
    | some l => start (s1.hbmRead a n) [] (some ⟨Code.HBM_DATA_ERROR, 0xFF, 0xFFFF, some (l - a)⟩)
    | none => start s1 (s1.bytes a n) none

/-- A LOAD that begins: the loader reads its image. -/
def State.readImage (s : State) (src : Source) : State := (s.setFld a_IMPO_STATUS f_IMPO_STATUS_STATE 1).copyImage src

/-- Whether the loader's copy is still to be made. -/
def LoadRun.unread (x : LoadRun) : Bool := x.image.isEmpty && x.bad.isNone

/-- A LOAD: it starts the reading of an image (R414). A LOAD to a loader that is not IDLE is refused with IMPO_BUSY, and an order of a
stale epoch with STALE_MANAGER (R415, R423). `value` is what IMPO_CMD is written with. -/
def State.impoLoad (s : State) (src : Source) (value : Nat) : State :=
  if !s.overridden cmdImpoLoad && !s.loaderOpen then
    (s.journal1 src a_IMPO_CMD Code.IMPO_BUSY (s.readReg a_IMPO_CMD) (BitVec.ofNat 64 value)).refuseImage src ⟨Code.IMPO_BUSY, 0xFF, 0xFFFF, none⟩ []
  else
    let t := s.commandNow src { cmdImpoLoad with value := value } fun u => (u.readImage src, 0)
    if s.orderCode src s.orderSources == Code.STALE_MANAGER then
      t.refuseImage src ⟨Code.STALE_MANAGER, 0xFF, 0xFFFF, none⟩ []
    else t

/-- IMPO_LOAD: IMPO_CMD.LOAD (R414 to R416), which has no effect from JTAG or a pilot (R422). -/
def execImpoLoad (src : Source) (s : State) : Host.Outcome State Fault Refusal :=
  .next (if Source.barred src || !s.alone || !s.dieUp 12 then s.loaderCommand src cmdImpoLoad id else s.impoLoad src 1)

/-- The ports whose PART, DISABLE or expected peer a load has changed (R417 step 7). -/
def State.changedPorts (s : State) (old : State) : List Nat :=
  (List.range 32).filter fun p =>
    s.fld (a_port p) f_PHX_PORT_PART != old.fld (a_port p) f_PHX_PORT_PART
      || s.fld (a_port p) f_PHX_PORT_DISABLE != old.fld (a_port p) f_PHX_PORT_DISABLE
      || s.reg (a_PHX_PORT_EXP (portDie p) (portNo p)) != old.reg (a_PHX_PORT_EXP (portDie p) (portNo p))

/-- A partition entering LOADING (R412): a teardown of it from now on is a new one. -/
def State.loadPart (s : State) (p : Nat) : State :=
  let old := match Tbl.get none s.torn p with
    | some t => if t.told then none else some t
    | none => none
  { s.setPstate p 1 with
    torn := Tbl.set none s.torn p none
    replays := Tbl.set 0 s.replays p 0
    preempts := s.preempts.filter fun x => x.job.part != p
    tornOld := if old.isSome then Tbl.set none s.tornOld p old else s.tornOld }

/-- What the partitions hold once a load has begun (R397): those it names what it gives them, and every other what is not taken from it;
for a module image nothing. -/
def State.claimsAfter (s : State) (im : Image) : Tbl Claim :=
  let new := im.plist.map fun p => (p, s.claimOf im p)
  let all_ (f : Claim → Nat) : Nat := new.foldl (fun m x => m ||| f x.2) 0
  let left := (List.range 24).foldl (fun m q =>
    let c := s.claimed q
    Tbl.set Claim.init m q (if im.mod then Claim.init
      else ⟨maskLess c.clusters (all_ Claim.clusters), maskLess c.ports (all_ Claim.ports), maskLess c.engines (all_ Claim.engines)⟩)) s.claims
  new.foldl (fun m x => Tbl.set Claim.init m x.1 x.2) left

/-- Steps 1 to 4 of R417: the partitions LOADING, the resets, the sections and the locks, up to a write that fails. -/
def State.beginLoad (s : State) (x : LoadRun) (im : Image) : State :=
  let s0 := (s.setFld a_IMPO_STATUS f_IMPO_STATUS_STATE 3).journalAs x.src 1 0 0 (BitVec.ofNat 64 im.id) (BitVec.ofNat 64 im.hcrc)
  let s1 := im.plist.foldl (fun t p => t.loadPart p) s0
  let gone := if im.mod then (List.range 24).filter fun p => !bit im.parts p else []
  let s2 := gone.foldl (fun t p => t.releasePart p) s1
  let ws := s2.loadWrites im
  let q := s2.writeAll x.src ws
  let blocks := (ws.map fun w => regDie w.1 * 256 + regBlock w.1).eraseDups
  let s3 := if q.2.isNone then blocks.foldl (fun t b => t.lockBlock x.src (b / 256) (b % 256)) q.1 else q.1
  { s3 with
    claims := s.claimsAfter im
    histRanges := (List.range 12).foldl (fun m d =>
      im.plist.foldl (fun m' p => Tbl.set ⟨0, 0⟩ m' (d * 32 + p) (s2.shareAfter im p d).1)
        (gone.foldl (fun m' p => Tbl.set ⟨0, 0⟩ m' (d * 32 + p) ⟨0, 0⟩) m)) s3.histRanges
    loader := some { x with dies := (ws.map fun w => regDie w.1).eraseDups, ports := s3.changedPorts s2, failed := q.2 } }

/-- IMPO_READ_COMPLETE: the copy is checked in order (R415); a failing image is refused (R416), a module or partial image begins to be
written (R417), a replacement to be staged (R424). A copy that waited is made first. -/
def execImpoReadComplete (s0 : State) : Host.Outcome State Fault Refusal :=
  let s := match s0.loader with
    | some x => if x.unread && s0.fld a_IMPO_STATUS f_IMPO_STATUS_STATE == 1 then s0.copyImage x.src else s0
    | none => s0
  match s.loader with
  | none => .next s
  | some x =>
    if s.fld a_IMPO_STATUS f_IMPO_STATUS_STATE ≠ 1 || x.unread then .next s
    else
      let bad := match x.bad with
        | some b => some b
        | none => s.imageChecks x.image
      .next (match bad with
        | some b => (s.refuseImage x.src b x.image).loaderIdle
        | none =>
          let im := parseImage x.image
          if im.replace then s.setFld a_IMPO_STATUS f_IMPO_STATUS_STATE 4 else s.beginLoad x im)

/-! ### The end of a load -/

/-- Queue capacities of a core from its QUEUE record (R117, R403); none without one. -/
def Image.capsOf (im : Image) (c : Nat) : Tbl Nat :=
  match (im.recs 6).find? fun r => rb r 0 == c with
  | some r => (List.range 9).foldl (fun m e => Tbl.set 0 m (0x10 + e) (rb r (6 + e)))
      ((List.range 4).foldl (fun m i => Tbl.set 0 m i (rb r (2 + i))) [])
  | none => []

/-- A core of a named partition at the end of a load (R400, R417 step 5): its stand-in ends, and it is reset and halted with its queue
capacities, or RETIRED where it is not enabled. Proofing on its die resumes (R213, R429). -/
def State.loadCore (s : State) (im : Image) (c : Nat) : State :=
  let p := 13 * coreDie c + 12
  let s1 := if (s.core p).standin = some c then (s.coreReset p).modCore p fun k => { k with standin := none } else s
  let s2 := s1.modCore c fun k => { k with run := .halted, standin := none }
  let s3 := s2.setChk (coreDie c) { s2.chkOf (coreDie c) with proofLost := false }
  (s3.coreReset c).modCore c fun k =>
    { k with qcap := if im.enabled c then im.capsOf c else [], run := if im.enabled c then .halted else .retired }

/-- A port retrained from step 2 of R293 by a load (R417 step 7). -/
def State.loadPort (s : State) (p : Nat) : State := if s.fld (a_port p) f_PHX_PORT_DISABLE = 1 then s else s.portRetrain p

/-- A lane whose engine may no longer serve the port it is on leaves it (R299, R407). -/
def State.freeEngine (s : State) (l : Nat) : State :=
  let p := s.lanePort l
  if p < 32 && (s.fld (a_lctl l) f_LANE_CTL_ENABLE == 0 || s.fld (a_lctl l) f_LANE_CTL_PART != s.portPart p) then
    ((s.laneStop l).dropLane l).showPort p
  else s

/-- The servo at the end of a load of `parts` (R378, R379, R462): the imposition's time, the root, and FAULT left once every partition of the
module has been imposed again. -/
def State.loadServo (s : State) (first : Bool) (parts : List Nat) : State :=
  let s0 := { s with servo := { s.servo with fresh := parts.foldl (fun m p => m ||| 2 ^ p) s.servo.fresh } }
  let s1 := if first then { s0 with servo := { s0.servo with imposed := s.tideOf 12 } } else s0
  let s2 := if s1.servoSt = 4 && (List.range 24).all fun p => s1.pstate p == 0 || (s1.pstate p == 2 && bit s1.servo.fresh p) then
      { s1.servoTo 1 with servo := { (s1.servoTo 1).servo with told := false } }
    else s1
  s2.syncUp

/-- The core clock and the loss allowance that a module image's power mode brings (R457, R462). -/
def State.loadPower (s : State) : State :=
  let top := if s.fld (a_PWR_MODE 12) f_PWR_MODE_MODE = 1 then 54 else 64
  let s1 := (List.range 12).foldl (fun t d => t.setFld (a_PWR_STATUS d) f_PWR_STATUS_CLOCK top) s
  s1.setFld a_PWR_SUPPLY f_PWR_SUPPLY_LOSS (s1.fld (a_PWR_MODE 12) f_PWR_MODE_LOSS)

/-- A TIDE record accepted as an entry of source I on a die (R417 step 8, R425). Where entries that came since the check have left it no
slot, it is refused and counted (R384, log entry 18). -/
def State.takeRecord (s : State) (die e : Nat) : State :=
  match s.freeSlot die (enPart e) with
  | some i => s.putSlot die i e 0 true
  | none => s.schedRefused die 1

/-- Steps 5 to 9 of R417. Cores that start anew run pilot firmware that is staged (14_faults_checkpoint_recovery.md R451). -/
def State.endLoad (s : State) (x : LoadRun) (im : Image) : State :=
  let first := !(List.range 24).any fun p => s.pstate p == 2
  let ks := im.plist.foldl (fun m p => m ||| im.clusters p) 0
  let s1 := (maskClusters ks).foldl (fun t k => t.fwTake k) (((maskClusters ks).flatMap clusterCores).foldl (fun t c => t.loadCore im c) s)
  let s2 := im.plist.foldl (fun t p => (List.range 12).foldl (fun u d => u.freeBerths d p) t) s1
  let s3 := im.plist.foldl (fun t p => baseDies.foldl (fun u b => u.loadWrite x.src (a_RTR_STATUS b, [(⟨p, p⟩, 0)])) t) s2
  let bases := baseDies.filter fun b => (diePorts b).any fun p => im.names (s3.portPart p)
  let s4 := bases.foldl (fun t b => t.loadWrite x.src (a_LANE_PLANSEL b, [(f_LANE_PLANSEL_CUR, 0)])) s3
  let s5 := (List.range 384).foldl (fun t l => t.freeEngine l) (x.ports.foldl (fun t p => t.loadPort p) s4)
  let s6 := bases.foldl (fun t b => t.applyPlan b 0 true) s5
  let s7 := (im.recs 0xC).foldl (fun t e => (enDies e).foldl (fun u d => u.takeRecord d e) t) s6
  let s8 := im.plist.foldl (fun t p =>
    if (Tbl.get none t.torn p).isSome then (t.setPstate p 3).setTorn p 1 else t.setPstate p 2) s7
  let s9 := (if im.mod then s8.loadPower else s8.setFld a_PWR_SUPPLY f_PWR_SUPPLY_LOSS (s8.fld (a_PWR_MODE 12) f_PWR_MODE_LOSS)).loadServo first im.plist
  let s10 := if s9.fld a_MGMT_BOOT f_MGMT_BOOT_STEP = 0x0A then s9.toStep 0x0B else s9
  (s10.journalAs x.src 2 0 0 (BitVec.ofNat 64 im.id) (BitVec.ofNat 64 im.hcrc)).loadDone im 1 Code.IMPO_LOADED

/-- The die at which a load's writes fail: one that a write met, or one of those written that is lost while they are under way (R418, R454). -/
def State.failedDie (s : State) (x : LoadRun) : Option Nat :=
  match x.failed with
  | some d => some d
  | none => x.dies.find? fun d => !s.writable d

/-- IMPO_APPLY_COMPLETE: the writes of a load end (R417), or have failed (R418). -/
def execImpoApplyComplete (s : State) : Host.Outcome State Fault Refusal :=
  match s.loader with
  | none => .next s
  | some x =>
    if s.fld a_IMPO_STATUS f_IMPO_STATUS_STATE ≠ 3 then .next s
    else .next (match s.failedDie x with
      | some d => s.loadFailed x d
      | none => s.endLoad x (parseImage x.image))

/-! ### Replacement -/

/-- The place of a partition's staged records of a type on a die. -/
def stagedKey (t p die : Nat) : Nat := (t * 24 + p) * 16 + die
/-- The section type of a place in IMPO_STAGED (R424). -/
def stagedType (t : Nat) : Nat := 0x0B + t

/-- The dies that a record of a replacement acts on, for a partition (R408 to R410). -/
def State.recDies (s : State) (t p r : Nat) : List Nat :=
  match t with
  | 0 => [12 + rb r 0]
  | 1 => if enPart r = p then enDies r else []
  | _ => if rb r 0 = p then maskDies (s.clustersOf p) ++ baseDies else []

/-- A type staged for a partition (R424): its records at every die that they act on take the place of what was staged before, which is
journaled. -/
def State.stageType (s : State) (x : LoadRun) (im : Image) (t p : Nat) : State :=
  let again := s.fld (a_IMPO_STAGED t) ⟨p, p⟩ == 1
  let s1 := { s with staged := (List.range 16).foldl (fun m d =>
    Tbl.set none m (stagedKey t p d) (some ((im.recs (stagedType t)).filter fun r => (s.recDies t p r).contains d))) s.staged }
  let s2 := s1.setFld (a_IMPO_STAGED t) ⟨p, p⟩ 1
  if again then s2.journalAs x.src 2 0 0 (BitVec.ofNat 64 im.id) (BitVec.ofNat 64 im.hcrc) else s2

/-- IMPO_STAGING_COMPLETE: every die holds its records (R424). A partition torn down or released meanwhile takes none. -/
def execImpoStagingComplete (s : State) : Host.Outcome State Fault Refusal :=
  match s.loader with
  | none => .next s
  | some x =>
    if s.fld a_IMPO_STATUS f_IMPO_STATUS_STATE ≠ 4 then .next s
    else
      let im := parseImage x.image
      let types := (List.range 3).filter fun t => (im.sect (stagedType t)).isSome
      let s1 := (im.plist.filter fun p => s.pstate p == 2).foldl (fun t p => types.foldl (fun u y => u.stageType x im y p) t) s
      .next (s1.loadDone im 2 Code.IMPO_STAGED)

/-- A staged LANE record written (R425) and journaled (R16), by the GX12 itself: the fields of its partition's ports, but for the plan in
force. -/
def State.applyLane (s : State) (die p r : Nat) : State :=
  let n := rb r 1
  if s.fld (a_LANE_PLANSEL die) f_LANE_PLANSEL_CUR = n then s
  else s.loadWrite .device (a_LANE_PLAN die n, ((List.range 8).filter fun q => s.portPart (8 * (die - 12) + q) == p).map fun q => (f_plan q, laneCount r q))

/-- A staged CHECK record written (R425) and journaled (R16), by the GX12 itself. -/
def State.applyCheck (s : State) (die p r : Nat) : State :=
  if 12 ≤ die then s.loadWrite .device (a_CHK_PKEY die p, [(f_CHK_PKEY_KEY, rn r 8 8)])
  else ((List.range 2).filter fun k => bit (s.clustersOf p) (2 * die + k)).foldl (fun t k =>
    (t.loadWrite .device (a_CHK_CFG die k, [(f_CHK_CFG_LEVEL, rb r 1), (f_CHK_CFG_SEXP, rb r 2)])).loadWrite .device
      (a_CHK_KEY die k, [(f_CHK_KEY_KEY, rn r 8 8)])) s

/-- A staged section put in force on a die, with its records there (R425). -/
def State.applyStaged (s : State) (die t p : Nat) (rs : List Nat) : State :=
  let s1 := { s with staged := Tbl.set none s.staged (stagedKey t p die) none }
  match t with
  | 0 =>
    let cur := s1.fld (a_LANE_PLANSEL die) f_LANE_PLANSEL_CUR
    let s2 := rs.foldl (fun u r => u.applyLane die p r) s1
    if rs.any fun r => rb r 1 == cur then s2.report Code.LANE_PLAN_IN_FORCE die p [] else s2
  | 1 => rs.foldl (fun u e => u.takeRecord die e) (s1.dropSlots fun d x => d == die && enPart x.entry == p && x.source == 0)
  | _ => rs.foldl (fun u r => u.applyCheck die p r) s1

/-- SCHED_APPLY: an APPLY acts on a die (R425); die 12, which holds IMPO_STAGED, tells what came of it. One that a command beats has no
effect (R389). -/
def execSchedApply (die : Nat) (s : State) : Host.Outcome State Fault Refusal :=
  .next (s.actUnless die 0x0D (fun x => s.actionBeaten (enPart x.entry) true) (fun u _ => u) fun u x =>
    let t := bits x.entry 7 0 - 0x0B
    let p := enPart x.entry
    let u1 := match Tbl.get none u.staged (stagedKey t p die) with
      | some rs => u.applyStaged die t p rs
      | none => u
    if die ≠ 12 then u1
    else if u.fld (a_IMPO_STAGED t) ⟨p, p⟩ = 1 then (u1.setFld (a_IMPO_STAGED t) ⟨p, p⟩ 0).report Code.IMPO_APPLIED 12 p []
    else u1.report Code.IMPO_NOTHING_STAGED 12 p [])

end Sys2Proof.Machine
end

