-- ==== Sys2Proof/Machine/Startup.lean ====
section
/-! DEFINITION. From power to READY (18_start_up.md): cold reset, straps, firmware, the start-up record, the self-test, memory and the
start-up image. -/

namespace Sys2Proof.Machine
open Sys2Proof

/-! ### Boot flash -/

/-- A byte of boot flash; an erased one reads as all ones. -/
def State.flashByte (s : State) (a : Nat) : Byte := Tbl.get 0xFF s.flash a

/-- `n` bytes of boot flash. -/
def State.flashBytes (s : State) (a n : Nat) : List Byte := (upFrom a n).map s.flashByte

/-- Bytes written into boot flash. -/
def State.flashWrite (s : State) (a : Nat) (bs : List Byte) : State :=
  { s with flash := (bs.foldl (fun (p : Tbl Byte × Nat) b => (Tbl.set 0xFF p.1 p.2 b, p.2 + 1)) (s.flash, a)).1 }

/-! ### Cold reset -/

/-- The entries of the quarantine table that boot flash holds (R223): before step 4 has restored them those it held, after it those of the
registers, without the ones that are not stored (R535). -/
def State.storedQuar (s : State) : List (Nat × Nat) :=
  if s.released then
    ((List.range 64).filter fun n => s.quarUsed n && !s.boot.unstored.contains n).map fun n =>
      ((s.reg (a_CHK_QUNIT 12 n)).toNat, (s.reg (a_CHK_QCOND 12 n)).toNat)
  else s.flashQuar

/-- The bridges whose link is FAILED (R240). -/
def State.deadBridges (s : State) : List Nat :=
  ([(12, 3), (14, 3), (12, 4), (13, 4)].filter fun p => s.linkState p.1 p.2 == 5).map fun p => bridgeNo p.1 p.2

/-- HBM after a cold reset (R528): what was written is undefined. -/
def freshHbm (n : Nat) (m : Tbl Byte) : Tbl Byte :=
  ((m.filter fun e => isHbm e.1).mapIdx fun i e => (e.1, BitVec.ofNat 8 (Config.freeWord (n + i)).toNat)).filter fun e => e.2 != 0

/-- A cold reset (R528): every field at its reset value, the tide at 0, HBM undefined; fuses, boot flash with the quarantine table and
the repair lists, the marks of failed bridges and the TAP controller (R519) survive. -/
def State.cold (s : State) : State :=
  let hbm := s.mem.filter fun e => isHbm e.1
  let fresh : State := { State.reset with
    pending := s.pending
    outbox := s.outbox
    freeCount := s.freeCount + hbm.length
    mem := freshHbm s.freeCount s.mem
    flash := s.flash
    tap := s.tap
    modPg := s.modPg
    broken := s.broken ++ s.deadBridges.filter fun b => !s.broken.contains b
    flashQuar := s.storedQuar }
  let kept := a_MGMT_SEC :: (List.range 12).flatMap fun st => (List.range 8).map fun n => a_HBM_REPAIR (stackBase st) (stackWin st) n
  (kept.foldl (fun t a => t.setReg a (s.reg a)) fresh).setFld a_MGMT_SEC f_MGMT_SEC_BURNING 0

/-- MOD_PG, contact 26C, released or driven low (R514, R520). -/
def State.drivePg (s : State) (high : Bool) : State :=
  if s.modPg = high then s else { s with modPg := high }.send .pin 26 [b2n high]

/-- Power off: as after a cold reset, with nothing that runs and MOD_PG low. -/
def State.powerOff (s : State) : State := { s.cold with off := true, tap := TapState.init }.drivePg false

/-- COLD_RESET: power is applied to a module that is off, and MOD_PG has risen (R520), or PERST# is released after an assertion of at least 100 µs; in a brownout hold
the reset waits for the recovery (R519, R528). -/
def execColdReset (power : Bool) (s : State) : Host.Outcome State Fault Refusal :=
  .next (if power then (if s.off then s.cold.drivePg true else s)
    else if s.off then s
    else if s.brownout then { s with boot := { s.boot with resetWaits := true } }
    else s.cold)

/-! ### Straps -/

/-- Whether start-up stands in step `n`, powered and not held. -/
def State.inStep (s : State) (n : Nat) : Bool :=
  !s.off && s.fld a_MGMT_BOOT f_MGMT_BOOT_HOLD == 0 && s.fld a_MGMT_BOOT f_MGMT_BOOT_STEP == n

/-- Whether die 12's PLLs have locked since t0 (R374, R532). -/
def State.pllUp (s : State) : Bool := decide (200_000 ≤ s.boot.age) || decide (Config.pllLock ≤ s.boot.age)

/-- Straps that agree hold until the next cold reset; start-up goes on with step 3 (R529). -/
def State.strapped (s : State) (v : Nat) : State :=
  (s.setFlds a_MGMT_STRAP [(f_MGMT_STRAP_SLOT, v / 16), (f_MGMT_STRAP_BOOT, v / 8), (f_MGMT_STRAP_ROLE, v)]).toStep 3

/-- The bits of MGMT_STRAP that straps give. -/
def strapBits (v : Nat) : Nat := v &&& 0xFB

/-- The clocks of a die once they have locked: CLK_STATUS (R475). -/
def clocksUp (die : Nat) : Nat := if die < 12 then 0b10111 else 0b11101

/-- STRAP_SAMPLE: the straps, in MGMT_STRAP's places, at t0 + 100 µs and again at t0 + 110 µs (R529), the first once die 12's PLLs have locked
(R532). -/
def execStrapSample (straps : Nat) (s : State) : Host.Outcome State Fault Refusal :=
  let now := s.tideOf 12
  let v := strapBits straps
  .next (if s.inStep 1 && decide (100_000 ≤ s.boot.age) && s.pllUp && !s.refLost then
      let s1 := s.toStep 2
      { s1 with boot := { s1.boot with sample := some v } }
    else if s.inStep 2 && decide (110_000 ≤ s.boot.age) && s.boot.again.isNone then
      match s.boot.sample with
      | none => s
      | some u =>
        if u = v then s.strapped v
        else
          let s1 := s.bootExit Code.STRAP_INVALID false
          { s1 with boot := { s1.boot with again := some now } }
    else s)

/-- STRAP_RESAMPLE: after a disagreement two more samples every 10 ms, until two agree (R529). -/
def execStrapResample (first second : Nat) (s : State) : Host.Outcome State Fault Refusal :=
  let now := s.tideOf 12
  .next (match s.boot.again with
    | none => s
    | some t =>
      if !s.inStep 2 || decide (now < t + 10_000_000) then s
      else if strapBits first = strapBits second then s.strapped (strapBits first)
      else { s with boot := { s.boot with again := some now } })

/-! ### Firmware -/

/-- Whether a slot passes R503: its signature is good (it gives its security version) and its version is at least the fused counter. -/
def State.slotOk (s : State) (svn : Option Nat) : Bool :=
  match svn with
  | some n => decide (s.fld a_MGMT_SEC f_MGMT_SEC_SVN ≤ n)
  | none => false

/-- BOOT_VERIFY: the boot ROM derives the identity key, which can be read or not, and runs the first slot in STRAP_BOOT's order that passes.
`slotA` and `slotB` are the security versions of images whose signature is good (R503). Both failing is a hold (R532). -/
def execBootVerify (slotA slotB : Option Nat) (key : Bool) (s : State) : Host.Outcome State Fault Refusal :=
  let first := 1 - s.fld a_MGMT_STRAP f_MGMT_STRAP_BOOT
  let svn (n : Nat) : Option Nat := if n = 0 then slotA else slotB
  .next (if !s.inStep 3 then s
    else
      let s1 := { s with boot := { s.boot with keyBad := !key } }
      let run (n : Nat) : State := (s1.setFlds a_MGMT_FW [(f_MGMT_FW_SLOT, n), (f_MGMT_FW_SVN, (svn n).getD 0)]).toStep 4
      if s1.slotOk (svn first) then run first
      else if s1.slotOk (svn (1 - first)) then run (1 - first)
      else ((s1.report Code.BOOT_IMAGE_BAD 12 31 [0]).report Code.BOOT_IMAGE_BAD 12 31 [1]).bootExit Code.BOOT_IMAGE_BAD true)

/-! ### The start-up record -/

/-- Fields of the start-up record (R530), from its bytes. -/
def srNum (r : List Byte) (a n : Nat) : Nat := natLE ((r.drop a).take n)
def srFlags (r : List Byte) : Nat := srNum r 0x006 2
def srParent (r : List Byte) : Nat := srNum r 0x009 1
def srAlt (r : List Byte) : Nat := srNum r 0x00A 1
def srRoute (r : List Byte) (n : Nat) : Nat := srNum r (0x010 + 4 * n) 4
def srPort (r : List Byte) (p : Nat) : Nat := srNum r (0x050 + 4 * p) 4
def srPlan (r : List Byte) (b : Nat) : Nat := srNum r (0x0D0 + 8 * b) 8

/-- Whether a start-up record passes MAGIC, VERSION, CRC, its reserved bytes and its field rules (R530, R531). -/
def recordGood (r : List Byte) : Bool :=
  let root := bit (srFlags r) 1
  let dim (p : Nat) : Nat := bits (srPort r p) 22 19
  let closed (p : Nat) : Bool := dim p == 0xF || bit (srPort r p) 18
  r.take 4 == [0x42, 0x52, 0x44, 0x54] && srNum r 0x004 2 == 0x0100 && srNum r 0x1FC 4 == crc32c (r.take 0x1FC)
    && srNum r 0x00F 1 == 0 && srNum r 0x0F8 8 == 0 && srNum r 0x120 220 == 0
    && bits (srFlags r) 15 4 == 0 && (!bit (srFlags r) 2 || root)
    && (decide (srParent r < 32) || (srParent r == 0x3F && root))
    && (srAlt r == 0x3F || (decide (srAlt r < 32) && srAlt r != srParent r))
    && ((List.range 12).all fun st => bits (srNum r 0x00C 3) (2 * st + 1) (2 * st) != 3)
    && ((List.range 32).all fun p => bits (srPort r p) 31 23 == 0 && (decide (dim p < 12) || dim p == 0xF))
    && ((List.range 16).all fun n => (List.range 32).all fun p => !(bit (srRoute r n) p && closed p))
    && (List.range 4).all fun b => srPlan r b / 2 ^ 40 == 0 && (List.range 8).all fun q => decide (bits (srPlan r b) (5 * q + 4) (5 * q) ≤ 16)

/-- The writes of a good record (R530). -/
def recordWrites (r : List Byte) (slot : Nat) : List LoadWrite :=
  let k := srNum r 0x008 1
  baseDies.map (fun b => (a_RTR_NODE b, [(f_RTR_NODE_NODE, 16 * k + slot)]))
    ++ [(a_TIDE_CTL 12, [(f_TIDE_CTL_ROOT, bits (srFlags r) 1 1), (f_TIDE_CTL_PTPSTEER, bits (srFlags r) 2 2),
        (f_TIDE_CTL_PARENT, srParent r), (f_TIDE_CTL_ALT, srAlt r)])]
    ++ (List.range 2).map (fun j => (a_ETH_PORT j 0, [(f_ETH_PORT_PTPDOM, srNum r 0x00B 1)]))
    ++ (List.range 12).map (fun st => (a_HBM_CFG (stackBase st) (stackWin st),
        [(f_HBM_CFG_RATE_CAP, bits (srNum r 0x00C 3) (2 * st + 1) (2 * st))]))
    ++ (List.range 16).flatMap (fun n => baseDies.map fun b => (a_RTR_ROUTE b (16 * k + n), [(f_RTR_ROUTE_MASK, srRoute r n)]))
    ++ (List.range 32).flatMap (fun p => [
        (a_PHX_PORT_EXP (portDie p) (portNo p), [(f_PHX_PORT_EXP_NODE, bits (srPort r p) 11 0), (f_PHX_PORT_EXP_PORT, bits (srPort r p) 16 12),
          (f_PHX_PORT_EXP_CHECK, bits (srPort r p) 17 17)]),
        (a_port p, [(f_PHX_PORT_DISABLE, bits (srPort r p) 18 18)]),
        (a_RTR_PORTDIM (portDie p) (portNo p), [(f_RTR_PORTDIM_DIM, bits (srPort r p) 22 19)])])
    ++ (List.range 4).map (fun b => (a_LANE_PLAN (12 + b) 0, (List.range 8).map fun q => (f_plan q, bits (srPlan r b) (5 * q + 4) (5 * q))))
    ++ (List.range 384).map (fun l => (a_lctl l, [(f_LANE_CTL_ENABLE, 1)]))
    ++ (List.range 2).flatMap (fun j => [(a_ETH_PORT j 1, [(f_ETH_PORT_IP4, srNum r (0x0F0 + 4 * j) 4)]),
        (a_ETH_PORT j 2, [(f_ETH_PORT_IP6_0, srNum r (0x100 + 16 * j) 8)]),
        (a_ETH_PORT j 3, [(f_ETH_PORT_IP6_1, srNum r (0x108 + 16 * j) 8)])])

/-- The writes of the reduced start-up state (R531). -/
def reducedWrites (slot : Nat) : List LoadWrite :=
  baseDies.map (fun b => (a_RTR_NODE b, [(f_RTR_NODE_NODE, slot)])) ++ (List.range 32).map fun p => (a_port p, [(f_PHX_PORT_DISABLE, 1)])

/-- The start-up record written into the registers, or the reduced state with its record (R531). -/
def State.takeStartRecord (s : State) : State :=
  let r := s.flashBytes 0x1D0_0000 512
  let slot := s.fld a_MGMT_STRAP f_MGMT_STRAP_SLOT
  if recordGood r then
    let s1 := { s with boot := { s.boot with flags := srFlags r } }
    (recordWrites r slot).foldl (fun t w => t.loadWrite (.manager 0 0) w) s1
  else
    ((reducedWrites slot).foldl (fun t w => t.loadWrite (.manager 0 0) w) s).report Code.BOOT_IMAGE_BAD 12 31 [2]

/-- The quarantine table restored from boot flash (R223): the units stand quarantined, and a lane engine's lane stays out of service. -/
def State.restoreQuar (s : State) : State :=
  let s1 := (s.flashQuar.zipIdx.foldl (fun t p =>
    (t.setReg (a_CHK_QUNIT 12 p.2) (BitVec.ofNat 64 p.1.1)).setReg (a_CHK_QCOND 12 p.2) (BitVec.ofNat 64 p.1.2)) s).quarCount
  (List.range s.flashQuar.length).foldl (fun t n =>
    let u := t.quarUnit n
    let t1 := t.setUnit u { t.unit u with quarantined := true }
    if unitKind u = 6 then t1.quarAct u else t1) s1

/-- A bridge that does not come up at start-up: its link FAILED, and marked (R240, R532). -/
def State.markBridge (s : State) (b : Nat) : State :=
  let die := if b < 2 then 12 + 2 * b else 10 + b
  let l := if b < 2 then 3 else 4
  let s1 := if s.linkState die l = 5 then s else s.setLinkState die l 5
  if s1.broken.contains b then s1 else { s1 with broken := s1.broken ++ [b] }

/-- A compute die that start-up goes on without (R532, R535). -/
def State.startWithout (s : State) (die : Nat) : State :=
  if s.linkState die 0 = 5 then s else (s.linkFailed die 0).bootExit Code.COMPUTE_DIE_LOST false

/-- Whether either end of a link has DISABLE set (R256). -/
def State.linkDisabled (s : State) (die l : Nat) : Bool :=
  let f := farEnd die l
  s.fld (a_QUAY_LCTL die l) f_QUAY_LCTL_DISABLE == 1 || s.fld (a_QUAY_LCTL f.1 f.2) f_QUAY_LCTL_DISABLE == 1

/-- A link that trains is up, one that is disabled before training stays so (R256). -/
def State.trainLink (s : State) (die l : Nat) : State := s.setLinkState die l (if s.linkDisabled die l then 4 else 2)

/-- The links of the module trained: those of `stacks` and `bridges`, and the bridges marked failed, do not come up. -/
def State.trainLinks (s : State) (sts bridges : Nat) : State :=
  let s1 := (List.range 12).foldl (fun t d => if bit sts d then t.startWithout d else t.trainLink d 0) s
  (List.range 4).foldl (fun t b =>
    if bit bridges b || t.broken.contains b then t.markBridge b
    else t.trainLink (if b < 2 then 12 + 2 * b else 10 + b) (if b < 2 then 3 else 4)) s1

/-- Two or more bridges marked failed hold the start (R240, R532). -/
def State.bridgeHold (s : State) (step : State → State) : State :=
  if 2 ≤ s.broken.length then (s.report Code.BRIDGE_FAILED_START 12 31 []).bootExit Code.BRIDGE_FAILED_START true else step s

/-- The MAC addresses of the Ethernet ports, as the module identity in boot flash gives them (R511, R547). -/
def State.takeMacs (s : State) : State :=
  (List.range 2).foldl (fun t k =>
    let v := natLE (t.flashBytes (0x1F0_0000 + Config.macAt k % 0xFFFB) 6)
    (t.setFld (a_ETH_PORT k 0) f_ETH_PORT_MAC_0 v).setFld (a_ETH_PORT k 1) f_ETH_PORT_MAC_1 (v / 2 ^ 16)) s

/-- MGMT_FIRMWARE_START: management firmware verifies pilot firmware and microcode, releases the other dies, trains the Quay links, writes
the start-up record and restores the quarantine (R531, R532). `stacksDown` and `bridgesDown` are the links that do not train. -/
def execMgmtFirmwareStart (pilot micro : Bool) (stacksDown bridgesDown : Nat) (s : State) : Host.Outcome State Fault Refusal :=
  .next (if !s.inStep 4 then s
    else if !(pilot && micro) then
      (s.report Code.FIRMWARE_BAD_SIGNATURE 12 31 []).bootExit Code.FIRMWARE_BAD_SIGNATURE true
    else
      let s1 := (List.range 16).foldl (fun t d => t.setReg (a_CLK_STATUS d) (BitVec.ofNat 64 (clocksUp d))) { s with released := true }
      (({ s1 with pilotFw := { PilotFw.init with image := s1.pilotImage } }.trainLinks stacksDown bridgesDown).restoreQuar).bridgeHold fun t =>
        t.takeMacs.takeStartRecord.toStep 5)

/-! ### Self-test -/

/-- A unit quarantined by the self-test (R535): its entry is not stored; a core stands retired. -/
def State.selfQuar (s : State) (x : SelfFail) : State :=
  let u := unitId x.ukind x.die x.core x.sub
  if (s.unit u).quarantined then s
  else
    let free := (List.range 64).find? fun n => !s.quarUsed n
    let s1 := (s.setUnit u { s.unit u with quarantined := true }).quarStore u x.die (s.tideOf 12)
    let s2 := match free with
      | some n => { s1 with boot := { s1.boot with unstored := s1.boot.unstored ++ [n] } }
      | none => s1
    if x.ukind < 4 then s2.modCore (13 * x.die + x.core) fun k => { k with run := .retired }
    else if x.ukind = 6 then s2.quarAct u
    else s2

/-- What a failure of the self-test does, by the row of R535's table. -/
def State.selfFail (s : State) (x : SelfFail) : State :=
  let kind := if decide (4 ≤ x.row) && decide (x.row ≤ 8) then x.ukind else 0xF
  let s1 := (s.report Code.SELFTEST_FAIL x.die 31 [x.row, kind, x.addr]).bootExit Code.SELFTEST_FAIL (decide (x.row ≤ 2))
  if x.row ≤ 2 then s1
  else if x.row = 3 then s1.startWithout x.die
  else if x.row = 9 then (if x.die < 12 || x.core < 3 then s1.startWithout (if x.die < 12 then x.die else 3 * (x.die - 12) + x.core)
    else s1.markBridge (bridgeNo x.die x.core))
  else s1.selfQuar x

/-- What the self-test zeroes (R528): galleys, private memories, sticks and add caches. -/
def State.zeroed (s : State) : State :=
  { s with
    mem := s.mem.filter fun e => isHbm e.1
    marks := s.marks.filter fun e => isHbm e.1
    cores := (s.cores.map fun e => (e.1, { e.2 with pmem := [], pmarks := [] })).filter fun e => e.2 != CoreState.init
    presses := (s.presses.map fun e => (e.1, { e.2 with sticks := [], csticks := [] })).filter fun e => e.2 != PressState.init
    galleys := (s.galleys.map fun e => (e.1, { e.2 with cache := [] })).filter fun e => e.2 != GalleyState.init
    hbms := (s.hbms.map fun e => (e.1, { e.2 with cache := [] })).filter fun e => e.2 != HbmState.init }

/-- Step 6 begun: every stack and its channels in Training (R276, R280, R536). -/
def State.trainBegin (s : State) : State :=
  (List.range 12).foldl (fun t st => (List.range 32).foldl (fun u c => u.setFld (a_chan st c) f_HBM_CH_STATUS_STATE 1)
    (t.setFld (a_HBM_STACK_STATUS (stackBase st) (stackWin st)) f_HBM_STACK_STATUS_STATE 1)) s

/-- SELF_TEST: every unit is tested with fixed patterns, and failures are acted on; galleys, private memories, sticks and add caches are
zeroed (R528, R535). Steps 6 and 7 begin (R532): MGMT_BOOT shows 6, and 7 from the next tick on (DESIGN CHOICE, log entry 19). -/
def execSelfTest (fails : List SelfFail) (s : State) : Host.Outcome State Fault Refusal :=
  .next (if !s.inStep 5 then s
    else
      let s1 := fails.foldl (fun t x => t.selfFail x) s.zeroed
      if s1.fld a_MGMT_BOOT f_MGMT_BOOT_HOLD = 1 then s1 else s1.bridgeHold fun t => t.trainBegin.toStep 6)

/-- The step that begins with the one shown: 7 with 6, and 9 with 8 (R532). -/
def State.stepOn (s : State) : State := if s.inStep 6 then s.toStep 7 else if s.inStep 8 then s.toStep 9 else s

/-! ### Memory -/

/-- The channels that fail training at a rate. -/
def bootFailed (x : StackBoot) (r : Nat) : Nat := x.fails.getD r 0

/-- The rate a stack trains at, from `cap` downwards: the highest at which every channel trains, else 4.8 Gb/s (R258, R536). -/
def bootRate (x : StackBoot) (cap : Nat) : Nat := ((List.range 2).find? fun r => decide (cap ≤ r) && bootFailed x r == 0).getD 2

/-- The channels whose read eye is too small at a rate (R536). -/
def bootNarrow (x : StackBoot) (r : Nat) : List Nat :=
  ((x.eyes.getD r []).zipIdx.filter fun p =>
    let row (v : Nat) : Nat := (p.1.getD v 0).toNat
    decide (longestRun 0 0 ((List.range 64).map fun t => bit (row 16) t) < 12)
      || decide (longestRun 0 0 ((List.range 32).map fun v => bit (row v) 32) < 6)).map fun p => p.2 / 2

/-- The rate at which a stack passes its screening (R536). -/
def bootScreened (x : StackBoot) (r : Nat) : Nat :=
  let down (q : Nat) : Nat := if q < 2 && !(bootNarrow x q).isEmpty then bootRate x (q + 1) else q
  down (down r)

/-- The eye of the last screening run left readable (R536). -/
def State.lastEye (s : State) (st : Nat) (eye : List Word) : State :=
  let row (v : Nat) : Nat := (eye.getD v 0).toNat
  let s1 := (List.range 32).foldl (fun t v => t.setReg (a_HBM_EYE (stackBase st) (stackWin st) v) (eye.getD v 0)) s
  s1.setFlds (a_margin st) [(f_HBM_MARGIN_STATUS_DONE, 1), (f_HBM_MARGIN_STATUS_RESULT, 0),
    (f_HBM_MARGIN_STATUS_WIDTH, longestRun 0 0 ((List.range 64).map fun t => bit (row 16) t)),
    (f_HBM_MARGIN_STATUS_HEIGHT, longestRun 0 0 ((List.range 32).map fun v => bit (row v) 32))]

/-- One stack in step 6: repaired, rejected or trained, screened where SCREEN is set, and in service (R269, R536). -/
def State.startStack (s : State) (st : Nat) (x : StackBoot) : State :=
  let a := a_HBM_STACK_STATUS (stackBase st) (stackWin st)
  let s1 := (List.range 8).foldl (fun t n => t.setReg (a_HBM_REPAIR (stackBase st) (stackWin st) n) 0) s
  if !x.organised then
    ((List.range 32).foldl (fun t c => t.setChan st c 0) (s1.setFld a f_HBM_STACK_STATUS_STATE 4)).report Code.HBM_STACK_REJECTED
      (stackBase st) 31 []
  else
    let screen := bit s.boot.flags 3
    let r0 := bootRate x (s.fld (a_HBM_CFG (stackBase st) (stackWin st)) f_HBM_CFG_RATE_CAP)
    let r := if screen then bootScreened x r0 else r0
    let bad (c : Nat) : Bool := bit (bootFailed x r) c || (screen && r == 2 && (bootNarrow x r).contains c)
    let s2 := s1.setFlds a [(f_HBM_STACK_STATUS_RATE, r), (f_HBM_STACK_STATUS_STATE, 2)]
    let s3 := if screen then s2.lastEye st ((x.eyes.getD r []).getLastD []) else s2
    (List.range 32).foldl (fun t c => if bad c then t.chanFail st c else t.setChan st c 2) s3

/-- STARTUP_HBM: step 6 for every stack; with step 8 ended it makes the module READY (R532, R536). -/
def execStartupHbm (sts : List StackBoot) (s : State) : Host.Outcome State Fault Refusal :=
  .next (if !((upFrom 6 4).any fun n => s.inStep n) || s.boot.hbmDone || sts.length != 12 then s
    else
      let s1 := sts.zipIdx.foldl (fun t p => t.startStack p.2 p.1) s
      let s2 := { s1 with boot := { s1.boot with hbmDone := true } }
      if s2.mgr.settled && (s2.inStep 8 || s2.inStep 9) then s2.toStep 0x0A else s2)

/-! ### The start-up image -/

/-- The highest-numbered stack in service. -/
def State.topStack (s : State) : Option Nat :=
  ((List.range 12).filter fun st => s.fld (a_HBM_STACK_STATUS (stackBase st) (stackWin st)) f_HBM_STACK_STATUS_STATE == 2).getLast?

/-- AUTOSTART: with AUTOSTART set, once the condition of R539 holds at READY, the start-up image is copied to the last 1 MiB of the highest
stack in service, once its homes let it be written (07_package_and_quay_link.md R246, R247), and loaded there (R540). -/
def execAutostart (s : State) : Host.Outcome State Fault Refusal :=
  .next (if !s.inStep 0x0A || !bit s.boot.flags 0 || s.boot.auto || !(s.servoSt == 2 || s.rootReady) || !s.loaderOpen then s
    else match s.topStack with
      | none => s
      | some st =>
        let a := (st + 1) * 2 ^ 36 - 2 ^ 20
        if !s.rangeOpen 12 true a (2 ^ 20) then s.sendMissing true (linesOf a (2 ^ 20))
        else
        let s1 := (s.openWrite 12 a (s.flashBytes 0x1C0_0000 (2 ^ 20))).st
        let s2 := { s1 with boot := { s1.boot with auto := true } }
        (s2.loadWrite (.manager 0 0) (a_IMPO_SRC, [(f_IMPO_SRC_ADDR, a)])).impoLoad (.manager 0 0) 1)

end Sys2Proof.Machine
end

