-- ==== Sys2Proof/Machine/Flash.lean ====
section
/-! DEFINITION. Boot flash and firmware: the flash window, the swap of management firmware and the fused security version
(19_register_address_map.md R547 to R550). -/

namespace Sys2Proof.Machine
open Sys2Proof

/-! ### The flash window -/

/-- Whether an address lies in a slot's 8 MiB. -/
def inSlot (n a : Nat) : Bool := a / 0x80_0000 == n

/-- Whether a flash address lies in a region that R547 names. -/
def inFlash (a : Nat) : Bool :=
  decide (a < 0x1D1_0000) || (decide (0x1E0_0000 ≤ a) && decide (a < 0x1E1_0000)) || (decide (0x1F0_0000 ≤ a) && decide (a < 0x1F1_0000))

/-- Whether a flash command is allowed at an address (R547, R548): 1 READ anywhere named, 2 PROGRAM and 3 ERASE outside the read-only regions
and the running slot. -/
def State.flashOk (s : State) (cmd a : Nat) : Bool :=
  if cmd = 1 then inFlash a
  else decide (a < 0x1D1_0000) && !(decide (4 ≤ s.fld a_MGMT_BOOT f_MGMT_BOOT_STEP) && inSlot (s.fld a_MGMT_FW f_MGMT_FW_SLOT) a)

/-- The 512-byte buffer. -/
def State.flashBuf (s : State) : List Byte := (List.range 64).flatMap fun w => bytesLE 8 (s.reg (a_MGMT_FLASH_BUF w)).toNat

/-- Bytes put into the buffer. -/
def State.setFlashBuf (s : State) (bs : List Byte) : State :=
  (List.range 64).foldl (fun t w => t.setReg (a_MGMT_FLASH_BUF w) (BitVec.ofNat 64 (natLE ((bs.drop (8 * w)).take 8)))) s

/-- A command written to MGMT_FLASH_CTL (R548): 1 READ, 2 PROGRAM, 3 ERASE at an address. -/
def State.doFlash (s : State) (cmd addr : Nat) : State × Nat :=
  let a := addr % 2 ^ 32 / 512 * 512
  if s.fld a_MGMT_FLASH_STATUS f_MGMT_FLASH_STATUS_BUSY = 1 then (s, Code.BAD_REG_ACCESS)
  else
    let s1 := s.setFld a_MGMT_FLASH_CTL f_MGMT_FLASH_CTL_ADDR (a / 512)
    if !s1.flashOk cmd a then (s1.setFld a_MGMT_FLASH_STATUS f_MGMT_FLASH_STATUS_RESULT 1, 0)
    else if cmd = 3 && a % 0x1_0000 != 0 then (s1.setFld a_MGMT_FLASH_STATUS f_MGMT_FLASH_STATUS_RESULT 2, 0)
    else ({ s1 with flashOp := some ⟨cmd, a, s1.flashBuf⟩ }.setFld a_MGMT_FLASH_STATUS f_MGMT_FLASH_STATUS_BUSY 1, 0)

/-- What the command of the same row does. -/
def State.doFlashRead (s : State) (addr : Nat) : State × Nat := s.doFlash 1 addr
def State.doFlashProgram (s : State) (addr : Nat) : State × Nat := s.doFlash 2 addr
def State.doFlashErase (s : State) (addr : Nat) : State × Nat := s.doFlash 3 addr

/-- FLASH_READ: a READ begins (R548). -/
def execFlashRead (src : Source) (addr : Nat) (s : State) : Host.Outcome State Fault Refusal :=
  .next (s.commandWith src (cmdFlashRead addr) fun t => t.doFlashRead addr)

/-- FLASH_PROGRAM: a PROGRAM begins (R548). -/
def execFlashProgram (src : Source) (addr : Nat) (s : State) : Host.Outcome State Fault Refusal :=
  .next (s.commandWith src (cmdFlashProgram addr) fun t => t.doFlashProgram addr)

/-- FLASH_ERASE: an ERASE begins (R548). -/
def execFlashErase (src : Source) (addr : Nat) (s : State) : Host.Outcome State Fault Refusal :=
  .next (s.commandWith src (cmdFlashErase addr) fun t => t.doFlashErase addr)

/-- A carried-out command ends with a RESULT, and counts (R551). -/
def State.flashEnd (s : State) (result : Nat) : State :=
  ({ s with flashOp := none }.setFlds a_MGMT_FLASH_STATUS [(f_MGMT_FLASH_STATUS_BUSY, 0), (f_MGMT_FLASH_STATUS_RESULT, result)]).addWrap
    a_MGMT_FLASH_STATUS f_MGMT_FLASH_STATUS_OPS 1

/-- FLASH_COMMAND_DONE: the command in progress ends (R548). `held` is what a PROGRAM reads back where it is not the buffer. The spec does not
lay out the quarantine table and the repair lists in flash: a READ there gives free values. -/
def execFlashCommandDone (held : Option (List Byte)) (s : State) : Host.Outcome State Fault Refusal :=
  .next (match s.flashOp with
    | none => s
    | some o =>
      if o.cmd = 1 then
        if decide (0x1E0_0000 ≤ o.addr) && decide (o.addr < 0x1E1_0000) then
          let q := s.freeBytes 512
          (q.2.setFlashBuf q.1).flashEnd 0
        else (s.setFlashBuf (s.flashBytes o.addr 512)).flashEnd 0
      else if o.cmd = 2 then
        let bs := match held with
          | some l => (l ++ o.data.drop l.length).take 512
          | none => o.data
        (s.flashWrite o.addr bs).flashEnd (if bs = o.data then 0 else 3)
      else { s with flash := s.flash.filter fun e => !(decide (o.addr ≤ e.1) && decide (e.1 < o.addr + 0x1_0000)) }.flashEnd 0)

/-! ### The swap of management firmware -/

/-- Whether the swap is refused outright (R549): the module is a harbourmaster without a standby, or a swap is in progress. -/
def State.swapRefused (s : State) : Bool := (s.role == 1 && !s.sbKnown) || s.swapAsk.isSome

/-- A SWAP written: it waits for the verification of the other slot (R549). -/
def State.doMgmtSwap (s : State) (src : Source) : State × Nat :=
  if s.swapRefused then (s, Code.BAD_REG_ACCESS) else ({ s with swapAsk := some src }, 0)

/-- An order without operands beyond its kind and a length in ms (R498). -/
def orderBytes (okind ms : Nat) : List Byte := bytesLE 12 (okind + ms * 2 ^ 64)

/-- The swap (R451, R549): a harbourmaster hands its role to its standby and pauses there, any other module pauses at its harbourmaster, for
10,000 ms; then the other slot runs. -/
def State.swapNow (s : State) (svn : Nat) : State :=
  let standby := s.fld a_MGMT_ROLE f_MGMT_ROLE_SBNODE
  let s1 := if s.role = 1 then (s.sendMgr standby 0x11 (orderBytes 7 0)).sendMgr standby 0x11 (orderBytes 6 10_000)
    else match s.master with
      | some n => s.sendMgr n 0x11 (orderBytes 6 10_000)
      | none => s
  let s2 := { s1 with mgr := { s1.mgr with pause := s1.tideOf 12 + 10_000_000_000 } }
  let held := s2.fld a_MGMT_FW f_MGMT_FW_SVN
  (s2.setFlds a_MGMT_FW [(f_MGMT_FW_SLOT, 1 - s2.fld a_MGMT_FW f_MGMT_FW_SLOT), (f_MGMT_FW_SVN, svn), (f_MGMT_FW_OSVN, held),
    (f_MGMT_FW_OVALID, 1)]).report Code.MGMT_SWAPPED 12 31 []

/-- The other slot verified by R503: the swap goes on, or ends with FIRMWARE_BAD_SIGNATURE (R549). -/
def State.swapEnd (s : State) (svn : Option Nat) : State :=
  let s1 := { s with swapAsk := none }
  if s1.slotOk svn then s1.swapNow (svn.getD 0)
  else (s1.setFlds a_MGMT_FW [(f_MGMT_FW_OVALID, 0), (f_MGMT_FW_OSVN, 0)]).report Code.FIRMWARE_BAD_SIGNATURE 12 31 []

/-- MGMT_SWAP: MGMT_FWCTL.SWAP written by an interface, or (none) the swap that a register write has asked for. `svn` is the security version
of the other slot's image where its signature is good (R549). -/
def execMgmtSwap (src : Option Source) (svn : Option Nat) (s : State) : Host.Outcome State Fault Refusal :=
  .next (match src with
    | some i => s.commandWith i cmdMgmtSwap fun t => let q := t.doMgmtSwap i; if q.2 = 0 then (q.1.swapEnd svn, 0) else q
    | none => if s.swapAsk.isSome then s.swapEnd svn else s)

/-! ### The fused security version -/

/-- Whether an interface may raise the counter (R550). -/
def Source.raises : Source → Bool
  | .manager _ _ => true
  | .pcie => true
  | .mctp => true
  | _ => false

/-- A write of MGMT_SEC.SVN (R550): above the counter, at most the running firmware's version, and with no burn in progress. -/
def State.doSvnWrite (s : State) (src : Source) (value : Nat) : State × Nat :=
  let v := value % 2 ^ 16
  if Source.raises src && s.fld a_MGMT_SEC f_MGMT_SEC_BURNING == 0 && decide (s.fld a_MGMT_SEC f_MGMT_SEC_SVN < v)
      && decide (v ≤ s.fld a_MGMT_FW f_MGMT_FW_SVN) then
    (s.setFlds a_MGMT_SEC [(f_MGMT_SEC_SVN, v), (f_MGMT_SEC_BURNING, 1)], 0)
  else (s, Code.BAD_REG_ACCESS)

/-- SVN_WRITE: MGMT_SEC.SVN written by an interface (R550). -/
def execSvnWrite (src : Source) (value : Nat) (s : State) : Host.Outcome State Fault Refusal :=
  .next (s.commandWith src (cmdSvnWrite value) fun t => t.doSvnWrite src value)

/-- FUSE_BURN_DONE: the burn ends (R550). -/
def execFuseBurnDone (s : State) : Host.Outcome State Fault Refusal := .next (s.setFld a_MGMT_SEC f_MGMT_SEC_BURNING 0)

end Sys2Proof.Machine
end

