-- ==== Sys2Proof/Machine/Manage.lean ====
section
/-! DEFINITION. The management port: MCTP with the Fuonsen messages, PLDM sensors and SPDM (16_host_network_management.md R499 to R502). -/

namespace Sys2Proof.Machine
open Sys2Proof

/-! ### Fuonsen messages -/

/-- Whether management firmware runs (18_start_up.md R533): before it the boot ROM serves MCTP control messages alone. -/
def State.firmwareUp (s : State) : Bool := !s.off && decide (4 ≤ s.fld a_MGMT_BOOT f_MGMT_BOOT_STEP)

/-- What a request over MCTP does once management firmware serves it; before that it is dropped. -/
def State.served (s : State) (f : State → State) : State := if s.firmwareUp then f s else s

/-- An answer over MCTP to the request `tag` names. -/
def State.mctpAnswer (s : State) (tag : Nat) (data : List Nat) : State := s.send .mctp tag data

/-- What the other MCTP control messages that an endpoint must take answer (DSP0236; PRESUMED, log entry 23): Get Endpoint ID, the versions
1.3 of the base standard and of the control protocol, the message types, and the vendor id; another is not supported. -/
def State.mctpControl (s : State) (cmd arg : Nat) : List Nat :=
  if cmd = 2 then [0, s.eid, 0, 0]
  else if cmd = 4 then (if arg = 0xFF || arg == 0 then [0, 1, 0xF1F3_FF00] else [0x80])
  else if cmd = 5 then [0, 4, 0x00, 0x01, 0x05, 0x7E]
  else if cmd = 6 then (if arg = 0 then [0, 0xFF, 0, 0x1F6E, 0] else [2])
  else [5]

/-- MCTP_SET_ENDPOINT_ID: the endpoint id is set (R499); 0 and 0xFF are no ids and are answered with an error. Another control message is
answered, with its error where it is none that the module takes, and a message of a type or length that it does not take is dropped. -/
def execMctpSetEndpointId (tag : Nat) (eid : MctpControl) (s : State) : Host.Outcome State Fault Refusal :=
  .next (if s.off then s
    else match eid with
      | .setEid e => if e % 256 = 0 || e % 256 = 0xFF then s.mctpAnswer tag [2] else { s with eid := e % 256 }.mctpAnswer tag [0, e % 256]
      | .control cmd arg => s.mctpAnswer tag (s.mctpControl cmd arg)
      | .other _ _ => s)

/-- MCTP_REG_READ: the register's value; a die that does not answer gives DIE_UNAVAILABLE (R500, R543). -/
def execMctpRegRead (tag addr : Nat) (s : State) : Host.Outcome State Fault Refusal :=
  .next (s.served fun t =>
    if !inRegs addr then t.mctpAnswer tag [Code.BAD_ADDRESS]
    else if t.noDie addr then t.mctpAnswer tag [Code.DIE_UNAVAILABLE]
    else if addr % 8 ≠ 0 then (t.gather ⟨.mctp, addr, false, false, 0⟩).mctpAnswer tag [0, 2 ^ 64 - 1]
    else t.askReg ⟨.mctp tag, addr, 8⟩)

/-- MCTP_REG_WRITE: a register write that ranks as MCTP, on its way to the journal (R389, R500, R543). -/
def execMctpRegWrite (tag addr : Nat) (value : Word) (s : State) : Host.Outcome State Fault Refusal :=
  .next (s.served fun t =>
    if !inRegs addr then t.mctpAnswer tag [Code.BAD_ADDRESS]
    else (t.arrive .mctp addr 8 value).mctpAnswer tag [if t.noDie addr then Code.DIE_UNAVAILABLE else 0])

/-- Whether any of `n` bytes from `a` that lie at home `h` lies in an HBM window of an IMPOSED partition there (R229, R500). -/
def State.inImposedAt (s : State) (h a n : Nat) : Bool :=
  let lo := max a ((h - 12) * (3 * 2 ^ 36))
  let hi := min (a + n) ((h - 11) * (3 * 2 ^ 36))
  decide (lo < hi) && (List.range 24).any fun p => s.pstate p == 2 && (List.range 4).any fun k =>
    let r := s.reg (a_HBM_WIN h p k)
    f_HBM_WIN_VALID.get r == 1 && decide (f_HBM_WIN_BASE.get r * 2 ^ 28 < hi) && decide (lo < (f_HBM_WIN_LIMIT.get r + 1) * 2 ^ 28)

/-- Whether any of `n` bytes from `a` lies in an HBM window of an IMPOSED partition, at the home of each (R229, R500). -/
def State.inImposed (s : State) (a n : Nat) : Bool := [12, 13, 14, 15].any fun h => s.inImposedAt h a n

/-- An HBM request over MCTP that passes its checks goes to its home (R500). -/
def State.mctpHbm (s : State) (tag a n : Nat) (bad : Bool) (data : Option (List Byte)) : State :=
  if n = 0 || decide (1024 < n) then s.mctpAnswer tag [Code.BAD_DESCRIPTOR]
  else if bad || !inHbm a n then s.mctpAnswer tag [Code.BAD_ADDRESS]
  else if !s.dieUp (addrDie a) || !s.boot.hbmDone then s.mctpAnswer tag [Code.DIE_UNAVAILABLE]
  else s.quayPush (addrDie a) ⟨12, 31, .mgmt .mctp tag tag, a, n, data⟩

/-- MCTP_HBM_WRITE: 1 to 1,024 bytes at a 16-byte aligned address outside every window of an IMPOSED partition (R500). -/
def execMctpHbmWrite (tag addr : Nat) (data : List Byte) (s : State) : Host.Outcome State Fault Refusal :=
  .next (s.served fun t => t.mctpHbm tag addr data.length (addr % 16 != 0 || t.inImposed addr data.length) (some data))

/-- MCTP_HBM_READ: 1 to 1,024 bytes of HBM (R500). -/
def execMctpHbmRead (tag addr len : Nat) (s : State) : Host.Outcome State Fault Refusal :=
  .next (s.served fun t => t.mctpHbm tag addr len false none)

/-- MCTP_RECORD_GET: up to 8 records from a SEQ on, of the last 256, oldest first (R500). -/
def execMctpRecordGet (tag first : Nat) (s : State) : Host.Outcome State Fault Refusal :=
  .next (s.served fun t =>
    let rs := (t.recs.last.filter fun r => decide (first ≤ r.seq)).take 8
    t.mctpAnswer tag (0 :: rs.flatMap fun r => r.sent.map BitVec.toNat))

/-- MCTP_PREEMPT: a pre-emption deadline passed to job leaders as over PCIe (R487, R500). -/
def execMctpPreempt (tag dp : Nat) (leaders : List Nat) (jobs : List JobMark) (s : State) : Host.Outcome State Fault Refusal :=
  .next (s.served fun t => (t.preemptAll dp leaders jobs).mctpAnswer tag [0])

/-! ### PLDM -/

/-- PLDM_GET_TID: the terminus id. -/
def execPldmGetTid (tag : Nat) (s : State) : Host.Outcome State Fault Refusal := .next (s.served fun t => t.mctpAnswer tag [0, Config.pldmTid])

/-- PLDM_GET_VERSION: the version of a PLDM type that is supported, 0 or 2. -/
def execPldmGetVersion (tag type : Nat) (s : State) : Host.Outcome State Fault Refusal :=
  .next (s.served fun t => t.mctpAnswer tag (if type = 0 || type = 2 then 0 :: Config.pldmVersion type else [0x83]))

/-- PLDM_GET_TYPES: types 0 (base) and 2 (platform), as a mask (R501). -/
def execPldmGetTypes (tag : Nat) (s : State) : Host.Outcome State Fault Refusal := .next (s.served fun t => t.mctpAnswer tag [0, 0b101])

/-- The commands of a PLDM type that are supported, by their codes in the standard (R501). -/
def pldmCommands (type : Nat) : List Nat :=
  if type = 0 then [0x02, 0x03, 0x04, 0x05] else if type = 2 then [0x11, 0x21, 0x50, 0x51] else []

/-- PLDM_GET_COMMANDS: the mask of the commands of a type. -/
def execPldmGetCommands (tag type : Nat) (s : State) : Host.Outcome State Fault Refusal :=
  .next (s.served fun t =>
    t.mctpAnswer tag (if (pldmCommands type).isEmpty then [0x83] else [0, ((pldmCommands type).map fun c => 2 ^ c).sum]))

/-- PLDM_GET_PDR_REPOSITORY_INFO: the repository as the device describes it. -/
def execPldmGetPdrRepositoryInfo (tag : Nat) (s : State) : Host.Outcome State Fault Refusal :=
  .next (s.served fun t => t.mctpAnswer tag (0 :: Config.pdrInfo))

/-- PLDM_GET_PDR: a record of the repository. -/
def execPldmGetPdr (tag handle : Nat) (s : State) : Host.Outcome State Fault Refusal :=
  .next (s.served fun t => t.mctpAnswer tag (0 :: Config.pdr handle))

/-- The reading of a numeric sensor (R501), with the die it lies on: the value its register shows. -/
def State.sensor (s : State) (id : Nat) : Option (Nat × Nat) :=
  if 1 ≤ id && decide (id ≤ 16) then some (id - 1, s.fld (a_PWR_SENSE (id - 1)) f_PWR_SENSE_TEMP)
  else if 17 ≤ id && decide (id ≤ 28) then
    some (stackBase (id - 17), s.fld (a_HBM_STACK_STATUS (stackBase (id - 17)) (stackWin (id - 17))) f_HBM_STACK_STATUS_TEMP)
  else if id = 29 then some (12, s.fld a_PWR_SUPPLY f_PWR_SUPPLY_VIN)
  else if id = 30 then some (12, s.fld a_PWR_SUPPLY f_PWR_SUPPLY_INPUT)
  else if 31 ≤ id && decide (id ≤ 46) then some (id - 31, s.fld (a_PWR_STATUS (id - 31)) f_PWR_STATUS_DRAW)
  else none

/-- PLDM_GET_SENSOR_READING: completion code, operational state (0 enabled, 2 unavailable) and value; an id that is no numeric sensor's is
answered with error 0x80. -/
def execPldmGetSensorReading (tag id : Nat) (s : State) : Host.Outcome State Fault Refusal :=
  .next (s.served fun t => match t.sensor id with
    | none => t.mctpAnswer tag [0x80]
    | some (die, v) => t.mctpAnswer tag (if t.dieUp die then [0, 0, v] else [0, 2]))

/-- The health of the module (R501): 2 torn, 1 degraded, 0 normal; degraded until READY (18_start_up.md R533). -/
def State.health (s : State) : Nat :=
  if s.fld a_MGMT_BOOT f_MGMT_BOOT_STEP < 0x0A then 1
  else if (List.range 24).any fun p => s.pstate p == 3 then 2
  else if (List.range 64).any (fun n => s.quarUsed n) || (List.range 156).any fun c => (s.core c).run == .retired then 1
  else 0

/-- PLDM_GET_STATE_SENSOR_READINGS: module health, and the states of partitions. -/
def execPldmGetStateSensorReadings (tag id : Nat) (s : State) : Host.Outcome State Fault Refusal :=
  .next (s.served fun t =>
    if id = 100 then t.mctpAnswer tag [0, t.health]
    else if 101 ≤ id && decide (id ≤ 124) then t.mctpAnswer tag [0, t.pstate (id - 101)]
    else t.mctpAnswer tag [0x80])

/-! ### SPDM -/

/-- The connection over MCTP or PCIe DOE. -/
def State.spdmConn (s : State) (doe : Bool) : SpdmConn := Tbl.get SpdmConn.init s.spdm (b2n doe)

/-- A connection that has come further. -/
def State.setSpdm (s : State) (doe : Bool) (c : SpdmConn) : State := { s with spdm := Tbl.set SpdmConn.init s.spdm (b2n doe) c }

/-- An SPDM answer: its code in the standard, and its content. -/
def State.spdmSend (s : State) (doe : Bool) (tag : Nat) (data : List Nat) : State :=
  s.send (if doe then .hostCompletion else .mctp) tag data

/-- An SPDM ERROR. -/
def State.spdmError (s : State) (doe : Bool) (tag err : Nat) : State := s.spdmSend doe tag [0x7F, err]

/-- A request that needs the connection to have come to `stage`: UnexpectedRequest before that. -/
def State.spdmAt (s : State) (doe : Bool) (tag stage : Nat) (f : State → State) : State :=
  s.served fun t => if (t.spdmConn doe).stage < stage then t.spdmError doe tag 4 else f t

/-- SPDM_GET_VERSION: versions 1.1, 1.2 and 1.3; negotiation starts anew. -/
def execSpdmGetVersion (doe : Bool) (tag : Nat) (s : State) : Host.Outcome State Fault Refusal :=
  .next (s.served fun t => (t.setSpdm doe ⟨1, 0⟩).spdmSend doe tag [0x04, 0x11, 0x12, 0x13])

/-- SPDM_GET_CAPABILITIES: the request's version is the connection's. -/
def execSpdmGetCapabilities (doe : Bool) (tag version : Nat) (s : State) : Host.Outcome State Fault Refusal :=
  .next (s.spdmAt doe tag 1 fun t =>
    if version < 0x11 || decide (0x13 < version) then t.spdmError doe tag 0x41
    else (t.setSpdm doe ⟨2, version⟩).spdmSend doe tag (0x61 :: Config.spdmCaps version))

/-- SPDM_NEGOTIATE_ALGORITHMS: ECDSA on P-384 with SHA-384, SHA-384 for measurements; a request without them is invalid. -/
def execSpdmNegotiateAlgorithms (doe : Bool) (tag : Nat) (p384 sha384 : Bool) (s : State) : Host.Outcome State Fault Refusal :=
  .next (s.spdmAt doe tag 2 fun t =>
    if p384 && sha384 then (t.setSpdm doe ⟨3, (t.spdmConn doe).version⟩).spdmSend doe tag (0x63 :: Config.spdmAlgorithms)
    else t.spdmError doe tag 1)

/-- SPDM_GET_DIGESTS: slot 0's certificate chain. -/
def execSpdmGetDigests (doe : Bool) (tag : Nat) (s : State) : Host.Outcome State Fault Refusal :=
  .next (s.spdmAt doe tag 3 fun t => t.spdmSend doe tag [0x01, 1, (Config.sha384 Config.certChain).toNat])

/-- SPDM_GET_CERTIFICATE: a part of slot 0's chain, with how much of it is left; another slot is invalid. -/
def execSpdmGetCertificate (doe : Bool) (tag slot off len : Nat) (s : State) : Host.Outcome State Fault Refusal :=
  .next (s.spdmAt doe tag 3 fun t =>
    if slot ≠ 0 || Config.certChain.length ≤ off then t.spdmError doe tag 1
    else
      let part := (Config.certChain.drop off).take len
      t.spdmSend doe tag ([0x02, 0, part.length, Config.certChain.length - off - part.length] ++ part.map BitVec.toNat))

/-- A signed answer; with an identity key that cannot be read it is an error, told once per cold reset (R502). -/
def State.spdmSign (s : State) (doe : Bool) (tag : Nat) (data : List Nat) : State :=
  if s.boot.keyBad then
    let s1 := if s.boot.attested then s else { s with boot := { s.boot with attested := true } }.report Code.ATTESTATION_FAILED 12 31 []
    s1.spdmError doe tag 5
  else { s with freeCount := s.freeCount + 1 }.spdmSend doe tag (data ++ [(Config.signed s.freeCount data).toNat])

/-- SPDM_CHALLENGE: signed over the nonce and slot 0's chain. -/
def execSpdmChallenge (doe : Bool) (tag slot nonce : Nat) (s : State) : Host.Outcome State Fault Refusal :=
  .next (s.spdmAt doe tag 3 fun t =>
    if slot ≠ 0 then t.spdmError doe tag 1 else t.spdmSign doe tag [0x03, 0, (Config.sha384 Config.certChain).toNat, nonce])

/-- A measurement block (R502): 1 to 5 digests, 6 to 8 raw. The slot that runs and the other are measured alike, so that a swap exchanges
them. -/
def State.measure (s : State) (i : Nat) : List Nat :=
  let slot := s.fld a_MGMT_FW f_MGMT_FW_SLOT
  if i = 1 then [1, (Config.measured 1 []).toNat]
  else if i = 2 then [2, (Config.measured 2 (s.slotImage slot)).toNat]
  else if i = 3 then [3, (Config.measured 2 (s.slotImage (1 - slot))).toNat]
  else if i = 4 then [4, (Config.measured 4 s.pilotInForce).toNat]
  else if i = 5 then [5, (Config.measured 5 s.microImage).toNat]
  else if i = 6 then [6, s.fld a_MGMT_FW f_MGMT_FW_SVN, s.fld a_MGMT_FW f_MGMT_FW_OSVN, s.fld a_MGMT_SEC f_MGMT_SEC_SVN]
  else if i = 7 then [7, (s.reg a_IMPO_LAST).toNat, s.lastHcrc]
  else [8, (s.reg a_MGMT_STRAP).toNat]

/-- SPDM_GET_MEASUREMENTS: the number of blocks (index 0), one block, or all of them (0xFF), signed or not. -/
def execSpdmGetMeasurements (doe : Bool) (tag index : Nat) (sign : Bool) (nonce : Nat) (s : State) : Host.Outcome State Fault Refusal :=
  .next (s.spdmAt doe tag 3 fun t =>
    if 8 < index && index != 0xFF then t.spdmError doe tag 1
    else
      let data := if index = 0 then [0x60, 8] else 0x60 :: (if index = 0xFF then upFrom 1 8 else [index]).flatMap t.measure
      if sign then t.spdmSign doe tag (data ++ [nonce]) else t.spdmSend doe tag data)

end Sys2Proof.Machine
end

