-- ==== Sys2Proof/Machine/Power.lean ====
section
/-! DEFINITION. Power, budgets, the ramp governor, temperature and crossings (15_power_clocks_crossings.md R453 to R473). -/

namespace Sys2Proof.Machine
open Sys2Proof

/-! ### The supply -/

/-- Whether start-up has not reached READY (R528, R534). -/
def State.starting (s : State) : Bool := decide (s.fld a_MGMT_BOOT f_MGMT_BOOT_STEP < 0x0A)

/-- The sixteen dies' BROWNOUT bits. -/
def State.showBrownout (s : State) (v : Nat) : State :=
  (List.range 16).foldl (fun t d => t.setFld (a_PWR_STATUS d) f_PWR_STATUS_BROWNOUT v) s

/-- The dies that take broadcasts. -/
def State.upDies (s : State) : List Nat := (List.range 16).filter fun d => s.dieUp d

/-- A load whose writes are under way at a brownout halt stops at the first compute die it writes (R418, R454). -/
def State.loadHalted (s : State) : State :=
  match s.loader with
  | some x =>
    if s.fld a_IMPO_STATUS f_IMPO_STATUS_STATE = 3 then
      match s.failedDie x with
      | some d => s.loadFailed x d
      | none => s
    else s
  | none => s

/-- A brownout hold begins at the 21st sample below 38.0 V (R454): a HALT event for every partition, the compute dies' clocks gated, every
slot of the ramp governors withdrawn, and SUPPLY_LOW recorded. A fall within 5 ms of the t0 of a hold continues that hold, with no count and
no record of its own (R455). -/
def State.holdBegin (s : State) : State :=
  let s1 := if s.supply.kept then s
    else { s.bump a_PWR_SUPPLY_CNT f_PWR_SUPPLY_CNT_LOW with supply := { s.supply with kept := true, early := s.starting } }
  let s2 := ((s1.setFld a_PWR_SUPPLY f_PWR_SUPPLY_STATE 2).showBrownout 1).sendAll 12 5 (2 ^ 24 - 1 + Code.SUPPLY_LOW * 2 ^ 24)
  let s3 := (List.range 12).foldl (fun t d => (t.haltParts d (2 ^ 24 - 1)).cutRamp d) s2
  (if s.supply.kept then s3 else s3.report Code.SUPPLY_LOW 16 31 []).loadHalted

/-- The mode's highest core clock, in 25 MHz steps (R457). -/
def State.maxClock (s : State) (die : Nat) : Nat := if s.fld (a_PWR_MODE die) f_PWR_MODE_MODE = 1 then 54 else 64

/-- A brownout hold ends (R454): clocks resume at the mode's clock, cores stay halted; one that began before READY, or in which a reset
waits, ends in a cold reset (R519, R528). -/
def State.holdEnd (s : State) : State :=
  if s.supply.early || s.boot.resetWaits then s.cold
  else
    let s1 := (s.setFld a_PWR_SUPPLY f_PWR_SUPPLY_STATE 0).showBrownout 0
    (List.range 12).foldl (fun t d => t.setFld (a_PWR_STATUS d) f_PWR_STATUS_CLOCK (t.maxClock d)) s1

/-- A sample as the registers show it: VIN, its lowest, the largest change of current over 1 µs, and the input power (R474). -/
def State.showSupply (s : State) (vin current power : Nat) : State :=
  let change := match s.supply.current with
    | some c => max c current - min c current
    | none => 0
  let s1 := s.setFlds a_PWR_SUPPLY [(f_PWR_SUPPLY_VIN, min 65535 vin), (f_PWR_SUPPLY_INPUT, min 65535 power),
    (f_PWR_SUPPLY_VMIN, min (s.fld a_PWR_SUPPLY f_PWR_SUPPLY_VMIN) vin)]
  s1.setFld a_PWR_SUPPLY_CNT f_PWR_SUPPLY_CNT_SLEWMAX (max (s.fld a_PWR_SUPPLY_CNT f_PWR_SUPPLY_CNT_SLEWMAX) (min 65535 change))

/-- A sample of input voltage in 10 mV, current in mA and power in 0.1 W as the monitor takes it (R453 to R456). -/
def State.sampleSupply (s : State) (vin current power : Nat) : State :=
  let u := s.supply
  let s1 := s.showSupply vin current power
  let low := if vin < 3800 then u.low + 1 else 0
  let high := if 6000 < vin then u.high + 1 else 0
  let good := if 4000 ≤ vin then u.good + 1 else 0
  let st := s1.fld a_PWR_SUPPLY f_PWR_SUPPLY_STATE
  let now := s.tideOf 12
  let falls := decide (st < 2) && low == 1
  let again := u.kept && decide (now ≤ u.t0 + 5_020_000)
  let s2 := { s1 with supply := { u with
    low := low
    high := high
    good := good
    current := some current
    t0 := if falls && !again then now else u.t0
    kept := if falls then again else u.kept } }
  let s3 := if high = 21 then (s2.bump a_PWR_SUPPLY_CNT f_PWR_SUPPLY_CNT_HIGH).report Code.SUPPLY_HIGH 16 31 [] else s2
  if st = 3 then s3
  else if st = 2 then (if 100 ≤ good && decide (now ≤ u.t0 + 5_020_000) then s3.holdEnd else s3)
  else if 21 ≤ low then { s3 with supply := { s3.supply with good := 0 } }.holdBegin
  else if 21 ≤ high then s3.setFld a_PWR_SUPPLY f_PWR_SUPPLY_STATE 1
  else if high = 0 && st == 1 then s3.setFld a_PWR_SUPPLY f_PWR_SUPPLY_STATE 0
  else s3

/-- SUPPLY_SAMPLE: every 1 µs (R453 to R456), with `rails` for every on-module rail in regulation. At 66.0 V and above, and below 30.0 V,
power goes off with no record. MOD_PG follows (R520). -/
def execSupplySample (vin current power : Nat) (rails : Bool) (s : State) : Host.Outcome State Fault Refusal :=
  .next (if s.off then s
    else if decide (6600 ≤ vin) || decide (vin < 3000) then s.powerOff
    else
      let t := s.sampleSupply vin current power
      t.drivePg (rails && decide (4000 ≤ vin) && decide (vin ≤ 6000) && !t.brownout))

/-- BROWNOUT_TIMEOUT: no recovery by t0 + 5,020,000: SUPPLY_LOST is written and sent, and the module powers off within 1 ms (R454). -/
def execBrownoutTimeout (s : State) : Host.Outcome State Fault Refusal :=
  let now := s.tideOf 12
  .next (if s.fld a_PWR_SUPPLY f_PWR_SUPPLY_STATE = 2 && decide (s.supply.t0 + 5_020_000 ≤ now) then
      let s1 := (s.setFld a_PWR_SUPPLY f_PWR_SUPPLY_STATE 3).report Code.SUPPLY_LOST 16 31 []
      { s1 with supply := { s1.supply with offAt := some (now + 1_000_000) } }
    else s)

/-! ### Budgets -/

/-- The envelope E as a die holds it, in 0.1 W (R460). -/
def State.envelope (s : State) (die : Nat) : Nat :=
  match s.fld (a_PWR_MODE die) f_PWR_MODE_MODE with
  | 0 => 20000
  | 1 => 15000
  | _ => 10 * s.fld (a_PWR_MODE die) f_PWR_MODE_CAP

/-- LOSS at the end of an interval (R462). -/
def State.lossUpdate (s : State) : State :=
  let e := s.envelope 12
  let input := s.fld a_PWR_SUPPLY f_PWR_SUPPLY_INPUT
  let loss := s.fld a_PWR_SUPPLY f_PWR_SUPPLY_LOSS
  let calm := if 100 * input ≤ 97 * e then s.calm + 1 else 0
  if e < input then { s.setFld a_PWR_SUPPLY f_PWR_SUPPLY_LOSS (max loss (min 64 (loss + 1))) with calm := 0 }
  else if 100 ≤ calm then
    { s.setFld a_PWR_SUPPLY f_PWR_SUPPLY_LOSS (if s.fld (a_PWR_MODE 12) f_PWR_MODE_LOSS < loss then loss - 1 else loss) with calm := 0 }
  else { s with calm := calm }

/-- DEMAND of a die (R459): a compute die's draw at the mode's highest clock over the mean clock of the interval, and a wave's power for a wave
that is asked for and not released. -/
def State.demand (s : State) (die draw : Nat) : Nat :=
  if 12 ≤ die then draw
  else
    let r := s.ramp die
    let cs := if r.clocks.isEmpty then [s.fld (a_PWR_STATUS die) f_PWR_STATUS_CLOCK] else r.clocks
    let n := draw * s.maxClock die * cs.length
    let d := max 1 cs.sum
    n / d + (if n % d ≠ 0 && Config.demandUp draw then 1 else 0)
      + (if r.asked then s.fld (a_PWR_RAMP die) f_PWR_RAMP_WINC else 0)

/-- BODY of a BUDGET message of the interval that ends at T (R459). -/
def State.budgetBody (s : State) (die draw demand T : Nat) : Nat :=
  let st := a_PWR_STATUS die
  draw % 2 ^ 16 + demand % 2 ^ 16 * 2 ^ 16 + s.fld (a_PWR_SENSE die) f_PWR_SENSE_TEMP * 2 ^ 32
    + s.fld st f_PWR_STATUS_THERMAL * 2 ^ 48 + s.fld st f_PWR_STATUS_RATE * 2 ^ 49 + b2n (s.ramp die).held * 2 ^ 50
    + s.fld st f_PWR_STATUS_BROWNOUT * 2 ^ 51 + T % 2 ^ 64 * 2 ^ 64
    + (if die = 12 then s.fld a_PWR_SUPPLY f_PWR_SUPPLY_INPUT * 2 ^ 128 + s.fld a_PWR_SUPPLY f_PWR_SUPPLY_LOSS * 2 ^ 144 else 0)

/-- BUDGET_SEND: at each multiple of 10,000 a die broadcasts its report, with its mean draw in 0.1 W (R459, R462). -/
def execBudgetSend (die draw : Nat) (s : State) : Host.Outcome State Fault Refusal :=
  let T := s.tideOf die / 10000 * 10000
  .next (if 16 ≤ die || !s.dieUp die || s.clockLost.contains die || s.refLost || decide (T ≤ Tbl.get 0 s.budgetSent die) then s
    else
      let s1 := if die = 12 then s.lossUpdate else s
      let dem := s1.demand die draw
      let s2 := s1.setFlds (a_PWR_STATUS die) [(f_PWR_STATUS_DRAW, draw), (f_PWR_STATUS_DEMAND, dem)]
      let s3 := s2.sendAll die 1 (s2.budgetBody die draw dem T)
      { s3.setRamp die { s3.ramp die with held := false } with budgetSent := Tbl.set 0 s3.budgetSent die T })

/-- BUDGET: a report stored for the next allocation (R459). -/
def execBudget (msg : EvtMsg) (s : State) : Host.Outcome State Fault Refusal :=
  .next (s.takeEvt msg 1 fun t => { t with budgets := Tbl.set 0 t.budgets (msg.dst * 16 + msg.src) msg.body })

/-- The least budget of a compute die, in 0.1 W (R460). -/
def minBudget : Nat := 150

/-- What E leaves for the compute dies (R460). -/
def availPower (e loss : Nat) (base : List Nat) : Nat := e * (256 - loss) / 256 - base.sum

/-- The equal filling of unmet demand (R460). -/
def waterFill (dem : List Nat) : Nat → List Nat → Nat → List Nat
  | 0, bud, _ => bud
  | k + 1, bud, left =>
    let pairs := bud.zip dem
    let n := (pairs.filter fun p => decide (p.1 < p.2)).length
    if n = 0 || left == 0 then bud
    else
      let share := left / n
      if share = 0 then
        (pairs.foldl (fun (q : List Nat × Nat) p => if p.1 < p.2 && decide (0 < q.2) then (q.1 ++ [p.1 + 1], q.2 - 1) else (q.1 ++ [p.1], q.2))
          ([], left)).1
      else
        let gains := pairs.map fun p => if p.1 < p.2 then min share (p.2 - p.1) else 0
        waterFill dem k (pairs.map fun p => if p.1 < p.2 then p.1 + min share (p.2 - p.1) else p.1) (left - gains.sum)

/-- The budgets of the twelve compute dies, and whether floors were cut (R460, R461). -/
def allocate (A : Nat) (dem fl : List Nat) : List Nat × Bool :=
  let first := (dem.zip fl).map fun p => max minBudget (min p.1 p.2)
  let S := first.sum
  if A < S then
    (first.map fun b => if A ≤ 12 * minBudget then minBudget
      else minBudget + (b - minBudget) * (A - 12 * minBudget) / (S - 12 * minBudget), true)
  else (waterFill dem 32 first (A - S), false)

/-- The floor of a die, from the floors of the partitions of its two clusters (R460). -/
def State.floorOf (s : State) (die : Nat) : Nat :=
  (((List.range 2).map fun i =>
    match (List.range 24).find? fun p => bit (s.clustersOf p) (2 * die + i) with
    | some p => 10 * s.fld (a_PWR_FLOOR die p) f_PWR_FLOOR_FLOOR / max 1 (maskClusters (s.clustersOf p)).length
    | none => 0).sum) % 2 ^ 16

/-- The report that a die holds of another. -/
def State.report1 (s : State) (die src : Nat) : Nat := Tbl.get 0 s.budgets (die * 16 + src)

/-- The HBM controllers of a base die paced for the budget, or no more (R461). -/
def State.budgetPaced (s : State) (die A : Nat) : State :=
  (List.range 3).foldl (fun t j =>
    let st := 3 * (die - 12) + j
    let p := if A ≤ 12 * minBudget then 1 else if 2000 ≤ A then 0 else (t.hbm st).budgetPace
    (t.modHbm st fun h => { h with budgetPace := p }).repace st) s

/-- BUDGET_ALLOCATE: at T + 5,000 a compute die computes all twelve budgets from the reports stamped T, and takes its own; a base die computes
what is left for them from its own reports, by which it paces its HBM (R460, R461; DESIGN CHOICE, log entry 20). -/
def execBudgetAllocate (die : Nat) (s : State) : Host.Outcome State Fault Refusal :=
  let T := (s.tideOf die - 5000) / 10000 * 10000
  .next (if 16 ≤ die || !s.dieUp die || s.stopped die || decide (T ≤ Tbl.get 0 s.budgetDone die) then s
    else
      let A := availPower (s.envelope die) (bits (s.report1 die 12) 151 144) ((List.range 4).map fun b => bits (s.report1 die (12 + b)) 15 0)
      let dem := (List.range 12).map fun d => bits (s.report1 die d) 31 16
      let q := allocate A dem ((List.range 12).map s.floorOf)
      let done (t : State) : State := { t with budgetDone := Tbl.set 0 t.budgetDone die T }
      if 12 ≤ die then
        done ((if die = 12 && q.2 then s.reportSlow 0 Code.BUDGET_LIMIT 12 31 [] else s).budgetPaced die A)
      else
      let s1 := (s.setFlds (a_PWR_BUDGET die) [(f_PWR_BUDGET_FLOOR, s.floorOf die), (f_PWR_BUDGET_AVAIL, A),
        (f_PWR_BUDGET_BUDGET, q.1.getD die 0)]).setFld (a_PWR_STATUS die) f_PWR_STATUS_FLOORCUT (b2n q.2)
      done (if q.2 then s1.reportSlow 0 Code.BUDGET_LIMIT 12 31 [] else s1))

/-! ### The ramp governor -/

/-- How many slots wave `k` releases (R464). -/
def waveSlots (k : Nat) : Nat := if k ≤ 4 then 4 else 3

/-- Whether a PRESS of a die stalls for RAMP (R68, R464). -/
def State.rampStalled (s : State) (die : Nat) : Bool :=
  (List.range 13).any fun n => match (s.press (13 * die + n)).pending with
    | some o => s.pressUnmet (13 * die + n) o == some 5
    | none => false

/-- A PREWARM ramp at a boundary (R388, R465): a wave of it that the level has already is done; the sixteenth is its last. -/
def Prewarm.reach (p : Prewarm) (level at_ : Nat) : Prewarm :=
  if level = 16 then { p with waves := 16, done := true }
  else if p.waves < level && decide (p.base + 2000 * (p.waves + 1) ≤ at_) then { p with waves := p.waves + 1 }
  else p

/-- Whether a PREWARM ramp calls for a wave at a boundary. -/
def Prewarm.calls (p : Prewarm) (level at_ : Nat) : Bool := level == p.waves && decide (p.base + 2000 * (p.waves + 1) ≤ at_)

/-- A wave held: the rest of every PREWARM ramp that called for it moves by one boundary (R465). -/
def RampState.holdWave (r : RampState) (at_ : Nat) : RampState :=
  { r with
    asked := true
    held := true
    prewarms := r.prewarms.map fun (p : Prewarm) => if p.calls r.level at_ then { p with base := p.base + 2000 } else p }

/-- A wave released: its slots begin ballast under the lowest free numbers (R464). -/
def RampState.release (r : RampState) (now : Nat) : RampState :=
  let free := (List.range 52).filter fun n => !r.slots.any fun x => x.slot == n
  { r with
    level := r.level + 1
    asked := false
    slots := r.slots ++ (free.take (waveSlots (r.level + 1))).map fun n => RampSlot.mk n none now }

/-- The slots idle at a boundary, the longest idle first (R464). -/
def RampState.idle (r : RampState) (hold now : Nat) : List RampSlot :=
  (r.slots.filter fun x => x.owner.isNone && decide (x.since + hold ≤ now)).mergeSort fun a b => a.before b

/-- The level below which no withdrawal goes (R465). -/
def RampState.floor (r : RampState) (now : Nat) : Nat :=
  if now < r.keep then 16 else (r.prewarms.map fun p => p.waves).foldl max 0

/-- A level withdrawn, where idle slots and PREWARM allow it (R464, R465). -/
def RampState.withdraw (r : RampState) (hold now : Nat) : RampState :=
  let idle := r.idle hold now
  if r.level = 0 || decide (idle.length < waveSlots r.level) || decide (r.level ≤ r.floor now) then r
  else
    let gone := idle.take (waveSlots r.level)
    { r with
      level := r.level - 1
      slots := r.slots.filter fun x => !gone.any fun y => y.slot == x.slot }

/-- The core clock's step at a boundary (R463). -/
def State.clockStep (s : State) (die draw : Nat) : State :=
  let a := a_PWR_STATUS die
  let budget := s.fld (a_PWR_BUDGET die) f_PWR_BUDGET_BUDGET
  let hot := s.fld a f_PWR_STATUS_THERMAL == 1
  let fast := s.fld a f_PWR_STATUS_RATE == 1
  let clock := s.fld a f_PWR_STATUS_CLOCK
  let top := s.maxClock die
  let c := if hot || decide (budget < draw) then max 16 (clock - 2)
    else if decide (20 * draw < 19 * budget) && !fast then min top (clock + 1) else clock
  let by_ := decide (c < top) && (s.fld a f_PWR_STATUS_BUDGET == 1 || decide (19 * budget ≤ 20 * draw))
  s.setFlds a [(f_PWR_STATUS_CLOCK, c), (f_PWR_STATUS_BUDGET, b2n by_)]

/-- Why a wave due is held (R463), by PWR_RAMP.HREASON: throttled, rate-limited, or over budget. -/
def State.holdReason (s : State) (die draw : Nat) : Option Nat :=
  let a := a_PWR_STATUS die
  if s.fld a f_PWR_STATUS_THERMAL = 1 then some 2
  else if s.fld a f_PWR_STATUS_RATE = 1 then some 3
  else if s.fld (a_PWR_BUDGET die) f_PWR_BUDGET_BUDGET < draw + s.fld (a_PWR_RAMP die) f_PWR_RAMP_WINC then some 1
  else none

/-- The wave or withdrawal of a boundary (R463 to R465). -/
def State.wave (s : State) (die draw at_ : Nat) : State :=
  let now := s.tideOf die
  let r0 := s.ramp die
  let r := { r0 with prewarms := r0.prewarms.map fun (p : Prewarm) => p.reach r0.level at_ }
  let due := decide (r.level < 16) && (s.rampStalled die || r.prewarms.any fun p => p.calls r.level at_)
  if !due then s.setRamp die ({ r with asked := false }.withdraw (s.fld (a_PWR_RAMP die) f_PWR_RAMP_HOLD) now)
  else match s.holdReason die draw with
    | some why =>
      let s1 := ((s.setRamp die (r.holdWave at_)).bump (a_PWR_RAMP_CNT die) f_PWR_RAMP_CNT_HELD).setFld (a_PWR_RAMP die)
        f_PWR_RAMP_HREASON why
      s1.reportSlow die Code.RAMP_SLIP die 31 [why, s1.fld (a_PWR_RAMP_CNT die) f_PWR_RAMP_CNT_HELD]
    | none =>
      let r1 := r.release now
      (s.setRamp die { r1 with prewarms := r1.prewarms.map fun (p : Prewarm) => p.reach r1.level at_ }).bumpWrap (a_PWR_RAMP_CNT die)
        f_PWR_RAMP_CNT_WAVES

/-- WAVE_BOUNDARY: at each multiple of 2,000 a compute die decides a wave or a withdrawal, then steps its clock, by its draw over the last
2,000 tide units in 0.1 W (R463). -/
def execWaveBoundary (die draw : Nat) (s : State) : Host.Outcome State Fault Refusal :=
  let b := s.tideOf die / 2000 * 2000
  .next (if 12 ≤ die || !s.dieUp die || s.stopped die || decide (b ≤ (s.ramp die).last) then s
    else
      let s1 := (s.wave die draw b).clockStep die draw
      s1.setRamp die { s1.ramp die with
        last := b
        clocks := (s1.fld (a_PWR_STATUS die) f_PWR_STATUS_CLOCK :: (s1.ramp die).clocks).take 5 })

/-! ### Temperature -/

/-- A list with a die in it or not. -/
def withDie (l : List Nat) (die : Nat) (v : Bool) : List Nat := if v then (if l.contains die then l else l ++ [die]) else l.filter fun d => d != die

/-- The throttle and rate bits of a die: its own sensor's and its base die's (R466). -/
def State.showHot (s : State) (die : Nat) : State :=
  let hot := s.hot.contains die || (decide (die < 12) && s.hot.contains (baseOf die))
  let fast := decide (die < 12) && s.rising.contains (baseOf die)
  s.setFlds (a_PWR_STATUS die) [(f_PWR_STATUS_THERMAL, b2n hot), (f_PWR_STATUS_RATE, b2n fast)]

/-- A sensor's crossings: whether its die is hot, and whether it rises too fast, each recorded once per crossing with that die, its temperature
and the cause, 2 a throttle and 3 a rate limit (R466; DESIGN CHOICE, log entry 20). -/
def State.crossHot (s : State) (die temp : Nat) (hot fast : Bool) : State :=
  let s1 := { s with hot := withDie s.hot die hot, rising := withDie s.rising die fast }
  let s2 := if hot && !s.hot.contains die then s1.report Code.THERMAL_THROTTLE die 31 [temp, 2] else s1
  if fast && !s.rising.contains die then s2.report Code.THERMAL_THROTTLE die 31 [temp, 3] else s2

/-- TEMP_SAMPLE: a die's temperature and its rise over the last 1 ms, in 1/16 °C, and its rail in mV: throttle, rate limit and trip (R466,
R467). -/
def execTempSample (die : Nat) (temp rise : Int) (volt : Nat) (s : State) : Host.Outcome State Fault Refusal :=
  .next (if 16 ≤ die || !s.dieUp die then s
    else
      let th := a_PWR_THERM die
      let t16 := unsigned 16 temp
      let top := max (signed 16 (s.fld (a_PWR_SENSE die) f_PWR_SENSE_MAX)) temp
      let s1 := s.setFlds (a_PWR_SENSE die) [(f_PWR_SENSE_TEMP, t16), (f_PWR_SENSE_RISE, unsigned 16 rise), (f_PWR_SENSE_VOLT, volt),
        (f_PWR_SENSE_MAX, unsigned 16 top)]
      let hot := if (s1.fld th f_PWR_THERM_THROTTLE : Int) ≤ temp then true
        else if temp < (s1.fld th f_PWR_THERM_CLEAR : Int) then false else s1.hot.contains die
      let fast := decide (12 ≤ die) && (if 24 < rise then true else if rise < 16 then false else s1.rising.contains die)
      let s3 := (s1.crossHot die t16 hot fast).showHot die
      let s4 := if die < 12 then s3
        else (List.range 3).foldl (fun t j => (t.showHot (3 * (die - 12) + j)).repace (3 * (die - 12) + j)) s3
      if (s1.fld th f_PWR_THERM_TRIP : Int) ≤ temp && !s4.clockLost.contains die then
        (s4.pllLoss die 0).report Code.THERMAL_TRIP die 31 []
      else s4)

/-! ### Crossings -/

/-- Whether a die holds both sides of a crossing group (R470). -/
def hasGroup (die g : Nat) : Bool :=
  if die < 12 then decide (g < 3) else decide (die < 16) && ((decide (3 ≤ g) && decide (g ≤ 5)) || (die == 12 && decide (6 ≤ g) && decide (g ≤ 9)))

/-- CROSSING_CLOCK_STOP: no edge for 1,000 tide units: the clock of a group is taken as stopped (R471). -/
def execCrossingClockStop (die group : Nat) (s : State) : Host.Outcome State Fault Refusal :=
  let a := a_CLK_XSTAT die group
  .next (if !hasGroup die group || s.fld a f_CLK_XSTAT_STOPPED == 1 then s
    else { (s.setFld a f_CLK_XSTAT_STOPPED 1).bump a f_CLK_XSTAT_STOPS with
      crossStops := Tbl.set none s.crossStops (die * 16 + group) (some (s.tideOf die)) })

/-- The requests of a die that wait on a crossing, ended with CROSSING_TIMEOUT. -/
def State.endRequests (s : State) (die : Nat) (mine : MemReq → Bool) : State :=
  let q := (Tbl.get [] s.quay die).filter mine
  let h := (s.homeList die).filter fun e => mine e.req
  let s1 : State := { s with quay := Tbl.set [] s.quay die ((Tbl.get [] s.quay die).filter fun r => !mine r) }
  let s2 := s1.setHome die ((s1.homeList die).filter fun e => !mine e.req)
  (q ++ h.map fun e => e.req).foldl (fun t r => t.refuse die r Code.CROSSING_TIMEOUT) s2

/-- A core's galley loads and stores that wait on the crossing ended with an error completion, which the pilot takes as one trap; what TVAL
holds is not stated. -/
def State.loadTimeout (s : State) (c : Nat) : State :=
  let k := s.core c
  let mine := k.stores.filter fun e => isGalley e.addr
  if mine.isEmpty && !(k.loads.any fun e => e.data.isNone && isGalley e.addr) then s
  else
    let t := s.modCore c fun k => { k with stores := k.stores.filter fun e => !isGalley e.addr }
    t.free.2.trap c Code.CROSSING_TIMEOUT t.free.1

/-- A press's requests that wait on the crossing ended: the FORME that is next to be staged, and those whose row sums are due, leave their slots
POISON as a read error does, and the drain that holds its set ends with an error completion. -/
def State.pressTimeout (s : State) (c : Nat) : State :=
  let told (t : State) (desc : Nat) : State := t.modPress c fun p => { p with descErrs := p.descErrs ++ [(desc, Code.CROSSING_TIMEOUT)] }
  let s1 := match (s.press c).staging with
    | [] => s
    | e :: rest =>
      if (!e.taken && !s.mayTake c 1 e.wait 0) || (s.press c).usesSlot (formeSlot e.desc) then s
      else told ((if e.taken then s else s.modCore c fun k => k.take e.wait).formePoisoned c e rest) e.desc
  let s2 := ((s.press c).sumsDue).foldl (fun t x =>
    let src := (t.press c).slot x.1
    let u := match src.src with
      | some f => told t f.desc
      | none => t
    (u.modPress c fun p => { p.setSlot x.1 ⟨none, none, true, none⟩ with sumsDue := p.sumsDue.filter fun y => y != x }).raise c x.2)
    (s1.formeDrop c fun l => l.filter fun n => n != c)
  match (s2.press c).drains.find? fun d => d.phase == .held with
  | some d => s2.drainFailed c d Code.CROSSING_TIMEOUT
  | none => s2

/-- A core's lighter requests ended, and its instruction fetch. -/
def State.ltrTimeout (s : State) (c : Nat) : State :=
  let open_ := (s.ltr c).reqs.filterMap fun e => e.2.map fun r => (e.1, r)
  let s1 := open_.foldl (fun t p => t.finish c p.1 (p.2.failed Code.CROSSING_TIMEOUT 0 (targetOf p.2.desc))) s
  s1.modCore c fun k => match k.missing with
    | some l => { k with missing := none, fetchBad := some (l, Code.FETCH_ERROR) }
    | none => k

/-- The host's requests and the reads of host memory that wait on the PCIe crossing ended. -/
def State.hostTimeout (s : State) : State :=
  let s1 := (List.range 16).foldl (fun t d => t.endRequests d fun r => match r.agent with
    | .pcie _ => true
    | _ => false) s
  let mine (x : RegRead) : Bool := x.reader.source == .pcie
  let s2 := (s1.regReads.filter mine).foldl (fun t x => t.readFailed x.reader Code.CROSSING_TIMEOUT)
    { s1 with regReads := s1.regReads.filter fun x => !mine x }
  ((s2.hostReads.map fun x => x.tag).eraseDups).foldl (fun t tag => t.hostReadEnd tag Code.CROSSING_TIMEOUT 0) s2

/-- The frames that wait on the Ethernet crossing discarded, and the WQEs outstanding ended (R471). -/
def State.ethTimeout (s : State) : State :=
  (List.range 64).foldl (fun t n =>
    if (t.qp n).jobs.isEmpty then t
    else (t.modQp n fun q => { q with
      jobs := q.jobs.map fun j => if j.code = 0 then { j with code := Code.CROSSING_TIMEOUT, packets := 0 } else j
      una := t.npsn n
      tries := 0
      rnr := 0 }).completeJobs n) { s with ethHeld := [] }

/-- What a timed-out crossing discards, and the requests that wait on it (R470, R471). -/
def State.crossEnd (s : State) (die g : Nat) : State :=
  let cores := (List.range 13).map fun n => 13 * die + n
  match g with
  | 0 => cores.foldl (fun t c => (t.loadTimeout c).pressTimeout c) s
  | 1 => cores.foldl (fun t c => t.ltrTimeout c) s
  | 2 => s.endRequests die fun r => r.ranges.any fun x => isGalley x.1
  | 3 => s.endRequests die fun r => !r.hbmLines.isEmpty
  | 5 => (List.range 96).foldl (fun t i =>
      let l := (die - 12) * 96 + i
      { t with lanes := Tbl.set LaneState.init t.lanes l { Tbl.get LaneState.init t.lanes l with tx := none } }) s
  | 6 => s.hostTimeout
  | 7 => s.ethTimeout
  | 9 => { s with uartRx := [], uart := { s.uart with tx := [] } }
  | _ => s

/-- CROSSING_TIMEOUT: a clock still stopped after TIMEOUT µs in timeout mode: the crossing's contents are discarded and its requests end,
counted and recorded (R471). -/
def execCrossingTimeout (die group : Nat) (s : State) : Host.Outcome State Fault Refusal :=
  let x := a_CLK_XCFG die group
  .next (match Tbl.get none s.crossStops (die * 16 + group) with
    | none => s
    | some t =>
      if s.fld x f_CLK_XCFG_MODE = 0 || decide (s.tideOf die ≤ t + s.fld x f_CLK_XCFG_TIMEOUT * 1000) then s
      else
        let s1 := { s with crossStops := Tbl.set none s.crossStops (die * 16 + group) none }
        ((s1.crossEnd die group).bump (a_CLK_XSTAT die group) f_CLK_XSTAT_TIMEOUTS).report Code.CROSSING_TIMEOUT die 31 [group])

/-- CROSSING_CLOCK_RETURN: a stopped clock returns: the crossing resumes, or is reset where it has timed out (R471, R472). -/
def execCrossingClockReturn (die group : Nat) (s : State) : Host.Outcome State Fault Refusal :=
  .next (if !hasGroup die group then s
    else { s.setFld (a_CLK_XSTAT die group) f_CLK_XSTAT_STOPPED 0 with
      crossStops := Tbl.set none s.crossStops (die * 16 + group) none })

end Sys2Proof.Machine
end

