-- ==== Sys2Proof/Machine/Scalar.lean ====
section
/-! DEFINITION. The scalar families of the pilot: integer register and immediate operations, wide immediates, multiply and
divide, branches and jumps (03_core_and_instruction_set.md R113). -/

namespace Sys2Proof.Machine
open Sys2Proof

/-- One for true. -/
def boolWord (b : Bool) : Word := if b then 1 else 0

/-- Leading zeros of a word, 0 to 64 (CLZ). -/
def clz64 (w : Word) : Nat := if w.toNat = 0 then 64 else 63 - Nat.log2 w.toNat

/-- Trailing zeros of the low `n` bits of a number. -/
def ctzGo : Nat → Nat → Nat
  | 0, _ => 0
  | n + 1, x => if x % 2 = 1 then 0 else 1 + ctzGo n (x / 2)

/-- Trailing zeros of a word, 0 to 64 (CTZ). -/
def ctz64 (w : Word) : Nat := ctzGo 64 w.toNat

/-- Set bits among the low `n` bits of a number. -/
def popGo : Nat → Nat → Nat
  | 0, _ => 0
  | n + 1, x => x % 2 + popGo n (x / 2)

/-- Signed quotient, truncating: a zero divisor gives all ones, −2^63 by −1 gives −2^63 (R113). -/
def divS (a b : Word) : Word := if b = 0 then -1 else BitVec.ofInt 64 (Int.tdiv a.toInt b.toInt)

/-- Unsigned quotient; a zero divisor gives all ones (R113). -/
def divU (a b : Word) : Word := if b = 0 then -1 else BitVec.ofNat 64 (a.toNat / b.toNat)

/-- Signed remainder with the sign of a; a zero divisor gives a (R113). -/
def remS (a b : Word) : Word := if b = 0 then a else BitVec.ofInt 64 (Int.tmod a.toInt b.toInt)

/-- Unsigned remainder; a zero divisor gives a (R113). -/
def remU (a b : Word) : Word := if b = 0 then a else BitVec.ofNat 64 (a.toNat % b.toNat)

/-- The high 64 bits of a signed product (R113). -/
def mulHS (a b : Word) : Word := BitVec.ofInt 64 ((a.toInt * b.toInt) / 2 ^ 64)

/-- The high 64 bits of an unsigned product (R113). -/
def mulHU (a b : Word) : Word := BitVec.ofNat 64 (a.toNat * b.toNat / 2 ^ 64)

/-- The low 32 bits of a word sign-extended (R113). -/
def sextW (a : Word) : Word := (a.setWidth 32).signExtend 64

/-- The shift count rb[5:0] (R113). -/
def shCount (b : Word) : Nat := b.toNat % 64

/-- A shift or rotate by kind: SHL, SHR, SRA, ROR (R113). -/
def shiftBy (kind : Fin 4) (a : Word) (n : Nat) : Word :=
  match kind with
  | 0 => a <<< n
  | 1 => a >>> n
  | 2 => a.sshiftRight n
  | 3 => a.rotateRight n

/-- A register-register instruction. -/
def State.rrr (s : State) (c : Nat) (i : Instr) (rd ra rb : Fin 32) (f : Word → Word → Word) : State :=
  s.scalar c i fun k => k.setRg rd (f (k.rg ra) (k.rg rb))

/-- A one-source instruction. -/
def State.rr1 (s : State) (c : Nat) (i : Instr) (rd ra : Fin 32) (f : Word → Word) : State :=
  s.scalar c i fun k => k.setRg rd (f (k.rg ra))

/-- A conditional branch: the target is the branch address plus four times the offset (R113). -/
def State.branch (s : State) (c : Nat) (i : Instr) (ra rb : Fin 32) (off : BitVec 14) (t : Word → Word → Bool) : State :=
  s.issue c i fun k => if t (k.rg ra) (k.rg rb) then .jump s (k.pc + 4 * sext14 off) else .go s

/-- ADD (R113). -/
def execAdd (c : Nat) (rd ra rb : Fin 32) (s : State) : Host.Outcome State Fault Refusal :=
  .next (s.rrr c (.add c rd ra rb) rd ra rb (fun a b => a + b))

/-- SUB (R113). -/
def execSub (c : Nat) (rd ra rb : Fin 32) (s : State) : Host.Outcome State Fault Refusal :=
  .next (s.rrr c (.sub c rd ra rb) rd ra rb (fun a b => a - b))

/-- AND (R113). -/
def execAnd (c : Nat) (rd ra rb : Fin 32) (s : State) : Host.Outcome State Fault Refusal :=
  .next (s.rrr c (.and c rd ra rb) rd ra rb (fun a b => a &&& b))

/-- OR (R113). -/
def execOr (c : Nat) (rd ra rb : Fin 32) (s : State) : Host.Outcome State Fault Refusal :=
  .next (s.rrr c (.or c rd ra rb) rd ra rb (fun a b => a ||| b))

/-- XOR (R113). -/
def execXor (c : Nat) (rd ra rb : Fin 32) (s : State) : Host.Outcome State Fault Refusal :=
  .next (s.rrr c (.xor c rd ra rb) rd ra rb (fun a b => a ^^^ b))

/-- ANDN (R113). -/
def execAndn (c : Nat) (rd ra rb : Fin 32) (s : State) : Host.Outcome State Fault Refusal :=
  .next (s.rrr c (.andn c rd ra rb) rd ra rb (fun a b => a &&& ~~~b))

/-- SHL (R113). -/
def execShl (c : Nat) (rd ra rb : Fin 32) (s : State) : Host.Outcome State Fault Refusal :=
  .next (s.rrr c (.shl c rd ra rb) rd ra rb (fun a b => shiftBy 0 a (shCount b)))

/-- SHR (R113). -/
def execShr (c : Nat) (rd ra rb : Fin 32) (s : State) : Host.Outcome State Fault Refusal :=
  .next (s.rrr c (.shr c rd ra rb) rd ra rb (fun a b => shiftBy 1 a (shCount b)))

/-- SRA (R113). -/
def execSra (c : Nat) (rd ra rb : Fin 32) (s : State) : Host.Outcome State Fault Refusal :=
  .next (s.rrr c (.sra c rd ra rb) rd ra rb (fun a b => shiftBy 2 a (shCount b)))

/-- ROR (R113). -/
def execRor (c : Nat) (rd ra rb : Fin 32) (s : State) : Host.Outcome State Fault Refusal :=
  .next (s.rrr c (.ror c rd ra rb) rd ra rb (fun a b => shiftBy 3 a (shCount b)))

/-- SLT (R113). -/
def execSlt (c : Nat) (rd ra rb : Fin 32) (s : State) : Host.Outcome State Fault Refusal :=
  .next (s.rrr c (.slt c rd ra rb) rd ra rb (fun a b => boolWord (a.slt b)))

/-- SLTU (R113). -/
def execSltu (c : Nat) (rd ra rb : Fin 32) (s : State) : Host.Outcome State Fault Refusal :=
  .next (s.rrr c (.sltu c rd ra rb) rd ra rb (fun a b => boolWord (a.ult b)))

/-- MIN (R113). -/
def execMin (c : Nat) (rd ra rb : Fin 32) (s : State) : Host.Outcome State Fault Refusal :=
  .next (s.rrr c (.min c rd ra rb) rd ra rb (fun a b => if a.slt b then a else b))

/-- MAX (R113). -/
def execMax (c : Nat) (rd ra rb : Fin 32) (s : State) : Host.Outcome State Fault Refusal :=
  .next (s.rrr c (.max c rd ra rb) rd ra rb (fun a b => if a.slt b then b else a))

/-- MINU (R113). -/
def execMinu (c : Nat) (rd ra rb : Fin 32) (s : State) : Host.Outcome State Fault Refusal :=
  .next (s.rrr c (.minu c rd ra rb) rd ra rb (fun a b => if a.ult b then a else b))

/-- MAXU (R113). -/
def execMaxu (c : Nat) (rd ra rb : Fin 32) (s : State) : Host.Outcome State Fault Refusal :=
  .next (s.rrr c (.maxu c rd ra rb) rd ra rb (fun a b => if a.ult b then b else a))

/-- ADDW (R113). -/
def execAddw (c : Nat) (rd ra rb : Fin 32) (s : State) : Host.Outcome State Fault Refusal :=
  .next (s.rrr c (.addw c rd ra rb) rd ra rb (fun a b => sextW (a + b)))

/-- SUBW (R113). -/
def execSubw (c : Nat) (rd ra rb : Fin 32) (s : State) : Host.Outcome State Fault Refusal :=
  .next (s.rrr c (.subw c rd ra rb) rd ra rb (fun a b => sextW (a - b)))

/-- MUL (R113). -/
def execMul (c : Nat) (rd ra rb : Fin 32) (s : State) : Host.Outcome State Fault Refusal :=
  .next (s.rrr c (.mul c rd ra rb) rd ra rb (fun a b => a * b))

/-- MULH (R113). -/
def execMulh (c : Nat) (rd ra rb : Fin 32) (s : State) : Host.Outcome State Fault Refusal :=
  .next (s.rrr c (.mulh c rd ra rb) rd ra rb (mulHS))

/-- MULHU (R113). -/
def execMulhu (c : Nat) (rd ra rb : Fin 32) (s : State) : Host.Outcome State Fault Refusal :=
  .next (s.rrr c (.mulhu c rd ra rb) rd ra rb (mulHU))

/-- DIV (R113). -/
def execDiv (c : Nat) (rd ra rb : Fin 32) (s : State) : Host.Outcome State Fault Refusal :=
  .next (s.rrr c (.div c rd ra rb) rd ra rb (divS))

/-- DIVU (R113). -/
def execDivu (c : Nat) (rd ra rb : Fin 32) (s : State) : Host.Outcome State Fault Refusal :=
  .next (s.rrr c (.divu c rd ra rb) rd ra rb (divU))

/-- REM (R113). -/
def execRem (c : Nat) (rd ra rb : Fin 32) (s : State) : Host.Outcome State Fault Refusal :=
  .next (s.rrr c (.rem c rd ra rb) rd ra rb (remS))

/-- REMU (R113). -/
def execRemu (c : Nat) (rd ra rb : Fin 32) (s : State) : Host.Outcome State Fault Refusal :=
  .next (s.rrr c (.remu c rd ra rb) rd ra rb (remU))

/-- CLZ (R113). -/
def execClz (c : Nat) (rd ra : Fin 32) (s : State) : Host.Outcome State Fault Refusal :=
  .next (s.rr1 c (.clz c rd ra) rd ra (fun a => BitVec.ofNat 64 (clz64 a)))

/-- CTZ (R113). -/
def execCtz (c : Nat) (rd ra : Fin 32) (s : State) : Host.Outcome State Fault Refusal :=
  .next (s.rr1 c (.ctz c rd ra) rd ra (fun a => BitVec.ofNat 64 (ctz64 a)))

/-- POPC (R113). -/
def execPopc (c : Nat) (rd ra : Fin 32) (s : State) : Host.Outcome State Fault Refusal :=
  .next (s.rr1 c (.popc c rd ra) rd ra (fun a => BitVec.ofNat 64 (popGo 64 a.toNat)))

/-- SEL: rc ≠ 0 takes ra, else rb (R113). -/
def execSel (c : Nat) (rd ra rb rc : Fin 32) (s : State) : Host.Outcome State Fault Refusal :=
  .next (s.scalar c (.sel c rd ra rb rc) fun k => k.setRg rd (if k.rg rc ≠ 0 then k.rg ra else k.rg rb))

/-- MADD, low 64 bits (R113). -/
def execMadd (c : Nat) (rd ra rb rc : Fin 32) (s : State) : Host.Outcome State Fault Refusal :=
  .next (s.scalar c (.madd c rd ra rb rc) fun k => k.setRg rd (k.rg ra * k.rg rb + k.rg rc))

/-- ADDI: the register form with sign-extended imm14 (R113). -/
def execAddi (c : Nat) (rd ra : Fin 32) (imm : BitVec 14) (s : State) : Host.Outcome State Fault Refusal :=
  .next (s.rr1 c (.addi c rd ra imm) rd ra (fun a => a + sext14 imm))

/-- ANDI: the register form with sign-extended imm14 (R113). -/
def execAndi (c : Nat) (rd ra : Fin 32) (imm : BitVec 14) (s : State) : Host.Outcome State Fault Refusal :=
  .next (s.rr1 c (.andi c rd ra imm) rd ra (fun a => a &&& sext14 imm))

/-- ORI: the register form with sign-extended imm14 (R113). -/
def execOri (c : Nat) (rd ra : Fin 32) (imm : BitVec 14) (s : State) : Host.Outcome State Fault Refusal :=
  .next (s.rr1 c (.ori c rd ra imm) rd ra (fun a => a ||| sext14 imm))

/-- XORI: the register form with sign-extended imm14 (R113). -/
def execXori (c : Nat) (rd ra : Fin 32) (imm : BitVec 14) (s : State) : Host.Outcome State Fault Refusal :=
  .next (s.rr1 c (.xori c rd ra imm) rd ra (fun a => a ^^^ sext14 imm))

/-- SLTI: the register form with sign-extended imm14 (R113). -/
def execSlti (c : Nat) (rd ra : Fin 32) (imm : BitVec 14) (s : State) : Host.Outcome State Fault Refusal :=
  .next (s.rr1 c (.slti c rd ra imm) rd ra (fun a => boolWord (a.slt (sext14 imm))))

/-- SLTIU: the register form with sign-extended imm14 (R113). -/
def execSltiu (c : Nat) (rd ra : Fin 32) (imm : BitVec 14) (s : State) : Host.Outcome State Fault Refusal :=
  .next (s.rr1 c (.sltiu c rd ra imm) rd ra (fun a => boolWord (a.ult (sext14 imm))))

/-- SHI (R113). -/
def execShi (c : Nat) (rd ra : Fin 32) (kind : Fin 4) (sh : Fin 64) (s : State) : Host.Outcome State Fault Refusal :=
  .next (s.rr1 c (.shi c rd ra kind sh) rd ra (fun a => shiftBy kind a sh.val))

/-- MOVZ (R113). -/
def execMovz (c : Nat) (rd : Fin 32) (hw : Fin 4) (imm : BitVec 16) (s : State) : Host.Outcome State Fault Refusal :=
  .next (s.scalar c (.movz c rd hw imm) fun k => k.setRg rd (imm.setWidth 64 <<< (16 * hw.val)))

/-- MOVK keeps the other bits (R113). -/
def execMovk (c : Nat) (rd : Fin 32) (hw : Fin 4) (imm : BitVec 16) (s : State) : Host.Outcome State Fault Refusal :=
  .next (s.scalar c (.movk c rd hw imm) fun k => k.setRg rd ((k.rg rd &&& ~~~((0xFFFF : Word) <<< (16 * hw.val))) ||| (imm.setWidth 64 <<< (16 * hw.val))))

/-- MOVN (R113). -/
def execMovn (c : Nat) (rd : Fin 32) (hw : Fin 4) (imm : BitVec 16) (s : State) : Host.Outcome State Fault Refusal :=
  .next (s.scalar c (.movn c rd hw imm) fun k => k.setRg rd (~~~(imm.setWidth 64 <<< (16 * hw.val))))

/-- BEQ (R113). -/
def execBeq (c : Nat) (ra rb : Fin 32) (off : BitVec 14) (s : State) : Host.Outcome State Fault Refusal :=
  .next (s.branch c (.beq c ra rb off) ra rb off (fun a b => a == b))

/-- BNE (R113). -/
def execBne (c : Nat) (ra rb : Fin 32) (off : BitVec 14) (s : State) : Host.Outcome State Fault Refusal :=
  .next (s.branch c (.bne c ra rb off) ra rb off (fun a b => a != b))

/-- BLT (R113). -/
def execBlt (c : Nat) (ra rb : Fin 32) (off : BitVec 14) (s : State) : Host.Outcome State Fault Refusal :=
  .next (s.branch c (.blt c ra rb off) ra rb off (fun a b => a.slt b))

/-- BGE (R113). -/
def execBge (c : Nat) (ra rb : Fin 32) (off : BitVec 14) (s : State) : Host.Outcome State Fault Refusal :=
  .next (s.branch c (.bge c ra rb off) ra rb off (fun a b => !a.slt b))

/-- BLTU (R113). -/
def execBltu (c : Nat) (ra rb : Fin 32) (off : BitVec 14) (s : State) : Host.Outcome State Fault Refusal :=
  .next (s.branch c (.bltu c ra rb off) ra rb off (fun a b => a.ult b))

/-- BGEU (R113). -/
def execBgeu (c : Nat) (ra rb : Fin 32) (off : BitVec 14) (s : State) : Host.Outcome State Fault Refusal :=
  .next (s.branch c (.bgeu c ra rb off) ra rb off (fun a b => !a.ult b))

/-- J: to the jump address plus four times the offset (R113). -/
def execJ (c : Nat) (off : BitVec 26) (s : State) : Host.Outcome State Fault Refusal :=
  .next (s.issue c (.j c off) fun k => .jump s (k.pc + 4 * off.signExtend 64))

/-- JL writes the return address to g31 (R113). -/
def execJl (c : Nat) (off : BitVec 26) (s : State) : Host.Outcome State Fault Refusal :=
  .next (s.issue c (.jl c off) fun k => .jump (s.setCore c (k.setRg 31 (k.pc + 4))) (k.pc + 4 * off.signExtend 64))

/-- JR: a target with bits [1:0] nonzero traps (R113). -/
def execJr (c : Nat) (ra : Fin 32) (s : State) : Host.Outcome State Fault Refusal :=
  .next (s.issue c (.jr c ra) fun k =>
    if (k.rg ra).toNat % 4 ≠ 0 then .trap s Code.MISALIGNED (k.rg ra) else .jump s (k.rg ra))

/-- JLR: the target is read before the return address is written (R113). -/
def execJlr (c : Nat) (rd ra : Fin 32) (s : State) : Host.Outcome State Fault Refusal :=
  .next (s.issue c (.jlr c rd ra) fun k =>
    if (k.rg ra).toNat % 4 ≠ 0 then .trap s Code.MISALIGNED (k.rg ra)
    else .jump (s.setCore c (k.setRg rd (k.pc + 4))) (k.rg ra))

end Sys2Proof.Machine
end

