-- ==== Sys2Proof/Machine/System.lean ====
section
/-! DEFINITION. Control words, work units, fences, waiting for events, software traps and the return from a trap
(03_core_and_instruction_set.md R95 to R101, R113, R125, R126). -/

namespace Sys2Proof.Machine
open Sys2Proof

/-- How Program mode may use a control word (R125). -/
inductive CwRights where
  | firmware | readOnly | readWrite | writeOnly
deriving DecidableEq, Repr

/-- The listed control words and their rights in Program mode (R125); none is an index that is not listed. -/
def cwRights (i : Nat) : Option CwRights :=
  match i with
  | 0x000 => some .readOnly
  | 0x001 => some .readOnly
  | 0x002 => some .readOnly
  | 0x010 => some .firmware
  | 0x011 => some .firmware
  | 0x012 => some .firmware
  | 0x013 => some .firmware
  | 0x014 => some .firmware
  | 0x015 => some .firmware
  | 0x020 => some .firmware
  | 0x021 => some .firmware
  | 0x022 => some .firmware
  | 0x023 => some .firmware
  | 0x030 => some .readWrite
  | 0x031 => some .readWrite
  | 0x040 => some .readOnly
  | 0x041 => some .readOnly
  | 0x042 => some .readOnly
  | 0x043 => some .readOnly
  | 0x044 => some .readOnly
  | 0x050 => some .writeOnly
  | 0x051 => some .firmware
  | 0x052 => some .readOnly
  | 0x060 => some .firmware
  | n =>
    if 0x100 ≤ n && n < 0x200 then (if isQueue (n - 0x100) then some .readOnly else none)
    else if 0x200 ≤ n && n < 0x300 then (if isQueue (n - 0x200) then some .readWrite else none)
    else none

/-- CORE_ID (R125). -/
def State.coreId (s : State) (c : Nat) : Word :=
  let role := match (s.core c).standin with
    | some _ => 2
    | none => if coreNo c = 12 then 1 else 0
  BitVec.ofNat 64 (role * 2 ^ 48 + s.nodeId * 2 ^ 36 + s.logical c * 2 ^ 16 + c)

/-- How many entries a queue has in use (R125): the press keeps its own two. -/
def State.depth (s : State) (c q : Nat) : Nat :=
  if q = 0x20 then (s.press c).staging.length
  else if q = 0x21 then (s.press c).drains.length
  else ((s.core c).queue q).length

/-- What a control word reads (R125). WUMARK is written only: what a read of it returns the spec does not say. -/
def State.cwRead (s : State) (c : Nat) (k : CoreState) (i : Nat) : Word :=
  match i with
  | 0x000 => s.coreId c
  | 0x001 => if k.prog then 1 else 0
  | 0x002 => BitVec.ofNat 64 (s.partOf c + (if s.invariant (s.partOf c) then 0x100 else 0) + s.levelOf c * 0x200)
  | 0x010 => k.tvec
  | 0x011 => k.tepc
  | 0x012 => k.tcause
  | 0x013 => k.tval
  | 0x014 => k.tstatus
  | 0x015 => k.tscratch
  | 0x020 => k.evpend
  | 0x021 => k.evmask
  | 0x022 => k.tkevmask
  | 0x023 => k.tcmp
  | 0x030 => k.vflags
  | 0x031 => BitVec.ofInt 64 k.vct
  | 0x040 => k.cycle
  | 0x041 => k.instret
  | 0x042 => BitVec.ofNat 64 (s.tideOf (coreDie c))
  | 0x043 => k.stallMem
  | 0x044 => k.stallToken
  | 0x050 => Config.freeWord s.freeCount
  | 0x051 => k.wusave
  | 0x052 => (match k.wu with
    | some u => BitVec.ofNat 64 u.id
    | none => 0)
  | 0x060 => k.tkovf
  | n =>
    if n < 0x200 then BitVec.ofNat 64 (k.cap (n - 0x100) * 2 ^ 16 + s.depth c (n - 0x100))
    else BitVec.ofNat 64 (Tbl.get 0 k.qwater (n - 0x200))

/-- The value a write forms from the old value and g[a] (R113). -/
def csrValue (op : CsrOp) (old a : Word) : Word :=
  match op with
  | .w => a
  | .s => old ||| a
  | .c => old &&& ~~~a

/-- The work unit that a write of WUMARK records (R126). -/
def CoreState.mark (k : CoreState) (v : Word) : CoreState :=
  { k with wu := some ⟨v.toNat % 2 ^ 32, k.pc + 4, (List.range 7).map fun i => Tbl.get 0 k.g (i + 1), k.tokens, k.vct⟩ }

/-- WUMARK written with pilot firmware staged (R451): a cluster takes it when every one of its cores has written WUMARK since; a retired core,
which may be under a stand-in, takes it at restart. -/
def State.fwMark (s : State) (c : Nat) : State :=
  if s.pilotFw.staged.isNone || coreNo c == 12 then s
  else
    let k := 2 * coreDie c + coreNo c / 6
    let s1 := { s with pilotFw := { s.pilotFw with marked := s.pilotFw.marked ||| 2 ^ c } }
    if (clusterCores k).all fun x => (s1.core x).run == .retired || bit s1.pilotFw.marked x then s1.fwTake k else s1

/-- A write of WUMARK (R126): the work unit, and the lighter's issued count back to zero. -/
def State.wumark (s : State) (c : Nat) (v : Word) : State :=
  ((s.modCore c fun k => k.mark v).setFld (a_LTR_STATUS (coreDie c) (coreNo c)) f_LTR_STATUS_WUISSUED 0).fwMark c

/-- A control word set to a new value (R125). Words and fields that are read only keep their value. -/
def State.cwWrite (s : State) (c : Nat) (k : CoreState) (op : CsrOp) (i : Nat) (v : Word) : Act :=
  let put (k' : CoreState) : Act := .go (s.setCore c k')
  match i with
  | 0x010 => put { k with tvec := v &&& ~~~3 }
  | 0x011 => put { k with tepc := v }
  | 0x013 => put { k with tval := v }
  | 0x014 => put { k with tstatus := v &&& 0x1D }
  | 0x015 => put { k with tscratch := v }
  | 0x020 => if op = .c then put { k with evpend := v } else .trap s Code.ILLEGAL_INSTRUCTION 0
  | 0x021 => put { k with evmask := v }
  | 0x022 => put { k with tkevmask := v }
  | 0x023 => put { k with tcmp := v, timerArmed := true }
  | 0x030 => put { k with vflags := v &&& 0x1F }
  | 0x031 => if -1024 ≤ v.toInt ∧ v.toInt ≤ 1023 then put { k with vct := v.toInt } else s.trapOpen Code.BAD_SCALE
  | 0x050 => .go (s.wumark c v)
  | 0x051 => if v.toNat % 4096 = 0 ∧ v.toNat ≤ 0x4_0000 then put { k with wusave := v } else .trap s Code.BAD_ADDRESS v
  | 0x060 => if op = .c then put { k with tkovf := v } else .trap s Code.ILLEGAL_INSTRUCTION 0
  | n => if 0x200 ≤ n then put { k with qwater := Tbl.set 0 k.qwater (n - 0x200) (v.toNat % 65536) } else .go s

/-- Where a write to a control word puts the old value: a register, once the write has gone through. -/
def Act.withResult (a : Act) (c : Nat) (rd : Fin 32) (old : Word) : Act :=
  match a with
  | .go s => .go (s.modCore c fun k => k.setRg rd old)
  | x => x

/-- A trap's TVAL set to the instruction word, for the causes that carry it (R98). -/
def Act.withWord (a : Act) (word : Nat) : Act :=
  match a with
  | .trap s code v =>
    if code = Code.ILLEGAL_INSTRUCTION || code = Code.PRIVILEGE then .trap s code (BitVec.ofNat 64 word) else .trap s code v
  | x => x

/-- CSRW, CSRS or CSRC (R113, R125). The write takes effect before rd takes the old value: a WUMARK whose rd is one of g1 to g7 records that
register as it was (DESIGN CHOICE, log entry 26: R126 does not say). -/
def State.csr (s : State) (c : Nat) (k : CoreState) (op : CsrOp) (rd ra : Fin 32) (i word : Nat) : Act :=
  match cwRights i with
  | none => .trap s Code.ILLEGAL_INSTRUCTION (BitVec.ofNat 64 word)
  | some r =>
    if r = .firmware && k.prog then .trap s Code.PRIVILEGE (BitVec.ofNat 64 word)
    else
      let old := s.cwRead c k i
      let s' := if i = 0x050 then { s with freeCount := s.freeCount + 1 } else s
      ((s'.cwWrite c k op i (csrValue op old (k.rg ra))).withResult c rd old).withWord word

/-- CSRR (R113, R125). -/
def execCsrr (c : Nat) (rd : Fin 32) (idx : BitVec 12) (s : State) : Host.Outcome State Fault Refusal :=
  let word := BitVec.ofNat 64 (pilotWord (.csrr c rd idx))
  .next (s.issue c (.csrr c rd idx) fun k =>
    match cwRights idx.toNat with
    | none => .trap s Code.ILLEGAL_INSTRUCTION word
    | some r =>
      if r = .firmware && k.prog then .trap s Code.PRIVILEGE word
      else
        let s' := if idx = 0x050 then { s with freeCount := s.freeCount + 1 } else s
        .go (s'.setCore c (k.setRg rd (s.cwRead c k idx.toNat))))

/-- CSRW (R113, R125). -/
def execCsrw (c : Nat) (rd ra : Fin 32) (idx : BitVec 12) (s : State) : Host.Outcome State Fault Refusal :=
  .next (s.issue c (.csrw c rd ra idx) fun k => s.csr c k .w rd ra idx.toNat (pilotWord (.csrw c rd ra idx)))

/-- CSRS (R113, R125). -/
def execCsrs (c : Nat) (rd ra : Fin 32) (idx : BitVec 12) (s : State) : Host.Outcome State Fault Refusal :=
  .next (s.issue c (.csrs c rd ra idx) fun k => s.csr c k .s rd ra idx.toNat (pilotWord (.csrs c rd ra idx)))

/-- CSRC (R113, R125). -/
def execCsrc (c : Nat) (rd ra : Fin 32) (idx : BitVec 12) (s : State) : Host.Outcome State Fault Refusal :=
  .next (s.issue c (.csrc c rd ra idx) fun k => s.csr c k .c rd ra idx.toNat (pilotWord (.csrc c rd ra idx)))

/-- WUMARK: a control-word write of index 0x050 (R126). -/
def execWumark (c : Nat) (op : CsrOp) (rd ra : Fin 32) (s : State) : Host.Outcome State Fault Refusal :=
  .next (s.issue c (.wumark c op rd ra) fun k => s.csr c k op rd ra 0x050 (pilotWord (.wumark c op rd ra)))

/-- FENCE (R113): M waits until every earlier store is visible, I discards what was fetched ahead (R93). -/
def execFence (c : Nat) (i m : Bool) (s : State) : Host.Outcome State Fault Refusal :=
  .next (s.issue c (.fence c i m) fun k =>
    if m && !k.stores.isEmpty then .wait s
    else if i then .go (s.setCore c { k with fetched := [] })
    else .go s)

/-- WAITEV (R100): waits for a pending unmasked event, writes its number, clears its bit. -/
def execWaitev (c : Nat) (rd : Fin 32) (s : State) : Host.Outcome State Fault Refusal :=
  .next (s.issueW c .waitev (.waitev c rd) fun k =>
    match k.lowestEvent with
    | none => .wait (s.setCore c { k with run := .waitev })
    | some n =>
      .go (s.setCore c ({ k with evpend := k.evpend &&& ~~~(BitVec.ofNat 64 (2 ^ n)) }.setRg rd (BitVec.ofNat 64 n))))

/-- TRAP (R96, R113): TEPC holds the address of the next instruction, TVAL the code. It does not count in INSTRET: whether it retires the
spec does not say (DESIGN CHOICE, log entry 26). -/
def execTrap (c : Nat) (code : BitVec 12) (s : State) : Host.Outcome State Fault Refusal :=
  .next (s.issue c (.trap c code) fun k => .wait (s.trapAs c 0 Code.SOFTWARE_TRAP (code.setWidth 64) k.pc (k.pc + 4)))

/-- ERET (R95, R97). -/
def execEret (c : Nat) (s : State) : Host.Outcome State Fault Refusal :=
  .next (s.issue c (.eret c) fun k =>
    if k.prog then .trap s Code.PRIVILEGE (BitVec.ofNat 64 (pilotWord (.eret c)))
    else .jump (s.setCore c k.eret) k.eret.pc)

/-- EVENT_TRAP: between instructions, with EVEN set and an unmasked event pending, the pilot takes the lowest event (R99), also
where it is stalled at a TKWAIT, a PRESS or a fence (R101). -/
def execEventTrap (c : Nat) (s : State) : Host.Outcome State Fault Refusal :=
  let k := s.core c
  .next (if (decide (k.run = .running) || decide (k.run = .tkwait) || decide (k.run = .pressStall)) && k.takeable
      && !k.loadBlocks then s.takeEvent c else s)

/-- TIMER_EVENT: once the tide reaches TCMP, event TIMER fires, once for each write of TCMP (R99). -/
def execTimerEvent (c : Nat) (s : State) : Host.Outcome State Fault Refusal :=
  let k := s.core c
  .next (if k.timerArmed && decide (k.tcmp.toNat ≤ s.tideOf (coreDie c)) then
    s.setCore c ({ k with timerArmed := false }.fire 4) else s)

end Sys2Proof.Machine
end

