-- ==== Sys2Proof/Machine/Vector.lean ====
section
/-! DEFINITION. The vector unit: arithmetic, moves and conversions, reductions, vector sticks, compares and masks, vector loads
and stores (03_core_and_instruction_set.md R102 to R108, R114; residues 06_result_checking.md R197, R198). -/

namespace Sys2Proof.Machine
open Sys2Proof

/-- What a vector instruction does to its core. -/
inductive VecAct where
  | done (k : CoreState)
  /-- ILLEGAL_INSTRUCTION. -/
  | illegal
  /-- A trap whose TVAL the spec does not state. -/
  | refuse (code : Nat)

/-- A vector instruction whose residue check failed (R198): it writes nothing, the unit stops and halts its pilot. -/
def State.residueStop (s : State) (c : Nat) (k : CoreState) (word : Nat) (upset : BitVec 64) : Act :=
  let die := coreDie c
  let st := a_VEC_STATUS die (coreNo c)
  let s1 := (s.bump st f_VEC_STATUS_RESIDUE).setFld st f_VEC_STATUS_STOPPED 1
  .halt (s1.detect ⟨die, s.tideOf die, Code.RESIDUE_MISMATCH, 2, if coreNo c = 12 then 4 else 2, die, coreNo c, 0xF, s.partOf c, k.instret.toNat,
    upset.toNat, (k.pc.toNat % 2 ^ 32) * 2 ^ 32 + word, false, false⟩)

/-- Whether the vector unit of a core accepts no instruction (R546). -/
def State.vecStopped (s : State) (c : Nat) : Bool :=
  s.fld (a_VEC_STATUS (coreDie c) (coreNo c)) f_VEC_STATUS_STOPPED == 1

/-- What a vector instruction makes of its operands; nothing where it does not run. -/
def vecMade (f : CoreState → VecAct) (k : CoreState) : VecRegs :=
  match f k with
  | .done k' => k'.vecRegs
  | _ => k.vecRegs

/-- Issuing a vector instruction: a stopped unit takes none; at level Checked an upset that the residues see stops the unit
(R197, R198); otherwise its results are written and it may be sampled for proof (R206). `upset` has bit i set where a fault of
the hardware upset lane i, i + 64, i + 128 or i + 192 of a covered operation; zero is no fault. -/
def State.vec (s : State) (c : Nat) (i : Instr) (upset : BitVec 64) (f : CoreState → VecAct) : State :=
  let word := pilotWord i
  s.issue c i fun k =>
    if s.vecStopped c then .wait s
    else match f k with
      | .illegal => .trap s Code.ILLEGAL_INSTRUCTION (BitVec.ofNat 64 word)
      | .refuse code => s.trapOpen code
      | .done k' =>
        let s1 := s.vecCount c
        if upset ≠ 0 && s.levelOf c == 2 then s1.residueStop c k word upset
        else .go ((s1.setCore c k').sampleVector c k.instret.toNat word k.vecRegs (vecMade f { k with vflags := 0 }) (vecMade f k.vecRegs.core))

/-- An operation on the bits of lanes a, b and the old d. -/
abbrev LaneOp := Nat → Nat → Nat → Res

/-- The results of a lane operation, masked lanes keeping their value, with the flags of the active ones (R103). -/
def laneResults (l : Lane) (act : Nat → Bool) (f : LaneOp) (x y z : List Nat) : List Res :=
  (List.range l.count).map fun i =>
    if act i then f (x.getD i 0) (y.getD i 0) (z.getD i 0) else ⟨z.getD i 0, 0⟩

/-- A lane-wise instruction: vd = f va vb, f also seeing the old vd; none is an illegal TYPE. -/
def CoreState.laneWise (k : CoreState) (ty mask : Fin 8) (vd va vb : Fin 32) (f : Lane → Option LaneOp) : VecAct :=
  match laneOf ty.val with
  | none => .illegal
  | some l => match f l with
    | none => .illegal
    | some g =>
      let rs := laneResults l (k.active mask) g (lanesOf l.width l.count (k.vr va)) (lanesOf l.width l.count (k.vr vb))
        (lanesOf l.width l.count (k.vr vd))
      .done ((k.setVr vd (ofLanes l.width (rs.map Res.bits))).collect (flagsOf rs))

/-- A floating operation on two lanes (R45, R49). -/
def fl2 (f : Fmt → ElemVal → ElemVal → Res) (fm : Fmt) : LaneOp := fun a b _ => f fm (fm.decode a) (fm.decode b)

/-- A floating operation on one lane. -/
def fl1 (f : Fmt → ElemVal → Res) (fm : Fmt) : LaneOp := fun a _ _ => f fm (fm.decode a)

/-- An exact integer operation on two lanes, modulo 2^W (R104). -/
def int2 (f : Int → Int → Int) (w : Nat) : LaneOp := fun a b _ => ⟨unsigned w (f (signed w a) (signed w b)), 0⟩

/-- An operation on bits that raises no flag. -/
def bits2 (f : Nat → Nat → Nat) : LaneOp := fun a b _ => ⟨f a b, 0⟩

/-- An operation with a floating and an integer form. -/
def both (f : Fmt → LaneOp) (g : Nat → LaneOp) : Lane → Option LaneOp
  | .fl fm => some (f fm)
  | .int w => some (g w)

/-- An operation of floating types alone (R104). -/
def floatOnly (f : Fmt → LaneOp) : Lane → Option LaneOp
  | .fl fm => some (f fm)
  | .int _ => none

/-- An operation of integer types alone (R104). -/
def intOnly (g : Nat → LaneOp) : Lane → Option LaneOp
  | .fl _ => none
  | .int w => some (g w)

/-- vd = va × vb + vd, or −(va × vb) + vd, one rounding (R114). -/
def fmaOp (neg : Bool) (fm : Fmt) : LaneOp := fun a b d =>
  let x := fm.decode a
  fm.fma (if neg then x.neg else x) (fm.decode b) (fm.decode d)

/-- |va|: only the sign bit of a floating lane; the most negative integer returns itself (R104, R114). -/
def absOp : Lane → Option LaneOp
  | .fl fm => some fun a _ _ => ⟨a % 2 ^ (fm.width - 1), 0⟩
  | .int w => some fun a _ _ => ⟨unsigned w (signed w a).natAbs, 0⟩

/-- −va (R104, R114). -/
def negOp : Lane → Option LaneOp
  | .fl fm => some fun a _ _ => ⟨a ^^^ 2 ^ (fm.width - 1), 0⟩
  | .int w => some fun a _ _ => ⟨unsigned w (-(signed w a)), 0⟩

/-- A shift by the low log2(W) bits of the lane of vb (R114). -/
def shiftOp (f : Nat → Nat → Nat → Nat) (w : Nat) : LaneOp := fun a b _ => ⟨f w a (b % w), 0⟩

def shlLane (w a n : Nat) : Nat := (a * 2 ^ n) % 2 ^ w
def shrLane (_w a n : Nat) : Nat := a / 2 ^ n
def sraLane (w a n : Nat) : Nat := unsigned w (signed w a / 2 ^ n)

/-- The conversion of one lane value into a lane format at the conversion scale (R105). -/
def convLane (src dst : Lane) (vct : Int) (b : Nat) : Res := dst.out.conv ((src.num b).scale (-vct))

/-- VCVT (R105). -/
def CoreState.convert (k : CoreState) (ty mask : Fin 8) (vd va : Fin 32) (part : Nat) (dty : Fin 8) : VecAct :=
  match laneOf ty.val, laneOf dty.val with
  | some a, some b =>
    let src := lanesOf a.width a.count (k.vr va)
    let old := lanesOf b.width b.count (k.vr vd)
    let conv (i : Nat) : Res := convLane a b k.vct (src.getD i 0)
    let finish (rs : List Res) : VecAct :=
      .done ((k.setVr vd (ofLanes b.width (rs.map Res.bits))).collect (flagsOf rs))
    if a.count < b.count then
      if b.count / a.count ≤ part then .illegal
      else finish ((List.range b.count).map fun j =>
        if j / a.count = part && k.active mask (j % a.count) then conv (j % a.count) else ⟨old.getD j 0, 0⟩)
    else
      if a.count / b.count ≤ part then .illegal
      else finish ((List.range b.count).map fun i =>
        if k.active mask i then conv (part * b.count + i) else ⟨old.getD i 0, 0⟩)
  | _, _ => .illegal

/-- The lanes of a register replaced one by one (R103). -/
def CoreState.setLanes (k : CoreState) (l : Lane) (mask : Fin 8) (vd : Fin 32) (f : Nat → Nat) : CoreState :=
  k.setVr vd (k.mapLanes l mask (k.vr vd) f)

/-- An instruction with a TYPE: illegal for 6 and 7 (R102). -/
def withLane (ty : Fin 8) (f : Lane → VecAct) : VecAct :=
  match laneOf ty.val with
  | none => .illegal
  | some l => f l

/-- The result of VRMAX or VRMIN with no active lane (R107). -/
def emptyReduce (l : Lane) (mx : Bool) : Nat :=
  match l with
  | .fl .e4m3 => if mx then 0xFE else 0x7E
  | .fl fm => fm.infBits mx
  | .int w => if mx then 2 ^ (w - 1) else 2 ^ (w - 1) - 1

/-- Maximum or minimum of two lanes. -/
def extremeOp (l : Lane) (mx : Bool) : Nat → Nat → Res :=
  match l with
  | .fl fm => fun a b => (if mx then fm.max else fm.min) (fm.decode a) (fm.decode b)
  | .int w => fun a b => ⟨unsigned w ((if mx then max else min) (signed w a) (signed w b)), 0⟩

/-- VRMAX or VRMIN (R107). -/
def CoreState.reduce (k : CoreState) (ty mask : Fin 8) (vd va : Fin 32) (mx : Bool) : VecAct :=
  withLane ty fun l =>
    let xs := (k.activeLanes l mask).map fun i => laneAt l.width i (k.vr va).toNat
    let r : Res := match xs with
      | [] => ⟨emptyReduce l mx, 0⟩
      | x :: r => r.foldl (fun a b => let q := extremeOp l mx a.bits b; ⟨q.bits, q.fl ||| a.fl⟩) (extremeOp l mx x x)
    let old := (k.vr vd).toNat
    .done ((k.setVr vd (BitVec.ofNat 2048 (old - old % 2 ^ l.width + r.bits))).collect r.fl)

/-- The addends of the active lanes into a vector stick (R30, R106). -/
def CoreState.stickAdds (k : CoreState) (vsd : Fin 8) (xs : List ElemVal) : CoreState :=
  k.setStick vsd (xs.foldl (fun st x => stickAddNum (k.stickQe vsd) st x) (k.stick vsd))

/-- Whether a register holds a stick's QE: a sign-extended value from −2,048 to 2,047 (R106). -/
def qeOk (w : Word) : Bool := decide (-2048 ≤ w.toInt) && decide (w.toInt ≤ 2047)

/-- The comparison predicates of R114. -/
inductive CmpKind where
  | eq | lt | le | un
deriving DecidableEq, Repr

/-- A comparison and its flag: VCMPLT and VCMPLE signal every NaN (R114). -/
def CmpKind.on (p : CmpKind) (x y : ElemVal) : Bool × Nat :=
  if x.isNan || y.isNan then
    (decide (p = .un), if p = .lt || p = .le then flNV else x.sig ||| y.sig)
  else match p with
    | .eq => (x.eqv y, 0)
    | .lt => (x.lt y, 0)
    | .le => (!y.lt x, 0)
    | .un => (false, 0)

/-- A mask from bits, bit 0 first. -/
def maskOf (l : List Bool) : BitVec 256 := BitVec.ofNat 256 (l.foldr (fun b r => b2n b + 2 * r) 0)

/-- A compare (R114): masked-off and unused bits become 0. -/
def CoreState.compare (k : CoreState) (ty mask md : Fin 8) (va vb : Fin 32) (p : CmpKind) : VecAct :=
  withLane ty fun l =>
    let rs := (List.range l.count).map fun i =>
      if k.active mask i then
        p.on (l.num (laneAt l.width i (k.vr va).toNat)) (l.num (laneAt l.width i (k.vr vb).toNat))
      else (false, 0)
    .done ((k.setMr md (maskOf (rs.map Prod.fst))).collect (rs.foldl (fun a r => a ||| r.2) 0))

/-- A vector load or store: a stopped unit takes none, and one that is accepted counts (R198, R546). -/
def State.vecMem (s : State) (c : Nat) (i : Instr) (f : State → CoreState → Act) : State :=
  s.issue c i fun k =>
    if s.vecStopped c then .wait s
    else match f s k with
      | .go t => .go (t.vecCount c)
      | a => a

/-- VADD (R104, R114). -/
def execVadd (c : Nat) (ty mask : Fin 8) (vd va vb : Fin 32) (upset : BitVec 64) (s : State) : Host.Outcome State Fault Refusal :=
  .next (s.vec c (.vadd c ty mask vd va vb upset) upset fun k => k.laneWise ty mask vd va vb (both (fl2 Fmt.add) (int2 (· + ·))))

/-- VSUB (R104, R114). -/
def execVsub (c : Nat) (ty mask : Fin 8) (vd va vb : Fin 32) (upset : BitVec 64) (s : State) : Host.Outcome State Fault Refusal :=
  .next (s.vec c (.vsub c ty mask vd va vb upset) upset fun k => k.laneWise ty mask vd va vb (both (fl2 Fmt.sub) (int2 (· - ·))))

/-- VMUL (R104, R114). -/
def execVmul (c : Nat) (ty mask : Fin 8) (vd va vb : Fin 32) (upset : BitVec 64) (s : State) : Host.Outcome State Fault Refusal :=
  .next (s.vec c (.vmul c ty mask vd va vb upset) upset fun k => k.laneWise ty mask vd va vb (both (fl2 Fmt.mul) (int2 (· * ·))))

/-- VFMA (R104, R114). -/
def execVfma (c : Nat) (ty mask : Fin 8) (vd va vb : Fin 32) (upset : BitVec 64) (s : State) : Host.Outcome State Fault Refusal :=
  .next (s.vec c (.vfma c ty mask vd va vb upset) upset fun k => k.laneWise ty mask vd va vb (floatOnly (fmaOp false)))

/-- VFNMA (R104, R114). -/
def execVfnma (c : Nat) (ty mask : Fin 8) (vd va vb : Fin 32) (upset : BitVec 64) (s : State) : Host.Outcome State Fault Refusal :=
  .next (s.vec c (.vfnma c ty mask vd va vb upset) upset fun k => k.laneWise ty mask vd va vb (floatOnly (fmaOp true)))

/-- VDIV (R49, R104). -/
def execVdiv (c : Nat) (ty mask : Fin 8) (vd va vb : Fin 32) (s : State) : Host.Outcome State Fault Refusal :=
  .next (s.vec c (.vdiv c ty mask vd va vb) 0 fun k => k.laneWise ty mask vd va vb (floatOnly (fl2 Fmt.div)))

/-- VSQRT (R49, R104). -/
def execVsqrt (c : Nat) (ty mask : Fin 8) (vd va : Fin 32) (s : State) : Host.Outcome State Fault Refusal :=
  .next (s.vec c (.vsqrt c ty mask vd va) 0 fun k => k.laneWise ty mask vd va va (floatOnly (fl1 Fmt.sqrt)))

/-- VMIN (R45, R104). -/
def execVmin (c : Nat) (ty mask : Fin 8) (vd va vb : Fin 32) (s : State) : Host.Outcome State Fault Refusal :=
  .next (s.vec c (.vmin c ty mask vd va vb) 0 fun k => k.laneWise ty mask vd va vb (both (fl2 Fmt.min) (int2 min)))

/-- VMAX (R45, R104). -/
def execVmax (c : Nat) (ty mask : Fin 8) (vd va vb : Fin 32) (s : State) : Host.Outcome State Fault Refusal :=
  .next (s.vec c (.vmax c ty mask vd va vb) 0 fun k => k.laneWise ty mask vd va vb (both (fl2 Fmt.max) (int2 max)))

/-- VABS (R104, R114). -/
def execVabs (c : Nat) (ty mask : Fin 8) (vd va : Fin 32) (s : State) : Host.Outcome State Fault Refusal :=
  .next (s.vec c (.vabs c ty mask vd va) 0 fun k => k.laneWise ty mask vd va va absOp)

/-- VNEG (R104, R114; residues cover its integer lanes, R197). -/
def execVneg (c : Nat) (ty mask : Fin 8) (vd va : Fin 32) (upset : BitVec 64) (s : State) : Host.Outcome State Fault Refusal :=
  .next (s.vec c (.vneg c ty mask vd va upset) (if ty.val = 4 || ty.val == 5 then upset else 0) fun k => k.laneWise ty mask vd va va negOp)

/-- VRCP (R49 to R54, R104). -/
def execVrcp (c : Nat) (ty mask : Fin 8) (vd va : Fin 32) (s : State) : Host.Outcome State Fault Refusal :=
  .next (s.vec c (.vrcp c ty mask vd va) 0 fun k => k.laneWise ty mask vd va va (floatOnly (fl1 fun fm => fm.rcp 0)))

/-- VRSQRT (R49 to R54, R104). -/
def execVrsqrt (c : Nat) (ty mask : Fin 8) (vd va : Fin 32) (s : State) : Host.Outcome State Fault Refusal :=
  .next (s.vec c (.vrsqrt c ty mask vd va) 0 fun k => k.laneWise ty mask vd va va (floatOnly (fl1 fun fm => fm.rsqrt 0)))

/-- VEXP (R49 to R54, R104). -/
def execVexp (c : Nat) (ty mask : Fin 8) (vd va : Fin 32) (s : State) : Host.Outcome State Fault Refusal :=
  .next (s.vec c (.vexp c ty mask vd va) 0 fun k => k.laneWise ty mask vd va va (floatOnly (fl1 fun fm => fm.exp 0)))

/-- VLOG (R49 to R54, R104). -/
def execVlog (c : Nat) (ty mask : Fin 8) (vd va : Fin 32) (s : State) : Host.Outcome State Fault Refusal :=
  .next (s.vec c (.vlog c ty mask vd va) 0 fun k => k.laneWise ty mask vd va va (floatOnly (fl1 fun fm => fm.log 0)))

/-- VSIG (R49 to R54, R104). -/
def execVsig (c : Nat) (ty mask : Fin 8) (vd va : Fin 32) (s : State) : Host.Outcome State Fault Refusal :=
  .next (s.vec c (.vsig c ty mask vd va) 0 fun k => k.laneWise ty mask vd va va (floatOnly (fl1 fun fm => fm.sig 0)))

/-- VTANH (R49 to R54, R104). -/
def execVtanh (c : Nat) (ty mask : Fin 8) (vd va : Fin 32) (s : State) : Host.Outcome State Fault Refusal :=
  .next (s.vec c (.vtanh c ty mask vd va) 0 fun k => k.laneWise ty mask vd va va (floatOnly (fl1 fun fm => fm.tanh 0)))

/-- VAND (R104). -/
def execVand (c : Nat) (ty mask : Fin 8) (vd va vb : Fin 32) (s : State) : Host.Outcome State Fault Refusal :=
  .next (s.vec c (.vand c ty mask vd va vb) 0 fun k => k.laneWise ty mask vd va vb (fun _ => some (bits2 (· &&& ·))))

/-- VOR (R104). -/
def execVor (c : Nat) (ty mask : Fin 8) (vd va vb : Fin 32) (s : State) : Host.Outcome State Fault Refusal :=
  .next (s.vec c (.vor c ty mask vd va vb) 0 fun k => k.laneWise ty mask vd va vb (fun _ => some (bits2 (· ||| ·))))

/-- VXOR (R104). -/
def execVxor (c : Nat) (ty mask : Fin 8) (vd va vb : Fin 32) (s : State) : Host.Outcome State Fault Refusal :=
  .next (s.vec c (.vxor c ty mask vd va vb) 0 fun k => k.laneWise ty mask vd va vb (fun _ => some (bits2 (· ^^^ ·))))

/-- VSHL (R104, R114). -/
def execVshl (c : Nat) (ty mask : Fin 8) (vd va vb : Fin 32) (s : State) : Host.Outcome State Fault Refusal :=
  .next (s.vec c (.vshl c ty mask vd va vb) 0 fun k => k.laneWise ty mask vd va vb (intOnly (shiftOp shlLane)))

/-- VSHR (R104, R114). -/
def execVshr (c : Nat) (ty mask : Fin 8) (vd va vb : Fin 32) (s : State) : Host.Outcome State Fault Refusal :=
  .next (s.vec c (.vshr c ty mask vd va vb) 0 fun k => k.laneWise ty mask vd va vb (intOnly (shiftOp shrLane)))

/-- VSRA (R104, R114). -/
def execVsra (c : Nat) (ty mask : Fin 8) (vd va vb : Fin 32) (s : State) : Host.Outcome State Fault Refusal :=
  .next (s.vec c (.vsra c ty mask vd va vb) 0 fun k => k.laneWise ty mask vd va vb (intOnly (shiftOp sraLane)))

/-- VMOV (R114). -/
def execVmov (c : Nat) (ty mask : Fin 8) (vd va : Fin 32) (s : State) : Host.Outcome State Fault Refusal :=
  .next (s.vec c (.vmov c ty mask vd va) 0 fun k => k.laneWise ty mask vd va va (fun _ => some (bits2 fun a _ => a)))

/-- VCVT (R105). -/
def execVcvt (c : Nat) (ty mask : Fin 8) (vd va : Fin 32) (part : Fin 4) (dty : Fin 8) (s : State) : Host.Outcome State Fault Refusal :=
  .next (s.vec c (.vcvt c ty mask vd va part dty) 0 fun k => k.convert ty mask vd va part.val dty)

/-- VBCAST (R114). -/
def execVbcast (c : Nat) (ty mask : Fin 8) (vd ra : Fin 32) (s : State) : Host.Outcome State Fault Refusal :=
  .next (s.vec c (.vbcast c ty mask vd ra) 0 fun k => withLane ty fun l =>
    .done (k.setLanes l mask vd fun _ => (k.rg ra).toNat % 2 ^ l.width))

/-- VEXTR (R114). -/
def execVextr (c : Nat) (ty : Fin 8) (rd va rb : Fin 32) (s : State) : Host.Outcome State Fault Refusal :=
  .next (s.vec c (.vextr c ty rd va rb) 0 fun k => withLane ty fun l =>
    if l.count ≤ (k.rg rb).toNat then .illegal
    else .done (k.setRg rd (BitVec.ofNat 64 (laneAt l.width (k.rg rb).toNat (k.vr va).toNat))))

/-- VINS (R114). -/
def execVins (c : Nat) (ty : Fin 8) (vd ra rb : Fin 32) (s : State) : Host.Outcome State Fault Refusal :=
  .next (s.vec c (.vins c ty vd ra rb) 0 fun k => withLane ty fun l =>
    if l.count ≤ (k.rg rb).toNat then .illegal
    else .done (k.setVr vd (ofLanes l.width ((List.range l.count).map fun i =>
      if i = (k.rg rb).toNat then (k.rg ra).toNat else laneAt l.width i (k.vr vd).toNat))))

/-- VPERM (R114). -/
def execVperm (c : Nat) (ty mask : Fin 8) (vd va vb : Fin 32) (s : State) : Host.Outcome State Fault Refusal :=
  .next (s.vec c (.vperm c ty mask vd va vb) 0 fun k => withLane ty fun l =>
    .done (k.setLanes l mask vd fun i =>
      laneAt l.width (laneAt l.width i (k.vr vb).toNat % l.count) (k.vr va).toNat))

/-- VSEL (R114). -/
def execVsel (c : Nat) (ty mask : Fin 8) (vd va vb : Fin 32) (s : State) : Host.Outcome State Fault Refusal :=
  .next (s.vec c (.vsel c ty mask vd va vb) 0 fun k => withLane ty fun l =>
    if mask.val = 0 then .illegal
    else .done (k.setVr vd (k.mapLanes l mask (k.vr vb) fun i => laneAt l.width i (k.vr va).toNat)))

/-- VIOTA (R104, R114). -/
def execViota (c : Nat) (ty mask : Fin 8) (vd : Fin 32) (s : State) : Host.Outcome State Fault Refusal :=
  .next (s.vec c (.viota c ty mask vd) 0 fun k => match laneOf ty.val with
    | some (.int w) => .done (k.setLanes (.int w) mask vd fun i => i)
    | _ => .illegal)

/-- VRMAX (R107). -/
def execVrmax (c : Nat) (ty mask : Fin 8) (vd va : Fin 32) (s : State) : Host.Outcome State Fault Refusal :=
  .next (s.vec c (.vrmax c ty mask vd va) 0 fun k => k.reduce ty mask vd va true)

/-- VRMIN (R107). -/
def execVrmin (c : Nat) (ty mask : Fin 8) (vd va : Fin 32) (s : State) : Host.Outcome State Fault Refusal :=
  .next (s.vec c (.vrmin c ty mask vd va) 0 fun k => k.reduce ty mask vd va false)

/-- VSCLR (R106). -/
def execVsclr (c : Nat) (vsd : Fin 8) (ra : Fin 32) (s : State) : Host.Outcome State Fault Refusal :=
  .next (s.vec c (.vsclr c vsd ra) 0 fun k => if qeOk (k.rg ra) then .done ((k.setStick vsd 0).setStickQe vsd (k.rg ra).toInt)
    else .refuse Code.BAD_WINDOW)

/-- VSADD (R106). -/
def execVsadd (c : Nat) (ty mask vsd : Fin 8) (va : Fin 32) (upset : BitVec 64) (s : State) : Host.Outcome State Fault Refusal :=
  .next (s.vec c (.vsadd c ty mask vsd va upset) upset fun k => withLane ty fun l =>
    .done (k.stickAdds vsd ((k.activeLanes l mask).map fun i => l.num (laneAt l.width i (k.vr va).toNat))))

/-- VSDOT (R106). -/
def execVsdot (c : Nat) (ty mask vsd : Fin 8) (va vb : Fin 32) (upset : BitVec 64) (s : State) : Host.Outcome State Fault Refusal :=
  .next (s.vec c (.vsdot c ty mask vsd va vb upset) upset fun k => withLane ty fun l =>
    .done (k.stickAdds vsd ((k.activeLanes l mask).map fun i =>
      ElemVal.mul (l.num (laneAt l.width i (k.vr va).toNat)) (l.num (laneAt l.width i (k.vr vb).toNat)))))

/-- VSACC (R31, R106). -/
def execVsacc (c : Nat) (vsd vsa : Fin 8) (upset : BitVec 64) (s : State) : Host.Outcome State Fault Refusal :=
  .next (s.vec c (.vsacc c vsd vsa upset) upset fun k => if k.stickQe vsd ≠ k.stickQe vsa then .refuse Code.SCALE_MISMATCH
    else .done (k.setStick vsd (stickJoin (k.stick vsd) (k.stick vsa))))

/-- VSRD (R106, R108). -/
def execVsrd (c : Nat) (ty : Fin 8) (rd : Fin 32) (vsa : Fin 8) (rb : Fin 32) (s : State) : Host.Outcome State Fault Refusal :=
  .next (s.vec c (.vsrd c ty rd vsa rb) 0 fun k => withLane ty fun l =>
    let t := (k.rg rb).toInt
    if t < -1024 || decide (1023 < t) then .refuse Code.BAD_SCALE
    else
      let r := stickRead l.out (k.stickQe vsa) t (k.stick vsa)
      .done ((k.setRg rd (BitVec.ofNat 64 r.bits)).collect r.fl))

/-- VSRAW (R106). -/
def execVsraw (c : Nat) (rd : Fin 32) (vsa : Fin 8) (part : Fin 3) (s : State) : Host.Outcome State Fault Refusal :=
  .next (s.vec c (.vsraw c rd vsa part) 0 fun k => .done (k.setRg rd (match part with
    | 0 => (k.stick vsa).extractLsb' 0 64
    | 1 => (k.stick vsa).extractLsb' 64 64
    | 2 => BitVec.ofInt 64 (k.stickQe vsa))))

/-- VSWRAW (R106, R553). -/
def execVswraw (c : Nat) (vsd : Fin 8) (ra : Fin 32) (part : Fin 3) (s : State) : Host.Outcome State Fault Refusal :=
  .next (s.vec c (.vswraw c vsd ra part) 0 fun k => match part with
    | 0 => .done (k.setStick vsd (BitVec.ofNat 128 ((k.stick vsd).toNat / 2 ^ 64 * 2 ^ 64 + (k.rg ra).toNat)))
    | 1 => .done (k.setStick vsd (stickIn ((k.rg ra).toNat * 2 ^ 64 + (k.stick vsd).toNat % 2 ^ 64)))
    | 2 => if qeOk (k.rg ra) then .done (k.setStickQe vsd (k.rg ra).toInt) else .refuse Code.BAD_WINDOW)

/-- VCMPEQ (R46, R114). -/
def execVcmpeq (c : Nat) (ty mask md : Fin 8) (va vb : Fin 32) (s : State) : Host.Outcome State Fault Refusal :=
  .next (s.vec c (.vcmpeq c ty mask md va vb) 0 fun k => k.compare ty mask md va vb .eq)

/-- VCMPLT (R46, R114). -/
def execVcmplt (c : Nat) (ty mask md : Fin 8) (va vb : Fin 32) (s : State) : Host.Outcome State Fault Refusal :=
  .next (s.vec c (.vcmplt c ty mask md va vb) 0 fun k => k.compare ty mask md va vb .lt)

/-- VCMPLE (R46, R114). -/
def execVcmple (c : Nat) (ty mask md : Fin 8) (va vb : Fin 32) (s : State) : Host.Outcome State Fault Refusal :=
  .next (s.vec c (.vcmple c ty mask md va vb) 0 fun k => k.compare ty mask md va vb .le)

/-- VCMPUN (R46, R114). -/
def execVcmpun (c : Nat) (ty mask md : Fin 8) (va vb : Fin 32) (s : State) : Host.Outcome State Fault Refusal :=
  .next (s.vec c (.vcmpun c ty mask md va vb) 0 fun k => k.compare ty mask md va vb .un)

/-- MAND (R114). -/
def execMand (c : Nat) (md ma mb : Fin 8) (s : State) : Host.Outcome State Fault Refusal :=
  .next (s.vec c (.mand c md ma mb) 0 fun k => .done (k.setMr md (k.mr ma &&& k.mr mb)))

/-- MOR (R114). -/
def execMor (c : Nat) (md ma mb : Fin 8) (s : State) : Host.Outcome State Fault Refusal :=
  .next (s.vec c (.mor c md ma mb) 0 fun k => .done (k.setMr md (k.mr ma ||| k.mr mb)))

/-- MXOR (R114). -/
def execMxor (c : Nat) (md ma mb : Fin 8) (s : State) : Host.Outcome State Fault Refusal :=
  .next (s.vec c (.mxor c md ma mb) 0 fun k => .done (k.setMr md (k.mr ma ^^^ k.mr mb)))

/-- MNOT (R114). -/
def execMnot (c : Nat) (md ma : Fin 8) (s : State) : Host.Outcome State Fault Refusal :=
  .next (s.vec c (.mnot c md ma) 0 fun k => .done (k.setMr md (~~~ k.mr ma)))

/-- MPOPC (R114). -/
def execMpopc (c : Nat) (ty : Fin 8) (rd : Fin 32) (ma : Fin 8) (s : State) : Host.Outcome State Fault Refusal :=
  .next (s.vec c (.mpopc c ty rd ma) 0 fun k => withLane ty fun l =>
    .done (k.setRg rd (BitVec.ofNat 64 ((List.range l.count).filter fun i => (k.mr ma).getLsbD i).length)))

/-- VLD (R90, R114). -/
def execVld (c : Nat) (vd ra : Fin 32) (imm : BitVec 14) (s : State) : Host.Outcome State Fault Refusal :=
  .next (s.vecMem c (.vld c vd ra imm) fun t k => t.load c k (k.vaddr ra imm) (.v vd))

/-- VLDM (R90, R114). -/
def execVldm (c : Nat) (md : Fin 8) (ra : Fin 32) (imm : BitVec 14) (s : State) : Host.Outcome State Fault Refusal :=
  .next (s.vecMem c (.vldm c md ra imm) fun t k => t.load c k (k.vaddr ra imm) (.m md))

/-- VST: all 256 bytes (R90, R114). -/
def execVst (c : Nat) (vd ra : Fin 32) (imm : BitVec 14) (s : State) : Host.Outcome State Fault Refusal :=
  .next (s.vecMem c (.vst c vd ra imm) fun t k => t.store c k (k.vaddr ra imm) (bytesLE 256 (k.vr vd).toNat) 64 true)

/-- VSTM (R90, R114). -/
def execVstm (c : Nat) (md : Fin 8) (ra : Fin 32) (imm : BitVec 14) (s : State) : Host.Outcome State Fault Refusal :=
  .next (s.vecMem c (.vstm c md ra imm) fun t k => t.store c k (k.vaddr ra imm) (bytesLE 32 (k.mr md).toNat) 32 true)

end Sys2Proof.Machine
end

