-- ==== Sys2Proof/Machine/Dispatch.lean ====
section
/-! DEFINITION. The dispatch of a command to its meaning, one arm per row of the opcode table. -/

namespace Sys2Proof.Machine

def exec (i : Instr) (s : State) : Host.Outcome State Fault Refusal :=
  match i with
  | .registerWrite src addr size value => Sys2Proof.Machine.execRegisterWrite src addr size value s
  | .registerHalfRead src addr tag => Sys2Proof.Machine.execRegisterHalfRead src addr tag s
  | .add c rd ra rb => Sys2Proof.Machine.execAdd c rd ra rb s
  | .sub c rd ra rb => Sys2Proof.Machine.execSub c rd ra rb s
  | .and c rd ra rb => Sys2Proof.Machine.execAnd c rd ra rb s
  | .or c rd ra rb => Sys2Proof.Machine.execOr c rd ra rb s
  | .xor c rd ra rb => Sys2Proof.Machine.execXor c rd ra rb s
  | .andn c rd ra rb => Sys2Proof.Machine.execAndn c rd ra rb s
  | .shl c rd ra rb => Sys2Proof.Machine.execShl c rd ra rb s
  | .shr c rd ra rb => Sys2Proof.Machine.execShr c rd ra rb s
  | .sra c rd ra rb => Sys2Proof.Machine.execSra c rd ra rb s
  | .ror c rd ra rb => Sys2Proof.Machine.execRor c rd ra rb s
  | .slt c rd ra rb => Sys2Proof.Machine.execSlt c rd ra rb s
  | .sltu c rd ra rb => Sys2Proof.Machine.execSltu c rd ra rb s
  | .min c rd ra rb => Sys2Proof.Machine.execMin c rd ra rb s
  | .max c rd ra rb => Sys2Proof.Machine.execMax c rd ra rb s
  | .minu c rd ra rb => Sys2Proof.Machine.execMinu c rd ra rb s
  | .maxu c rd ra rb => Sys2Proof.Machine.execMaxu c rd ra rb s
  | .clz c rd ra => Sys2Proof.Machine.execClz c rd ra s
  | .ctz c rd ra => Sys2Proof.Machine.execCtz c rd ra s
  | .popc c rd ra => Sys2Proof.Machine.execPopc c rd ra s
  | .sel c rd ra rb rc => Sys2Proof.Machine.execSel c rd ra rb rc s
  | .addw c rd ra rb => Sys2Proof.Machine.execAddw c rd ra rb s
  | .subw c rd ra rb => Sys2Proof.Machine.execSubw c rd ra rb s
  | .mul c rd ra rb => Sys2Proof.Machine.execMul c rd ra rb s
  | .mulh c rd ra rb => Sys2Proof.Machine.execMulh c rd ra rb s
  | .mulhu c rd ra rb => Sys2Proof.Machine.execMulhu c rd ra rb s
  | .madd c rd ra rb rc => Sys2Proof.Machine.execMadd c rd ra rb rc s
  | .div c rd ra rb => Sys2Proof.Machine.execDiv c rd ra rb s
  | .divu c rd ra rb => Sys2Proof.Machine.execDivu c rd ra rb s
  | .rem c rd ra rb => Sys2Proof.Machine.execRem c rd ra rb s
  | .remu c rd ra rb => Sys2Proof.Machine.execRemu c rd ra rb s
  | .addi c rd ra imm => Sys2Proof.Machine.execAddi c rd ra imm s
  | .andi c rd ra imm => Sys2Proof.Machine.execAndi c rd ra imm s
  | .ori c rd ra imm => Sys2Proof.Machine.execOri c rd ra imm s
  | .xori c rd ra imm => Sys2Proof.Machine.execXori c rd ra imm s
  | .slti c rd ra imm => Sys2Proof.Machine.execSlti c rd ra imm s
  | .sltiu c rd ra imm => Sys2Proof.Machine.execSltiu c rd ra imm s
  | .shi c rd ra kind sh => Sys2Proof.Machine.execShi c rd ra kind sh s
  | .movz c rd hw imm => Sys2Proof.Machine.execMovz c rd hw imm s
  | .movk c rd hw imm => Sys2Proof.Machine.execMovk c rd hw imm s
  | .movn c rd hw imm => Sys2Proof.Machine.execMovn c rd hw imm s
  | .lb c rd ra imm => Sys2Proof.Machine.execLb c rd ra imm s
  | .lh c rd ra imm => Sys2Proof.Machine.execLh c rd ra imm s
  | .lw c rd ra imm => Sys2Proof.Machine.execLw c rd ra imm s
  | .ld c rd ra imm => Sys2Proof.Machine.execLd c rd ra imm s
  | .lbu c rd ra imm => Sys2Proof.Machine.execLbu c rd ra imm s
  | .lhu c rd ra imm => Sys2Proof.Machine.execLhu c rd ra imm s
  | .lwu c rd ra imm => Sys2Proof.Machine.execLwu c rd ra imm s
  | .sb c rs ra imm => Sys2Proof.Machine.execSb c rs ra imm s
  | .sh c rs ra imm => Sys2Proof.Machine.execSh c rs ra imm s
  | .sw c rs ra imm => Sys2Proof.Machine.execSw c rs ra imm s
  | .sd c rs ra imm => Sys2Proof.Machine.execSd c rs ra imm s
  | .beq c ra rb off => Sys2Proof.Machine.execBeq c ra rb off s
  | .bne c ra rb off => Sys2Proof.Machine.execBne c ra rb off s
  | .blt c ra rb off => Sys2Proof.Machine.execBlt c ra rb off s
  | .bge c ra rb off => Sys2Proof.Machine.execBge c ra rb off s
  | .bltu c ra rb off => Sys2Proof.Machine.execBltu c ra rb off s
  | .bgeu c ra rb off => Sys2Proof.Machine.execBgeu c ra rb off s
  | .j c off => Sys2Proof.Machine.execJ c off s
  | .jl c off => Sys2Proof.Machine.execJl c off s
  | .csrr c rd idx => Sys2Proof.Machine.execCsrr c rd idx s
  | .csrw c rd ra idx => Sys2Proof.Machine.execCsrw c rd ra idx s
  | .csrs c rd ra idx => Sys2Proof.Machine.execCsrs c rd ra idx s
  | .csrc c rd ra idx => Sys2Proof.Machine.execCsrc c rd ra idx s
  | .wumark c op rd ra => Sys2Proof.Machine.execWumark c op rd ra s
  | .jr c ra => Sys2Proof.Machine.execJr c ra s
  | .jlr c rd ra => Sys2Proof.Machine.execJlr c rd ra s
  | .fence c fi fm => Sys2Proof.Machine.execFence c fi fm s
  | .waitev c rd => Sys2Proof.Machine.execWaitev c rd s
  | .trap c code => Sys2Proof.Machine.execTrap c code s
  | .eret c => Sys2Proof.Machine.execEret c s
  | .illegalInstruction c word => Sys2Proof.Machine.execIllegalInstruction c word s
  | .eventTrap c => Sys2Proof.Machine.execEventTrap c s
  | .timerEvent c => Sys2Proof.Machine.execTimerEvent c s
  | .instructionFetch c addr => Sys2Proof.Machine.execInstructionFetch c addr s
  | .pilotLoadReturn c => Sys2Proof.Machine.execPilotLoadReturn c s
  | .storeVisible c => Sys2Proof.Machine.execStoreVisible c s
  | .vadd c ty mask vd va vb upset => Sys2Proof.Machine.execVadd c ty mask vd va vb upset s
  | .vsub c ty mask vd va vb upset => Sys2Proof.Machine.execVsub c ty mask vd va vb upset s
  | .vmul c ty mask vd va vb upset => Sys2Proof.Machine.execVmul c ty mask vd va vb upset s
  | .vfma c ty mask vd va vb upset => Sys2Proof.Machine.execVfma c ty mask vd va vb upset s
  | .vfnma c ty mask vd va vb upset => Sys2Proof.Machine.execVfnma c ty mask vd va vb upset s
  | .vdiv c ty mask vd va vb => Sys2Proof.Machine.execVdiv c ty mask vd va vb s
  | .vsqrt c ty mask vd va => Sys2Proof.Machine.execVsqrt c ty mask vd va s
  | .vmin c ty mask vd va vb => Sys2Proof.Machine.execVmin c ty mask vd va vb s
  | .vmax c ty mask vd va vb => Sys2Proof.Machine.execVmax c ty mask vd va vb s
  | .vabs c ty mask vd va => Sys2Proof.Machine.execVabs c ty mask vd va s
  | .vneg c ty mask vd va upset => Sys2Proof.Machine.execVneg c ty mask vd va upset s
  | .vrcp c ty mask vd va => Sys2Proof.Machine.execVrcp c ty mask vd va s
  | .vrsqrt c ty mask vd va => Sys2Proof.Machine.execVrsqrt c ty mask vd va s
  | .vexp c ty mask vd va => Sys2Proof.Machine.execVexp c ty mask vd va s
  | .vlog c ty mask vd va => Sys2Proof.Machine.execVlog c ty mask vd va s
  | .vsig c ty mask vd va => Sys2Proof.Machine.execVsig c ty mask vd va s
  | .vtanh c ty mask vd va => Sys2Proof.Machine.execVtanh c ty mask vd va s
  | .vand c ty mask vd va vb => Sys2Proof.Machine.execVand c ty mask vd va vb s
  | .vor c ty mask vd va vb => Sys2Proof.Machine.execVor c ty mask vd va vb s
  | .vxor c ty mask vd va vb => Sys2Proof.Machine.execVxor c ty mask vd va vb s
  | .vshl c ty mask vd va vb => Sys2Proof.Machine.execVshl c ty mask vd va vb s
  | .vshr c ty mask vd va vb => Sys2Proof.Machine.execVshr c ty mask vd va vb s
  | .vsra c ty mask vd va vb => Sys2Proof.Machine.execVsra c ty mask vd va vb s
  | .vld c vd ra imm => Sys2Proof.Machine.execVld c vd ra imm s
  | .vst c vd ra imm => Sys2Proof.Machine.execVst c vd ra imm s
  | .vldm c md ra imm => Sys2Proof.Machine.execVldm c md ra imm s
  | .vstm c md ra imm => Sys2Proof.Machine.execVstm c md ra imm s
  | .vmov c ty mask vd va => Sys2Proof.Machine.execVmov c ty mask vd va s
  | .vcvt c ty mask vd va part dty => Sys2Proof.Machine.execVcvt c ty mask vd va part dty s
  | .vbcast c ty mask vd ra => Sys2Proof.Machine.execVbcast c ty mask vd ra s
  | .vextr c ty rd va rb => Sys2Proof.Machine.execVextr c ty rd va rb s
  | .vins c ty vd ra rb => Sys2Proof.Machine.execVins c ty vd ra rb s
  | .vperm c ty mask vd va vb => Sys2Proof.Machine.execVperm c ty mask vd va vb s
  | .vsel c ty mask vd va vb => Sys2Proof.Machine.execVsel c ty mask vd va vb s
  | .viota c ty mask vd => Sys2Proof.Machine.execViota c ty mask vd s
  | .vrmax c ty mask vd va => Sys2Proof.Machine.execVrmax c ty mask vd va s
  | .vrmin c ty mask vd va => Sys2Proof.Machine.execVrmin c ty mask vd va s
  | .vsclr c vsd ra => Sys2Proof.Machine.execVsclr c vsd ra s
  | .vsadd c ty mask vsd va upset => Sys2Proof.Machine.execVsadd c ty mask vsd va upset s
  | .vsdot c ty mask vsd va vb upset => Sys2Proof.Machine.execVsdot c ty mask vsd va vb upset s
  | .vsacc c vsd vsa upset => Sys2Proof.Machine.execVsacc c vsd vsa upset s
  | .vsrd c ty rd vsa rb => Sys2Proof.Machine.execVsrd c ty rd vsa rb s
  | .vsraw c rd vsa part => Sys2Proof.Machine.execVsraw c rd vsa part s
  | .vswraw c vsd ra part => Sys2Proof.Machine.execVswraw c vsd ra part s
  | .vcmpeq c ty mask md va vb => Sys2Proof.Machine.execVcmpeq c ty mask md va vb s
  | .vcmplt c ty mask md va vb => Sys2Proof.Machine.execVcmplt c ty mask md va vb s
  | .vcmple c ty mask md va vb => Sys2Proof.Machine.execVcmple c ty mask md va vb s
  | .vcmpun c ty mask md va vb => Sys2Proof.Machine.execVcmpun c ty mask md va vb s
  | .mand c md ma mb => Sys2Proof.Machine.execMand c md ma mb s
  | .mor c md ma mb => Sys2Proof.Machine.execMor c md ma mb s
  | .mxor c md ma mb => Sys2Proof.Machine.execMxor c md ma mb s
  | .mnot c md ma => Sys2Proof.Machine.execMnot c md ma s
  | .mpopc c ty rd ma => Sys2Proof.Machine.execMpopc c ty rd ma s
  | .forme c wait raise ra => Sys2Proof.Machine.execForme c wait raise ra s
  | .formeTileStaged c => Sys2Proof.Machine.execFormeTileStaged c s
  | .formeRowSums c => Sys2Proof.Machine.execFormeRowSums c s
  | .press c m f a raise => Sys2Proof.Machine.execPress c m f a raise s
  | .pressIssue c => Sys2Proof.Machine.execPressIssue c s
  | .pressComplete c flips => Sys2Proof.Machine.execPressComplete c flips s
  | .checksumComparison c => Sys2Proof.Machine.execChecksumComparison c s
  | .stickclr c m ra => Sys2Proof.Machine.execStickclr c m ra s
  | .stickclrExecute c => Sys2Proof.Machine.execStickclrExecute c s
  | .stickrd c wait raise ra => Sys2Proof.Machine.execStickrd c wait raise ra s
  | .drainHold c => Sys2Proof.Machine.execDrainHold c s
  | .drainRelease c flips => Sys2Proof.Machine.execDrainRelease c flips s
  | .pressHalt src c => Sys2Proof.Machine.execPressHalt src c s
  | .pressResume src c => Sys2Proof.Machine.execPressResume src c s
  | .enq c queue ra => Sys2Proof.Machine.execEnq c queue ra s
  | .tkwait c tk => Sys2Proof.Machine.execTkwait c tk s
  | .tktry c rd tk => Sys2Proof.Machine.execTktry c rd tk s
  | .tkread c rd tk => Sys2Proof.Machine.execTkread c rd tk s
  | .tkraise c tk => Sys2Proof.Machine.execTkraise c tk s
  | .tkset c tk ra => Sys2Proof.Machine.execTkset c tk ra s
  | .pilotReset src c => Sys2Proof.Machine.execPilotReset src c s
  | .pilotRun src c => Sys2Proof.Machine.execPilotRun src c s
  | .pilotHalt src c => Sys2Proof.Machine.execPilotHalt src c s
  | .pilotMailboxWrite src c value => Sys2Proof.Machine.execPilotMailboxWrite src c value s
  | .standIn core => Sys2Proof.Machine.execStandIn core s
  | .galleyBankServe die bank reqs => Sys2Proof.Machine.execGalleyBankServe die bank reqs s
  | .galleyScrub die => Sys2Proof.Machine.execGalleyScrub die s
  | .transpose c => Sys2Proof.Machine.execTranspose c s
  | .gather c => Sys2Proof.Machine.execGather c s
  | .scatter c => Sys2Proof.Machine.execScatter c s
  | .scatterAdd c => Sys2Proof.Machine.execScatterAdd c s
  | .engineExp c => Sys2Proof.Machine.execEngineExp c s
  | .engineLog c => Sys2Proof.Machine.execEngineLog c s
  | .engineRcp c => Sys2Proof.Machine.execEngineRcp c s
  | .engineRsqrt c => Sys2Proof.Machine.execEngineRsqrt c s
  | .engineSig c => Sys2Proof.Machine.execEngineSig c s
  | .engineTanh c => Sys2Proof.Machine.execEngineTanh c s
  | .sort c => Sys2Proof.Machine.execSort c s
  | .topk c => Sys2Proof.Machine.execTopk c s
  | .reducerSum c => Sys2Proof.Machine.execReducerSum c s
  | .reducerSumsq c => Sys2Proof.Machine.execReducerSumsq c s
  | .reducerDot c => Sys2Proof.Machine.execReducerDot c s
  | .reducerMax c => Sys2Proof.Machine.execReducerMax c s
  | .reducerMin c => Sys2Proof.Machine.execReducerMin c s
  | .reducerAmax c => Sys2Proof.Machine.execReducerAmax c s
  | .stickadd c => Sys2Proof.Machine.execStickadd c s
  | .tallysum c => Sys2Proof.Machine.execTallysum c s
  | .convert c => Sys2Proof.Machine.execConvert c s
  | .scaleAmax c => Sys2Proof.Machine.execScaleAmax c s
  | .record c => Sys2Proof.Machine.execRecord c s
  | .select c => Sys2Proof.Machine.execSelect c s
  | .hsave c => Sys2Proof.Machine.execHsave c s
  | .hload c => Sys2Proof.Machine.execHload c s
  | .hinit c => Sys2Proof.Machine.execHinit c s
  | .rngRaw c => Sys2Proof.Machine.execRngRaw c s
  | .uniform c => Sys2Proof.Machine.execUniform c s
  | .bernoulli c => Sys2Proof.Machine.execBernoulli c s
  | .intrange c => Sys2Proof.Machine.execIntrange c s
  | .compress c => Sys2Proof.Machine.execCompress c s
  | .decompress c => Sys2Proof.Machine.execDecompress c s
  | .tally c => Sys2Proof.Machine.execTally c s
  | .microcodeUpdate die engine => Sys2Proof.Machine.execMicrocodeUpdate die engine s
  | .berthGet c => Sys2Proof.Machine.execBerthGet c s
  | .berthPut c => Sys2Proof.Machine.execBerthPut c s
  | .berthAudit die => Sys2Proof.Machine.execBerthAudit die s
  | .proofCompare die first second => Sys2Proof.Machine.execProofCompare die first second s
  | .vectorProofCompare die orig first second => Sys2Proof.Machine.execVectorProofCompare die orig first second s
  | .chkRecord die => Sys2Proof.Machine.execChkRecord die s
  | .chkLogCollect die => Sys2Proof.Machine.execChkLogCollect die s
  | .chkConditionSample die patterns => Sys2Proof.Machine.execChkConditionSample die patterns s
  | .quarantineRangeSample die => Sys2Proof.Machine.execQuarantineRangeSample die s
  | .quarantineClearEntry src entry => Sys2Proof.Machine.execQuarantineClearEntry src entry s
  | .quarantineClearAll src => Sys2Proof.Machine.execQuarantineClearAll src s
  | .quayMemRequest die => Sys2Proof.Machine.execQuayMemRequest die s
  | .budget msg => Sys2Proof.Machine.execBudget msg s
  | .tideNote msg => Sys2Proof.Machine.execTideNote msg s
  | .eventPost msg => Sys2Proof.Machine.execEventPost msg s
  | .recordReady msg => Sys2Proof.Machine.execRecordReady msg s
  | .halt msg => Sys2Proof.Machine.execHalt msg s
  | .linkNote msg => Sys2Proof.Machine.execLinkNote msg s
  | .flitCrcReplay die link flits again => Sys2Proof.Machine.execFlitCrcReplay die link flits again s
  | .linkRetrainDone die link good => Sys2Proof.Machine.execLinkRetrainDone die link good s
  | .quayLinkDisable src die link => Sys2Proof.Machine.execQuayLinkDisable src die link s
  | .quayLinkRetrain src die link => Sys2Proof.Machine.execQuayLinkRetrain src die link s
  | .pllLossOfLock die pll => Sys2Proof.Machine.execPllLossOfLock die pll s
  | .referenceLoss => Sys2Proof.Machine.execReferenceLoss s
  | .homeWrite die found => Sys2Proof.Machine.execHomeWrite die found s
  | .homeWriteApply die => Sys2Proof.Machine.execHomeWriteApply die s
  | .invalidation die => Sys2Proof.Machine.execInvalidation die s
  | .recallLine die data => Sys2Proof.Machine.execRecallLine die data s
  | .homeRead die found => Sys2Proof.Machine.execHomeRead die found s
  | .hbmSchedulerIssue stack pchan => Sys2Proof.Machine.execHbmSchedulerIssue stack pchan s
  | .hbmReadDecode line errs fixed => Sys2Proof.Machine.execHbmReadDecode line errs fixed s
  | .hbmRefresh stack bank => Sys2Proof.Machine.execHbmRefresh stack bank s
  | .hbmTempRead stack temp => Sys2Proof.Machine.execHbmTempRead stack temp s
  | .hbmRowScrub stack errs => Sys2Proof.Machine.execHbmRowScrub stack errs s
  | .hbmPatrolScrub stack errs => Sys2Proof.Machine.execHbmPatrolScrub stack errs s
  | .hbmLogCollect stack => Sys2Proof.Machine.execHbmLogCollect stack s
  | .adderRlAdd die found cache => Sys2Proof.Machine.execAdderRlAdd die found cache s
  | .atomicAdd die found => Sys2Proof.Machine.execAtomicAdd die found s
  | .atomicMax die found => Sys2Proof.Machine.execAtomicMax die found s
  | .atomicMin die found => Sys2Proof.Machine.execAtomicMin die found s
  | .atomicMaxu die found => Sys2Proof.Machine.execAtomicMaxu die found s
  | .atomicMinu die found => Sys2Proof.Machine.execAtomicMinu die found s
  | .atomicAnd die found => Sys2Proof.Machine.execAtomicAnd die found s
  | .atomicOr die found => Sys2Proof.Machine.execAtomicOr die found s
  | .atomicXor die found => Sys2Proof.Machine.execAtomicXor die found s
  | .atomicSwap die found => Sys2Proof.Machine.execAtomicSwap die found s
  | .atomicCas die found => Sys2Proof.Machine.execAtomicCas die found s
  | .atomicFadd32 die found => Sys2Proof.Machine.execAtomicFadd32 die found s
  | .hbmChannelRetrain stack chan errors => Sys2Proof.Machine.execHbmChannelRetrain stack chan errors s
  | .hbmRetrainCmd src stack chan => Sys2Proof.Machine.execHbmRetrainCmd src stack chan s
  | .hbmOffline src stack chan => Sys2Proof.Machine.execHbmOffline src stack chan s
  | .hbmOnline src stack chan => Sys2Proof.Machine.execHbmOnline src stack chan s
  | .hbmRetrainDone stack chan good => Sys2Proof.Machine.execHbmRetrainDone stack chan good s
  | .hbmHeldTimeout die => Sys2Proof.Machine.execHbmHeldTimeout die s
  | .hbmMarginStart src stack pc chan pin mode => Sys2Proof.Machine.execHbmMarginStart src stack pc chan pin mode s
  | .hbmMarginDone stack eye => Sys2Proof.Machine.execHbmMarginDone stack eye s
  | .laserMonitorSample die bank wave power bias offset => Sys2Proof.Machine.execLaserMonitorSample die bank wave power bias offset s
  | .laserTakeover die wave => Sys2Proof.Machine.execLaserTakeover die wave s
  | .laserRetire src die bank wave => Sys2Proof.Machine.execLaserRetire src die bank wave s
  | .ringLockUpdate port slot tx heat power => Sys2Proof.Machine.execRingLockUpdate port slot tx heat power s
  | .darkMaskApply port => Sys2Proof.Machine.execDarkMaskApply port s
  | .laneCodewordReceive lane raw => Sys2Proof.Machine.execLaneCodewordReceive lane raw s
  | .controlCodewordReceive port lane raw => Sys2Proof.Machine.execControlCodewordReceive port lane raw s
  | .portTrainStep port light failed eyes => Sys2Proof.Machine.execPortTrainStep port light failed eyes s
  | .phxPortRetrain src port => Sys2Proof.Machine.execPhxPortRetrain src port s
  | .portDisable src port => Sys2Proof.Machine.execPortDisable src port s
  | .calibrationStepBoundary port eye => Sys2Proof.Machine.execCalibrationStepBoundary port eye s
  | .laneMoveReturn lane => Sys2Proof.Machine.execLaneMoveReturn lane s
  | .laneFault lane cause dark => Sys2Proof.Machine.execLaneFault lane cause dark s
  | .laneRecoveryDone lane => Sys2Proof.Machine.execLaneRecoveryDone lane s
  | .laneRecoveryTimeout lane => Sys2Proof.Machine.execLaneRecoveryTimeout lane s
  | .laneOffline src lane => Sys2Proof.Machine.execLaneOffline src lane s
  | .laneOnline src lane => Sys2Proof.Machine.execLaneOnline src lane s
  | .laneRetrain src lane => Sys2Proof.Machine.execLaneRetrain src lane s
  | .opticalLowPower port slot power => Sys2Proof.Machine.execOpticalLowPower port slot power s
  | .routerSlot base bad => Sys2Proof.Machine.execRouterSlot base bad s
  | .ejectionHandoff base => Sys2Proof.Machine.execEjectionHandoff base s
  | .combiningRelease base => Sys2Proof.Machine.execCombiningRelease base s
  | .combinedResponseFanout die => Sys2Proof.Machine.execCombinedResponseFanout die s
  | .linkEntryExpire port => Sys2Proof.Machine.execLinkEntryExpire port s
  | .replayHoldExpire base => Sys2Proof.Machine.execReplayHoldExpire base s
  | .cellRead die found => Sys2Proof.Machine.execCellRead die found s
  | .cellReadRsp die => Sys2Proof.Machine.execCellReadRsp die s
  | .cellWrite die found => Sys2Proof.Machine.execCellWrite die found s
  | .cellTwrite die found => Sys2Proof.Machine.execCellTwrite die found s
  | .cellTclose die found => Sys2Proof.Machine.execCellTclose die found s
  | .cellAtomicRsp die => Sys2Proof.Machine.execCellAtomicRsp die s
  | .cellAck die => Sys2Proof.Machine.execCellAck die s
  | .cellSignal die found => Sys2Proof.Machine.execCellSignal die found s
  | .teardown => Sys2Proof.Machine.execTeardown s
  | .abort => Sys2Proof.Machine.execAbort s
  | .lighterLoad c => Sys2Proof.Machine.execLighterLoad c s
  | .lighterPut c => Sys2Proof.Machine.execLighterPut c s
  | .lighterStore c => Sys2Proof.Machine.execLighterStore c s
  | .lighterRladd32 c => Sys2Proof.Machine.execLighterRladd32 c s
  | .lighterRladd64 c => Sys2Proof.Machine.execLighterRladd64 c s
  | .lighterAtomic c => Sys2Proof.Machine.execLighterAtomic c s
  | .lighterSignal c => Sys2Proof.Machine.execLighterSignal c s
  | .ccset c => Sys2Proof.Machine.execCcset c s
  | .xverifySet c => Sys2Proof.Machine.execXverifySet c s
  | .xverifyVerify c => Sys2Proof.Machine.execXverifyVerify c s
  | .stream c => Sys2Proof.Machine.execStream c s
  | .streamReadEnd c flips => Sys2Proof.Machine.execStreamReadEnd c flips s
  | .streamSend c => Sys2Proof.Machine.execStreamSend c s
  | .collectiveOpen die => Sys2Proof.Machine.execCollectiveOpen die s
  | .collectiveDeadline die => Sys2Proof.Machine.execCollectiveDeadline die s
  | .collectiveFinal die => Sys2Proof.Machine.execCollectiveFinal die s
  | .tideProbeSend die => Sys2Proof.Machine.execTideProbeSend die s
  | .tideAlignProbe msg => Sys2Proof.Machine.execTideAlignProbe msg s
  | .tideAlignReply msg => Sys2Proof.Machine.execTideAlignReply msg s
  | .tideAlignRate msg => Sys2Proof.Machine.execTideAlignRate msg s
  | .rateApply die => Sys2Proof.Machine.execRateApply die s
  | .syncReqSend => Sys2Proof.Machine.execSyncReqSend s
  | .syncReq arrival => Sys2Proof.Machine.execSyncReq arrival s
  | .syncRsp arrival => Sys2Proof.Machine.execSyncRsp arrival s
  | .tideServoTimeout => Sys2Proof.Machine.execTideServoTimeout s
  | .tidePutSubmit src die value => Sys2Proof.Machine.execTidePutSubmit src die value s
  | .tideRingPoll c => Sys2Proof.Machine.execTideRingPoll c s
  | .schedMark die job => Sys2Proof.Machine.execSchedMark die job s
  | .schedPrefetch die => Sys2Proof.Machine.execSchedPrefetch die s
  | .prefetchEnqueue die => Sys2Proof.Machine.execPrefetchEnqueue die s
  | .schedPrewarm die => Sys2Proof.Machine.execSchedPrewarm die s
  | .schedCommit die => Sys2Proof.Machine.execSchedCommit die s
  | .schedLane die => Sys2Proof.Machine.execSchedLane die s
  | .schedCalhold die => Sys2Proof.Machine.execSchedCalhold die s
  | .calholdEnd port => Sys2Proof.Machine.execCalholdEnd port s
  | .schedHbmMaint die => Sys2Proof.Machine.execSchedHbmMaint die s
  | .hbmMaintEnd stack chan => Sys2Proof.Machine.execHbmMaintEnd stack chan s
  | .schedRehearse die => Sys2Proof.Machine.execSchedRehearse die s
  | .injectionEnd die index => Sys2Proof.Machine.execInjectionEnd die index s
  | .schedApply die => Sys2Proof.Machine.execSchedApply die s
  | .impoLoad src => Sys2Proof.Machine.execImpoLoad src s
  | .impoReadComplete => Sys2Proof.Machine.execImpoReadComplete s
  | .impoApplyComplete => Sys2Proof.Machine.execImpoApplyComplete s
  | .impoStagingComplete => Sys2Proof.Machine.execImpoStagingComplete s
  | .impoRelease src parts => Sys2Proof.Machine.execImpoRelease src parts s
  | .impoDiscard src parts => Sys2Proof.Machine.execImpoDiscard src parts s
  | .teardownRecord part => Sys2Proof.Machine.execTeardownRecord part s
  | .heartbeatSend => Sys2Proof.Machine.execHeartbeatSend s
  | .heartbeat => Sys2Proof.Machine.execHeartbeat s
  | .moduleLost node parts => Sys2Proof.Machine.execModuleLost node parts s
  | .mailboxPoll => Sys2Proof.Machine.execMailboxPoll s
  | .fiRetire src die core => Sys2Proof.Machine.execFiRetire src die core s
  | .restartDecide part records shards => Sys2Proof.Machine.execRestartDecide part records shards s
  | .preemptDeadline => Sys2Proof.Machine.execPreemptDeadline s
  | .checkpointManifest part job step addr tallies => Sys2Proof.Machine.execCheckpointManifest part job step addr tallies s
  | .supplySample vin current power rails => Sys2Proof.Machine.execSupplySample vin current power rails s
  | .brownoutTimeout => Sys2Proof.Machine.execBrownoutTimeout s
  | .budgetSend die draw => Sys2Proof.Machine.execBudgetSend die draw s
  | .budgetAllocate die => Sys2Proof.Machine.execBudgetAllocate die s
  | .waveBoundary die draw => Sys2Proof.Machine.execWaveBoundary die draw s
  | .tempSample die temp rise volt => Sys2Proof.Machine.execTempSample die temp rise volt s
  | .crossingClockStop die group => Sys2Proof.Machine.execCrossingClockStop die group s
  | .crossingTimeout die group => Sys2Proof.Machine.execCrossingTimeout die group s
  | .crossingClockReturn die group => Sys2Proof.Machine.execCrossingClockReturn die group s
  | .coldReset power => Sys2Proof.Machine.execColdReset power s
  | .strapSample straps => Sys2Proof.Machine.execStrapSample straps s
  | .strapResample first second => Sys2Proof.Machine.execStrapResample first second s
  | .bootVerify slotA slotB key => Sys2Proof.Machine.execBootVerify slotA slotB key s
  | .mgmtFirmwareStart pilot micro stacksDown bridgesDown => Sys2Proof.Machine.execMgmtFirmwareStart pilot micro stacksDown bridgesDown s
  | .selfTest fails => Sys2Proof.Machine.execSelfTest fails s
  | .startupHbm sts => Sys2Proof.Machine.execStartupHbm sts s
  | .harbourmasterClaim => Sys2Proof.Machine.execHarbourmasterClaim s
  | .candidateClaim => Sys2Proof.Machine.execCandidateClaim s
  | .autostart => Sys2Proof.Machine.execAutostart s
  | .functionLevelReset => Sys2Proof.Machine.execFunctionLevelReset s
  | .hostMemoryRead bar off len tag => Sys2Proof.Machine.execHostMemoryRead bar off len tag s
  | .hostMemoryWrite bar off data => Sys2Proof.Machine.execHostMemoryWrite bar off data s
  | .hostWindowCompletion tag off data good => Sys2Proof.Machine.execHostWindowCompletion tag off data good s
  | .hostCompletionTimeout tag => Sys2Proof.Machine.execHostCompletionTimeout tag s
  | .statusRecordWrite => Sys2Proof.Machine.execStatusRecordWrite s
  | .pcieRingHead head => Sys2Proof.Machine.execPcieRingHead head s
  | .pciePreempt dp leaders jobs => Sys2Proof.Machine.execPciePreempt dp leaders jobs s
  | .ringEnable src log => Sys2Proof.Machine.execRingEnable src log s
  | .ethLinkDown port => Sys2Proof.Machine.execEthLinkDown port s
  | .ethSendPoll => Sys2Proof.Machine.execEthSendPoll s
  | .roceAck qp psn => Sys2Proof.Machine.execRoceAck qp psn s
  | .roceWriteReceive qp psn pos raddr rkey dlen data ecn => Sys2Proof.Machine.execRoceWriteReceive qp psn pos raddr rkey dlen data ecn s
  | .roceSendReceive qp psn pos data ecn => Sys2Proof.Machine.execRoceSendReceive qp psn pos data ecn s
  | .roceNak qp psn kind => Sys2Proof.Machine.execRoceNak qp psn kind s
  | .roceRetryTimeout qp => Sys2Proof.Machine.execRoceRetryTimeout qp s
  | .roceCnp qp => Sys2Proof.Machine.execRoceCnp qp s
  | .roceRateRestore qp => Sys2Proof.Machine.execRoceRateRestore qp s
  | .qpEnable src qp => Sys2Proof.Machine.execQpEnable src qp s
  | .ptpSync port domain offset time => Sys2Proof.Machine.execPtpSync port domain offset time s
  | .ptpSyncTimeout => Sys2Proof.Machine.execPtpSyncTimeout s
  | .orderWrite tcp => Sys2Proof.Machine.execOrderWrite tcp s
  | .orderRead tcp => Sys2Proof.Machine.execOrderRead tcp s
  | .orderTeardownReq tcp parts => Sys2Proof.Machine.execOrderTeardownReq tcp parts s
  | .orderMemread tcp => Sys2Proof.Machine.execOrderMemread tcp s
  | .orderPreempt tcp jobs => Sys2Proof.Machine.execOrderPreempt tcp jobs s
  | .orderPause tcp => Sys2Proof.Machine.execOrderPause tcp s
  | .orderHandover tcp => Sys2Proof.Machine.execOrderHandover tcp s
  | .mgmtReply => Sys2Proof.Machine.execMgmtReply s
  | .mgmtRecord parts => Sys2Proof.Machine.execMgmtRecord parts s
  | .mgmtAck => Sys2Proof.Machine.execMgmtAck s
  | .mgmtRetransmit => Sys2Proof.Machine.execMgmtRetransmit s
  | .mctpSetEndpointId tag eid => Sys2Proof.Machine.execMctpSetEndpointId tag eid s
  | .mctpRegRead tag addr => Sys2Proof.Machine.execMctpRegRead tag addr s
  | .mctpRegWrite tag addr value => Sys2Proof.Machine.execMctpRegWrite tag addr value s
  | .mctpHbmWrite tag addr data => Sys2Proof.Machine.execMctpHbmWrite tag addr data s
  | .mctpHbmRead tag addr len => Sys2Proof.Machine.execMctpHbmRead tag addr len s
  | .mctpRecordGet tag first => Sys2Proof.Machine.execMctpRecordGet tag first s
  | .mctpPreempt tag dp leaders jobs => Sys2Proof.Machine.execMctpPreempt tag dp leaders jobs s
  | .pldmGetTid tag => Sys2Proof.Machine.execPldmGetTid tag s
  | .pldmGetVersion tag type => Sys2Proof.Machine.execPldmGetVersion tag type s
  | .pldmGetTypes tag => Sys2Proof.Machine.execPldmGetTypes tag s
  | .pldmGetCommands tag type => Sys2Proof.Machine.execPldmGetCommands tag type s
  | .pldmGetPdrRepositoryInfo tag => Sys2Proof.Machine.execPldmGetPdrRepositoryInfo tag s
  | .pldmGetPdr tag handle => Sys2Proof.Machine.execPldmGetPdr tag handle s
  | .pldmGetSensorReading tag id => Sys2Proof.Machine.execPldmGetSensorReading tag id s
  | .pldmGetStateSensorReadings tag id => Sys2Proof.Machine.execPldmGetStateSensorReadings tag id s
  | .spdmGetVersion doe tag => Sys2Proof.Machine.execSpdmGetVersion doe tag s
  | .spdmGetCapabilities doe tag version => Sys2Proof.Machine.execSpdmGetCapabilities doe tag version s
  | .spdmNegotiateAlgorithms doe tag p384 sha384 => Sys2Proof.Machine.execSpdmNegotiateAlgorithms doe tag p384 sha384 s
  | .spdmGetDigests doe tag => Sys2Proof.Machine.execSpdmGetDigests doe tag s
  | .spdmGetCertificate doe tag slot off len => Sys2Proof.Machine.execSpdmGetCertificate doe tag slot off len s
  | .spdmChallenge doe tag slot nonce => Sys2Proof.Machine.execSpdmChallenge doe tag slot nonce s
  | .spdmGetMeasurements doe tag index sign nonce => Sys2Proof.Machine.execSpdmGetMeasurements doe tag index sign nonce s
  | .uartCharacterReceive read char => Sys2Proof.Machine.execUartCharacterReceive read char s
  | .uartBreak => Sys2Proof.Machine.execUartBreak s
  | .uartDivWrite src div => Sys2Proof.Machine.execUartDivWrite src div s
  | .jtagBypass => Sys2Proof.Machine.execJtagBypass s
  | .jtagIdcode => Sys2Proof.Machine.execJtagIdcode s
  | .jtagSamplePreload pins preload => Sys2Proof.Machine.execJtagSamplePreload pins preload s
  | .jtagExtest perst => Sys2Proof.Machine.execJtagExtest perst s
  | .jtagClamp perst => Sys2Proof.Machine.execJtagClamp perst s
  | .jtagDebugAccess addr value => Sys2Proof.Machine.execJtagDebugAccess addr value s
  | .jtagTapReset => Sys2Proof.Machine.execJtagTapReset s
  | .flashRead src addr => Sys2Proof.Machine.execFlashRead src addr s
  | .flashProgram src addr => Sys2Proof.Machine.execFlashProgram src addr s
  | .flashErase src addr => Sys2Proof.Machine.execFlashErase src addr s
  | .flashCommandDone held => Sys2Proof.Machine.execFlashCommandDone held s
  | .mgmtSwap src svn => Sys2Proof.Machine.execMgmtSwap src svn s
  | .svnWrite src value => Sys2Proof.Machine.execSvnWrite src value s
  | .fuseBurnDone => Sys2Proof.Machine.execFuseBurnDone s
  | .caseEngineCompletion die engine => Sys2Proof.Machine.execCaseEngineCompletion die engine s
  | .prewarmStart die => Sys2Proof.Machine.execPrewarmStart die s
  | .heartbeatWindowEnd => Sys2Proof.Machine.execHeartbeatWindowEnd s
  | .ethLinkUp port => Sys2Proof.Machine.execEthLinkUp port s
  | .pcieLinkReset state width speed mps flit => Sys2Proof.Machine.execPcieLinkReset state width speed mps flit s
  | .arpRequest port v6 target asker => Sys2Proof.Machine.execArpRequest port v6 target asker s
  | .icmpEchoRequest port v6 target asker data => Sys2Proof.Machine.execIcmpEchoRequest port v6 target asker data s
  | .priorityFlowControl port prio quanta => Sys2Proof.Machine.execPriorityFlowControl port prio quanta s
  | .errorLogRead addr => Sys2Proof.Machine.execErrorLogRead addr s

end Sys2Proof.Machine
end

