-- ==== Sys2Proof/Machine/Tick.lean ====
section
/-! DEFINITION. The end of a tide tick: the register writes it has gathered are applied in their order and journaled
(12_the_tide.md R389, 00_scope.md R12 to R17), counters count, and the tides move on (R374). -/

namespace Sys2Proof.Machine
open Sys2Proof

/-! ### The commands in a write -/

/-- What a command of a register write does, with the code of its refusal. -/
def State.doCommand (s : State) (src : Source) : Command → State × Nat
  | .pilotRun c => (s.doPilotRun c, 0)
  | .pilotHalt c => (s.doPilotHalt c, 0)
  | .pilotReset c => (s.doPilotReset c, 0)
  | .pressHalt c => (s.doPressHalt c, 0)
  | .pressResume c => (s.doPressResume c, 0)
  | .pilotMailboxWrite c v => (s.doPilotMailboxWrite c v, 0)
  | .quarantineClearEntry n => (s.doQuarantineClearEntry n, 0)
  | .quarantineClearAll => (s.doQuarantineClearAll, 0)
  | .quayLinkDisable die l => (s.doQuayLinkDisable die l, 0)
  | .quayLinkRetrain die l => (s.doQuayLinkRetrain die l, 0)
  | .hbmRetrainCmd st ch => (s.doHbmRetrainCmd st ch, 0)
  | .hbmOffline st ch => (s.doHbmOffline st ch, 0)
  | .hbmOnline st ch => (s.doHbmOnline st ch, 0)
  | .hbmMarginStart st pc ch pin mode => (s.doHbmMarginStart st pc ch pin mode, 0)
  | .laserRetire die j k => (s.doLaserRetire die j k, 0)
  | .phxPortRetrain p => (s.doPhxPortRetrain p, 0)
  | .portDisable p => (s.doPortDisable p, 0)
  | .laneOffline l => (s.doLaneOffline l, 0)
  | .laneOnline l => (s.doLaneOnline l, 0)
  | .laneRetrain l => (s.doLaneRetrain l, 0)
  | .fiRetire die core => (s.doFiRetire die core, 0)
  | .impoLoad => (s, 0)
  | .impoRelease parts => (s.doImpoRelease parts, 0)
  | .impoDiscard parts => (s.doImpoDiscard parts, 0)
  | .ringEnable log => s.doRingEnable log
  | .qpEnable qp => (s.doQpEnable qp, 0)
  | .uartDivWrite div => s.doUartDivWrite div
  | .flashRead addr => s.doFlashRead addr
  | .flashProgram addr => s.doFlashProgram addr
  | .flashErase addr => s.doFlashErase addr
  | .mgmtSwap => s.doMgmtSwap src
  | .svnWrite value => s.doSvnWrite src value

/-- The fields that a command itself writes. -/
def Command.owns : Command → List Fld
  | .pilotMailboxWrite _ _ => [f_PILOT_MAILBOX_MSG]
  | .quayLinkDisable _ _ => [f_QUAY_LCTL_DISABLE]
  | .hbmOffline _ _ => [f_HBM_CH_CTL_OFFLINE]
  | .hbmOnline _ _ => [f_HBM_CH_CTL_OFFLINE]
  | .portDisable _ => [f_PHX_PORT_DISABLE]
  | .laneOffline _ => [f_LANE_CTL_OFFLINE]
  | .laneOnline _ => [f_LANE_CTL_OFFLINE]
  | .ringEnable _ => [f_PCIE_RING_CTL_EN, f_PCIE_RING_CTL_LOG2SIZE]
  | .qpEnable _ => [f_ETH_QP_EN]
  | .uartDivWrite _ => [f_UART_CFG_DIV]
  | .flashRead _ => [f_MGMT_FLASH_CTL_ADDR]
  | .flashProgram _ => [f_MGMT_FLASH_CTL_ADDR]
  | .flashErase _ => [f_MGMT_FLASH_CTL_ADDR]
  | .svnWrite _ => [f_MGMT_SEC_SVN]
  | _ => []

/-- The commands of one write in turn: one that meets a command of a lower class in its tick does nothing and is told (R389). -/
def State.runCommands (src : Source) (p : State × Nat) : List Command → State × Nat
  | [] => p
  | c :: r =>
    if p.1.overridden c.id then State.runCommands src (p.1, Code.COMMAND_OVERRIDDEN) r
    else
      let q := (p.1.taken c.id).doCommand src c
      State.runCommands src (q.1, if q.2 ≠ 0 then q.2 else p.2) r

/-! ### Fields by type -/

/-- One field of a write, as R12 and R13 state for its type: the register's value after it, the OT places written, and whether it was a
violation. `value` is what the write carries, `merged` with the held bits of a half it does not carry. -/
structure FieldStep where
  word : Word
  done : List (Nat × Nat)
  viol : Bool

/-- A field written (R12, R13). -/
def fieldStep (addr : Nat) (locked : Bool) (value merged : Word) (x : FieldStep) (f : FieldDesc) : FieldStep :=
  let new := f.fld.get merged
  let held := f.fld.get x.word
  let put (v : Nat) : FieldStep := { x with word := f.fld.set x.word v }
  let bad : FieldStep := { x with viol := x.viol || new != held }
  match f.ty with
  | .rw => put new
  | .ro => x
  | .wo => x
  | .w1c => put (held &&& (2 ^ f.fld.width - 1 - f.fld.get value))
  | .w1s => put (held ||| f.fld.get value)
  | .lk => if locked then bad else put new
  | .ot => if x.done.contains (addr, f.fld.lo) then bad else { put new with done := x.done ++ [(addr, f.fld.lo)] }

/-- Whether a write carries bits of a field. -/
def RegCmd.reaches (w : RegCmd) (f : FieldDesc) : Bool := w.mask &&& f.fld.mask != 0

/-- The fields of a register written (R12, R13), but for those in `skip`. -/
def State.writeFields (s : State) (w : RegCmd) (fs : List FieldDesc) (skip : List Fld) : State × Bool :=
  let go := fs.filter fun f => w.reaches f && !skip.contains f.fld
  let x := go.foldl (fieldStep w.addr (s.frozen w.addr) (w.value &&& w.mask) (s.merged w)) ⟨s.reg w.addr, s.otDone, false⟩
  ({ s with otDone := x.done }.setReg w.addr x.word, x.viol)

/-- Whether a field keeps its held value whatever a write carries: an LK field of a locked block, or an OT field already written (R13). -/
def State.fixed (s : State) (a : Nat) (f : FieldDesc) : Bool :=
  match f.ty with
  | .lk => s.frozen a
  | .ot => s.otDone.contains (a, f.fld.lo)
  | _ => false

/-- The value that a write offers to the fields that may take it: the fields of R13 stand at their held values. -/
def State.offered (s : State) (w : RegCmd) (fs : List FieldDesc) : Word :=
  fs.foldl (fun v f => if s.fixed w.addr f then f.fld.set v (f.fld.get (s.reg w.addr)) else v) (s.merged w)

/-- Whether a write is a violation (R13). -/
def State.violates (s : State) (w : RegCmd) (fs : List FieldDesc) : Bool :=
  fs.any fun f => w.reaches f && s.fixed w.addr f && f.fld.get (s.merged w) != f.fld.get (s.reg w.addr)

/-- A violation counted in its block (R13, R544). -/
def State.bumpViol (s : State) (a : Nat) : State := s.bump (a_BLK_VIOL (regDie a) (regBlock a)) f_BLK_VIOL_COUNT

/-! ### Writes that are refused whole -/

/-- Whether thresholds are out of R466's rule: a field above its reset value, or not CLEAR < THROTTLE < TRIP. -/
def badTherm (a : Nat) (new : Word) : Bool :=
  let beyond (f : Fld) : Bool := decide (f.get (regReset a) < f.get new)
  beyond f_PWR_THERM_TRIP || beyond f_PWR_THERM_CLEAR || beyond f_PWR_THERM_THROTTLE
    || decide (f_PWR_THERM_THROTTLE.get new ≤ f_PWR_THERM_CLEAR.get new) || decide (f_PWR_THERM_TRIP.get new ≤ f_PWR_THERM_THROTTLE.get new)

/-- Whether a write to a queue pair meets EN at 1 with another value for a field beside it, or gives MTU 3, RETRY 0, or a ring size outside
2^4 to 2^12 (R17, R511). -/
def State.badQp (s : State) (off : Nat) (held new : Word) : Bool :=
  let w := off % 0x40 / 8
  let rest (v : Word) : Word := f_ETH_QP_STATE.set (f_ETH_QP_EN.set v 0) 0
  let badLog (f : Fld) : Bool := decide (f.get new < 4) || decide (12 < f.get new)
  (s.qpBits ((off - 0x1000) / 0x40) 303 303 == 1 && (w != 4 || rest held != rest new))
    || (w == 4 && (f_ETH_QP_MTU.get new == 3 || f_ETH_QP_RETRY.get new == 0))
    || (w == 1 && badLog f_ETH_QP_SQLOG) || (w == 0 && (badLog f_ETH_QP_RQLOG || badLog f_ETH_QP_CQLOG))

/-- Whether a parent port of TIDE_CTL names none of the 32 ports and is not 0x3F, none (R17, R392). -/
def badParent (f : Fld) (new : Word) : Bool := decide (32 ≤ f.get new) && f.get new != 0x3F

/-- Whether a write leaves its register unchanged, as the register's chapter states for the value or the moment (R17). -/
def State.refusedWrite (s : State) (a : Nat) (new : Word) : Bool :=
  let die := regDie a
  let off := regOff a
  let held := s.reg a
  let out (f : Fld) (lo hi : Nat) : Bool := decide (f.get new < lo) || decide (hi < f.get new)
  match regBlock a with
  | 0 => off % 0x1_0000 == 0x18 && f_PILOT_ENTRY_ENTRY.get new % 4 != 0
  | 3 => off < 0x10 && decide (256 < f_GALLEY_WIN_SIZE.get new)
  | 9 => off == 0 && out f_PHX_CAL_STEP 1_000_000 100_000_000
  | 10 => decide (0x2000 ≤ off) && decide (off < 0x2040) &&
      (((List.range 8).any fun q => decide (16 < (f_plan q).get new)) || s.fld (a_LANE_PLANSEL die) f_LANE_PLANSEL_CUR == (off - 0x2000) / 8)
  | 11 => (decide (0x100 ≤ off) && decide (off < 0x140) && decide (12 ≤ f_RTR_PORTDIM_DIM.get new) && f_RTR_PORTDIM_DIM.get new != 15)
      || (decide (0x200 ≤ off) && decide (off < 0x2C0) && decide (4096 < f_RTR_CRES_RESERVE.get new))
  | 12 => off == 0 && (f_COLL_CTL_NF0.get new == 3 || f_COLL_CTL_NF1.get new == 3 || out f_COLL_CTL_GRACE 10_000 10_000_000)
  | 13 => (decide (0x200 ≤ off) && decide (off < 0x268) && f_TIDE_RING_BASE.get new % 64 != 0)
      || (off == 0x10 && (badParent f_TIDE_CTL_PARENT new || badParent f_TIDE_CTL_ALT new))
  | 14 => off == 0 && decide (4 ≤ f_IMPO_CMD_CMD.get new)
  | 15 => (decide (off < 0x10) && (f_CHK_CFG_LEVEL.get new == 3 || (f_CHK_CFG_SEXP.get new != 0 && out f_CHK_CFG_SEXP 4 16)))
      || (off == 0x1000 && decide (4 < f_CHK_QPOLICY_N.get new))
  | 16 => (off == 0x10 && decide (12 ≤ f_FI_RETIRE_CORE.get new)) || (decide (0x100 ≤ off) && decide (off < 0x200) &&
      (bit (s.fld (a_FI_STATUS die) f_FI_STATUS_ACTIVE) ((off - 0x100) / 16) || (off % 16 == 0 && out f_FI_INJ_KIND 1 5)))
  | 17 => (off == 0 && (f_PWR_MODE_MODE.get new == 3 || decide (64 < f_PWR_MODE_LOSS.get new)
        || (f_PWR_MODE_CAP.get new != 0 && out f_PWR_MODE_CAP 900 2000)))
      || (off == 0x18 && decide (f_PWR_RAMP_HOLD.get new < 2000)) || ((off == 0x28 || off == 0x38) && badTherm a new)
  | 18 => decide (0x100 ≤ off) && decide (off < 0x150) && f_CLK_XCFG_TIMEOUT.get new == 0
  | 19 => (off == 8 && s.fld a_PCIE_RING_CTL f_PCIE_RING_CTL_EN == 1)
      || (off == 0x10 && (out f_PCIE_RING_CTL_LOG2SIZE 6 16
        || (f_PCIE_RING_CTL_EN.get held == 1 && f_PCIE_RING_CTL_LOG2SIZE.get new != f_PCIE_RING_CTL_LOG2SIZE.get held)))
  | 20 => decide (0x1000 ≤ off) && s.badQp off held new
  | _ => false

/-! ### One write -/

/-- Fields that a register ignores beside its table: MODE of crossing groups 4 and 8 (R475). -/
def ignoredFields (a : Nat) : List Fld :=
  if regBlock a = 18 && (regOff a == 0x120 || regOff a == 0x140) then [f_CLK_XCFG_MODE] else []

/-- What a register's new value brings about: PILOT_ENTRY keeps bits [1:0] zero (R131), a port that is enabled is down (R305), a queue pair whose EN is cleared stops (R511), and the servo meets a new TIDE_CTL (R378, R379). -/
def State.settleWrite (s old : State) (a : Nat) : State :=
  let die := regDie a
  let off := regOff a
  match regBlock a with
  | 0 => if off % 0x1_0000 = 0x18 then s.setReg a (s.reg a &&& ~~~3) else s
  | 13 => if a = a_TIDE_CTL 12 then s.tideCtlChanged old else s
  | 9 => if decide (0x1000 ≤ off) && decide (off < 0x1040) then s.portChanged old (8 * (die - 12) + (off - 0x1000) / 8) else s
  | 20 =>
    if decide (0x1000 ≤ off) && off % 0x40 == 0x20 && f_ETH_QP_EN.get (old.reg a) == 1 && f_ETH_QP_EN.get (s.reg a) == 0 then
      s.qpOff ((off - 0x1000) / 0x40)
    else s
  | _ => s

/-- A write that its register accepts: its fields, then its commands, with the code of the journal (R16, R505). -/
def State.acceptWrite (s : State) (w : RegCmd) (fs : List FieldDesc) : State × Nat :=
  let cs := s.rowsOf w
  let q := s.writeFields w fs (cs.flatMap Command.owns ++ ignoredFields w.addr)
  let r := State.runCommands w.src (q.1.settleWrite s w.addr, 0) cs
  if q.2 then (r.1.bumpViol w.addr, Code.LOCK_VIOLATION) else r

/-- TIDE_PUT words 0 to 2 as written (R392). -/
def State.setPut (s : State) (w : RegCmd) : State :=
  let k := regDie w.addr * 4 + (regOff w.addr - 0x48) / 8
  let old := BitVec.ofNat 64 (Tbl.get 0 s.puts k)
  { s with puts := Tbl.set 0 s.puts k ((w.value &&& w.mask) ||| (old &&& ~~~w.mask)).toNat }

/-- A write that reaches a register (R16, R389). What R13 keeps at its held value is not looked at by the chapters' own refusals (R17); a
write that both violates R13 and is refused whole is told as LOCK_VIOLATION, as R13 states for every violating write (DEDUCED). The doorbells of R487, JRNL_RDPTR (R506) and MGMT_FLASH_BUF (R548) are not journaled; a LOAD
and the last word of TIDE_PUT journal themselves. -/
def State.reachWrite (s : State) (w : RegCmd) (fs : List FieldDesc) : State :=
  let a := w.addr
  let off := regOff a
  let old := s.readReg a
  let new := s.merged w
  let refuse (code : Nat) : State := s.journal1 w.src a code old new
  if !(fs.any fun f => f.ty != .ro && w.reaches f) then refuse Code.BAD_REG_ACCESS
  else if a = a_PCIE_RING_HEAD then s.doHead new.toNat
  else if a = a_PCIE_PREEMPT then { s with preemptDps := s.preemptDps ++ [new.toNat] }
  else if a = a_JRNL_RDPTR || (regBlock a = 21 && decide (0x100 ≤ off)) then (s.writeFields w fs []).1
  else if s.refusedWrite a (s.offered w fs) || (a == a_IMPO_CMD && Source.barred w.src) then
    (if s.violates w fs then (s.bumpViol a).journal1 w.src a Code.LOCK_VIOLATION old new else refuse Code.BAD_REG_ACCESS)
  else if regBlock a = 13 && decide (0x48 ≤ off) && decide (off < 0x60) then (s.setPut w).journal1 w.src a 0 old new
  else if regBlock a = 13 && off = 0x60 then s.tidePut w.src (regDie a) new
  else
    let q := s.acceptWrite w fs
    q.1.journal1 w.src a q.2 old new

/-- One write of the tick (R389): one of a bad width or outside register space, one to a die that does not answer (R543), a stale order or
one that loses by node id (R391), and one to a reserved offset (R14) take no effect. -/
def State.applyWrite (s : State) (w : RegCmd) : State :=
  let a := w.addr
  let refuse (code : Nat) : State := s.journal1 w.src a code (s.readReg a) w.value
  if !(w.low || w.high) || !inRegs a then refuse Code.BAD_REG_ACCESS
  else if !s.dieUp (regDie a) then refuse Code.DIE_UNAVAILABLE
  else if a = a_IMPO_CMD && !Source.barred w.src && f_IMPO_CMD_CMD.get (w.value &&& w.mask) = 1 then s.impoLoad w.src (w.value &&& w.mask).toNat
  else
    let o := s.orderCode w.src s.orderSources
    if o ≠ 0 then refuse o
    else match regAt a with
      | none => refuse Code.BAD_REG_ACCESS
      | some (d, k) => (s.orderTaken w.src).reachWrite w (d.wordFields k)

/-! ### The tick -/

/-- A write put among others by the rank of its interface, behind those of the same rank (R389). -/
def rankIn (w : RegCmd) : List RegCmd → List RegCmd
  | [] => [w]
  | x :: r => if Source.rank w.src < Source.rank x.src then w :: x :: r else x :: rankIn w r

/-- The writes of a tick in their order. -/
def ranked (l : List RegCmd) : List RegCmd := l.foldl (fun acc w => rankIn w acc) []

/-- The writes that the tick has gathered, applied (R389), and behind them the changes of completion counters that waited for them
(R344). One whose way is not up waits for a later tick (R239). -/
def State.applyGathered (s : State) : State :=
  let go := s.gathered.filter fun (w : RegCmd) => s.wayOpen w.src w.addr
  let t := (ranked go).foldl (fun u w => (u.regFlits w.src w.addr 8 0).applyWrite w) s
  { t with
    gathered := (s.gathered.filter fun (w : RegCmd) => !s.wayOpen w.src w.addr) ++ t.gathered.drop s.gathered.length
    applied := [], ordersNow := [] }.ccLate

/-- How many periods of a clock of `num`/`den` GHz end in a tide unit. -/
def State.periods (s : State) (die num den : Nat) : Nat := (s.tideOf die + 1) * num / den - s.tideOf die * num / den

/-- A core's counters over `n` cycles: CYCLE and STALL_TOKEN (R125), and the press's stall counters (R68). -/
def State.countCore (s : State) (n c : Nat) : State :=
  let k := s.core c
  let s1 := s.setCore c { k with
    cycle := k.cycle + BitVec.ofNat 64 n
    stallToken := if k.run = .tkwait then k.stallToken + BitVec.ofNat 64 n else k.stallToken }
  match (s.press c).pending with
  | none => s1
  | some o => match s.pressUnmet c o with
    | some i => s1.addWrap (a_PRESS_STALL_BUSY (coreDie c) (coreNo c) + 8 * i) f_PRESS_STALL_BUSY_COUNT n
    | none => s1

/-- An engine's busy cycles over `n` of the galley clock (R167). -/
def State.countEngine (s : State) (n die e : Nat) : State :=
  if (Tbl.get EngState.init s.engines (die * 16 + e)).run.isSome then s.addWrap (a_ENG_BUSY die e) f_ENG_BUSY_COUNT n else s

/-- The counters of a compute die over a tide unit, in cycles of its core clock by PWR_STATUS.CLOCK (R146, R167). -/
def State.countDie (s : State) (die : Nat) : State :=
  if !s.dieUp die || s.stopped die then s
  else
    let n := s.periods die (s.fld (a_PWR_STATUS die) f_PWR_STATUS_CLOCK) 40
    let s1 := (upFrom (13 * die) 13).foldl (fun t c => t.countCore n c) s
    (List.range 9).foldl (fun t e => t.countEngine n die e) s1

/-- A die's tide over one nanosecond of the reference: 1 + RATE, and the correction that it spreads, which never stops or reverses it (R374,
R376). Die 12's begins once its PLLs have locked. -/
def State.tideOn (s : State) (die : Nat) : State :=
  if !s.dieUp die || s.clockLost.contains die || s.refLost || (die == 12 && !s.pllUp) then s
  else
    let f := s.followOf die
    let slew := if s.tideOf die < f.until_ then f.slew else 0
    s.moveCount die (max 1 (2 ^ 40 + signed 32 (s.fld (a_TIDE_OFFSET die) f_TIDE_OFFSET_RATE) + slew))

/-- The time since t0 until the straps are read: one nanosecond more, and die 12's CLK_STATUS once its PLLs have locked (R528, R532). -/
def State.ageOn (s : State) : State :=
  if s.refLost || !(s.inStep 1 || s.inStep 2) then s
  else
    let s1 := { s with boot := { s.boot with age := s.boot.age + 1 } }
    if s1.pllUp && !s.pllUp then s1.setReg (a_CLK_STATUS 12) (BitVec.ofNat 64 (clocksUp 12)) else s1

/-- A power-off that is due (R454). -/
def State.offDue (s : State) : State :=
  match s.supply.offAt with
  | some t => if t ≤ s.tideOf 12 then s.powerOff else s
  | none => s

/-- The end of a tide tick (R389, R374). A module that is off has no clock. -/
def State.tick (s : State) : State :=
  if s.off then s
  else
    let s1 := s.applyGathered.retryReads.carryAsks.retryDuties.markPreempts
    let s2 := (List.range 12).foldl (fun t d => t.countDie d) s1
    ((List.range 16).foldl (fun t d => t.tideOn d) s2.ageOn).stepOn.uartOn.offDue

end Sys2Proof.Machine
end

