-- ==== Sys2Proof/WellFormed.lean ====
section
/-! DEFINITION. Which commands name units that the module has: the ranges of their operands. Operands of other kinds have their range in
their type. -/

namespace Sys2Proof

/-- Whether a number names a module core id (R86): 156 cores on twelve dies. -/
def isCore (n : Nat) : Bool := decide (n < 156)

/-- Whether a number names a core's place on its die. -/
def isPlace (n : Nat) : Bool := decide (n < 13)

/-- Whether a number names a die id. -/
def isDie (n : Nat) : Bool := decide (n < 16)

/-- Whether a number names a compute die. -/
def isCompute (n : Nat) : Bool := decide (n < 12)

/-- Whether a number names a base die. -/
def isBase (n : Nat) : Bool := decide (12 ≤ n) && decide (n < 16)

/-- Whether a number names an HBM stack. -/
def isStack (n : Nat) : Bool := decide (n < 12)

/-- Whether a number names a channel of a stack. -/
def isChan (n : Nat) : Bool := decide (n < 32)

/-- Whether a number names a pseudo-channel of a stack. -/
def isPchan (n : Nat) : Bool := decide (n < 64)

/-- Whether a number names a lane engine of the module. -/
def isLane (n : Nat) : Bool := decide (n < 384)

/-- Whether a number names an optical port. -/
def isPort (n : Nat) : Bool := decide (n < 32)

/-- Whether a number names an Ethernet port. -/
def isEth (n : Nat) : Bool := decide (n < 2)

/-- Whether a number names a case engine of a die. -/
def isEngine (n : Nat) : Bool := decide (n < 9)

/-- Whether a number names a Quay link of a die. -/
def isLinkNo (n : Nat) : Bool := decide (n < 8)

/-- Whether a number names a crossing group (R471). -/
def isGroup (n : Nat) : Bool := decide (n < 10)

/-- Whether a number names a queue pair. -/
def isQp (n : Nat) : Bool := decide (n < 64)

/-- Whether a number names a wavelength slot. -/
def isWave (n : Nat) : Bool := decide (n < 17)

/-- Whether a number names a laser bank, 4 the spares. -/
def isBank (n : Nat) : Bool := decide (n < 5)

/-- Whether a number names a bank of a galley (R134). -/
def isGalleyBank (n : Nat) : Bool := decide (n < 32)

/-- Whether a number names a bank of a stack, or, from 4,096 on, all the banks of a pseudo-channel (R257, R264). -/
def isHbmBank (n : Nat) : Bool := decide (n < 4160)

/-- Whether a number names a partition. -/
def isPart (n : Nat) : Bool := decide (n < 24)

/-- Whether a number names a mask of partitions. -/
def isParts (n : Nat) : Bool := decide (n < 2 ^ 24)

/-- Whether a number names an entry of the quarantine table. -/
def isQuarEntry (n : Nat) : Bool := decide (n < 64)

/-- Whether a number names an injection of a die. -/
def isInjection (n : Nat) : Bool := decide (n < 16)

/-- Whether a number names a local address (R11). -/
def isLocal (n : Nat) : Bool := decide (n < 2 ^ 48)

/-- Whether a number names a flash byte address. -/
def isFlash (n : Nat) : Bool := decide (n < 2 ^ 32)

/-- Whether a number names a packet sequence number. -/
def isPsn (n : Nat) : Bool := decide (n < 2 ^ 24)

/-- Whether a number names a PLL by its bit of CLK_STATUS. -/
def isPll (n : Nat) : Bool := decide (n < 4)

/-- Whether an event message names dies of the package, or a broadcast, and fits its fields (R236). -/
def isMsg (m : EvtMsg) : Bool := isDie m.src && isDie m.dst && decide (m.core < 16) && decide (m.ekind < 256) && decide (m.body < 2 ^ 352)
  && decide (m.part < 32)

/-- Whether a member of a job has a core, a counter, a place among 2 to 64 replicas, and tables in memory (R225, R440). -/
def isMember (m : Member) : Bool :=
  isCore m.core && decide (m.ctr < 32) && decide (2 ≤ m.replicas) && decide (m.replicas ≤ 64) && decide (m.ridx < m.replicas)
    && isLocal m.table && isLocal m.record && (m.tensors.all fun x => isLocal x.addr && decide (x.esz < 4))

/-- Whether bytes are one codeword: 136 of them (R290). -/
def isCodeword (l : List Byte) : Bool := l.length == 136

/-- Whether an interface is one of the module's: a manager by node and epoch, or a pilot's by its core. -/
def isSource : Source → Bool
  | .manager n e => decide (n < 4096) && decide (e < 2 ^ 32)
  | .pilot c => isCore c
  | _ => true

/-- Whether a command is well formed. -/
def Instr.wf : Instr → Bool
  | .registerWrite src addr _ _ => isSource src && isLocal addr
  | .registerHalfRead src addr _ => isSource src && isLocal addr
  | .add c _ _ _ => isCore c
  | .sub c _ _ _ => isCore c
  | .and c _ _ _ => isCore c
  | .or c _ _ _ => isCore c
  | .xor c _ _ _ => isCore c
  | .andn c _ _ _ => isCore c
  | .shl c _ _ _ => isCore c
  | .shr c _ _ _ => isCore c
  | .sra c _ _ _ => isCore c
  | .ror c _ _ _ => isCore c
  | .slt c _ _ _ => isCore c
  | .sltu c _ _ _ => isCore c
  | .min c _ _ _ => isCore c
  | .max c _ _ _ => isCore c
  | .minu c _ _ _ => isCore c
  | .maxu c _ _ _ => isCore c
  | .clz c _ _ => isCore c
  | .ctz c _ _ => isCore c
  | .popc c _ _ => isCore c
  | .sel c _ _ _ _ => isCore c
  | .addw c _ _ _ => isCore c
  | .subw c _ _ _ => isCore c
  | .mul c _ _ _ => isCore c
  | .mulh c _ _ _ => isCore c
  | .mulhu c _ _ _ => isCore c
  | .madd c _ _ _ _ => isCore c
  | .div c _ _ _ => isCore c
  | .divu c _ _ _ => isCore c
  | .rem c _ _ _ => isCore c
  | .remu c _ _ _ => isCore c
  | .addi c _ _ _ => isCore c
  | .andi c _ _ _ => isCore c
  | .ori c _ _ _ => isCore c
  | .xori c _ _ _ => isCore c
  | .slti c _ _ _ => isCore c
  | .sltiu c _ _ _ => isCore c
  | .shi c _ _ _ _ => isCore c
  | .movz c _ _ _ => isCore c
  | .movk c _ _ _ => isCore c
  | .movn c _ _ _ => isCore c
  | .lb c _ _ _ => isCore c
  | .lh c _ _ _ => isCore c
  | .lw c _ _ _ => isCore c
  | .ld c _ _ _ => isCore c
  | .lbu c _ _ _ => isCore c
  | .lhu c _ _ _ => isCore c
  | .lwu c _ _ _ => isCore c
  | .sb c _ _ _ => isCore c
  | .sh c _ _ _ => isCore c
  | .sw c _ _ _ => isCore c
  | .sd c _ _ _ => isCore c
  | .beq c _ _ _ => isCore c
  | .bne c _ _ _ => isCore c
  | .blt c _ _ _ => isCore c
  | .bge c _ _ _ => isCore c
  | .bltu c _ _ _ => isCore c
  | .bgeu c _ _ _ => isCore c
  | .j c _ => isCore c
  | .jl c _ => isCore c
  | .csrr c _ _ => isCore c
  | .csrw c _ _ _ => isCore c
  | .csrs c _ _ _ => isCore c
  | .csrc c _ _ _ => isCore c
  | .wumark c _ _ _ => isCore c
  | .jr c _ => isCore c
  | .jlr c _ _ => isCore c
  | .fence c _ _ => isCore c
  | .waitev c _ => isCore c
  | .trap c _ => isCore c
  | .eret c => isCore c
  | .illegalInstruction c _ => isCore c
  | .eventTrap c => isCore c
  | .timerEvent c => isCore c
  | .instructionFetch c _ => isCore c
  | .pilotLoadReturn c => isCore c
  | .storeVisible c => isCore c
  | .vadd c _ _ _ _ _ _ => isCore c
  | .vsub c _ _ _ _ _ _ => isCore c
  | .vmul c _ _ _ _ _ _ => isCore c
  | .vfma c _ _ _ _ _ _ => isCore c
  | .vfnma c _ _ _ _ _ _ => isCore c
  | .vdiv c _ _ _ _ _ => isCore c
  | .vsqrt c _ _ _ _ => isCore c
  | .vmin c _ _ _ _ _ => isCore c
  | .vmax c _ _ _ _ _ => isCore c
  | .vabs c _ _ _ _ => isCore c
  | .vneg c _ _ _ _ _ => isCore c
  | .vrcp c _ _ _ _ => isCore c
  | .vrsqrt c _ _ _ _ => isCore c
  | .vexp c _ _ _ _ => isCore c
  | .vlog c _ _ _ _ => isCore c
  | .vsig c _ _ _ _ => isCore c
  | .vtanh c _ _ _ _ => isCore c
  | .vand c _ _ _ _ _ => isCore c
  | .vor c _ _ _ _ _ => isCore c
  | .vxor c _ _ _ _ _ => isCore c
  | .vshl c _ _ _ _ _ => isCore c
  | .vshr c _ _ _ _ _ => isCore c
  | .vsra c _ _ _ _ _ => isCore c
  | .vld c _ _ _ => isCore c
  | .vst c _ _ _ => isCore c
  | .vldm c _ _ _ => isCore c
  | .vstm c _ _ _ => isCore c
  | .vmov c _ _ _ _ => isCore c
  | .vcvt c _ _ _ _ _ _ => isCore c
  | .vbcast c _ _ _ _ => isCore c
  | .vextr c _ _ _ _ => isCore c
  | .vins c _ _ _ _ => isCore c
  | .vperm c _ _ _ _ _ => isCore c
  | .vsel c _ _ _ _ _ => isCore c
  | .viota c _ _ _ => isCore c
  | .vrmax c _ _ _ _ => isCore c
  | .vrmin c _ _ _ _ => isCore c
  | .vsclr c _ _ => isCore c
  | .vsadd c _ _ _ _ _ => isCore c
  | .vsdot c _ _ _ _ _ _ => isCore c
  | .vsacc c _ _ _ => isCore c
  | .vsrd c _ _ _ _ => isCore c
  | .vsraw c _ _ _ => isCore c
  | .vswraw c _ _ _ => isCore c
  | .vcmpeq c _ _ _ _ _ => isCore c
  | .vcmplt c _ _ _ _ _ => isCore c
  | .vcmple c _ _ _ _ _ => isCore c
  | .vcmpun c _ _ _ _ _ => isCore c
  | .mand c _ _ _ => isCore c
  | .mor c _ _ _ => isCore c
  | .mxor c _ _ _ => isCore c
  | .mnot c _ _ => isCore c
  | .mpopc c _ _ _ => isCore c
  | .forme c _ _ _ => isCore c
  | .formeTileStaged c => isCore c
  | .formeRowSums c => isCore c
  | .press c _ _ _ _ => isCore c
  | .pressIssue c => isCore c
  | .pressComplete c _ => isCore c
  | .checksumComparison c => isCore c
  | .stickclr c _ _ => isCore c
  | .stickclrExecute c => isCore c
  | .stickrd c _ _ _ => isCore c
  | .drainHold c => isCore c
  | .drainRelease c _ => isCore c
  | .pressHalt src c => isSource src && isCore c
  | .pressResume src c => isSource src && isCore c
  | .enq c _ _ => isCore c
  | .tkwait c _ => isCore c
  | .tktry c _ _ => isCore c
  | .tkread c _ _ => isCore c
  | .tkraise c _ => isCore c
  | .tkset c _ _ => isCore c
  | .pilotReset src c => isSource src && isCore c
  | .pilotRun src c => isSource src && isCore c
  | .pilotHalt src c => isSource src && isCore c
  | .pilotMailboxWrite src c _ => isSource src && isCore c
  | .standIn core => isCore core
  | .galleyBankServe die bank _ => isCompute die && isGalleyBank bank
  | .galleyScrub die => isCompute die
  | .transpose c => isCore c
  | .gather c => isCore c
  | .scatter c => isCore c
  | .scatterAdd c => isCore c
  | .engineExp c => isCore c
  | .engineLog c => isCore c
  | .engineRcp c => isCore c
  | .engineRsqrt c => isCore c
  | .engineSig c => isCore c
  | .engineTanh c => isCore c
  | .sort c => isCore c
  | .topk c => isCore c
  | .reducerSum c => isCore c
  | .reducerSumsq c => isCore c
  | .reducerDot c => isCore c
  | .reducerMax c => isCore c
  | .reducerMin c => isCore c
  | .reducerAmax c => isCore c
  | .stickadd c => isCore c
  | .tallysum c => isCore c
  | .convert c => isCore c
  | .scaleAmax c => isCore c
  | .record c => isCore c
  | .select c => isCore c
  | .hsave c => isCore c
  | .hload c => isCore c
  | .hinit c => isCore c
  | .rngRaw c => isCore c
  | .uniform c => isCore c
  | .bernoulli c => isCore c
  | .intrange c => isCore c
  | .compress c => isCore c
  | .decompress c => isCore c
  | .tally c => isCore c
  | .microcodeUpdate die engine => isCompute die && isEngine engine
  | .berthGet c => isCore c
  | .berthPut c => isCore c
  | .berthAudit die => isCompute die
  | .proofCompare die _ _ => isCompute die
  | .vectorProofCompare die _ _ _ => isCompute die
  | .chkRecord die => isDie die
  | .chkLogCollect die => isDie die
  | .chkConditionSample die _ => isDie die
  | .quarantineRangeSample die => isDie die
  | .quarantineClearEntry src entry => isSource src && isQuarEntry entry
  | .quarantineClearAll src => isSource src
  | .quayMemRequest die => isDie die
  | .budget msg => isMsg msg
  | .tideNote msg => isMsg msg
  | .eventPost msg => isMsg msg
  | .recordReady msg => isMsg msg
  | .halt msg => isMsg msg
  | .linkNote msg => isMsg msg
  | .flitCrcReplay die link _ _ => isDie die && isLinkNo link
  | .linkRetrainDone die link _ => isDie die && isLinkNo link
  | .quayLinkDisable src die link => isSource src && isDie die && isLinkNo link
  | .quayLinkRetrain src die link => isSource src && isDie die && isLinkNo link
  | .pllLossOfLock die pll => isDie die && isPll pll
  | .referenceLoss => true
  | .homeWrite die _ => isBase die
  | .homeWriteApply die => isDie die
  | .invalidation die => isDie die
  | .recallLine die _ => isDie die
  | .homeRead die _ => isBase die
  | .hbmSchedulerIssue stack pchan => isStack stack && isPchan pchan
  | .hbmReadDecode line _ _ => isLocal line
  | .hbmRefresh stack bank => isStack stack && isHbmBank bank
  | .hbmTempRead stack _ => isStack stack
  | .hbmRowScrub stack _ => isStack stack
  | .hbmPatrolScrub stack _ => isStack stack
  | .hbmLogCollect stack => isStack stack
  | .adderRlAdd die _ _ => isDie die
  | .atomicAdd die _ => isDie die
  | .atomicMax die _ => isDie die
  | .atomicMin die _ => isDie die
  | .atomicMaxu die _ => isDie die
  | .atomicMinu die _ => isDie die
  | .atomicAnd die _ => isDie die
  | .atomicOr die _ => isDie die
  | .atomicXor die _ => isDie die
  | .atomicSwap die _ => isDie die
  | .atomicCas die _ => isDie die
  | .atomicFadd32 die _ => isDie die
  | .hbmChannelRetrain stack chan _ => isStack stack && isChan chan
  | .hbmRetrainCmd src stack chan => isSource src && isStack stack && isChan chan
  | .hbmOffline src stack chan => isSource src && isStack stack && isChan chan
  | .hbmOnline src stack chan => isSource src && isStack stack && isChan chan
  | .hbmRetrainDone stack chan _ => isStack stack && isChan chan
  | .hbmHeldTimeout die => isBase die
  | .hbmMarginStart src stack _ chan _ _ => isSource src && isStack stack && isChan chan
  | .hbmMarginDone stack _ => isStack stack
  | .laserMonitorSample die bank wave _ _ _ => isBase die && isBank bank && isWave wave
  | .laserTakeover die wave => isBase die && isWave wave
  | .laserRetire src die bank wave => isSource src && isBase die && isBank bank && isWave wave
  | .ringLockUpdate port slot _ _ _ => isPort port && isWave slot
  | .darkMaskApply port => isPort port
  | .laneCodewordReceive lane raw => isLane lane && isCodeword raw
  | .controlCodewordReceive port _ raw => isPort port && isCodeword raw
  | .portTrainStep port _ _ _ => isPort port
  | .phxPortRetrain src port => isSource src && isPort port
  | .portDisable src port => isSource src && isPort port
  | .calibrationStepBoundary port _ => isPort port
  | .laneMoveReturn lane => isLane lane
  | .laneFault lane _ _ => isLane lane
  | .laneRecoveryDone lane => isLane lane
  | .laneRecoveryTimeout lane => isLane lane
  | .laneOffline src lane => isSource src && isLane lane
  | .laneOnline src lane => isSource src && isLane lane
  | .laneRetrain src lane => isSource src && isLane lane
  | .opticalLowPower port slot _ => isPort port && isWave slot
  | .routerSlot base _ => isBase base
  | .ejectionHandoff base => isBase base
  | .combiningRelease base => isBase base
  | .combinedResponseFanout die => isBase die
  | .linkEntryExpire port => isPort port
  | .replayHoldExpire base => isBase base
  | .cellRead die _ => isDie die
  | .cellReadRsp die => isDie die
  | .cellWrite die _ => isDie die
  | .cellTwrite die _ => isDie die
  | .cellTclose die _ => isDie die
  | .cellAtomicRsp die => isDie die
  | .cellAck die => isDie die
  | .cellSignal die _ => isDie die
  | .teardown => true
  | .abort => true
  | .lighterLoad c => isCore c
  | .lighterPut c => isCore c
  | .lighterStore c => isCore c
  | .lighterRladd32 c => isCore c
  | .lighterRladd64 c => isCore c
  | .lighterAtomic c => isCore c
  | .lighterSignal c => isCore c
  | .ccset c => isCore c
  | .xverifySet c => isCore c
  | .xverifyVerify c => isCore c
  | .stream c => isCore c
  | .streamReadEnd c _ => isCore c
  | .streamSend c => isCore c
  | .collectiveOpen die => isCompute die
  | .collectiveDeadline die => isCompute die
  | .collectiveFinal die => isCompute die
  | .tideProbeSend die => isDie die
  | .tideAlignProbe msg => isMsg msg
  | .tideAlignReply msg => isMsg msg
  | .tideAlignRate msg => isMsg msg
  | .rateApply die => isDie die
  | .syncReqSend => true
  | .syncReq _ => true
  | .syncRsp _ => true
  | .tideServoTimeout => true
  | .tidePutSubmit src die _ => isSource src && isDie die
  | .tideRingPoll c => isCore c
  | .schedMark die job => isDie die && (match job with
    | some x => isMember x.member
    | none => true)
  | .schedPrefetch die => isDie die
  | .prefetchEnqueue die => isCompute die
  | .schedPrewarm die => isDie die
  | .schedCommit die => isDie die
  | .schedLane die => isDie die
  | .schedCalhold die => isDie die
  | .calholdEnd port => isPort port
  | .schedHbmMaint die => isDie die
  | .hbmMaintEnd stack chan => isStack stack && isChan chan
  | .schedRehearse die => isDie die
  | .injectionEnd die index => isDie die && isInjection index
  | .schedApply die => isDie die
  | .impoLoad src => isSource src
  | .impoReadComplete => true
  | .impoApplyComplete => true
  | .impoStagingComplete => true
  | .impoRelease src parts => isSource src && isParts parts
  | .impoDiscard src parts => isSource src && isParts parts
  | .teardownRecord part => isPart part
  | .heartbeatSend => true
  | .heartbeat => true
  | .moduleLost _ parts => isParts parts
  | .mailboxPoll => true
  | .fiRetire src die core => isSource src && isCompute die && isPlace core
  | .restartDecide part _ _ => isPart part
  | .preemptDeadline => true
  | .checkpointManifest part _ _ addr _ => isPart part && isLocal addr
  | .supplySample _ _ _ _ => true
  | .brownoutTimeout => true
  | .budgetSend die _ => isDie die
  | .budgetAllocate die => isCompute die
  | .waveBoundary die _ => isCompute die
  | .tempSample die _ _ _ => isDie die
  | .crossingClockStop die group => isDie die && isGroup group
  | .crossingTimeout die group => isDie die && isGroup group
  | .crossingClockReturn die group => isDie die && isGroup group
  | .coldReset _ => true
  | .strapSample _ => true
  | .strapResample _ _ => true
  | .bootVerify _ _ _ => true
  | .mgmtFirmwareStart _ _ _ _ => true
  | .selfTest _ => true
  | .startupHbm _ => true
  | .harbourmasterClaim => true
  | .candidateClaim => true
  | .autostart => true
  | .functionLevelReset => true
  | .hostMemoryRead _ _ _ _ => true
  | .hostMemoryWrite _ _ _ => true
  | .hostWindowCompletion _ _ _ _ => true
  | .hostCompletionTimeout _ => true
  | .statusRecordWrite => true
  | .pcieRingHead _ => true
  | .pciePreempt _ _ _ => true
  | .ringEnable src _ => isSource src
  | .ethLinkDown port => isEth port
  | .ethSendPoll => true
  | .roceAck qp psn => isQp qp && isPsn psn
  | .roceWriteReceive qp psn _ _ _ _ _ _ => isQp qp && isPsn psn
  | .roceSendReceive qp psn _ _ _ => isQp qp && isPsn psn
  | .roceNak qp psn _ => isQp qp && isPsn psn
  | .roceRetryTimeout qp => isQp qp
  | .roceCnp qp => isQp qp
  | .roceRateRestore qp => isQp qp
  | .qpEnable src qp => isSource src && isQp qp
  | .ptpSync port _ _ _ => isEth port
  | .ptpSyncTimeout => true
  | .orderWrite _ => true
  | .orderRead _ => true
  | .orderTeardownReq _ parts => isParts parts
  | .orderMemread _ => true
  | .orderPreempt _ _ => true
  | .orderPause _ => true
  | .orderHandover _ => true
  | .mgmtReply => true
  | .mgmtRecord parts => isParts parts
  | .mgmtAck => true
  | .mgmtRetransmit => true
  | .mctpSetEndpointId _ _ => true
  | .mctpRegRead _ addr => isLocal addr
  | .mctpRegWrite _ addr _ => isLocal addr
  | .mctpHbmWrite _ addr _ => isLocal addr
  | .mctpHbmRead _ addr _ => isLocal addr
  | .mctpRecordGet _ _ => true
  | .mctpPreempt _ _ _ _ => true
  | .pldmGetTid _ => true
  | .pldmGetVersion _ _ => true
  | .pldmGetTypes _ => true
  | .pldmGetCommands _ _ => true
  | .pldmGetPdrRepositoryInfo _ => true
  | .pldmGetPdr _ _ => true
  | .pldmGetSensorReading _ _ => true
  | .pldmGetStateSensorReadings _ _ => true
  | .spdmGetVersion _ _ => true
  | .spdmGetCapabilities _ _ _ => true
  | .spdmNegotiateAlgorithms _ _ _ _ => true
  | .spdmGetDigests _ _ => true
  | .spdmGetCertificate _ _ _ _ _ => true
  | .spdmChallenge _ _ _ _ => true
  | .spdmGetMeasurements _ _ _ _ _ => true
  | .uartCharacterReceive _ _ => true
  | .uartBreak => true
  | .uartDivWrite src _ => isSource src
  | .jtagBypass => true
  | .jtagIdcode => true
  | .jtagSamplePreload _ _ => true
  | .jtagExtest _ => true
  | .jtagClamp _ => true
  | .jtagDebugAccess addr _ => isLocal addr
  | .jtagTapReset => true
  | .flashRead src addr => isSource src && isFlash addr
  | .flashProgram src addr => isSource src && isFlash addr
  | .flashErase src addr => isSource src && isFlash addr
  | .flashCommandDone _ => true
  | .mgmtSwap _ _ => true
  | .svnWrite src _ => isSource src
  | .fuseBurnDone => true
  | .caseEngineCompletion die engine => isCompute die && isEngine engine
  | .prewarmStart die => isCompute die
  | .heartbeatWindowEnd => true
  | .ethLinkUp port => isEth port
  | .pcieLinkReset _ _ _ _ _ => true
  | .arpRequest port _ _ _ => isEth port
  | .icmpEchoRequest port _ _ _ _ => isEth port
  | .priorityFlowControl port _ _ => isEth port
  | .errorLogRead addr => isLocal addr

end Sys2Proof
end

