-- ==== Sys2Proof/Safety.lean ====
section
/-! DEFINITION. What holds of every state of the module that its own rules can make, and the terms in which claims speak of
a command: that it goes on, and what of the state it may change. -/

namespace Sys2Proof.Machine
open Sys2Proof

/-! ### Canonical forms -/

/-- The canonical form of memory: addresses rise strictly, and no byte that reads as an unlisted one is listed. -/
def State.memWf (s : State) : Bool := Tbl.wf 0 s.mem

/-- The canonical form of the error marks. -/
def State.marksWf (s : State) : Bool := Tbl.wf 0 s.marks

/-- The canonical form of boot flash. -/
def State.flashWf (s : State) : Bool := Tbl.wf 0xFF s.flash

/-- Whether every command that waits names units that the module has. -/
def State.queueWf (s : State) : Bool := s.pending.all Instr.wf

/-! ### Pilots, at any moment -/

/-- What holds of every core: pc and TVEC are aligned to an instruction (R87, R97), no token is above 65,535 (R116), and private memory has
its canonical form. -/
def CoreState.inv (k : CoreState) : Prop :=
  k.pc.toNat % 4 = 0 ∧ k.tvec.toNat % 4 = 0 ∧ (∀ n, k.token n ≤ 65535) ∧ Tbl.wf 0 k.pmem = true

/-- What the pilots keep: memory in its canonical form, every command that waits well-formed, and every core's invariant. -/
def State.pilotInv (s : State) : Prop := s.memWf = true ∧ s.queueWf = true ∧ ∀ c, (s.core c).inv

/-- A command that is an instruction of a pilot, or one of a pilot's own events: a fetch, a load's return, a store becoming visible, an event
taken, the timer. -/
def Instr.ofPilot (i : Instr) : Prop :=
  pilotWord i ≠ 0 ∨ ∃ c, i = .storeVisible c ∨ i = .pilotLoadReturn c ∨ i = .eventTrap c ∨ i = .timerEvent c ∨ ∃ a, i = .instructionFetch c a

/-! ### Outcomes -/

/-- The outcome is a next state of which `P` holds. -/
def Goes (o : Host.Outcome State Fault Refusal) (P : State → Prop) : Prop := ∃ t, o = .next t ∧ P t

/-- A safe outcome: the machine goes on. -/
def Safe (o : Host.Outcome State Fault Refusal) : Prop := Goes o fun _ => True

/-! ### Pilots -/

/-- A core that issues its next instruction at once: it runs, its die has clocks, no event may be taken before the instruction
(R99), no load is outstanding (R94), and the store buffer has room (R554). -/
def State.ready (s : State) (c : Nat) : Bool :=
  decide ((s.core c).run = .running) && !(s.core c).halting && !s.stopped (coreDie c) && !(s.core c).takeable
    && (s.core c).loads.isEmpty && decide ((s.core c).stores.length < 8)

/-- `t` is `s` but for core `c`: every other core, every register, all of memory and every other field are as they were. -/
def State.onlyCore (s t : State) (c : Nat) : Prop :=
  t = { s with cores := t.cores } ∧ ∀ d, d ≠ c → t.core d = s.core d

/-- The words of a core that has retired one instruction and now stands at `pc`, with `f` fetched ahead and `m` the classes of its last
instructions. -/
def CoreState.moved (k : CoreState) (pc : Word) (f : List (Nat × Nat)) (m : List Nat) : CoreState :=
  { k with pc := pc, instret := k.instret + 1, fetched := f, waitTk := none, mix := m }

/-- One instruction more, of some class, is among the last 4,096 of core `c` (R216). -/
def State.oneMore (s t : State) (c : Nat) : Prop := ∃ cls, (t.core c).mix = (cls :: (s.core c).mix).take 4096

/-- The instruction retires in core `c`, changes nothing outside it, and leaves it with the words `k`, pc 4 further on. -/
def Retires (s : State) (c : Nat) (k : CoreState) (o : Host.Outcome State Fault Refusal) : Prop :=
  Goes o fun t => s.onlyCore t c ∧ s.oneMore t c ∧
    t.core c = k.moved ((s.core c).pc + 4) (s.core c).fetched.tail (t.core c).mix

/-- As `Retires`, where the general registers of `k` are given by what each reads: `rd` the value `v` (g0 still zero, R88), every other
one its old value. -/
def WritesReg (s : State) (c : Nat) (rd : Fin 32) (v : Word) (o : Host.Outcome State Fault Refusal) : Prop :=
  Goes o fun t => s.onlyCore t c ∧ s.oneMore t c ∧
    t.core c = { (s.core c).moved ((s.core c).pc + 4) (s.core c).fetched.tail (t.core c).mix with g := (t.core c).g } ∧
    ∀ r, (t.core c).rg r = if r = rd ∧ r ≠ 0 then v else (s.core c).rg r

/-- A taken branch or a jump: as `WritesReg`, with pc at a target and nothing fetched ahead (R93). -/
def Jumps (s : State) (c : Nat) (pc : Word) (rd : Fin 32) (v : Word) (o : Host.Outcome State Fault Refusal) : Prop :=
  Goes o fun t => s.onlyCore t c ∧ s.oneMore t c ∧
    t.core c = { (s.core c).moved pc [] (t.core c).mix with g := (t.core c).g } ∧
    ∀ r, (t.core c).rg r = if r = rd ∧ r ≠ 0 then v else (s.core c).rg r

/-- TSTATUS as a trap leaves it (R97): INTRAP 1, EVEN 0, PMODE the mode it was taken in, PEVEN what EVEN was. -/
def CoreState.trapped (k : CoreState) : Word :=
  BitVec.ofNat 64 (8 + (if k.prog then 4 else 0) + (if k.tstatus.getLsbD 0 then 16 else 0))

/-- The trap is taken (R96, R97), INTRAP being 0: mode, status, cause, value, saved pc and pc are as R97 says, PILOT_LASTTRAP shows it, what
was fetched ahead is discarded, as is a load at pc that has not retired, and nothing else changes. -/
def Traps (s : State) (c code : Nat) (tval epc : Word) (o : Host.Outcome State Fault Refusal) : Prop :=
  (s.core c).tstatus.getLsbD 3 = false → Goes o fun t => s.onlyCore t c ∧
    t.core c = { s.core c with
      prog := false
      tstatus := (s.core c).trapped
      tcause := BitVec.ofNat 64 code
      tval := tval
      tepc := epc
      pc := (s.core c).tvec
      fetched := []
      loads := (s.core c).loads.filter fun e => e.data.isSome
      waitTk := none
      lasttrap := BitVec.ofNat 64 (code * 2 ^ 48 + epc.toNat % 2 ^ 48) }

/-! ### Vector units -/

/-- A core that issues its next vector instruction at once: it is ready and its vector unit is not stopped (R546). -/
def State.vecReady (s : State) (c : Nat) : Bool := s.ready c && !s.vecStopped c

/-- `t` is `s` but for core `c` as a vector instruction leaves it: every other core, every press, all of memory and every register are as
they were, but that VEC_ISSUED has counted the instruction and that it may have been sampled for proof (R206, R207). -/
def State.vecOnly (s t : State) (c : Nat) : Prop :=
  t = { s with cores := t.cores, regs := t.regs, chk := t.chk } ∧ (∀ d, d ≠ c → t.core d = s.core d) ∧
    t.fld (a_VEC_ISSUED (coreDie c) (coreNo c)) f_VEC_ISSUED_COUNT =
      (s.fld (a_VEC_ISSUED (coreDie c) (coreNo c)) f_VEC_ISSUED_COUNT + 1) % 2 ^ f_VEC_ISSUED_COUNT.width ∧
    ∀ a, a ≠ a_VEC_ISSUED (coreDie c) (coreNo c) → a ≠ a_CHK_PROOF_SKIP (coreDie c) → t.reg a = s.reg a

/-- The words of core `c` once an instruction has retired there, pc 4 further on: those of `s` but for the classes counted in `t`. -/
def State.after (s t : State) (c : Nat) : CoreState := (s.core c).moved ((s.core c).pc + 4) (s.core c).fetched.tail (t.core c).mix

/-- The vector instruction retires and leaves core `c` with the words `k` (moved on). -/
def VecRetires (s : State) (c : Nat) (k : CoreState) (o : Host.Outcome State Fault Refusal) : Prop :=
  Goes o fun t => s.vecOnly t c ∧ s.oneMore t c ∧
    t.core c = k.moved ((s.core c).pc + 4) (s.core c).fetched.tail (t.core c).mix

/-- The vector instruction writes general register `rd` and nothing else of its core, with flags `fl` collected. -/
def VecWritesReg (s : State) (c : Nat) (rd : Fin 32) (v : Word) (fl : Nat) (o : Host.Outcome State Fault Refusal) : Prop :=
  Goes o fun t => s.vecOnly t c ∧ s.oneMore t c ∧
    t.core c = { s.after t c with g := (t.core c).g, vflags := (s.core c).vflags ||| BitVec.ofNat 64 fl } ∧
    ∀ r, (t.core c).rg r = if r = rd ∧ r ≠ 0 then v else (s.core c).rg r

/-- The instruction writes vector register `vd` lane by lane, `n` lanes of `w` bits: a lane that the mask names takes the result `f` gives
it, another keeps its value (R103); the flags of the named lanes are collected (R108), and nothing else changes. -/
def LanesBecome (s : State) (c w n : Nat) (mask : Fin 8) (vd : Fin 32) (f : Nat → Res) (o : Host.Outcome State Fault Refusal) : Prop :=
  Goes o fun t => s.vecOnly t c ∧ s.oneMore t c ∧
    t.core c = { s.after t c with
      v := (t.core c).v
      vflags := (s.core c).vflags ||| BitVec.ofNat 64
        (((List.range n).filter fun i => (s.core c).active mask i).foldl (fun a i => a ||| (f i).fl) 0) } ∧
    (∀ r, r ≠ vd → (t.core c).vr r = (s.core c).vr r) ∧
    ∀ i, i < n → laneAt w i ((t.core c).vr vd).toNat =
      if (s.core c).active mask i then (f i).bits % 2 ^ w else laneAt w i ((s.core c).vr vd).toNat

/-! ### Presses -/

/-- `t` is `s` but for core `c` and its press. -/
def State.onlyPress (s t : State) (c : Nat) : Prop :=
  t = { s with cores := t.cores, presses := t.presses } ∧ (∀ d, d ≠ c → t.core d = s.core d) ∧ ∀ d, d ≠ c → t.press d = s.press d

/-- An instruction that the press takes: it retires, leaves the press with `p`, and changes nothing else. -/
def PressTakes (s : State) (c : Nat) (p : PressState) (o : Host.Outcome State Fault Refusal) : Prop :=
  Goes o fun t => s.onlyPress t c ∧ s.oneMore t c ∧ t.core c = s.after t c ∧ t.press c = p

/-! ### Commands of an interface -/

/-- The command row of interface `src`, with the identity `id`, takes effect when nothing stands against it (R13, R14, R389, R391, R543): alone in
its tick and with its way up, the next state satisfies `P`, and the journal has one entry more, with the register, the interface, the code 0 and
what the register read (R505). Otherwise it is gathered with the other register writes of its tick, and nothing else happens yet (R389). Manager
orders of an epoch are those of another statement. -/
def Accepts (s : State) (src : Source) (id : CmdId) (o : Host.Outcome State Fault Refusal) (P : State → Prop) : Prop :=
  (s.alone = true → s.wayOpen src id.addr = true → (Source.order src).2 = 0 → s.commandCode src id = 0 → Goes o fun t => P t ∧
    t.jseq = s.jseq + 1 ∧ ∃ e, Tbl.find t.journal (s.jseq % 4096) = some e ∧ e.addr = id.addr ∧ e.code = 0 ∧ e.iface = Source.code src ∧
      e.jseq = s.jseq + 1 ∧ e.old = s.readReg id.addr) ∧
  (s.alone = false ∨ s.wayOpen src id.addr = false → s.dieUp (regDie id.addr) = true ∨ src ≠ .pcie →
    o = .next (s.gather ⟨src, id.addr, true, true, s.commandWord id⟩))

/-! ### What a command leaves alone -/

/-- Every register but those of `l` holds what it held. -/
def State.onlyRegs (s t : State) (l : List Nat) : Prop := ∀ x, x ∉ l → t.reg x = s.reg x

/-- Memory with its error marks, the cores and the presses are as they were. -/
def State.computeKept (s t : State) : Prop := t.mem = s.mem ∧ t.marks = s.marks ∧ t.cores = s.cores ∧ t.presses = s.presses

/-- A flit counter of the Quay link (R256): eight links of a die, six channels of a link. -/
def isFlits (a : Nat) : Prop := ∃ d l v, l < 8 ∧ v < 6 ∧ a = a_QUAY_FLITS d l v

/-- As `Accepts`, where no register changes but those of `own`, the two in which the journal and the ring of status records show themselves, and the
Quay link's flit counters, over which the access goes (R256). -/
def AcceptsOnly (s : State) (src : Source) (id : CmdId) (own : List Nat) (o : Host.Outcome State Fault Refusal) (P : State → Prop) : Prop :=
  Accepts s src id o fun t => P t ∧ ∀ x, x ∉ a_JRNL_STATUS :: a_PCIE_RING_TAIL :: own → ¬ isFlits x → t.reg x = s.reg x

/-- The only effect is one thing sent out of the module. -/
def Sends (s : State) (k : OutKind) (dest : Nat) (data : List Nat) (o : Host.Outcome State Fault Refusal) : Prop :=
  o = .next { s with outbox := s.outbox ++ [⟨k, dest, data⟩] }

/-- One status record more, the newest of those kept: with `code`, about `die` (16 for the module) and partition `part`, its arguments `args`
(R482, R484). -/
def Records (s t : State) (code die part : Nat) (args : List Nat) : Prop :=
  t.recs.seq = s.recs.seq + 1 ∧ ∃ r, t.recs.last.getLast? = some r ∧ r.seq = s.recs.seq + 1 ∧ r.code = code ∧ r.die = die ∧
    r.part = part ∧ r.body = argBody args

/-! ### Case engines and lighters -/

/-- The OPs of the case engines (R139, R144): engine, OP and the row that starts it at core c. -/
def engineRows (c : Nat) : List (Nat × Nat × Instr) :=
  [(0, 1, .transpose c), (1, 1, .gather c), (1, 2, .scatter c), (1, 3, .scatterAdd c), (2, 1, .engineExp c), (2, 2, .engineLog c),
    (2, 3, .engineRcp c), (2, 4, .engineRsqrt c), (2, 5, .engineSig c), (2, 6, .engineTanh c), (3, 1, .sort c), (3, 2, .topk c),
    (4, 1, .reducerSum c), (4, 2, .reducerSumsq c), (4, 3, .reducerDot c), (4, 4, .reducerMax c), (4, 5, .reducerMin c)]
  ++ [(4, 6, .reducerAmax c), (4, 7, .stickadd c), (4, 8, .tallysum c), (5, 1, .convert c), (5, 2, .scaleAmax c), (5, 3, .record c),
    (5, 4, .select c), (5, 5, .hsave c), (5, 6, .hload c), (5, 7, .hinit c), (6, 1, .rngRaw c), (6, 2, .uniform c),
    (6, 3, .bernoulli c), (6, 4, .intrange c), (7, 1, .compress c), (7, 2, .decompress c), (8, 1, .tally c)]

/-- No head that may start by R120 is held back at the lighter of core c, by a channel, a copy or an injection. -/
def State.ltrFree (s : State) (c : Nat) : Prop := ∀ q, q < 4 → s.headMay c q = true → s.collDelay c q = none ∧ s.localOpen c (s.headOf c q) = true

/-- The head `d` of queue `q` can start at the lighter of core c, which runs and has a request id `rid` free (R120, R337), and no head of the
lighter is held back. -/
def State.ltrAt (s : State) (c q rid : Nat) (d : Desc) : Prop :=
  c < 156 ∧ (s.core c).run ≠ .retired ∧ s.stopped (coreDie c) = false ∧ s.freeRid c = some rid ∧
    ((s.core c).queue q).head? = some d ∧ s.ltrFree c

/-- The head `d` of queue `q` is the descriptor that the lighter of core c starts next (R120, R337): its tokens are there and its order is met. -/
def State.ltrHead (s : State) (c q rid : Nat) (d : Desc) : Prop := s.ltrPick c = some q ∧ s.ltrAt c q rid d

/-- The words of a core once the head `d` of queue `q` has been taken with its tokens (R120). -/
def CoreState.headTaken (k : CoreState) (q d : Nat) : CoreState := ((k.take (hdWait0 d)).take (hdWait1 d)).popQueue q

/-- No case engine of a die runs a descriptor. -/
def State.enginesIdle (s : State) (die : Nat) : Prop := ∀ e, e < 9 → (s.engine die e).run = none

/-! ### Quay link and memory -/

/-- Every register but the Quay link's flit counters (R256) holds what it held. -/
def State.onlyFlits (s t : State) : Prop := ∀ a, ¬ isFlits a → t.reg a = s.reg a

/-- An event message of kind `n` with no reserved bit set, which its die acts on (R238). -/
def eventGood (m : EvtMsg) (n : Nat) : Prop := m.ekind = n ∧ m.reserved = 0 ∧ m.body &&& bodyBits n = m.body

/-- The request `e` heads the list of its die, nothing of it begun, and can be served now: its channels and schedulers let it, and no
copy of a line it touches has to go first (R246, R247, R261). -/
def State.homeHead (s : State) (die : Nat) (e : HomeEnt) (rest : List HomeEnt) : Prop :=
  s.homeList die = e :: rest ∧ e.begun = false ∧ s.open_ die e.req = true ∧ s.waitsLeft e = [] ∧ s.needed e.req = []

/-- As `homeHead`, for a cell. -/
def State.cellHead (s : State) (die : Nat) (c : Cell) (rest : List HomeEnt) : Prop :=
  ∃ e, e.req.agent = .cell c ∧ s.homeHead die e rest

/-- Memory of HBM whose channels work, or of a galley. -/
def State.memThere (s : State) (a n : Nat) : Prop :=
  (inHbm a n = true ∧ s.hbmDown a n = false) ∨ (isGalley a = true ∧ inGalley (galleyDie a) a n = true)

/-- No error mark lies on the words and lines about `n` bytes from `a`. -/
def State.noMarks (s : State) (a n : Nat) : Prop := ∀ e ∈ s.marks, e.1 + 64 ≤ a ∨ a + n ≤ e.1

/-- A cell of a die that leaves the node reaches its base die's router at once (R235, R239, R311): a base die's own, and a compute die's while its
stack port is up and no earlier one waits for it. -/
def State.portOpen (s : State) (die : Nat) : Prop := die < 12 → s.routeUp die (baseOf die) = true ∧
  ∀ r ∈ Tbl.get [] s.quay (baseOf die), r.src = die → s.outbound r = false

/-- The cells `rs` leave the die as the answer to cell `c` (R311): behind what is already on its way to a requester of this node, or, for
one of another node, as the local cells of the base die's router, where that had none and they reach it at once. -/
def Answers (s t : State) (die : Nat) (c : Cell) (rs : List Cell) : Prop :=
  if c.src = s.nodeId then
    Tbl.get [] t.quay (answerDie c.core) = Tbl.get [] s.quay (answerDie c.core) ++ rs.map fun r => ⟨die, c.part, .cell r, 0, 0, none⟩
  else s.portOpen die → (s.router (baseOf die)).loc = [] →
    (t.router (baseOf die)).loc = rs.map fun r => ⟨r, s.tideOf (baseOf die), true, none, none⟩

/-- The ACK of one cell (R314). -/
def State.ackCell (s : State) (die : Nat) (c : Cell) (code detail : Nat) : Cell :=
  s.response die c 0xB 7 0 (1 + code * 2 ^ 16 + detail * 2 ^ 64) 0 0

/-! ### Cells a lighter sends -/

/-- The lighter of core c sends the cells of `xs`, each given with the die that holds its target, in order: to one of this node over the
Quay link, to another by its base die's router, at once where its stack port is open; each is counted (R311, R337, R348). -/
def State.sendsCells (s t : State) (c : Nat) (nocomb : Bool) (xs : List (Cell × Nat)) : Prop :=
  ((∀ x ∈ xs, x.1.dst = s.nodeId) → t.routers = s.routers ∧ ∀ die, Tbl.get [] t.quay die =
    Tbl.get [] s.quay die ++ (xs.filter fun x => x.2 == die).map fun x => ⟨coreDie c, x.1.part, .cell x.1, 0, 0, none⟩) ∧
  ((∀ x ∈ xs, x.1.dst ≠ s.nodeId) → s.portOpen (coreDie c) → t.quay = s.quay ∧ (t.router (baseOf (coreDie c))).loc =
    (s.router (baseOf (coreDie c))).loc ++ xs.map fun x => ⟨x.1, s.tideOf (baseOf (coreDie c)), nocomb, none, none⟩) ∧
  t.fld (a_LTR_CELLS_OUT (coreDie c) (coreNo c)) f_LTR_CELLS_OUT_COUNT =
    (s.fld (a_LTR_CELLS_OUT (coreDie c) (coreNo c)) f_LTR_CELLS_OUT_COUNT + xs.length) % 2 ^ f_LTR_CELLS_OUT_COUNT.width

/-- The write cells of the bytes `bs` from address `a` on: three granules each, the last one what is left (R314, R338). -/
def State.dataCells (s : State) (c node rid kind a : Nat) (bs : List Byte) : List (Cell × Nat) :=
  (List.range ((bs.length + 47) / 48)).map fun i =>
    let g (j : Nat) : Nat := natLE ((bs.drop (48 * i + 16 * j)).take 16)
    (s.reqCell c node rid kind (2 ^ min 3 ((bs.length - 48 * i + 15) / 16) - 1) (a + 48 * i) (g 0) (g 1) (g 2), addrDie (a + 48 * i))

/-- The RL add cells of `n` blocks of elements of `w` bytes from `bs`, with their block words (R315, R339); `tally` where each carries its
linear tally (R202). -/
def State.rlCells (s : State) (c rid w g dbw dcw : Nat) (tally : Bool) (n : Nat) (words : List Nat) (bs : List Byte) : List (Cell × Nat) :=
  (List.range n).flatMap fun i => (List.range (if w = 4 then 128 else 256)).map fun k =>
    let per := if w = 4 then 32 else 16
    let a := gaLocal g + 4096 * i + per * k
    let piece := (bs.drop (4096 * i + per * k)).take per
    let els := (List.range (per / w)).map fun j => natLE ((piece.drop (w * j)).take w)
    let tr := rlTrailer (w == 8) (words.getD i 0) (dbw + 4 * i) (dcw + 8 * i)
      (if tally then linTally (s.ltrKey c) (8 * w) (a / w) els else 0) tally
    let v := natLE piece
    (if w = 4 then s.reqCell c (gaNode g) rid 6 7 a (v % 2 ^ 128) (v / 2 ^ 128) tr
      else s.reqCell c (gaNode g) rid 7 7 a v (tr % 2 ^ 128) (tr / 2 ^ 128), addrDie (gaLocal g + 4096 * i))

/-- A manager control message, as the local cells of base die 12's router that it is sent as (R318, R496). -/
def State.mgrCells (s : State) (dest kind msgid epoch : Nat) (data : List Byte) : List WaitCell :=
  ((MgrMsg.mk dest kind msgid epoch data 0 0).cells s.nodeId (s.tideOf 12)).map fun c => ⟨c, s.tideOf 12, true, none, none⟩

/-- A manager control message has been sent, among what else has been. -/
def State.told (s t : State) (dest kind : Nat) (data : List Byte) : Prop :=
  ∃ msgid epoch, ∀ w ∈ s.mgrCells dest kind msgid epoch data, w ∈ (t.router 12).loc

/-- A descriptor of core c's lighter has ended with an error (R343): its record in the core's log, counted, event LIGHTER_ERR at the core,
whose words are otherwise `k`. -/
def State.lighterErred (s t : State) (c : Nat) (k : CoreState) (d code unit detail : Nat) : Prop :=
  let m := s.fld (a_LTR_ERRPTR (coreDie c) (coreNo c)) f_LTR_ERRPTR_NEXT
  t.core c = k.fire 7 ∧ t.reg (a_LTR_ERRLOG (coreDie c) (coreNo c) m 0) = BitVec.ofNat 64 (hdTag d) ∧
    (t.reg (a_LTR_ERRLOG (coreDie c) (coreNo c) m 1)).toNat / 2 ^ 48 = code ∧
    (t.reg (a_LTR_ERRLOG (coreDie c) (coreNo c) m 1)).toNat % 2 ^ 32 = unit ∧
    t.reg (a_LTR_ERRLOG (coreDie c) (coreNo c) m 3) = BitVec.ofNat 64 detail ∧
    t.fld (a_LTR_ERRCNT (coreDie c) (coreNo c)) f_LTR_ERRCNT_COUNT =
      min (s.fld (a_LTR_ERRCNT (coreDie c) (coreNo c)) f_LTR_ERRCNT_COUNT + 1) (2 ^ f_LTR_ERRCNT_COUNT.width - 1)

end Sys2Proof.Machine
end

