-- ==== Sys2Proof/Certificates/Slice0/Obligations.lean ====
section
/-! DEFINITION. The statements about the module, one definition each; OBLIGATIONS.json says of each what it rests on. -/

open Sys2Proof Sys2Proof.Machine

/-- The scalar results of R113, with their frame: `WritesReg` says what may change. -/
def Obligations.ScalarResults : Prop :=
  ∀ (s : State) (c : Nat) (rd ra rb rc : Fin 32), s.ready c = true →
    let a := (s.core c).rg ra
    let b := (s.core c).rg rb
    let w := WritesReg s c rd
    (w (a + b) (exec (.add c rd ra rb) s)) ∧
    (w (a - b) (exec (.sub c rd ra rb) s)) ∧
    (w (a &&& b) (exec (.and c rd ra rb) s)) ∧
    (w (a ||| b) (exec (.or c rd ra rb) s)) ∧
    (w (a ^^^ b) (exec (.xor c rd ra rb) s)) ∧
    (w (a &&& ~~~b) (exec (.andn c rd ra rb) s)) ∧
    (w (a <<< (b.toNat % 64)) (exec (.shl c rd ra rb) s)) ∧
    (w (a >>> (b.toNat % 64)) (exec (.shr c rd ra rb) s)) ∧
    (w (a.sshiftRight (b.toNat % 64)) (exec (.sra c rd ra rb) s)) ∧
    (w (a.rotateRight (b.toNat % 64)) (exec (.ror c rd ra rb) s)) ∧
    (w (if a.toInt < b.toInt then 1 else 0) (exec (.slt c rd ra rb) s)) ∧
    (w (if a.toNat < b.toNat then 1 else 0) (exec (.sltu c rd ra rb) s)) ∧
    (w (if a.toInt < b.toInt then a else b) (exec (.min c rd ra rb) s)) ∧
    (w (if a.toInt < b.toInt then b else a) (exec (.max c rd ra rb) s)) ∧
    (w (if a.toNat < b.toNat then a else b) (exec (.minu c rd ra rb) s)) ∧
    (w (if a.toNat < b.toNat then b else a) (exec (.maxu c rd ra rb) s)) ∧
    (w (if (s.core c).rg rc ≠ 0 then a else b) (exec (.sel c rd ra rb rc) s)) ∧
    (w (((a + b).setWidth 32).signExtend 64) (exec (.addw c rd ra rb) s)) ∧
    (w (((a - b).setWidth 32).signExtend 64) (exec (.subw c rd ra rb) s)) ∧
    (w (a * b) (exec (.mul c rd ra rb) s)) ∧
    (w (BitVec.ofInt 64 (a.toInt * b.toInt / 2 ^ 64)) (exec (.mulh c rd ra rb) s)) ∧
    (w (BitVec.ofNat 64 (a.toNat * b.toNat / 2 ^ 64)) (exec (.mulhu c rd ra rb) s)) ∧
    (w (a * b + (s.core c).rg rc) (exec (.madd c rd ra rb rc) s)) ∧
    (∀ imm : BitVec 14, let x := imm.signExtend 64
      (w (a + x) (exec (.addi c rd ra imm) s)) ∧
      (w (a &&& x) (exec (.andi c rd ra imm) s)) ∧
      (w (a ||| x) (exec (.ori c rd ra imm) s)) ∧
      (w (a ^^^ x) (exec (.xori c rd ra imm) s)) ∧
      (w (if a.toInt < x.toInt then 1 else 0) (exec (.slti c rd ra imm) s)) ∧
      (w (if a.toNat < x.toNat then 1 else 0) (exec (.sltiu c rd ra imm) s))) ∧
    (∀ sh : Fin 64,
      (w (a <<< sh.val) (exec (.shi c rd ra 0 sh) s)) ∧
      (w (a >>> sh.val) (exec (.shi c rd ra 1 sh) s)) ∧
      (w (a.sshiftRight sh.val) (exec (.shi c rd ra 2 sh) s)) ∧
      (w (a.rotateRight sh.val) (exec (.shi c rd ra 3 sh) s))) ∧
    (∀ (hw : Fin 4) (imm : BitVec 16), let x := imm.setWidth 64 <<< (16 * hw.val)
      let m := (0xFFFF : Word) <<< (16 * hw.val)
      (w x (exec (.movz c rd hw imm) s)) ∧
      (w (((s.core c).rg rd &&& ~~~m) ||| x) (exec (.movk c rd hw imm) s)) ∧
      (w (~~~x) (exec (.movn c rd hw imm) s)))

/-- The bit counts of R113, said without the functions that compute them. -/
def Obligations.BitCounts : Prop :=
  ∀ (s : State) (c : Nat) (rd ra : Fin 32), s.ready c = true →
    let a := (s.core c).rg ra
    (∃ n, n ≤ 64 ∧ a.toNat < 2 ^ (64 - n) ∧ (a ≠ 0 → n < 64 ∧ 2 ^ (63 - n) ≤ a.toNat) ∧ (a = 0 → n = 64) ∧
      WritesReg s c rd (BitVec.ofNat 64 n) (exec (.clz c rd ra) s)) ∧
    (∃ n, n ≤ 64 ∧ 2 ^ n ∣ a.toNat ∧ (a ≠ 0 → n < 64 ∧ ¬ 2 ^ (n + 1) ∣ a.toNat) ∧ (a = 0 → n = 64) ∧
      WritesReg s c rd (BitVec.ofNat 64 n) (exec (.ctz c rd ra) s)) ∧
    WritesReg s c rd (BitVec.ofNat 64 ((List.range 64).countP fun i => a.getLsbD i)) (exec (.popc c rd ra) s)

/-- The divisions of R113, case by case. -/
def Obligations.Divisions : Prop :=
  ∀ (s : State) (c : Nat) (rd ra rb : Fin 32), s.ready c = true →
    let a := (s.core c).rg ra
    let b := (s.core c).rg rb
    let w := WritesReg s c rd
    (b = 0 → w (BitVec.allOnes 64) (exec (.div c rd ra rb) s) ∧ w (BitVec.allOnes 64) (exec (.divu c rd ra rb) s) ∧
      w a (exec (.rem c rd ra rb) s) ∧ w a (exec (.remu c rd ra rb) s)) ∧
    (a = BitVec.ofNat 64 (2 ^ 63) → b = BitVec.allOnes 64 →
      w (BitVec.ofNat 64 (2 ^ 63)) (exec (.div c rd ra rb) s) ∧ w 0 (exec (.rem c rd ra rb) s)) ∧
    (b ≠ 0 → ¬ (a = BitVec.ofNat 64 (2 ^ 63) ∧ b = BitVec.allOnes 64) → ∃ q r : Word,
      r.toInt.natAbs < b.toInt.natAbs ∧ a.toInt = b.toInt * q.toInt + r.toInt ∧ (r ≠ 0 → (r.toInt < 0 ↔ a.toInt < 0)) ∧
      w q (exec (.div c rd ra rb) s) ∧ w r (exec (.rem c rd ra rb) s)) ∧
    (b ≠ 0 → ∃ q r : Word, r.toNat < b.toNat ∧ a.toNat = b.toNat * q.toNat + r.toNat ∧
      w q (exec (.divu c rd ra rb) s) ∧ w r (exec (.remu c rd ra rb) s))

/-- Branches and jumps (R113). -/
def Obligations.BranchesAndJumps : Prop :=
  ∀ (s : State) (c : Nat) (rd ra rb : Fin 32) (off : BitVec 14) (far : BitVec 26), s.ready c = true →
    let k := s.core c
    let a := k.rg ra
    let b := k.rg rb
    let br (p : Prop) (i : Instr) : Prop :=
      (p → Jumps s c (k.pc + 4 * off.signExtend 64) 0 0 (exec i s)) ∧ (¬ p → WritesReg s c 0 0 (exec i s))
    br (a = b) (.beq c ra rb off) ∧ br (a ≠ b) (.bne c ra rb off) ∧
    br (a.toInt < b.toInt) (.blt c ra rb off) ∧ br (b.toInt ≤ a.toInt) (.bge c ra rb off) ∧
    br (a.toNat < b.toNat) (.bltu c ra rb off) ∧ br (b.toNat ≤ a.toNat) (.bgeu c ra rb off) ∧
    Jumps s c (k.pc + 4 * far.signExtend 64) 0 0 (exec (.j c far) s) ∧
    Jumps s c (k.pc + 4 * far.signExtend 64) 31 (k.pc + 4) (exec (.jl c far) s) ∧
    (a.toNat % 4 = 0 → Jumps s c a 0 0 (exec (.jr c ra) s) ∧ Jumps s c a rd (k.pc + 4) (exec (.jlr c rd ra) s)) ∧
    (a.toNat % 4 ≠ 0 → Traps s c Code.MISALIGNED a k.pc (exec (.jr c ra) s) ∧
      Traps s c Code.MISALIGNED a k.pc (exec (.jlr c rd ra) s))

/-- Loads (R89, R90, R94, R113) and the return of their data. -/
def Obligations.ScalarLoads : Prop :=
  (∀ (s : State) (c : Nat) (rd ra : Fin 32) (imm : BitVec 14), s.ready c = true →
    let k := s.core c
    let p := k.rg ra + imm.signExtend 64
    let a := p.toNat
    let ld (i : Instr) (n : Nat) (sx : Bool) (ext : Nat → Word) : Prop :=
      (k.stores = [] → a + n ≤ 0x4_0000 → a % n = 0 → (∀ e ∈ k.pmarks, e.1 + 8 ≤ a ∨ a + n ≤ e.1) →
        WritesReg s c rd (ext (natLE ((List.range n).map fun j => Tbl.get 0 k.pmem (a + j)))) (exec i s)) ∧
      (0x4_0000 < a + n → isGalley a = true → s.galleyOk c a n = true → a % n = 0 → s.crossStopped (coreDie c) 0 = false →
        (∀ e ∈ s.marks, e.1 + 64 ≤ a ∨ a + n ≤ e.1) →
        Retires s c { k with loads := [⟨a, .g rd n sx, some (overlay k.stores a (s.bytes a n))⟩] } (exec i s)) ∧
      (s.reach c a n false = .regs → a % n = 0 →
        Goes (exec i s) fun t => s.onlyCore t c ∧ t.core c = { k with loads := [⟨a, .g rd n sx, none⟩] }) ∧
      (s.reach c a n false = .nothing → Traps s c Code.BAD_ADDRESS p k.pc (exec i s)) ∧
      (s.reach c a n false ≠ .nothing → a % n ≠ 0 → Traps s c Code.MISALIGNED p k.pc (exec i s))
    ld (.lb c rd ra imm) 1 true (fun v => (BitVec.ofNat 8 v).signExtend 64) ∧
    ld (.lh c rd ra imm) 2 true (fun v => (BitVec.ofNat 16 v).signExtend 64) ∧
    ld (.lw c rd ra imm) 4 true (fun v => (BitVec.ofNat 32 v).signExtend 64) ∧
    ld (.ld c rd ra imm) 8 false (fun v => BitVec.ofNat 64 v) ∧
    ld (.lbu c rd ra imm) 1 false (fun v => BitVec.ofNat 64 v) ∧
    ld (.lhu c rd ra imm) 2 false (fun v => BitVec.ofNat 64 v) ∧
    ld (.lwu c rd ra imm) 4 false (fun v => BitVec.ofNat 64 v)) ∧
  (∀ (s : State) (c : Nat) (rd : Fin 32) (n a : Nat) (bs : List Byte) (r : List LoadEnt), s.stopped (coreDie c) = false →
    ((s.core c).loads = ⟨a, .g rd n false, some bs⟩ :: r → Goes (exec (.pilotLoadReturn c) s) fun t => s.onlyCore t c ∧
      t.core c = { s.core c with loads := r, g := (t.core c).g } ∧
      ∀ x, (t.core c).rg x = if x = rd ∧ x ≠ 0 then BitVec.ofNat 64 (natLE bs) else (s.core c).rg x) ∧
    ((s.core c).loads = ⟨a, .g rd 8 false, none⟩ :: r → inRegs a = true → s.dieUp (regDie a) = true → s.wayOpen (.pilot c) a = true →
      Goes (exec (.pilotLoadReturn c) s) fun t => (t.core c).loads = r ∧ (t.core c).pc = (s.core c).pc + 4 ∧
        (t.core c).instret = (s.core c).instret + 1 ∧ t.mem = s.mem ∧ (∀ d, d ≠ c → t.core d = s.core d) ∧
        ∀ x, (t.core c).rg x = if x = rd ∧ x ≠ 0 then s.readReg a else (s.core c).rg x))

/-- Stores (R89, R90, R127) and the store buffer (R554). -/
def Obligations.ScalarStores : Prop :=
  (∀ (s : State) (c : Nat) (rs ra : Fin 32) (imm : BitVec 14), s.ready c = true →
    let k := s.core c
    let p := k.rg ra + imm.signExtend 64
    let a := p.toNat
    let st (i : Instr) (n : Nat) : Prop :=
      (s.reach c a n false = .own ∨ s.reach c a n false = .galley → a % n = 0 →
        (k.wu = none ∨ k.wusave.toNat ≤ a ∨ s.reach c a n false = .galley) →
        Retires s c { k with stores := k.stores ++ [⟨a, bytesLE n (k.rg rs).toNat⟩] } (exec i s)) ∧
      (s.reach c a n false = .nothing ∨ (s.reach c a n false = .regs ∧ pilotMayWrite c a = false) →
        Traps s c Code.BAD_ADDRESS p k.pc (exec i s)) ∧
      (s.reach c a n false = .regs → pilotMayWrite c a = true → a % n = 0 → n = 8 → Goes (exec i s) fun t =>
        t.gathered = s.gathered ++ [⟨.pilot c, a, true, true, k.rg rs⟩] ∧ t.mem = s.mem ∧ t.regs = s.regs ∧
          (∀ d, d ≠ c → t.core d = s.core d) ∧ t.core c = s.after t c) ∧
      (s.reach c a n false = .own ∨ s.reach c a n false = .galley → a % n ≠ 0 → Traps s c Code.MISALIGNED p k.pc (exec i s)) ∧
      (s.reach c a n false = .own → a % n = 0 → k.wu ≠ none → a < k.wusave.toNat →
        Traps s c Code.WU_PROTECTED p k.pc (exec i s))
    st (.sb c rs ra imm) 1 ∧ st (.sh c rs ra imm) 2 ∧ st (.sw c rs ra imm) 4 ∧ st (.sd c rs ra imm) 8) ∧
  (∀ (s : State) (c : Nat) (e : StoreEnt) (r : List StoreEnt),
    s.stopped (coreDie c) = false → (s.core c).stores = e :: r →
    (e.addr < 0x4_0000 → Goes (exec (.storeVisible c) s) fun t => s.onlyCore t c ∧ (t.core c).stores = r ∧
      ∀ x, Tbl.get 0 (t.core c).pmem x =
        if h : e.addr ≤ x ∧ x - e.addr < e.data.length then e.data[x - e.addr]'h.2 else Tbl.get 0 (s.core c).pmem x) ∧
    (0x4_0000 ≤ e.addr → s.crossStopped (coreDie c) 0 = false → (∀ w, s.markAt w = 0) →
      Goes (exec (.storeVisible c) s) fun t => (t.core c) = { s.core c with stores := r } ∧
        (∀ d, d ≠ c → t.core d = s.core d) ∧ (∀ x, t.reg x = s.reg x) ∧
        ∀ x, t.byte x = if h : e.addr ≤ x ∧ x - e.addr < e.data.length then e.data[x - e.addr]'h.2 else s.byte x))

/-- Control words (R95, R113, R125). `CsrOp` w, s and c stand for CSRW, CSRS and CSRC. -/
def Obligations.ControlWords : Prop :=
  ∀ (s : State) (c : Nat) (rd ra : Fin 32), s.ready c = true →
    let k := s.core c
    let a := k.rg ra
    let rdw (n : Nat) (v : Word) : Prop := WritesReg s c rd v (exec (.csrr c rd (BitVec.ofNat 12 n)) s)
    let wr (n : Nat) (old : Word) (put : Word → CoreState) : Prop :=
      Retires s c ((put a).setRg rd old) (exec (.csrw c rd ra (BitVec.ofNat 12 n)) s) ∧
      Retires s c ((put (old ||| a)).setRg rd old) (exec (.csrs c rd ra (BitVec.ofNat 12 n)) s) ∧
      Retires s c ((put (old &&& ~~~a)).setRg rd old) (exec (.csrc c rd ra (BitVec.ofNat 12 n)) s)
    (rdw 0x001 (if k.prog then 1 else 0) ∧ rdw 0x030 k.vflags ∧ rdw 0x031 (BitVec.ofInt 64 k.vct) ∧ rdw 0x040 k.cycle ∧
      rdw 0x041 k.instret ∧ rdw 0x042 (BitVec.ofNat 64 (s.tideOf (coreDie c)))) ∧
    (k.prog = false → rdw 0x010 k.tvec ∧ rdw 0x011 k.tepc ∧ rdw 0x012 k.tcause ∧ rdw 0x013 k.tval ∧ rdw 0x014 k.tstatus ∧
      rdw 0x015 k.tscratch ∧ rdw 0x020 k.evpend ∧ rdw 0x021 k.evmask ∧ rdw 0x022 k.tkevmask ∧ rdw 0x023 k.tcmp ∧
      rdw 0x060 k.tkovf) ∧
    (k.prog = false →
      wr 0x010 k.tvec (fun v => { k with tvec := v &&& ~~~3 }) ∧ wr 0x011 k.tepc (fun v => { k with tepc := v }) ∧
      wr 0x013 k.tval (fun v => { k with tval := v }) ∧ wr 0x014 k.tstatus (fun v => { k with tstatus := v &&& 0x1D }) ∧
      wr 0x015 k.tscratch (fun v => { k with tscratch := v }) ∧ wr 0x021 k.evmask (fun v => { k with evmask := v }) ∧
      wr 0x022 k.tkevmask (fun v => { k with tkevmask := v }) ∧
      wr 0x023 k.tcmp (fun v => { k with tcmp := v, timerArmed := true })) ∧
    wr 0x030 k.vflags (fun v => { k with vflags := v &&& 0x1F }) ∧
    (-1024 ≤ a.toInt → a.toInt ≤ 1023 → Retires s c ({ k with vct := a.toInt }.setRg rd (BitVec.ofInt 64 k.vct))
      (exec (.csrw c rd ra 0x031) s)) ∧
    (k.prog = false → Retires s c ({ k with evpend := k.evpend &&& ~~~a }.setRg rd k.evpend) (exec (.csrc c rd ra 0x020) s) ∧
      Traps s c Code.ILLEGAL_INSTRUCTION (BitVec.ofNat 64 (pilotWord (.csrw c rd ra 0x020))) k.pc (exec (.csrw c rd ra 0x020) s) ∧
      Traps s c Code.ILLEGAL_INSTRUCTION (BitVec.ofNat 64 (pilotWord (.csrs c rd ra 0x020))) k.pc (exec (.csrs c rd ra 0x020) s)) ∧
    (∀ n : BitVec 12, k.prog = true → cwRights n.toNat = some .firmware →
      Traps s c Code.PRIVILEGE (BitVec.ofNat 64 (pilotWord (.csrr c rd n))) k.pc (exec (.csrr c rd n) s) ∧
      Traps s c Code.PRIVILEGE (BitVec.ofNat 64 (pilotWord (.csrw c rd ra n))) k.pc (exec (.csrw c rd ra n) s) ∧
      Traps s c Code.PRIVILEGE (BitVec.ofNat 64 (pilotWord (.csrs c rd ra n))) k.pc (exec (.csrs c rd ra n) s) ∧
      Traps s c Code.PRIVILEGE (BitVec.ofNat 64 (pilotWord (.csrc c rd ra n))) k.pc (exec (.csrc c rd ra n) s)) ∧
    (∀ n : BitVec 12, cwRights n.toNat = none →
      Traps s c Code.ILLEGAL_INSTRUCTION (BitVec.ofNat 64 (pilotWord (.csrr c rd n))) k.pc (exec (.csrr c rd n) s) ∧
      Traps s c Code.ILLEGAL_INSTRUCTION (BitVec.ofNat 64 (pilotWord (.csrw c rd ra n))) k.pc (exec (.csrw c rd ra n) s))

/-- Work units, fences, event waits, the timer and instruction fetch (R93, R99, R100, R113, R126). -/
def Obligations.WorkUnitsFencesAndFetch : Prop :=
  ∀ (s : State) (c : Nat) (rd ra : Fin 32), s.ready c = true →
    let k := s.core c
    let a := k.rg ra
    (s.pilotFw.staged = none → Goes (exec (.wumark c .w rd ra) s) fun t =>
      (t.core c).wu = some ⟨a.toNat % 2 ^ 32, k.pc + 4, (List.range 7).map (fun i => k.rg (Fin.ofNat 32 (i + 1))), k.tokens, k.vct⟩ ∧
      (t.core c).pc = k.pc + 4 ∧ (t.core c).instret = k.instret + 1 ∧
      (∀ r, r ≠ rd → (t.core c).rg r = k.rg r) ∧ (∀ d, d ≠ c → t.core d = s.core d) ∧
      t.fld (a_LTR_STATUS (coreDie c) (coreNo c)) f_LTR_STATUS_WUISSUED = 0 ∧
      (∀ x, x ≠ a_LTR_STATUS (coreDie c) (coreNo c) → t.reg x = s.reg x) ∧ t.mem = s.mem) ∧
    (∀ fi fm : Bool, (fm = false ∨ k.stores = []) → Goes (exec (.fence c fi fm) s) fun t => s.onlyCore t c ∧ s.oneMore t c ∧
      t.core c = k.moved (k.pc + 4) (if fi then [] else k.fetched.tail) (t.core c).mix) ∧
    (∀ fi : Bool, k.stores ≠ [] → exec (.fence c fi true) s = .next s) ∧
    (∀ n, n < 64 → (k.evpend &&& k.evmask).getLsbD n = true → (∀ m, m < n → (k.evpend &&& k.evmask).getLsbD m = false) →
      Retires s c ({ k with evpend := k.evpend &&& ~~~(BitVec.ofNat 64 (2 ^ n)) }.setRg rd (BitVec.ofNat 64 n)) (exec (.waitev c rd) s)) ∧
    (k.evpend &&& k.evmask = 0 → exec (.waitev c rd) s = .next (s.setCore c { k with run := .waitev })) ∧
    (k.timerArmed = true → k.tcmp.toNat ≤ s.tideOf (coreDie c) →
      exec (.timerEvent c) s = .next (s.setCore c { k with timerArmed := false, evpend := k.evpend ||| 16 })) ∧
    (∀ addr : Word, k.nextFetch = some addr.toNat → inHbm addr.toNat 4 = true → k.icache.contains (lineOf addr.toNat) = true →
      exec (.instructionFetch c addr) s =
        .next (s.setCore c { k with fetched := k.fetched ++ [(addr.toNat, natLE (s.bytes addr.toNat 4))] }))

/-- Traps and their return (R96 to R99, R110). -/
def Obligations.TrapsAndReturns : Prop :=
  (∀ (s : State) (c : Nat), s.ready c = true →
    let k := s.core c
    (∀ code : BitVec 12, Traps s c Code.SOFTWARE_TRAP (code.setWidth 64) (k.pc + 4) (exec (.trap c code) s)) ∧
    (∀ word : BitVec 32, decodePilot c word.toNat = none →
      Traps s c Code.ILLEGAL_INSTRUCTION (word.setWidth 64) k.pc (exec (.illegalInstruction c word) s)) ∧
    (k.prog = false → Goes (exec (.eret c) s) fun t => s.onlyCore t c ∧ s.oneMore t c ∧ t.core c = { k with
      prog := k.tstatus.getLsbD 2
      tstatus := BitVec.ofNat 64 ((if k.tstatus.getLsbD 4 then 17 else 0) + (if k.tstatus.getLsbD 2 then 4 else 0))
      pc := BitVec.ofNat 64 (k.tepc.toNat / 4 * 4)
      instret := k.instret + 1
      waitTk := none
      mix := (t.core c).mix
      fetched := [] }) ∧
    (k.prog = true → Traps s c Code.PRIVILEGE (BitVec.ofNat 64 (pilotWord (.eret c))) k.pc (exec (.eret c) s))) ∧
  (∀ (s : State) (c n : Nat), (s.core c).run = .running → (s.core c).halting = false → (s.core c).loadBlocks = false → n < 64 →
    let k := s.core c
    k.tstatus.getLsbD 0 = true → k.tstatus.getLsbD 3 = false →
    (k.evpend &&& k.evmask).getLsbD n = true → (∀ m, m < n → (k.evpend &&& k.evmask).getLsbD m = false) →
    Goes (exec (.eventTrap c) s) fun t => s.onlyCore t c ∧ t.core c = { k with
      prog := false
      tstatus := k.trapped
      tcause := BitVec.ofNat 64 (n * 2 ^ 16 + Code.EVENT)
      tval := BitVec.ofNat 64 n
      tepc := k.pc
      pc := k.tvec
      fetched := []
      waitTk := none
      lasttrap := BitVec.ofNat 64 (Code.EVENT * 2 ^ 48 + k.pc.toNat % 2 ^ 48) })

/-- Double traps (R98). -/
def Obligations.DoubleTraps : Prop :=
  (∀ (s : State) (c : Nat) (ra : Fin 32) (code : BitVec 12) (word : BitVec 32), s.ready c = true →
    let k := s.core c
    let stops (cause : Nat) (o : Host.Outcome State Fault Refusal) : Prop := Goes o fun t =>
      t.core c = { k with
        run := .doubleTrap, waitTk := none, lasttrap := BitVec.ofNat 64 (Code.DOUBLE_TRAP * 2 ^ 48 + k.pc.toNat % 2 ^ 48) } ∧
      (∀ d, d ≠ c → t.core d = s.core d) ∧ (∃ x : Detection, t.detections = s.detections ++ [x] ∧ x.die = coreDie c ∧
        x.code = Code.DOUBLE_TRAP ∧ x.origin = 8 ∧ x.ukind = 7 ∧ x.udie = coreDie c ∧ x.core = coreNo c ∧ x.sub = 0xF ∧
        x.seq = k.instret.toNat % 2 ^ 48 ∧ x.detail0 = cause ∧ x.detail1 = k.pc.toNat) ∧
      t = { s with cores := t.cores, detections := t.detections }
    k.tstatus.getLsbD 3 = true →
    stops Code.SOFTWARE_TRAP (exec (.trap c code) s) ∧
    (decodePilot c word.toNat = none → stops Code.ILLEGAL_INSTRUCTION (exec (.illegalInstruction c word) s)) ∧
    ((k.rg ra).toNat % 4 ≠ 0 → stops Code.MISALIGNED (exec (.jr c ra) s))) ∧
  (∀ (s : State) (c : Nat) (rd ra rb : Fin 32) (code : BitVec 12), (s.core c).run = .doubleTrap →
    exec (.add c rd ra rb) s = .next s ∧ exec (.trap c code) s = .next s ∧ exec (.eret c) s = .next s ∧
    exec (.eventTrap c) s = .next s)

/-- Vector arithmetic on integer lanes (R103, R104, R114). -/
def Obligations.VectorIntegerLanes : Prop :=
  ∀ (s : State) (c : Nat) (mask : Fin 8) (vd va vb : Fin 32) (up : BitVec 64), s.vecReady c = true →
    (up = 0 ∨ s.levelOf c ≠ 2) →
    let on (ty : Fin 8) (w n : Nat) : Prop :=
      let a (i : Nat) : Nat := laneAt w i ((s.core c).vr va).toNat
      let b (i : Nat) : Nat := laneAt w i ((s.core c).vr vb).toNat
      let is (f : Nat → Nat) : Host.Outcome State Fault Refusal → Prop := LanesBecome s c w n mask vd fun i => ⟨f i, 0⟩
      is (fun i => a i + b i) (exec (.vadd c ty mask vd va vb up) s) ∧
      is (fun i => a i + (2 ^ w - b i)) (exec (.vsub c ty mask vd va vb up) s) ∧
      is (fun i => a i * b i) (exec (.vmul c ty mask vd va vb up) s) ∧
      is (fun i => if signed w (b i) < signed w (a i) then b i else a i) (exec (.vmin c ty mask vd va vb) s) ∧
      is (fun i => if signed w (a i) < signed w (b i) then b i else a i) (exec (.vmax c ty mask vd va vb) s) ∧
      is (fun i => if signed w (a i) < 0 then 2 ^ w - a i else a i) (exec (.vabs c ty mask vd va) s) ∧
      is (fun i => 2 ^ w - a i) (exec (.vneg c ty mask vd va up) s) ∧
      is (fun i => a i &&& b i) (exec (.vand c ty mask vd va vb) s) ∧
      is (fun i => a i ||| b i) (exec (.vor c ty mask vd va vb) s) ∧
      is (fun i => a i ^^^ b i) (exec (.vxor c ty mask vd va vb) s) ∧
      is (fun i => a i * 2 ^ (b i % w)) (exec (.vshl c ty mask vd va vb) s) ∧
      is (fun i => a i / 2 ^ (b i % w)) (exec (.vshr c ty mask vd va vb) s) ∧
      is (fun i => unsigned w (signed w (a i) / 2 ^ (b i % w))) (exec (.vsra c ty mask vd va vb) s)
    on 4 32 64 ∧ on 5 8 256

/-- Vector arithmetic on floating lanes (R45 to R53, R104, R108), and the illegal types (R102, R104). -/
def Obligations.VectorFloatLanes : Prop :=
  (∀ (s : State) (c : Nat) (mask : Fin 8) (vd va vb : Fin 32) (up : BitVec 64), s.vecReady c = true →
    (up = 0 ∨ s.levelOf c ≠ 2) →
    let on (ty : Fin 8) (f : Fmt) (n : Nat) : Prop :=
      let lane (v : Fin 32) (i : Nat) : Nat := laneAt f.width i ((s.core c).vr v).toNat
      let a (i : Nat) : ElemVal := f.decode (lane va i)
      let b (i : Nat) : ElemVal := f.decode (lane vb i)
      let d (i : Nat) : ElemVal := f.decode (lane vd i)
      let is (r : Nat → Res) : Host.Outcome State Fault Refusal → Prop := LanesBecome s c f.width n mask vd r
      is (fun i => f.add (a i) (b i)) (exec (.vadd c ty mask vd va vb up) s) ∧
      is (fun i => f.sub (a i) (b i)) (exec (.vsub c ty mask vd va vb up) s) ∧
      is (fun i => f.mul (a i) (b i)) (exec (.vmul c ty mask vd va vb up) s) ∧
      is (fun i => f.fma (a i) (b i) (d i)) (exec (.vfma c ty mask vd va vb up) s) ∧
      is (fun i => f.fma (a i).neg (b i) (d i)) (exec (.vfnma c ty mask vd va vb up) s) ∧
      is (fun i => f.div (a i) (b i)) (exec (.vdiv c ty mask vd va vb) s) ∧
      is (fun i => f.sqrt (a i)) (exec (.vsqrt c ty mask vd va) s) ∧
      is (fun i => f.min (a i) (b i)) (exec (.vmin c ty mask vd va vb) s) ∧
      is (fun i => f.max (a i) (b i)) (exec (.vmax c ty mask vd va vb) s) ∧
      is (fun i => ⟨lane va i % 2 ^ (f.width - 1), 0⟩) (exec (.vabs c ty mask vd va) s) ∧
      is (fun i => ⟨lane va i ^^^ 2 ^ (f.width - 1), 0⟩) (exec (.vneg c ty mask vd va up) s) ∧
      is (fun i => f.rcp 0 (a i)) (exec (.vrcp c ty mask vd va) s) ∧
      is (fun i => f.rsqrt 0 (a i)) (exec (.vrsqrt c ty mask vd va) s) ∧
      is (fun i => f.exp 0 (a i)) (exec (.vexp c ty mask vd va) s) ∧
      is (fun i => f.log 0 (a i)) (exec (.vlog c ty mask vd va) s) ∧
      is (fun i => f.sig 0 (a i)) (exec (.vsig c ty mask vd va) s) ∧
      is (fun i => f.tanh 0 (a i)) (exec (.vtanh c ty mask vd va) s)
    on 0 .b32 64 ∧ on 1 .bf16 128 ∧ on 2 .e4m3 256 ∧ on 3 .e5m2 256) ∧
  (∀ (s : State) (c : Nat) (ty mask : Fin 8) (vd va vb : Fin 32), s.vecReady c = true →
    let ill (i : Instr) : Prop := Traps s c Code.ILLEGAL_INSTRUCTION (BitVec.ofNat 64 (pilotWord i)) (s.core c).pc (exec i s)
    (4 ≤ ty.val → ill (.vfma c ty mask vd va vb 0) ∧ ill (.vfnma c ty mask vd va vb 0) ∧ ill (.vdiv c ty mask vd va vb) ∧
      ill (.vsqrt c ty mask vd va) ∧ ill (.vrcp c ty mask vd va) ∧ ill (.vrsqrt c ty mask vd va) ∧ ill (.vexp c ty mask vd va) ∧
      ill (.vlog c ty mask vd va) ∧ ill (.vsig c ty mask vd va) ∧ ill (.vtanh c ty mask vd va)) ∧
    (ty.val < 4 ∨ 6 ≤ ty.val → ill (.vshl c ty mask vd va vb) ∧ ill (.vshr c ty mask vd va vb) ∧ ill (.vsra c ty mask vd va vb) ∧
      ill (.viota c ty mask vd)) ∧
    (6 ≤ ty.val → ill (.vadd c ty mask vd va vb 0) ∧ ill (.vsub c ty mask vd va vb 0) ∧ ill (.vmul c ty mask vd va vb 0) ∧
      ill (.vmin c ty mask vd va vb) ∧ ill (.vmax c ty mask vd va vb) ∧ ill (.vabs c ty mask vd va) ∧ ill (.vneg c ty mask vd va 0) ∧
      ill (.vand c ty mask vd va vb) ∧ ill (.vor c ty mask vd va vb) ∧ ill (.vxor c ty mask vd va vb)))

/-- Vector moves, conversion and reductions (R105, R107, R114). -/
def Obligations.VectorMoves : Prop :=
  ∀ (s : State) (c : Nat) (ty mask : Fin 8) (vd va vb ra rb rd : Fin 32) (l : Lane), s.vecReady c = true →
    laneOf ty.val = some l →
    let k := s.core c
    let w := l.width
    let n := l.count
    let lane (v : Fin 32) (i : Nat) : Nat := laneAt w i (k.vr v).toNat
    let is (m : Fin 8) (f : Nat → Nat) : Host.Outcome State Fault Refusal → Prop := LanesBecome s c w n m vd fun i => ⟨f i, 0⟩
    let ill (i : Instr) : Prop := Traps s c Code.ILLEGAL_INSTRUCTION (BitVec.ofNat 64 (pilotWord i)) k.pc (exec i s)
    is mask (lane va) (exec (.vmov c ty mask vd va) s) ∧
    is mask (fun _ => (k.rg ra).toNat) (exec (.vbcast c ty mask vd ra) s) ∧
    (4 ≤ ty.val → is mask (fun i => i) (exec (.viota c ty mask vd) s)) ∧
    is mask (fun i => lane va (lane vb i % n)) (exec (.vperm c ty mask vd va vb) s) ∧
    (mask ≠ 0 → is 0 (fun i => if k.active mask i then lane va i else lane vb i) (exec (.vsel c ty mask vd va vb) s)) ∧
    (mask = 0 → ill (.vsel c ty mask vd va vb)) ∧
    ((k.rg rb).toNat < n → is 0 (fun i => if i = (k.rg rb).toNat then (k.rg ra).toNat else lane vd i) (exec (.vins c ty vd ra rb) s) ∧
      VecWritesReg s c rd (BitVec.ofNat 64 (lane va (k.rg rb).toNat)) 0 (exec (.vextr c ty rd va rb) s)) ∧
    (n ≤ (k.rg rb).toNat → ill (.vins c ty vd ra rb) ∧ ill (.vextr c ty rd va rb)) ∧
    (∀ (part : Fin 4) (dty : Fin 8) (o : Lane), laneOf dty.val = some o →
      let conv (i : Nat) : Res := o.out.conv ((l.num (lane va i)).scale (-k.vct))
      let old (i : Nat) : Nat := laneAt o.width i (k.vr vd).toNat
      (o.count ≤ n → part.val * o.count < n →
        LanesBecome s c o.width o.count mask vd (fun i => conv (part.val * o.count + i)) (exec (.vcvt c ty mask vd va part dty) s)) ∧
      (n < o.count → part.val * n < o.count →
        LanesBecome s c o.width o.count 0 vd
          (fun j => if j / n = part.val ∧ k.active mask (j % n) = true then conv (j % n) else ⟨old j, 0⟩)
          (exec (.vcvt c ty mask vd va part dty) s)) ∧
      (max n o.count ≤ part.val * min n o.count → ill (.vcvt c ty mask vd va part dty))) ∧
    (∀ mx : Bool, let o := if mx then exec (.vrmax c ty mask vd va) s else exec (.vrmin c ty mask vd va) s
      (4 ≤ ty.val → ∀ i, i < n → k.active mask i = true →
        (∀ j, j < n → k.active mask j = true → if mx then signed w (lane va j) ≤ signed w (lane va i) else signed w (lane va i) ≤ signed w (lane va j)) →
        is 0 (fun j => if j = 0 then lane va i else lane vd j) o) ∧
      ((∀ i, i < n → k.active mask i = false) →
        is 0 (fun j => if j = 0 then
          (match ty.val, mx with
            | 0, true => 0xFF80_0000 | 0, false => 0x7F80_0000
            | 1, true => 0xFF80 | 1, false => 0x7F80
            | 2, true => 0xFE | 2, false => 0x7E
            | 3, true => 0xFC | 3, false => 0x7C
            | 4, true => 0x8000_0000 | 4, false => 0x7FFF_FFFF
            | _, true => 0x80 | _, false => 0x7F) else lane vd j) o))

/-- Vector sticks (R106; R25, R30 to R33, R553). -/
def Obligations.VectorSticks : Prop :=
  ∀ (s : State) (c : Nat) (ty mask vsd vsa : Fin 8) (va vb ra rb rd : Fin 32) (up : BitVec 64) (l : Lane),
    s.vecReady c = true → (up = 0 ∨ s.levelOf c ≠ 2) → laneOf ty.val = some l →
    let k := s.core c
    let q := (k.rg ra).toInt
    let t := (k.rg rb).toInt
    let lane (v : Fin 32) (i : Nat) : ElemVal := l.num (laneAt l.width i (k.vr v).toNat)
    let refuses (code : Nat) (i : Instr) : Prop := k.tstatus.getLsbD 3 = false → Goes (exec i s) fun u =>
      (u.core c).tcause = BitVec.ofNat 64 code ∧ (u.core c).tepc = k.pc ∧ (u.core c).pc = k.tvec ∧ (u.core c).prog = false ∧
      (u.core c).vs = k.vs ∧ (u.core c).vsqe = k.vsqe ∧ (u.core c).g = k.g ∧ u.mem = s.mem ∧ u.regs = s.regs
    (-2048 ≤ q → q ≤ 2047 → VecRetires s c ((k.setStick vsd 0).setStickQe vsd q) (exec (.vsclr c vsd ra) s) ∧
      VecRetires s c (k.setStickQe vsd q) (exec (.vswraw c vsd ra 2) s)) ∧
    (q < -2048 ∨ 2047 < q → refuses Code.BAD_WINDOW (.vsclr c vsd ra) ∧ refuses Code.BAD_WINDOW (.vswraw c vsd ra 2)) ∧
    VecRetires s c (k.setStick vsd (((k.activeLanes l mask).map (lane va)).foldl (stickAddNum (k.stickQe vsd)) (k.stick vsd)))
      (exec (.vsadd c ty mask vsd va up) s) ∧
    VecRetires s c (k.setStick vsd (((k.activeLanes l mask).map fun i => (lane va i).mul (lane vb i)).foldl
      (stickAddNum (k.stickQe vsd)) (k.stick vsd))) (exec (.vsdot c ty mask vsd va vb up) s) ∧
    (k.stickQe vsd = k.stickQe vsa → VecRetires s c (k.setStick vsd (mkStick (stickA (k.stick vsd) + stickA (k.stick vsa))
      (stickSt (k.stick vsd) ||| stickSt (k.stick vsa)))) (exec (.vsacc c vsd vsa up) s)) ∧
    (k.stickQe vsd ≠ k.stickQe vsa → refuses Code.SCALE_MISMATCH (.vsacc c vsd vsa up)) ∧
    (-1024 ≤ t → t ≤ 1023 → let r := stickRead l.out (k.stickQe vsa) t (k.stick vsa)
      VecWritesReg s c rd (BitVec.ofNat 64 r.bits) r.fl (exec (.vsrd c ty rd vsa rb) s)) ∧
    (t < -1024 ∨ 1023 < t → refuses Code.BAD_SCALE (.vsrd c ty rd vsa rb)) ∧
    VecWritesReg s c rd ((k.stick vsa).setWidth 64) 0 (exec (.vsraw c rd vsa 0) s) ∧
    VecWritesReg s c rd ((k.stick vsa >>> 64).setWidth 64) 0 (exec (.vsraw c rd vsa 1) s) ∧
    VecWritesReg s c rd (BitVec.ofInt 64 (k.stickQe vsa)) 0 (exec (.vsraw c rd vsa 2) s) ∧
    VecRetires s c (k.setStick vsd ((k.stick vsd >>> 64) <<< 64 ||| (k.rg ra).setWidth 128)) (exec (.vswraw c vsd ra 0) s) ∧
    VecRetires s c (k.setStick vsd ((((k.rg ra).setWidth 62).setWidth 128) <<< 64 ||| ((k.stick vsd).setWidth 64).setWidth 128))
      (exec (.vswraw c vsd ra 1) s)

/-- Compares, masks, and vector memory (R46, R90, R103, R114). -/
def Obligations.VectorMasksAndMemory : Prop :=
  (∀ (s : State) (c : Nat) (ty mask md ma mb : Fin 8) (va vb rd : Fin 32) (l : Lane), s.vecReady c = true → laneOf ty.val = some l →
    let k := s.core c
    let a (i : Nat) : ElemVal := l.num (laneAt l.width i (k.vr va).toNat)
    let b (i : Nat) : ElemVal := l.num (laneAt l.width i (k.vr vb).toNat)
    let sets (p : ElemVal → ElemVal → Bool) (o : Host.Outcome State Fault Refusal) : Prop := Goes o fun t => s.vecOnly t c ∧ s.oneMore t c ∧
      t.core c = { s.after t c with m := (t.core c).m, vflags := (t.core c).vflags } ∧
      ((t.core c).vflags = k.vflags ∨ (t.core c).vflags = k.vflags ||| 16) ∧ (∀ r, r ≠ md → (t.core c).mr r = k.mr r) ∧
      ∀ i, i < 256 → ((t.core c).mr md).getLsbD i = (decide (i < l.count) && k.active mask i && p (a i) (b i))
    sets (fun x y => x.eqv y) (exec (.vcmpeq c ty mask md va vb) s) ∧
    sets (fun x y => !x.isNan && !y.isNan && x.lt y) (exec (.vcmplt c ty mask md va vb) s) ∧
    sets (fun x y => !x.isNan && !y.isNan && !y.lt x) (exec (.vcmple c ty mask md va vb) s) ∧
    sets (fun x y => x.isNan || y.isNan) (exec (.vcmpun c ty mask md va vb) s) ∧
    VecRetires s c (k.setMr md (k.mr ma &&& k.mr mb)) (exec (.mand c md ma mb) s) ∧
    VecRetires s c (k.setMr md (k.mr ma ||| k.mr mb)) (exec (.mor c md ma mb) s) ∧
    VecRetires s c (k.setMr md (k.mr ma ^^^ k.mr mb)) (exec (.mxor c md ma mb) s) ∧
    VecRetires s c (k.setMr md (~~~ k.mr ma)) (exec (.mnot c md ma) s) ∧
    VecWritesReg s c rd (BitVec.ofNat 64 ((List.range l.count).countP fun i => (k.mr ma).getLsbD i)) 0 (exec (.mpopc c ty rd ma) s)) ∧
  (∀ (s : State) (c : Nat) (vd ra : Fin 32) (md : Fin 8) (imm : BitVec 14), s.vecReady c = true →
    let k := s.core c
    let p := k.rg ra + imm.signExtend 64 * 64
    let a := p.toNat
    let mem (ld st : Instr) (n al : Nat) (d : LoadDest) (put : Nat → CoreState) (out : Nat) : Prop :=
      (k.stores = [] → a + n ≤ 0x4_0000 → a % al = 0 → (∀ e ∈ k.pmarks, e.1 + 8 ≤ a ∨ a + n ≤ e.1) →
        VecRetires s c (put (natLE ((List.range n).map fun j => Tbl.get 0 k.pmem (a + j)))) (exec ld s)) ∧
      (s.reach c a n true = .galley → s.crossStopped (coreDie c) 0 = false → a % al = 0 → s.noMarks a n →
        VecRetires s c { k with loads := [⟨a, d, some (overlay k.stores a (s.bytes a n))⟩] } (exec ld s)) ∧
      (s.reach c a n true = .own ∨ s.reach c a n true = .galley → a % al = 0 →
        (k.wu = none ∨ k.wusave.toNat ≤ a ∨ s.reach c a n true = .galley) →
        VecRetires s c { k with stores := k.stores ++ [⟨a, bytesLE n out⟩] } (exec st s)) ∧
      (s.reach c a n true = .nothing → Traps s c Code.BAD_ADDRESS p k.pc (exec ld s) ∧ Traps s c Code.BAD_ADDRESS p k.pc (exec st s)) ∧
      (s.reach c a n true ≠ .nothing → a % al ≠ 0 → Traps s c Code.MISALIGNED p k.pc (exec ld s) ∧
        Traps s c Code.MISALIGNED p k.pc (exec st s))
    mem (.vld c vd ra imm) (.vst c vd ra imm) 256 64 (.v vd) (fun v => k.setVr vd (BitVec.ofNat 2048 v)) (k.vr vd).toNat ∧
    mem (.vldm c md ra imm) (.vstm c md ra imm) 32 32 (.m md) (fun v => k.setMr md (BitVec.ofNat 256 v)) (k.mr md).toNat)

/-- Residue mismatches (R197, R198, R546). The forms that trap first are those of the other statements; these operands trap in none. -/
def Obligations.ResidueMismatch : Prop :=
  (∀ (s : State) (c : Nat) (mask vsd : Fin 8) (vd va vb : Fin 32) (up : BitVec 64), s.vecReady c = true → s.levelOf c = 2 → up ≠ 0 →
    let k := s.core c
    let stops (i : Instr) : Prop := Goes (exec i s) fun t => s.oneMore t c ∧
      t.core c = { s.after t c with run := .halted } ∧ (∀ d, d ≠ c → t.core d = s.core d) ∧ t.mem = s.mem ∧ t.presses = s.presses ∧
      t.fld (a_VEC_STATUS (coreDie c) (coreNo c)) f_VEC_STATUS_STOPPED = 1 ∧
      ∃ x : Detection, t.detections = s.detections ++ [x] ∧ x.die = coreDie c ∧ x.code = Code.RESIDUE_MISMATCH ∧ x.origin = 2 ∧
        x.ukind = (if coreNo c = 12 then 4 else 2) ∧ x.core = coreNo c ∧ x.sub = 0xF ∧ x.seq = k.instret.toNat ∧ x.detail0 = up.toNat
    stops (.vadd c 0 mask vd va vb up) ∧ stops (.vsub c 0 mask vd va vb up) ∧ stops (.vmul c 0 mask vd va vb up) ∧
    stops (.vfma c 0 mask vd va vb up) ∧ stops (.vfnma c 0 mask vd va vb up) ∧ stops (.vsadd c 0 mask vsd va up) ∧
    stops (.vsdot c 0 mask vsd va vb up) ∧ stops (.vsacc c vsd vsd up)) ∧
  (∀ (s : State) (c : Nat) (ty mask : Fin 8) (vd va vb : Fin 32) (up : BitVec 64), s.ready c = true → s.vecStopped c = true →
    exec (.vadd c ty mask vd va vb up) s = .next s ∧ exec (.vmov c ty mask vd va) s = .next s)

/-- Sticks do not see the order or the grouping of what is added to them (R25, R31). -/
def Obligations.StickOrderFree : Prop :=
  (∀ (q : Int) (s : Stick) (xs ys : List ElemVal), xs.Perm ys → xs.foldl (stickAddNum q) s = ys.foldl (stickAddNum q) s) ∧
  (∀ (q : Int) (s : Stick) (xs ys : List ElemVal), s.extractLsb' 126 2 = 0 →
    (xs ++ ys).foldl (stickAddNum q) s = stickJoin (xs.foldl (stickAddNum q) s) (ys.foldl (stickAddNum q) 0)) ∧
  (∀ (s : Stick) (cs ds : List (Int × Nat)), cs.Perm ds →
    cs.foldl (fun t x => stickAdd t x.1 x.2) s = ds.foldl (fun t x => stickAdd t x.1 x.2) s)

/-- The instructions of the press (R59, R67 to R69, R72, R74, R115). -/
def Obligations.PressInstructions : Prop :=
  (∀ (s : State) (c : Nat) (wait raise : Fin 64) (ra : Fin 32), s.ready c = true →
    let k := s.core c
    let p := s.press c
    let a := (k.rg ra).toNat
    let d := natLE (k.pbytes a 32)
    (k.stores = [] → p.halted = false → a % 32 = 0 → a + 32 ≤ 0x4_0000 → (∀ e ∈ k.pmarks, e.1 + 8 ≤ a ∨ a + 32 ≤ e.1) →
      (s.formeCheck c d = none → p.staging.length < 4 →
        PressTakes s c { p with staging := p.staging ++ [⟨d, wait.val, raise.val, p.ord, false⟩], ord := p.ord + 1 } (exec (.forme c wait raise ra) s)) ∧
      (s.drainCheck c d = none → p.drains.length < 4 →
        PressTakes s c { p with drains := p.drains ++ [⟨d, wait.val, raise.val, p.ord, .queued⟩], ord := p.ord + 1 }
          (exec (.stickrd c wait raise ra) s))) ∧
    (k.stores = [] → p.halted = true →
      Traps s c Code.PRESS_HALTED (k.rg ra) k.pc (exec (.forme c wait raise ra) s) ∧
      Traps s c Code.PRESS_HALTED (k.rg ra) k.pc (exec (.stickrd c wait raise ra) s))) ∧
  (∀ (s : State) (c : Nat) (m : Fin 16) (ra : Fin 32), s.ready c = true → (s.press c).halted = false →
    PressTakes s c { s.press c with
      clears := (s.press c).clears ++ (platens m.val).map fun n =>
        ⟨n, signed 12 (((s.core c).rg ra).toNat / 2 ^ (12 * n) % 2 ^ 12), (s.press c).ord⟩
      ord := (s.press c).ord + 1 } (exec (.stickclr c m ra) s)) ∧
  (∀ (s : State) (c : Nat) (m : Fin 16) (f a : Fin 2) (raise : Fin 64),
    let p := s.press c
    let o : PressOp := ⟨m.val, f.val, a.val, raise.val⟩
    let issued (t : State) : Prop := (t.press c).seq = (p.seq + 1) % 2 ^ 48 ∧ (t.press c).pending = none ∧
      (t.press c).sticks = p.sticks ∧ (t.press c).slots = p.slots ∧ t.mem = s.mem ∧ t.regs = s.regs ∧
      (∀ d, d ≠ c → t.core d = s.core d ∧ t.press d = s.press d) ∧ ∃ r, (t.press c).running = some r ∧ r.op = o ∧
        r.seq = (p.seq + 1) % 2 ^ 48 ∧ r.forme = p.slot f.val ∧
        r.acts = (platens m.val).map fun q => (q, p.slot (2 + 2 * q + a.val))
    (s.ready c = true → p.pressCheck o = none → s.pressUnmet c o = none →
      Goes (exec (.press c m f a raise) s) fun t => issued t ∧ s.oneMore t c ∧ t.core c = s.after t c) ∧
    (s.ready c = true → p.pressCheck o = none → s.pressUnmet c o ≠ none →
      Goes (exec (.press c m f a raise) s) fun t => s.onlyPress t c ∧ t.core c = { s.core c with run := .pressStall } ∧
        t.press c = { p with pending := some o }) ∧
    (s.ready c = true → p.halted = true →
      Goes (exec (.press c m f a raise) s) fun t => (s.core c).tstatus.getLsbD 3 = false →
        (t.core c).tcause = BitVec.ofNat 64 Code.PRESS_HALTED ∧ (t.core c).tval = 0 ∧ (t.core c).pc = (s.core c).tvec) ∧
    (s.ready c = true → p.halted = false → m = 0 →
      Goes (exec (.press c m f a raise) s) fun t => (s.core c).tstatus.getLsbD 3 = false →
        (t.core c).tcause = BitVec.ofNat 64 Code.PRESS_BAD_MASK ∧ (t.core c).tval = 0 ∧ (t.core c).pc = (s.core c).tvec) ∧
    ((s.core c).run = .pressStall → (s.core c).halting = false → (s.core c).loads = [] → (s.core c).stores.length < 8 →
      s.stopped (coreDie c) = false → (s.core c).takeable = false → p.pending = some o → p.pressCheck o = none → s.pressUnmet c o = none →
      Goes (exec (.pressIssue c) s) fun t => issued t ∧ s.oneMore t c ∧
        t.core c = { s.after t c with run := .running }))

/-- What a PRESS computes (R25, R26, R66, R69, R78, R86). -/
def Obligations.PressComputesProduct : Prop :=
  (∀ (s : State) (c : Nat) (flips : List StickFlip) (r : PressRun),
    let p := s.press c
    let die := coreDie c
    s.stopped die = false → p.running = some r → p.compare = none →
    Goes (exec (.pressComplete c flips) s) fun t => (t.press c).running = none ∧ t.mem = s.mem ∧ t.marks = s.marks ∧
      (∀ d, d ≠ c → t.core d = s.core d ∧ (d ≠ proofCore die → t.press d = s.press d)) ∧
      (coreNo c ≠ 12 → t.fld (a_PRESS_BUSY_CYCLES die (coreNo c)) f_PRESS_BUSY_CYCLES_COUNT =
        (s.fld (a_PRESS_BUSY_CYCLES die (coreNo c)) f_PRESS_BUSY_CYCLES_COUNT + 128) % 2 ^ f_PRESS_BUSY_CYCLES_COUNT.width) ∧
      if ∃ q ∈ platens r.op.mask, Tbl.get false p.ckv q = true then
        t.core c = s.core c ∧ ∃ x, (t.press c).compare = some x ∧ x.run = r
      else t.core c = (s.core c).raise r.op.raise ∧ (t.press c).compare = none) ∧
  ∀ (s : State) (c : Nat) (r : PressRun) (w : Tile) (x : Nat → Tile) (src : Nat → Option FormeSrc),
    let p := s.press c
    s.stopped (coreDie c) = false → p.running = some r → p.compare = none →
    r.forme.tile = some w → r.acts = (platens r.op.mask).map (fun q => (q, ⟨some (x q), none, false, src q⟩)) →
    (coreNo c = 12 → (s.chkOf (coreDie c)).tproof = none) →
    (∀ q, s.stuck c q = []) → (∀ q, Tbl.get false p.ckv q = false) →
    (∀ j k, (w.factor j k).nan = false ∧ (w.factor j k).inf = false) →
    (∀ q i k, ((x q).factor i k).nan = false ∧ ((x q).factor i k).inf = false) →
    Goes (exec (.pressComplete c []) s) fun t =>
      (t.press c).running = none ∧ t.mem = s.mem ∧ (∀ d, d ≠ c → t.core d = s.core d ∧
        (d ≠ proofCore (coreDie c) ∨ (s.chkOf (coreDie c)).tproof = none → t.press d = s.press d)) ∧
      t.core c = (s.core c).raise r.op.raise ∧
      (∀ q i j, q ∈ platens r.op.mask → i < 128 → j < 128 →
        stickA ((t.press c).stickAt q i j) = (BitVec.ofInt 120 (stickA (p.stickAt q i j) +
          ((List.range (pressK w.fmt)).map fun k => ((x q).factor i k).n * (w.factor j k).n).sum)).toInt ∧
        stickSt ((t.press c).stickAt q i j) = ((List.range (pressK w.fmt)).foldl (fun a k =>
          a ||| ((x q).factor i k).st ||| (w.factor j k).st) (stickSt (p.stickAt q i j) ||| stUSED)) % 64) ∧
      (∀ q i, q < 4 → q ∉ platens r.op.mask → i < 128 → (t.press c).row q i = p.row q i)

/-- Staging (R58 to R64, R155). -/
def Obligations.PressStaging : Prop :=
  (∀ (s : State) (c : Nat) (e : FormeEnt) (rest : List FormeEnt),
    let p := s.press c
    let n := formeSlot e.desc
    let k0 := if e.taken then s.core c else (s.core c).take e.wait
    s.stopped (coreDie c) = false → s.crossStopped (coreDie c) 0 = false → p.staging = e :: rest → (e.taken = true ∨ s.mayTake c 1 e.wait 0 = true) →
    (p.usesSlot n = true → Goes (exec (.formeTileStaged c) s) fun t => s.onlyPress t c ∧ t.core c = k0 ∧
      t.press c = { p with staging := { e with taken := true } :: rest }) ∧
    (p.usesSlot n = false → e.taken = true → (s.stageRows c e.desc (e.desc / 2 ^ 208 % 256 + 1) 0).2 = none →
      Goes (exec (.formeTileStaged c) s) fun t => (t.press c).staging = rest ∧ ((t.press c).slot n).poison = true ∧
        ((t.press c).slot n).tile = none ∧ (∀ m, m ≠ n → (t.press c).slot m = p.slot m) ∧
        (t.core c).tokens = (k0.raise e.raise).tokens) ∧
    (p.usesSlot n = false → s.marks = [] → Goes (exec (.formeTileStaged c) s) fun t => t.mem = s.mem ∧ t.regs = s.regs ∧
      (∀ d, d ≠ c → t.core d = s.core d ∧ t.press d = s.press d) ∧ (t.press c).staging = rest ∧
      ((t.press c).slot n).poison = false ∧ ((t.press c).slot n).sums = none ∧
      (∃ x, ((t.press c).slot n).tile = some x ∧ (∀ v, formeWin e.desc = some v → x.win = v) ∧ x.fmt = e.desc / 2 ^ 224 % 16 ∧ x.rows.length = e.desc / 2 ^ 208 % 256 + 1 ∧
        ∀ r, r < x.rows.length → ∀ j, j < e.desc / 2 ^ 216 % 256 + 1 →
          let a := e.desc % 2 ^ 48 + 64 * (e.desc / 2 ^ 176 % 2 ^ 16) * r
          let sa := e.desc / 2 ^ 64 % 2 ^ 48 + e.desc / 2 ^ 192 % 2 ^ 16 * r
          let v := (elemNum x.fmt (rowElem x.fmt (s.bytes a (rowBytes x.fmt (e.desc / 2 ^ 216 % 256 + 1))) j)).scale
            (signed 16 (e.desc / 2 ^ 160))
          x.factor r j = factorOf x.win (if isMx x.fmt then v.mx (s.byte (sa + j / 32)).toNat else v)) ∧
      (∀ m, m ≠ n → (t.press c).slot m = p.slot m) ∧
      (if n < 2 then (t.press c).sumsDue = p.sumsDue ++ [(n, e.raise)] ∧ (t.core c).tokens = k0.tokens ∧
          (t.galley (coreDie c)).formes = (s.galley (coreDie c)).formes ++ [c]
        else (t.press c).sumsDue = p.sumsDue ∧ (t.core c).tokens = (k0.raise e.raise).tokens ∧ t.galleys = s.galleys))) ∧
  (∀ (s : State) (c n raise : Nat) (rest : List (Nat × Nat)) (w : Tile),
    let p := s.press c
    s.stopped (coreDie c) = false → s.crossStopped (coreDie c) 0 = false → p.sumsDue = (n, raise) :: rest → (∀ e ∈ rest, e.1 ≠ n) → (p.slot n).tile = some w →
    s.formeTurn c = true →
    Goes (exec (.formeRowSums c) s) fun t => t = { s with cores := t.cores, presses := t.presses, galleys := t.galleys } ∧
      (∀ d, d ≠ c → t.core d = s.core d ∧ t.press d = s.press d) ∧
      (t.galley (coreDie c)).formes = (s.galley (coreDie c)).formes.erase c ∧
      t.core c = (s.core c).raise raise ∧ (t.press c).sumsDue = rest ∧
      ∃ l, ((t.press c).slot n).sums = some l ∧ l.length = pressK w.fmt ∧
        ∀ k, k < pressK w.fmt → l.getD k 0 = ((List.range 128).map fun j => (w.factor j k).n).sum) ∧
  (∀ (s : State) (c : Nat), (s.press c).staging = [] ∨ s.crossStopped (coreDie c) 0 = true → exec (.formeTileStaged c) s = .next s) ∧
  (∀ (s : State) (c : Nat), (s.press c).sumsDue = [] ∨ s.formeTurn c = false ∨ s.crossStopped (coreDie c) 0 = true →
    exec (.formeRowSums c) s = .next s)

/-- Comparisons, halts and resumes of a press (R69, R78, R80, R83, R86). -/
def Obligations.PressChecking : Prop :=
  (∀ (s : State) (c : Nat) (x : Compare), s.stopped (coreDie c) = false → (s.press c).compare = some x →
    (x.fails = [] → Goes (exec (.checksumComparison c) s) fun t => s.onlyPress t c ∧
      t.press c = { s.press c with compare := none } ∧ t.core c = (s.core c).raise x.run.op.raise) ∧
    (∀ p0 row diff more, x.fails = (p0, row, diff) :: more → (s.chkOf (coreDie c)).tproof = none →
      Goes (exec (.checksumComparison c) s) fun t => t.mem = s.mem ∧ (t.press c).halted = true ∧ (t.press c).compare = none ∧
        (t.press c).staging = [] ∧ (t.press c).sticks = (s.press c).sticks ∧ (t.core c).tokens = (s.core c).tokens ∧
        (∀ d, d ≠ c → t.press d = s.press d ∧ t.core d = s.core d) ∧
        (∃ y : Detection, t.detections = s.detections ++ [y] ∧ y.code = Code.PRESS_CHECKSUM ∧ y.die = coreDie c ∧
          y.core = coreNo c ∧ y.seq = x.run.seq ∧ y.detail0 = diff % 2 ^ 64) ∧
        (s.fld (a_CK_LOC (coreDie c) (coreNo c)) f_CK_LOC_VALID = 0 →
          t.fld (a_CK_LOC (coreDie c) (coreNo c)) f_CK_LOC_VALID = 1 ∧ t.fld (a_CK_LOC (coreDie c) (coreNo c)) f_CK_LOC_ROW = row % 128 ∧
          t.fld (a_CK_FAULT_SEQ (coreDie c) (coreNo c)) f_CK_FAULT_SEQ_SEQ = x.run.seq % 2 ^ 48))) ∧
  (∀ (s : State) (src : Source) (c : Nat),
    Accepts s src (cmdPressHalt c) (exec (.pressHalt src c) s) (fun t => t.mem = s.mem ∧ (t.press c).halted = true ∧
      (t.press c).staging = [] ∧ (t.press c).sticks = (s.press c).sticks ∧ ∀ d, d ≠ c → t.press d = s.press d) ∧
    Accepts s src (cmdPressResume c) (exec (.pressResume src c) s) (fun t => t.mem = s.mem ∧ (t.press c).halted = false ∧
      (t.press c).staging = [] ∧ (t.press c).drains = [] ∧ (∀ n, (t.press c).slot n = Slot.empty) ∧
      (∀ q i j, (t.press c).stickAt q i j = 0) ∧ ∀ d, d ≠ c → t.press d = s.press d))

/-- Clears and drains (R72, R74, R75, R77). -/
def Obligations.PressClearsAndDrains : Prop :=
  (∀ (s : State) (c : Nat) (x : ClearEnt),
    s.stopped (coreDie c) = false → (s.press c).clears.find? (s.press c).clearReady = some x →
    Goes (exec (.stickclrExecute c) s) fun t => (t.press c).clears = (s.press c).clears.erase x ∧ t.mem = s.mem ∧
      ((s.chkOf (coreDie c)).tproof = none → s.levelOf c < 2 → s.onlyPress t c) ∧
      (∀ i j, i < 128 → (t.press c).stickAt x.set i j = 0 ∧ Tbl.get 0 (t.press c).csticks (x.set * 128 + i) = 0) ∧
      Tbl.get 0 (t.press c).qe x.set = x.qe ∧ Tbl.get false (t.press c).ckv x.set = decide (1 ≤ s.levelOf c) ∧
      ∀ q i, q ≠ x.set → i < 128 → (t.press c).row q i = (s.press c).row q i ∧
        Tbl.get 0 (t.press c).qe q = Tbl.get 0 (s.press c).qe q) ∧
  (∀ (s : State) (c : Nat) (d : DrainEnt),
    let p := s.press c
    let set := d.desc / 2 ^ 182 % 4
    s.stopped (coreDie c) = false → p.drains.find? (fun e => e.phase != .proving) = some d →
    (d.phase = .taken ∨ d.phase = .queued ∧ s.mayTake c 2 d.wait 0 = true) →
    Goes (exec (.drainHold c) s) fun t => s.onlyPress t c ∧
      t.core c = (if d.phase = .queued then (s.core c).take d.wait else s.core c) ∧
      t.press c = { p with drains := p.drains.map fun e =>
        if e = d then { e with phase := if p.before set d.ord || p.incomplete set then .taken else .held } else e }) ∧
  (∀ (s : State) (c : Nat) (d : DrainEnt) (flips : List StickFlip),
    let p := (s.press c).flip flips
    let set := d.desc / 2 ^ 182 % 4
    let row (i : Nat) : List Byte × List Byte × Nat :=
      drainRow d.desc (Tbl.get 0 p.qe set) ((List.range 128).map fun j => p.stickAt set i j)
    let at1 (i : Nat) : Nat := d.desc % 2 ^ 48 + 64 * (d.desc / 2 ^ 144 % 2 ^ 16) * i
    let at2 (i : Nat) : Nat := d.desc / 2 ^ 64 % 2 ^ 48 + d.desc / 2 ^ 160 % 2 ^ 16 * i
    s.stopped (coreDie c) = false → s.crossStopped (coreDie c) 0 = false → p.drains.find? (fun e => e.phase == .held) = some d → s.marks = [] →
    (Tbl.get false p.ckv set = true → ∀ i, i < 128 → p.rowDiff set i = 0) →
    Goes (exec (.drainRelease c flips) s) fun t => t.marks = s.marks ∧
      (if s.provesNext c set then (t.core c).tokens = (s.core c).tokens ∧
          (t.press c).drains = p.drains.map fun e => if e = d then { e with phase := .proving } else e
        else (t.press c).drains = p.drains.erase d ∧ (t.core c).tokens = ((s.core c).raise d.raise).tokens) ∧
      (if d.desc.testBit 180 then ∀ i j, i < 128 → (t.press c).stickAt set i j = 0 else (t.press c).sticks = p.sticks) ∧
      ((∀ i, i < 128 → (row i).2.1 = []) → (∀ i, i < 128 → (row i).1.length ≤ 64 * (d.desc / 2 ^ 144 % 2 ^ 16)) →
        ∀ i b, i < 128 → (h : b < (row i).1.length) → t.byte (at1 i + b) = (row i).1[b]) ∧
      ∀ a, (∀ i, i < 128 → (a < at1 i ∨ at1 i + (row i).1.length ≤ a) ∧ (a < at2 i ∨ at2 i + (row i).2.1.length ≤ a)) →
        t.byte a = s.byte a) ∧
  (∀ (s : State) (c : Nat) (d : DrainEnt),
    let p := s.press c
    let set := d.desc / 2 ^ 182 % 4
    let dst := d.desc % 2 ^ 48
    let step := 64 * (d.desc / 2 ^ 144 % 2 ^ 16)
    s.stopped (coreDie c) = false → s.crossStopped (coreDie c) 0 = false → p.drains.find? (fun e => e.phase == .held) = some d → s.marks = [] →
    Tbl.get false p.ckv set = false → s.proving c set = false → d.desc.testBit 181 = true → d.desc.testBit 180 = false → 2048 ≤ step →
    Goes (exec (.drainRelease c []) s) fun t => (t.press c).drains = p.drains.erase d ∧ (t.press c).sticks = p.sticks ∧
      (t.core c).tokens = ((s.core c).raise d.raise).tokens ∧ (∀ e, e ≠ c → t.core e = s.core e ∧ t.press e = s.press e) ∧
      (∀ i j b, i < 128 → j < 128 → b < 16 →
        t.byte (dst + step * i + 16 * j + b) = BitVec.ofNat 8 ((p.stickAt set i j).toNat / 2 ^ (8 * b))) ∧
      ∀ a, (∀ i, i < 128 → a < dst + step * i ∨ dst + step * i + 2048 ≤ a) → t.byte a = s.byte a)

/-- Register accesses as they arrive (R15, R16, R167, R389), the reads where their way is up and nobody else reads that die (R239). -/
def Obligations.RegisterAccesses : Prop :=
  (∀ (s : State) (src : Source) (a : Nat), (∀ c, src ≠ .pilot c) → src ≠ .device → inRegs a = true → a % 8 = 0 →
    s.dieUp (regDie a) = true →
    (∀ v, exec (.registerWrite src a 8 v) s = .next { s with gathered := s.gathered ++ [⟨src, a, true, true, v⟩] }) ∧
    (∀ lo hi : Word, Goes (exec (.registerWrite src a 4 lo) s) fun t => t = { s with holds := t.holds } ∧
      Goes (exec (.registerWrite src (a + 4) 4 hi) t) fun u => u = { s with holds := u.holds, gathered := s.gathered ++
        [⟨src, a, true, true, BitVec.ofNat 64 (lo.toNat % 2 ^ 32 + hi.toNat % 2 ^ 32 * 2 ^ 32)⟩] }) ∧
    (∀ size v, size ≠ 4 → size ≠ 8 →
      exec (.registerWrite src a size v) s = .next { s with gathered := s.gathered ++ [⟨src, a, false, false, v⟩] }) ∧
    (let free (u : State) : Prop := u.wayOpen src a = true ∧ ∀ y ∈ u.regReads, regDie y.addr ≠ regDie a
      let v := ((s.regFlits src a 0 4).readReg a).toNat
      ∀ tag, free s → Goes (exec (.registerHalfRead src a tag) s) fun t => s.computeKept t ∧ s.onlyFlits t ∧
        (∃ x : Out, t.outbox = s.outbox ++ [x] ∧ x.dest = tag ∧ x.data = [0, v % 2 ^ 32]) ∧
        ∀ u tag', u.latches = t.latches → u.dieUp (regDie a) = true → free u →
          Goes (exec (.registerHalfRead src (a + 4) tag') u) fun w => u.computeKept w ∧ u.onlyFlits w ∧
            ∃ x : Out, w.outbox = u.outbox ++ [x] ∧ x.dest = tag' ∧ x.data = [0, v / 2 ^ 32])) ∧
  (∀ (s : State) (a : Nat), Goes (exec (.errorLogRead a) s) fun t => t = { s with unread := t.unread } ∧
    ∀ r, r ∈ t.unread ↔ r ∈ s.unread ∧ r ≠ a - a % 32)

/-- Queues and tokens (R99, R116, R119). -/
def Obligations.QueuesAndTokens : Prop :=
  ∀ (s : State) (c : Nat), s.ready c = true →
    let k := s.core c
    (∀ (queue : BitVec 8) (ra : Fin 32),
      let q := queue.toNat
      let a := (k.rg ra).toNat
      let d := natLE (k.pbytes a 16)
      let n := 16 * hdLen d
      k.stores = [] → isQueue q = true → q < 0x20 → a % 16 = 0 → a + 16 ≤ 0x4_0000 → hdReserved d = false → 1 ≤ hdLen d →
      hdLen d ≤ 16 → a + n ≤ 0x4_0000 → k.pmarked a n 2 = [] → k.pmarked a n 1 = [] → 0 < k.cap q →
      ((k.queue q).length < k.cap q → Goes (exec (.enq c queue ra) s) fun t =>
        t = { s with cores := t.cores, presses := t.presses } ∧ (∀ e, e ≠ c → t.core e = s.core e ∧ t.press e = s.press e) ∧
        s.oneMore t c ∧ t.core c = { s.after t c with queues := (t.core c).queues } ∧
        (∀ q', (t.core c).queue q' = if q' = q then k.queue q ++ [⟨k.pbytes a n⟩] else k.queue q') ∧
        t.press c = if q < 4 ∧ hdOp d = 0x28 ∧ hdLen d = 5 then
          (s.press c).addStream q (natLE (k.pbytes a n)) else s.press c) ∧
      (k.cap q ≤ (k.queue q).length → Traps s c Code.QUEUE_FULL (BitVec.ofNat 64 q) k.pc (exec (.enq c queue ra) s))) ∧
    (∀ tk : Fin 64, tk ≠ 0 →
      let n := k.token tk.val
      let leaves (v : Nat) (rd : Fin 32) (w : Word) (o : Host.Outcome State Fault Refusal) : Prop :=
        Goes o fun t => s.onlyCore t c ∧ s.oneMore t c ∧ (t.core c).pc = k.pc + 4 ∧ (t.core c).instret = k.instret + 1 ∧
          (∀ x, (t.core c).token x = if x = tk.val then v else k.token x) ∧
          (∀ r, (t.core c).rg r = if r = rd ∧ r ≠ 0 then w else k.rg r) ∧
          (t.core c).evpend = (if n = 0 ∧ v ≠ 0 ∧ k.tkevmask.getLsbD tk.val then k.evpend ||| 1 else k.evpend) ∧
          t.core c = { s.after t c with g := (t.core c).g, tokens := (t.core c).tokens, evpend := (t.core c).evpend }
      (n ≠ 0 → leaves (n - 1) 0 0 (exec (.tkwait c tk) s)) ∧
      (n = 0 → exec (.tkwait c tk) s = .next (s.setCore c { k with run := .tkwait, waitTk := some tk.val })) ∧
      (∀ rd, (n ≠ 0 → leaves (n - 1) rd 1 (exec (.tktry c rd tk) s)) ∧ (n = 0 → leaves 0 rd 0 (exec (.tktry c rd tk) s)) ∧
        leaves n rd (BitVec.ofNat 64 n) (exec (.tkread c rd tk) s)) ∧
      (n < 65535 → leaves (n + 1) 0 0 (exec (.tkraise c tk) s)) ∧
      (65535 ≤ n → Traps s c Code.TOKEN_OVERFLOW (BitVec.ofNat 64 tk.val) k.pc (exec (.tkraise c tk) s)) ∧
      ∀ ra, leaves ((k.rg ra).toNat % 65536) 0 0 (exec (.tkset c tk ra) s)) ∧
    ∀ rd ra, ∀ i ∈ [Instr.tkwait c 0, .tktry c rd 0, .tkread c rd 0, .tkraise c 0, .tkset c 0 ra],
      Traps s c Code.ILLEGAL_INSTRUCTION (BitVec.ofNat 64 (pilotWord i)) k.pc (exec i s)

/-- What starts, stops, resets and replaces a pilot (R88, R124, R129, R131). -/
def Obligations.PilotCommands : Prop :=
  (∀ (s : State) (src : Source) (c : Nat),
    let k := s.core c
    AcceptsOnly s src (cmdPilotRun c) [a_MGMT_BOOT] (exec (.pilotRun src c) s) (fun t => t.mem = s.mem ∧ t.presses = s.presses ∧
      (∀ d, d ≠ c → t.core d = s.core d) ∧
      t.core c = { k with run := if k.run = .halted then .running else k.run, halting := false }) ∧
    AcceptsOnly s src (cmdPilotHalt c) [] (exec (.pilotHalt src c) s) (fun t => t.mem = s.mem ∧ t.presses = s.presses ∧
      (∀ d, d ≠ c → t.core d = s.core d) ∧
      t.core c = if k.run = .running ∧ k.loadBlocks = false then { k with run := .halted }
        else if k.run = .running ∨ k.run = .tkwait ∨ k.run = .waitev ∨ k.run = .pressStall then { k with halting := true } else k) ∧
    (∀ v, AcceptsOnly s src (cmdMailbox c v) [a_PILOT_MAILBOX (coreDie c) (coreNo c)] (exec (.pilotMailboxWrite src c v) s) (fun t =>
      t.mem = s.mem ∧ t.presses = s.presses ∧ (∀ d, d ≠ c → t.core d = s.core d) ∧
      t.reg (a_PILOT_MAILBOX (coreDie c) (coreNo c)) = v ∧ t.core c = { k with evpend := k.evpend ||| 1024 })) ∧
    Accepts s src (cmdPilotReset c) (exec (.pilotReset src c) s) (fun t =>
      (∀ r, (t.core c).rg r = 0) ∧ (∀ r, (t.core c).vr r = 0) ∧ (∀ r, (t.core c).mr r = 0) ∧ (∀ n, (t.core c).token n = 0) ∧
      (∀ q, (t.core c).queue q = []) ∧ (t.core c).prog = false ∧ ((t.core c).run = .halted ∨ (t.core c).run = .retired) ∧
      (t.core c).loads = [] ∧ (t.core c).evpend = 0 ∧ (t.core c).tstatus = 0 ∧ (t.core c).instret = 0 ∧
      (t.press c).seq = 0 ∧ (t.press c).halted = false ∧ (t.press c).staging = [] ∧ (t.press c).drains = [] ∧
      (t.press c).pending = none ∧ (∀ n, (t.press c).slot n = Slot.empty) ∧ ∀ q i j, (t.press c).stickAt q i j = 0)) ∧
  (∀ (s : State) (c : Nat) (fi : Bool),
    let die := coreDie c
    let k := s.core c
    let p := 13 * die + 12
    let seen := (s.storesOut c).core c
    s.standAsks.find? (fun a => a.1 == c) = some (c, fi) → k.run ≠ .retired → coreNo c ≠ 12 → s.proofOff die = false →
    k.saveBad = false → k.inv →
    Goes (exec (.standIn c) s) fun t =>
      (t.core c).run = .retired ∧ (t.core c).loads = [] ∧ (∀ n, (t.core c).token n = 0) ∧
      (t.core p).standin = some c ∧ (t.core p).run = .running ∧ (t.core p).qcap = k.qcap ∧
      (∀ a, a < k.wusave.toNat → Tbl.get 0 (t.core p).pmem a = Tbl.get 0 seen.pmem a) ∧
      (t.press c).staging = [] ∧ (∀ e ∈ (t.press c).drains, e.phase = .held ∧ e.raise = 0) ∧
      (∀ r, (t.press c).running = some r → r.op.raise = 0) ∧
      (k.wu = none → (t.core p).prog = false ∧ (∀ r, (t.core p).rg r = 0) ∧ (∀ r, (t.core p).vr r = 0) ∧
        (t.core p).pc = s.reg (a_PILOT_ENTRY die (coreNo c))) ∧
      (∀ w, k.wu = some w → (t.core p).pc = w.entry ∧ (t.core p).prog = true ∧ (t.core p).vct = w.vct ∧
        (∀ n, (t.core p).token n = Tbl.get 0 w.tokens n) ∧
        ∀ i, i < 7 → (t.core p).rg (Fin.ofNat 32 (i + 1)) = w.regs.getD i 0) ∧
      (s.enginesIdle die → (s.chkOf die).tproof = none → t.standAsks = s.standAsks.erase (c, fi) ∧
        (k.stores = [] → (s.core p).stores = [] → (k.wu = none → ∀ e ∈ (s.press p).drains, e.phase ≠ .held) → t.mem = s.mem) ∧ ∀ d, d ≠ c → d ≠ p → t.core d = s.core d))

/-- Galley banks and their scrub (R132 to R134, R137). -/
def Obligations.GalleyBanksAndScrub : Prop :=
  (∀ (s : State) (die bank : Nat) (q : GalleyReq), die < 12 → bankOk die bank q = true →
    (∀ bs, q.data = some bs → q.addr % 8 = 0 → q.len % 8 = 0 → Goes (exec (.galleyBankServe die bank [q]) s) fun t =>
      t = { s with mem := t.mem, marks := t.marks, galleys := t.galleys } ∧
      Tbl.get 0 (t.galley die).ptrs bank = (q.port + 1) % 72 ∧
      (∀ i, (h : i < bs.length) → t.byte (q.addr + i) = bs[i]) ∧ (∀ i, i < bs.length → t.markAt (q.addr + i) = 0) ∧
      ∀ a, a < q.addr ∨ q.addr + bs.length ≤ a → t.byte a = s.byte a) ∧
    (q.data = none → Goes (exec (.galleyBankServe die bank [q]) s) fun t => t.mem = s.mem ∧ t.cores = s.cores ∧
      Tbl.get 0 (t.galley die).ptrs bank = (q.port + 1) % 72)) ∧
  (∀ (s : State) (die bank : Nat) (x y : GalleyReq), die < 12 → bankOk die bank x = true → bankOk die bank y = true →
    Tbl.get 0 (s.galley die).ptrs bank ≤ x.port → x.port < y.port →
    Goes (exec (.galleyBankServe die bank [x, y]) s) fun t => Tbl.get 0 (t.galley die).ptrs bank = (x.port + 1) % 72 ∧
      t.fld (a_GALLEY_CONFLICT die) f_GALLEY_CONFLICT_COUNT =
        (s.fld (a_GALLEY_CONFLICT die) f_GALLEY_CONFLICT_COUNT + 1) % 2 ^ f_GALLEY_CONFLICT_COUNT.width) ∧
  (∀ (s : State) (die : Nat), die < 12 → s.stopped die = false →
    let n := (s.galley die).scrub
    n < 0x4_0000 →
    Goes (exec (.galleyScrub die) s) fun t => t.mem = s.mem ∧ t.cores = s.cores ∧ (t.galley die).scrub = (n + 1) % 0x4_0000 ∧
      t.fld (a_GALLEY_SCRUB die) f_GALLEY_SCRUB_PASSES = (s.fld (a_GALLEY_SCRUB die) f_GALLEY_SCRUB_PASSES +
        if n + 1 = 0x4_0000 then 1 else 0) % 2 ^ f_GALLEY_SCRUB_PASSES.width ∧
      ∀ i, i < 128 → s.markAt (galleyBase die + 1024 * n + 8 * i) ≤ 1 → t.markAt (galleyBase die + 1024 * n + 8 * i) = 0)

/-- How a case engine starts a descriptor (R120, R140, R144, R145, R167). -/
def Obligations.EngineStarts : Prop :=
  ∀ (s : State) (c e op : Nat) (i : Instr) (d : Desc),
    let die := coreDie c
    let n := coreNo c
    let x := d.num
    let u := { s with cores := Tbl.set CoreState.init s.cores c ((s.core c).headTaken (0x10 + e) x) }.setEngine die e ⟨none, (n + 1) % 13⟩
    let fails (code detail : Nat) : Prop := Goes (exec i s) fun t =>
      t.mem = s.mem ∧ t.presses = s.presses ∧ (∀ b, b ≠ c → t.core b = s.core b) ∧
      t.core c = ((s.core c).headTaken (0x10 + e) x).fire 6 ∧ t.engine die e = ⟨none, (n + 1) % 13⟩ ∧
      t.fld (a_ENG_ERRCNT die e) f_ENG_ERRCNT_COUNT =
        min (s.fld (a_ENG_ERRCNT die e) f_ENG_ERRCNT_COUNT + 1) (2 ^ f_ENG_ERRCNT_COUNT.width - 1) ∧
      let m := s.fld (a_ENG_ERRPTR die e n) f_ENG_ERRPTR_NEXT
      t.fld (a_ENG_ERRPTR die e n) f_ENG_ERRPTR_NEXT = (m + 1) % 8 ∧
      t.reg (a_ERRLOG die e n m 0) = BitVec.ofNat 64 (hdTag x) ∧
      t.reg (a_ERRLOG die e n m 1) = BitVec.ofNat 64 (code * 2 ^ 48 + hdOp x * 2 ^ 40 + (0x10 + e) * 2 ^ 32) ∧
      t.reg (a_ERRLOG die e n m 3) = BitVec.ofNat 64 detail
    (e, op, i) ∈ engineRows c → s.stopped die = false → (s.engine die e).run = none → s.engPick die e = some n →
    ((s.core c).queue (0x10 + e)).head? = some d →
    (hdOp x = op → (jobOf c e u x).check = none →
      ((jobOf c e u x).left ⟨0, 0, 0, 0⟩ u ≤ 1 → Goes (exec i s) fun t =>
        t = { s with cores := t.cores, engines := t.engines } ∧ (∀ b, b ≠ c → t.core b = s.core b) ∧
        t.core c = (s.core c).headTaken (0x10 + e) x ∧
        t.engine die e = ⟨some ⟨n, x, ⟨0, 0, 0, 0⟩⟩, (n + 1) % 13⟩ ∧ ∀ f, f < 16 → f ≠ e → t.engine die f = s.engine die f) ∧
      Goes (exec i s) fun t => (∃ acc, (t.engine die e).run = some ⟨n, x, acc⟩) ∨
        (t.engine die e).run = none ∧ (t.core c).evpend.getLsbD 6 = true) ∧
    (∀ code detail, hdOp x = op → (jobOf c e u x).check = some (code, detail) → fails code detail) ∧
    (op = 1 → engOpOk e (hdOp x) = false → fails Code.ENGINE_BAD_OP 0)

/-- What the engines leave behind (R141, R147, R148, R158, R162, R166, R167). -/
def Obligations.EngineResults : Prop :=
  ∀ (s : State) (die e n d : Nat), die < 12 → n < 13 → s.stopped die = false → s.marks = [] →
    let src := trefOf (bits d 255 128)
    let dst := trefOf (bits d 383 256)
    let w := etBytes dst.et
    let out := Goes (exec (.caseEngineCompletion die e) s)
    let ended (t : State) : Prop := t.core (13 * die + n) = (s.core (13 * die + n)).raise (hdRaise d) ∧
      (∀ b, b ≠ 13 * die + n → t.core b = s.core b) ∧ (t.engine die e).run = none ∧ (t.engine die e).ptr = (s.engine die e).ptr ∧
      t.fld (a_ENG_DONE die e) f_ENG_DONE_COUNT = (s.fld (a_ENG_DONE die e) f_ENG_DONE_COUNT + 1) % 2 ^ f_ENG_DONE_COUNT.width
    (s.engine die e).run = some ⟨n, d, ⟨0, 0, 0, 0⟩⟩ →
    (e = 0 → hdOp d = 1 → dst.rowBytes ≤ dst.pitch → etPlain src.et = true → src.et = dst.et → dst.cols = src.rows → dst.rows = src.cols →
      src.rows ≤ 64 → src.cols ≤ 64 → out fun t => ended t ∧ t.hist = s.hist ∧
        (∀ i j b, i < src.rows → j < src.cols → b < w → t.byte (dst.elemAddr j i + b) = s.byte (src.elemAddr i j + b)) ∧
        ∀ a, (∀ j, j < dst.rows → a < dst.rowAddr j ∨ dst.rowAddr j + dst.rowBytes ≤ a) → t.byte a = s.byte a) ∧
    (e = 1 → hdOp d = 1 → dst.rowBytes ≤ dst.pitch → etPlain src.et = true → src.et = dst.et → dst.cols = src.cols → dst.rows * dst.rowBytes ≤ 65536 →
      (∀ i, i < dst.rows → s.num (bits d 431 384 + 4 * i) 4 < src.rows) → out fun t => ended t ∧ t.hist = s.hist ∧
        (∀ i b, i < dst.rows → b < dst.rowBytes →
          t.byte (dst.rowAddr i + b) = s.byte (src.rowAddr (s.num (bits d 431 384 + 4 * i) 4) + b)) ∧
        ∀ a, (∀ i, i < dst.rows → a < dst.rowAddr i ∨ dst.rowAddr i + dst.rowBytes ≤ a) → t.byte a = s.byte a) ∧
    (e = 6 → hdOp d = 1 → src.et = 0xE → src.rowBytes ≤ src.pitch → src.size ≤ 512 → out fun t => ended t ∧ t.hist = s.hist ∧
        (∀ k b, k < src.size → b < 8 → t.byte (src.place k + b) = BitVec.ofNat 8
          ((rng64 (BitVec.ofNat 64 (bits d 319 256)) (bits d 351 320) (BitVec.ofNat 64 (bits d 447 384 + k))).toNat / 256 ^ b)) ∧
        ∀ a, (∀ k, k < src.size → a < src.place k ∨ src.place k + 8 ≤ a) → t.byte a = s.byte a) ∧
    (e = 8 → hdOp d = 1 → out fun t => ended t ∧ t.hist = s.hist ∧
        (let res := bits d 431 384
         let v := (if d.testBit 432 then s.num res 8 else 0) +
           (contentTally (BitVec.ofNat 64 (bits d 319 256)) (bits d 383 320) (s.tallyElems src)).toNat
         (∀ b, b < 8 → t.byte (res + b) = BitVec.ofNat 8 (v / 256 ^ b)) ∧
         ∀ a, a < res ∨ res + 8 ≤ a → t.byte a = s.byte a)) ∧
    (e = 5 → hdOp d = 3 → out fun t => ended t ∧ t.mem = s.mem ∧
        (let x := bits d 501 492
         t.histSlot die x = (s.histSlot die x).push (bits d 543 512) ∧ ∀ y, y < 1024 → y ≠ x → t.histSlot die y = s.histSlot die y)) ∧
    (e = 5 → hdOp d = 7 → out fun t => ended t ∧ t.mem = s.mem ∧
        (let x := bits d 501 492
         t.histSlot die x = ⟨List.replicate 16 0, signed 16 (bits d 527 512)⟩ ∧
         ∀ y, y < 1024 → y ≠ x → t.histSlot die y = s.histSlot die y))

/-- The berth pool (R168 to R172, R175) and staged microcode (R451). A request is served in its turn. -/
def Obligations.BerthPool : Prop :=
  (∀ (s : State) (c q rid : Nat) (d : Desc), s.ltrAt c q rid d →
    let x := d.num
    let die := coreDie c
    let k := s.core c
    let slot := s.berthSlot c
    let res := bits x 175 128
    let size := bits x 207 176
    let kind := bits x 211 208
    let idx := bits x 215 212
    hdLen x = 2 → hdReserved x = false →
    (hdOp x = 0x30 → s.berthQueue c 0x30 = some q → s.berthTurn c 0x30 = true → bits x 255 217 = 0 → (kind = 0 ∨ kind = 1 ∧ idx ≤ 3 ∨ kind = 2 ∧ idx ≤ 8) → 0 < size →
      res % 16 = 0 → res + 16 ≤ 0x4_0000 →
      (∀ p0 p i, poolFor size = some p0 → p < 5 → s.freeBerth die slot p = some i →
        (p = p0 ∨ bit x 216 = true ∧ p0 ≤ p ∧ ∀ y, p0 ≤ y → y < p → s.freeBerth die slot y = none) →
        (s.berthOk c slot p i = false → Goes (exec (.berthGet c) s) fun t => t.mem = s.mem ∧ t.berths = s.berths ∧
          s.lighterErred t c (k.headTaken q x) x Code.BAD_ADDRESS 0 (targetOf x)) ∧
        (s.berthOk c slot p i = true → Goes (exec (.berthGet c) s) fun t => t.mem = s.mem ∧
        (let handle := s.partOf c * 2 ^ 27 + p * 2 ^ 24 + i
         (t.core c).pbytes res 16 = bytesLE 16
           (handle * 2 ^ 64 + (s.fld (a_BERTH_POOL die slot p) f_BERTH_POOL_BASE * 4096 + i * 4096 * 16 ^ p)) ∧
         Tbl.find t.berths (die * 2 ^ 32 + handle) = some (some
           ⟨14 * coreNo (s.logical c) + (if kind = 0 then 0 else if kind = 1 then 1 + idx else 5 + idx), slot, s.tideOf die⟩) ∧
         ∀ h, h ≠ die * 2 ^ 32 + handle → Tbl.find t.berths h = Tbl.find s.berths h) ∧
        (t.core c).tokens = ((k.headTaken q x).raise (hdRaise x)).tokens ∧ (t.core c).queues = (k.headTaken q x).queues)) ∧
      (∀ code, (poolFor size = none ∧ code = Code.BERTH_TOO_LARGE ∨
          (∃ p0, poolFor size = some p0 ∧ ∀ y, y < 5 → (y = p0 ∨ bit x 216 = true ∧ p0 ≤ y) → s.freeBerth die slot y = none) ∧
            code = Code.BERTH_EXHAUSTED) →
        Goes (exec (.berthGet c) s) fun t => t.mem = s.mem ∧ t.berths = s.berths ∧
          (t.core c).pbytes res 16 = bytesLE 16 (code * 2 ^ 96) ∧
          (t.core c).tokens = ((k.headTaken q x).raise (hdRaise x)).tokens ∧
          t.fld (a_BERTH_FAIL die slot) f_BERTH_FAIL_COUNT =
            min (s.fld (a_BERTH_FAIL die slot) f_BERTH_FAIL_COUNT + 1) (2 ^ f_BERTH_FAIL_COUNT.width - 1))) ∧
    (hdOp x = 0x31 → s.berthQueue c 0x31 = some q → s.berthTurn c 0x31 = true → bits x 255 160 = 0 →
      let h := bits x 159 128
      (h / 2 ^ 27 = s.partOf c → (Tbl.get none s.berths (die * 2 ^ 32 + h)).isSome = true → Goes (exec (.berthPut c) s) fun t =>
        t.mem = s.mem ∧ Tbl.find t.berths (die * 2 ^ 32 + h) = none ∧
        (∀ g, g ≠ die * 2 ^ 32 + h → Tbl.find t.berths g = Tbl.find s.berths g) ∧
        t.core c = (k.headTaken q x).raise (hdRaise x) ∧ (∀ b, b ≠ c → t.core b = s.core b) ∧
        ∀ o, o < 182 →
          let thr := a_BERTH_AUD_THR die (s.berthSlot (13 * die + o / 14))
          let flags := Tbl.get ⟨false, false⟩ t.audits (die * 256 + o)
          (t.ownerHeld die o ≤ s.fld thr f_BERTH_AUD_THR_COUNT → flags.count = false) ∧
          (t.ownerHeld die o = 0 ∨ s.tideOf die - t.ownerOldest die o ≤ s.fld thr f_BERTH_AUD_THR_AGE → flags.age = false)) ∧
      ((h / 2 ^ 27 ≠ s.partOf c ∨ (Tbl.get none s.berths (die * 2 ^ 32 + h)).isSome = false) → Goes (exec (.berthPut c) s) fun t =>
        t.mem = s.mem ∧ t.berths = s.berths ∧ t.core c = (k.headTaken q x).fire 7 ∧
        t.reg (a_LTR_ERRLOG die (coreNo c) (s.fld (a_LTR_ERRPTR die (coreNo c)) f_LTR_ERRPTR_NEXT) 1) =
          BitVec.ofNat 64 (Code.BERTH_NOT_HELD * 2 ^ 48 + 0x31 * 2 ^ 40 + q * 2 ^ 32)))) ∧
  (∀ (s : State) (die : Nat), die < 12 → Goes (exec (.berthAudit die) s) fun t => t.mem = s.mem ∧ t.berths = s.berths ∧
    ∀ o, o < 182 →
      let thr := a_BERTH_AUD_THR die (s.berthSlot (13 * die + o / 14))
      let count := s.ownerHeld die o
      let age := if count = 0 then 0 else s.tideOf die - s.ownerOldest die o
      let beyond (limit v : Nat) : Bool := decide (limit ≠ 0 ∧ limit < v)
      let now : AuditState := ⟨beyond (s.fld thr f_BERTH_AUD_THR_COUNT) count, beyond (s.fld thr f_BERTH_AUD_THR_AGE) age⟩
      let was := Tbl.get ⟨false, false⟩ s.audits (die * 256 + o)
      Tbl.get ⟨false, false⟩ t.audits (die * 256 + o) = now ∧
      (now.count = true → was.count = false → (t.core (s.actor (13 * die + o / 14))).evpend.getLsbD 9 = true)) ∧
  (∀ (s : State) (die e : Nat), die < 12 → e < 9 → (s.engine die e).run = none → Goes (exec (.microcodeUpdate die e) s) fun t =>
    s.computeKept t ∧ t.engines = s.engines ∧
    if Config.imageGood 4 s.microImage = true then Records s t Code.MICROCODE_UPDATED die 31 []
    else Records s t Code.FIRMWARE_BAD_SIGNATURE 12 31 []) ∧
  (∀ (s : State) (die e : Nat), 9 ≤ e → Goes (exec (.microcodeUpdate die e) s) fun t => s.computeKept t ∧ t.engines = s.engines ∧
    if Config.imageGood 3 s.pilotImage = true then t = { s with pilotFw := ⟨s.pilotInForce, some s.pilotImage, 0, 0⟩ }
    else t.pilotFw = s.pilotFw ∧ Records s t Code.FIRMWARE_BAD_SIGNATURE 12 31 [])

/-- Result checking (R209 to R223). -/
def Obligations.ResultChecking : Prop :=
  (∀ (s : State) (die : Nat) (first second : ProofFault) (x : TProof) (v : Nat), s.stopped die = false →
    (s.chkOf die).tproof = some x → x.tally = some v → x.core ≠ 13 * die + 12 →
    let kept := (s.press x.core).drains.filter fun d => !(d.phase == .proving && d.desc / 2 ^ 182 % 4 == x.set)
    let set' := (x.set + 1) % 4
    let ends (t : State) : Prop := t.mem = s.mem ∧ (t.chkOf die).tproof = none
    let goesOn (t : State) : Prop := (t.press x.core).drains = kept ∧ (t.press x.core).halted = (s.press x.core).halted
    let original (a : Nat) (y : Detection) : Prop := y.code = Code.PROOF_MISMATCH ∧ y.origin = 3 ∧ y.ukind = 0 ∧
      y.core = coreNo x.core ∧ y.sub = 2 ^ x.set ∧ y.detail0 = v ∧ y.detail1 = a
    let prover (y : Detection) : Prop := y.code = Code.PROOF_MISMATCH ∧ y.origin = 3 ∧ y.ukind = 4 ∧ y.core = 12 ∧ y.detail0 = v
    let off (t : State) : Prop := (t.chkOf die).proofLost = true
    let column (t : State) (n : Nat) (y : Detection) : Prop := (t.press (13 * die + 12)).halted = true ∧ y.code = Code.PRESS_CHECKSUM ∧
      y.origin = 1 ∧ y.ukind = 4 ∧ y.core = 12 ∧ y.sub = n
    (s.proofTally die x.set x first = some v → Goes (exec (.proofCompare die first second) s) fun t => ends t ∧ goesOn t ∧
      t.detections = s.detections ∧ t.fld (a_CHK_PROOF_DONE die) f_CHK_PROOF_DONE_TILES =
        min (s.fld (a_CHK_PROOF_DONE die) f_CHK_PROOF_DONE_TILES + 1) (2 ^ f_CHK_PROOF_DONE_TILES.width - 1)) ∧
    (s.proofTally die x.set x first = none → Goes (exec (.proofCompare die first second) s) fun t => ends t ∧ goesOn t ∧ off t ∧
      ∃ z y : Detection, t.detections = s.detections ++ [z, y] ∧ column t x.set z ∧ prover y) ∧
    ∀ a, s.proofTally die x.set x first = some a → a ≠ v →
      let again := (s.proveAgain die set' x).proofTally die set' x second
      (again = some a → Goes (exec (.proofCompare die first second) s) fun t => ends t ∧ (t.press x.core).halted = true ∧
        ∃ y : Detection, t.detections = s.detections ++ [y] ∧ original a y) ∧
      (again = some v → Goes (exec (.proofCompare die first second) s) fun t => ends t ∧ goesOn t ∧ off t ∧
        ∃ y : Detection, t.detections = s.detections ++ [y] ∧ prover y ∧ y.detail1 = a) ∧
      (∀ b, again = some b → b ≠ a → b ≠ v → Goes (exec (.proofCompare die first second) s) fun t => ends t ∧
        (t.press x.core).halted = true ∧ off t ∧
        ∃ y z : Detection, t.detections = s.detections ++ [y, z] ∧ original a y ∧ prover z ∧ z.detail1 = a) ∧
      (again = none → Goes (exec (.proofCompare die first second) s) fun t => ends t ∧ goesOn t ∧ off t ∧
        ∃ z y : Detection, t.detections = s.detections ++ [z, y] ∧ column t set' z ∧ prover y ∧ y.detail1 = a)) ∧
  (∀ (s : State) (die : Nat) (orig first second : VecFault) (x : VProof) (more : List VProof),
    s.stopped die = false → (s.chkOf die).vproofs = x :: more →
    let d := x.differ orig first
    let e := x.differ orig second
    let found (k : Nat) (y : Detection) : Prop := y.code = Code.PROOF_MISMATCH ∧ y.origin = 4 ∧ y.ukind = k ∧
      y.core = (if k = 2 then coreNo x.core else 12) ∧ y.seq = x.instret ∧ y.detail0 = d.1.toNat % 2 ^ 64 ∧
      y.detail1 = d.2.toNat * 2 ^ 32 + x.word
    (d = (0, 0) → Goes (exec (.vectorProofCompare die orig first second) s) fun t => s.computeKept t ∧
      t.detections = s.detections ∧ (t.chkOf die).vproofs = more ∧
      t.fld (a_CHK_PROOF_DONE die) f_CHK_PROOF_DONE_VECTOR =
        min (s.fld (a_CHK_PROOF_DONE die) f_CHK_PROOF_DONE_VECTOR + 1) (2 ^ f_CHK_PROOF_DONE_VECTOR.width - 1)) ∧
    (d ≠ (0, 0) → e = (0, 0) → Goes (exec (.vectorProofCompare die orig first second) s) fun t => s.computeKept t ∧
      (t.chkOf die).vproofs = more ∧ ∃ y, t.detections = s.detections ++ [y] ∧ found 4 y) ∧
    (d ≠ (0, 0) → e ≠ (0, 0) → Goes (exec (.vectorProofCompare die orig first second) s) fun t => t.mem = s.mem ∧
      (t.chkOf die).vproofs = more ∧ t.fld (a_VEC_STATUS (coreDie x.core) (coreNo x.core)) f_VEC_STATUS_STOPPED = 1 ∧
      ∃ y zs, t.detections = s.detections ++ y :: zs ∧ found 2 y ∧ (first = second → zs = []) ∧
        (first.flags ≠ second.flags → ∃ z, zs = [z] ∧ found 4 z))) ∧
  (∀ (s : State) (die : Nat) (d : Detection), firstDetection die s.detections = some d → s.rehearsed d = false →
    let k := s.chkOf die
    let x := k.before d.tide
    let n := s.fld (a_CHK_LOGPTR die) f_CHK_LOGPTR_NEXT
    (s.fld (a_CHK_QPOLICY 12) f_CHK_QPOLICY_N = 0 → Goes (exec (.chkRecord die) s) fun t => t.mem = s.mem ∧
      t.presses = s.presses ∧ t.detections = s.detections.erase d ∧ (t.chkOf die).rseq = k.rseq + 1 ∧
      t.fld (a_CHK_LOGPTR die) f_CHK_LOGPTR_NEXT = (n + 1) % 2 ^ f_CHK_LOGPTR_NEXT.width ∧
      ∃ r : ChkRec, (t.chkOf die).waiting = (k.waiting.filter fun e => e.1 != n) ++ [(n, r)] ∧ r.rseq = k.rseq + 1 ∧ r.det = d ∧
        r.rehearsal = false ∧ r.temp = x.temp ∧ r.volt = x.volt ∧ r.clock = x.clock ∧ r.lps = x.pattern d.ukind d.core ∧
        (n < 4 ∨ 6 < n → ∀ w, w < 8 → t.reg (a_CHK_LOG die n w) = BitVec.ofNat 64 (r.num / 2 ^ (64 * w))) ∧
        (die < 12 → d.core < 13 → (t.core (13 * die + d.core)).evpend.getLsbD 8 = true) ∧
        ∀ u ∈ d.units, ((t.unit u).hist.head?).map HistEnt.tide = some d.tide ∧ (t.unit u).quarantined = (s.unit u).quarantined) ∧
    (∀ u m, s.fld (a_CHK_QPOLICY 12) f_CHK_QPOLICY_N = 1 → die < 12 → d.units = [u] → u < 0x1_0000 → d.udie < 16 → (s.unit u).quarantined = false →
      (List.range 64).find? (fun n => !s.quarUsed n) = some m →
      Goes (exec (.chkRecord die) s) fun t => t.mem = s.mem ∧ (t.unit u).quarantined = true ∧ t.quarUsed m = true ∧
        t.fld (a_CHK_QUNIT 12 m) f_CHK_QUNIT_UKIND = u / 0x1000 % 16 ∧ (t.chkOf die).rseq = k.rseq + 2 ∧
        (u / 0x1000 < 4 → (13 * (u / 0x100 % 16) + u / 0x10 % 16, false) ∈ t.standAsks))) ∧
  (∀ (s : State) (die : Nat), Goes (exec (.chkLogCollect die) s) fun t => s.computeKept t ∧ (t.chkOf die).waiting = [] ∧
    t.recs.seq = s.recs.seq + (s.chkOf die).waiting.length ∧ t.fld (a_CHK_LOGPTR die) f_CHK_LOGPTR_PENDING = 0) ∧
  (∀ (s : State) (die : Nat) (ps : List Word), Goes (exec (.chkConditionSample die ps) s) fun t => t = { s with chk := t.chk } ∧
    (∃ x more, (t.chkOf die) = { s.chkOf die with samples := x :: more } ∧ x.tide = s.tideOf die ∧
      x.temp = s.fld (a_PWR_SENSE die) f_PWR_SENSE_TEMP ∧ x.volt = s.fld (a_PWR_SENSE die) f_PWR_SENSE_VOLT ∧
      x.clock = (if die < 12 then 25 * s.fld (a_PWR_STATUS die) f_PWR_STATUS_CLOCK else 1250) ∧
      (∀ n, n < 13 → Tbl.get 0 x.lps n / 2 ^ 32 = (ps.getD n 0).toNat / 2 ^ 32 ∧
        (die < 12 → Tbl.get 0 x.lps n % 2 ^ 32 =
          crc32c ((List.range 16).flatMap fun i => bytesLE 2 ((s.core (13 * die + n)).mix.count i)))) ∧
      ∀ d, d ∈ s.detections → d.die = die → d.tide ≤ s.tideOf die →
        (t.chkOf die).before d.tide = (s.chkOf die).before d.tide) ∧
    ∀ e, e ≠ die → t.chkOf e = s.chkOf e) ∧
  (∀ (s : State) (die : Nat), Goes (exec (.quarantineRangeSample die) s) fun t => t = { s with units := t.units } ∧
    (∀ u, u ∉ s.enabledUnits die → t.unit u = s.unit u) ∧
    ∀ u ∈ s.enabledUnits die, (t.unit u).hist = (s.unit u).hist ∧ (t.unit u).quarantined = (s.unit u).quarantined ∧
      ∀ i, i < 5 →
        let k := (s.chkOf die).last
        let v := HistEnt.value ⟨0, k.temp, k.volt, k.clock, k.pattern (unitKind u) (unitCore u)⟩ i
        (t.unit u).ranges[i]? = some (match (s.unit u).ranges[i]? with
          | none => (v, v)
          | some p => (min p.1 v, max p.2 v))) ∧
  (∀ (s : State) (src : Source) (n : Nat), n < 64 → s.quarUsed n = true →
    AcceptsOnly s src (cmdClearEntry n) [a_CHK_QUNIT 12 n, a_CHK_QCOND 12 n, a_CHK_QSTATUS 12] (exec (.quarantineClearEntry src n) s)
      (fun t => s.computeKept t ∧ t.reg (a_CHK_QUNIT 12 n) = 0 ∧ t.reg (a_CHK_QCOND 12 n) = 0 ∧
        t.unit (s.quarUnit n) = { s.unit (s.quarUnit n) with hist := [], quarantined := false } ∧
        ∀ u, u ≠ s.quarUnit n → t.unit u = s.unit u)) ∧
  (∀ (s : State) (src : Source), (∀ n, n < 64 → (⟨0x31_0000 + n, 1⟩ : Applied) ∉ s.applied) →
    Accepts s src cmdClearAll (exec (.quarantineClearAll src) s) (fun t => s.computeKept t ∧ ∀ n, n < 64 → t.quarUsed n = false))

/-- What packets and event messages do at the die they reach (R237, R238). -/
def Obligations.QuayMessages : Prop :=
  (∀ (s : State) (die : Nat) (r : MemReq) (pre rest : List MemReq), Tbl.get [] s.quay die = pre ++ r :: rest →
    (∀ x ∈ pre, s.routeUp x.src die = false) → s.routeUp r.src die = true → s.landRoom r.src die r.channel (flitsOf r.dataBytes) = true →
    (s.requestOk r = true ∨ s.answerUp die r = true) →
    Goes (exec (.quayMemRequest die) s) fun t => t.mem = s.mem ∧ ∃ u : State,
      u = { s with quay := Tbl.set [] s.quay die (pre ++ rest), regs := u.regs } ∧ s.onlyFlits u ∧
      (∀ c, r.agent = .cell c → c.dst ≠ s.nodeId → t = { u with routers := t.routers } ∧
        (r.len ≠ 1 → (t.router die).loc = (s.router die).loc ++ [⟨c, s.tideOf die, r.addr == 1, none, none⟩])) ∧
      (s.outbound r = false → (u.requestOk r = true → t = { u with homes := t.homes } ∧ (∀ d, d ≠ die → t.homeList d = s.homeList d) ∧
        (t.homeList die).Perm (s.homeList die ++ [⟨r, s.tideOf die, false, []⟩]) ∧
        ((∀ e ∈ s.homeList die, e.since ≠ s.tideOf die) → t.homeList die = s.homeList die ++ [⟨r, s.tideOf die, false, []⟩])) ∧
      (u.requestOk r = false → t.homes = s.homes ∧ t.fld (a_QUAY_TAGVIOL die) f_QUAY_TAGVIOL_COUNT =
        min (s.fld (a_QUAY_TAGVIOL die) f_QUAY_TAGVIOL_COUNT + 1) (2 ^ f_QUAY_TAGVIOL_COUNT.width - 1)))) ∧
  (∀ (s : State) (m : EvtMsg), s.routeUp m.src m.dst = false →
    ∀ i ∈ [Instr.budget m, .tideNote m, .eventPost m, .recordReady m, .halt m, .linkNote m, .tideAlignProbe m, .tideAlignReply m,
      .tideAlignRate m], exec i s = .next s) ∧
  (∀ (s : State) (m : EvtMsg), s.routeUp m.src m.dst = true →
    (eventGood m 3 → Goes (exec (.eventPost m) s) fun t => s.onlyFlits t ∧
      t = { s with regs := t.regs, cores := t.cores } ∧
      (m.core < 13 → m.dst < 12 → m.body < 12 → t.core (13 * m.dst + m.core) = (s.core (13 * m.dst + m.core)).fire m.body ∧
        (t.core (13 * m.dst + m.core)).evpend.getLsbD m.body = true ∧ ∀ c, c ≠ 13 * m.dst + m.core → t.core c = s.core c) ∧
      (12 ≤ m.body ∨ 13 ≤ m.core → t.cores = s.cores)) ∧
    (eventGood m 4 → Goes (exec (.recordReady m) s) fun t => s.onlyFlits t ∧
      t = { s with regs := t.regs, recordReady := t.recordReady } ∧ Tbl.get 0 t.recordReady m.src = m.body ∧
      ∀ d, d ≠ m.src → Tbl.get 0 t.recordReady d = Tbl.get 0 s.recordReady d) ∧
    (eventGood m 5 → m.dst < 12 → (s.core (13 * m.dst + 12)).standin = none → Goes (exec (.halt m) s) fun t => s.onlyFlits t ∧
      t = { s with regs := t.regs, cores := t.cores } ∧
      (∀ n, n < 12 → t.core (13 * m.dst + n) =
        if s.partOf (13 * m.dst + n) < 24 ∧ m.body.testBit (s.partOf (13 * m.dst + n)) = true then (s.core (13 * m.dst + n)).halt
        else s.core (13 * m.dst + n)) ∧
      t.core (13 * m.dst + 12) = s.core (13 * m.dst + 12) ∧ ∀ c, coreDie c ≠ m.dst → t.core c = s.core c) ∧
    (eventGood m 7 → isLink m.src (m.body % 8) = true →
      let l := mainEnd m.src (m.body % 8)
      let d := (farEnd l.1 l.2).1
      (m.body / 16 = 5 → d < 12 → Goes (exec (.linkNote m) s) fun t => s.computeKept t ∧ d ∈ t.lost ∧
        (∀ x, x ≠ d → (x ∈ t.lost ↔ x ∈ s.lost)) ∧ Records s t Code.COMPUTE_DIE_LOST d 31 [] ∧
        ∀ p, p ∈ s.diePartitions d → p < 24 → (p, Code.COMPUTE_DIE_LOST) ∈ t.teardownAsks) ∧
      (m.body / 16 = 5 → 12 ≤ d → Goes (exec (.linkNote m) s) fun t => s.computeKept t ∧ t.lost = s.lost ∧
        Records s t Code.QUAY_LINK_DOWN l.1 31 [] ∧
        ∀ p, p ∈ s.modulePartitions → p < 24 → (p, Code.QUAY_LINK_DOWN) ∈ t.teardownAsks) ∧
      (m.body / 16 ≠ 5 → Goes (exec (.linkNote m) s) fun t => s.onlyFlits t ∧ t = { s with regs := t.regs })) ∧
    (eventGood m 1 → Goes (exec (.budget m) s) fun t => s.onlyFlits t ∧ t = { s with regs := t.regs, budgets := t.budgets } ∧
      Tbl.get 0 t.budgets (m.dst * 16 + m.src) = m.body ∧
      ∀ k, k ≠ m.dst * 16 + m.src → Tbl.get 0 t.budgets k = Tbl.get 0 s.budgets k) ∧
    (eventGood m 2 → m.dst < 16 → m.src < 16 →
      let e := m.body % 2 ^ 256
      let noted := s.notedSlot m.dst e (m.body / 2 ^ 256)
      (∀ i, noted.map Prod.fst = some i ∨ noted = none ∧ s.freeSlot m.dst (enPart e) = some i →
        Goes (exec (.tideNote m) s) fun t => s.onlyFlits t ∧ t = { s with regs := t.regs, entries := t.entries } ∧
          (noted = none → s.slot m.dst i = none) ∧
          (i < 1024 → t.slot m.dst i = some ⟨e, m.body / 2 ^ 256, s.tideOf m.dst, 0, none, false, none, true⟩) ∧
          ∀ d j, d * 1024 + j ≠ m.dst * 1024 + i → t.slot d j = s.slot d j) ∧
      (noted = none → s.freeSlot m.dst (enPart e) = none → Goes (exec (.tideNote m) s) fun t =>
        t = { s with regs := t.regs } ∧ t.fld (a_TIDE_SCHED m.dst) f_TIDE_SCHED_REFUSED =
          min 65535 (s.fld (a_TIDE_SCHED m.dst) f_TIDE_SCHED_REFUSED + 1))) ∧
    (m.ekind = 0 ∨ 7 < m.ekind ∨ m.reserved ≠ 0 ∨ m.body &&& bodyBits m.ekind ≠ m.body →
      ∀ i ∈ [Instr.budget m, .tideNote m, .eventPost m, .recordReady m, .halt m, .linkNote m, .tideAlignProbe m, .tideAlignReply m,
          .tideAlignRate m],
        Goes (exec i s) fun t => t = { s with regs := t.regs } ∧ (∀ a, a ≠ a_QUAY_EVDROP m.dst → t.reg a = s.reg a) ∧
          t.fld (a_QUAY_EVDROP m.dst) f_QUAY_EVDROP_COUNT =
            min (s.fld (a_QUAY_EVDROP m.dst) f_QUAY_EVDROP_COUNT + 1) (2 ^ f_QUAY_EVDROP_COUNT.width - 1)))

/-- The states of Quay links (R239, R240, R256) and the loss of clocks (R243, R473). -/
def Obligations.LinksAndClocks : Prop :=
  (∀ (s : State) (die l : Nat), isLink die l = true →
    let m := mainEnd die l
    let f := farEnd m.1 m.2
    let ends (t : State) (st : Nat) : Prop := t.linkState m.1 m.2 = st ∧ t.linkState f.1 f.2 = st
    let retrains (t : State) : Prop := ∀ e ∈ [m, f], t.fld (a_QUAY_LERR e.1 e.2) f_QUAY_LERR_RETRAINS =
      min (s.fld (a_QUAY_LERR e.1 e.2) f_QUAY_LERR_RETRAINS + 1) (2 ^ f_QUAY_LERR_RETRAINS.width - 1)
    (∀ flits again, s.linkState die l = 2 → Goes (exec (.flitCrcReplay die l flits again) s) fun t => s.computeKept t ∧ t.lost = s.lost ∧
      t.fld (a_QUAY_LERR die l) f_QUAY_LERR_REPLAYS = min (2 ^ 32 - 1) (s.fld (a_QUAY_LERR die l) f_QUAY_LERR_REPLAYS + flits) ∧
      (again = false → (t.link m.1 m.2).replays = 0 ∧ ∀ a, a ≠ a_QUAY_LERR die l → t.reg a = s.reg a) ∧
      (again = true → (s.link m.1 m.2).replays < 7 →
        (t.link m.1 m.2).replays = (s.link m.1 m.2).replays + 1 ∧ ∀ a, a ≠ a_QUAY_LERR die l → t.reg a = s.reg a) ∧
      (again = true → 7 ≤ (s.link m.1 m.2).replays →
        (t.link m.1 m.2).replays = 0 ∧ (t.link m.1 m.2).ordered = false ∧ ends t 3 ∧ retrains t)) ∧
    (s.linkState die l = 3 →
      (Goes (exec (.linkRetrainDone die l true) s) fun t => s.computeKept t ∧ t.lost = s.lost ∧ ends t 2 ∧
        (t.link m.1 m.2).replays = 0 ∧ (t.link m.1 m.2).fails = (s.link m.1 m.2).fails) ∧
      Goes (exec (.linkRetrainDone die l false) s) fun t => s.computeKept t ∧
        (∀ e ∈ [m, f], t.fld (a_QUAY_LERR e.1 e.2) f_QUAY_LERR_FAILED =
          min (s.fld (a_QUAY_LERR e.1 e.2) f_QUAY_LERR_FAILED + 1) (2 ^ f_QUAY_LERR_FAILED.width - 1)) ∧
        (t.link m.1 m.2).fails = (if (s.link m.1 m.2).ordered then (s.link m.1 m.2).fails else
          ((s.link m.1 m.2).fails.filter fun x => decide (s.tideOf m.1 < x + 1_000_000_000)) ++ [s.tideOf m.1]) ∧
        (if 3 ≤ (t.link m.1 m.2).fails.length then ends t 5 ∧ (f.1 < 12 → f.1 ∈ t.lost) ∧ ∀ d, d ≠ f.1 → (d ∈ t.lost ↔ d ∈ s.lost)
          else ends t 3 ∧ retrains t ∧ t.lost = s.lost)) ∧
    (∀ src, s.fld (a_QUAY_LCTL die l) f_QUAY_LCTL_DISABLE = 0 →
      AcceptsOnly s src (cmdLinkDisable die l) [a_QUAY_LCTL die l, a_QUAY_LSTATUS m.1 m.2, a_QUAY_LSTATUS f.1 f.2]
        (exec (.quayLinkDisable src die l) s) (fun t => s.computeKept t ∧ t.fld (a_QUAY_LCTL die l) f_QUAY_LCTL_DISABLE = 1 ∧
          (s.linkState die l = 2 ∨ s.linkState die l = 3 → ends t 5 ∧ (f.1 < 12 → f.1 ∈ t.lost)) ∧
          (s.linkState die l < 2 → ends t 4 ∧ t.lost = s.lost))) ∧
    (∀ src, s.linkState die l = 2 →
      AcceptsOnly s src (cmdLinkRetrain die l) [a_QUAY_LERR m.1 m.2, a_QUAY_LERR f.1 f.2, a_QUAY_LSTATUS m.1 m.2, a_QUAY_LSTATUS f.1 f.2]
        (exec (.quayLinkRetrain src die l) s) (fun t => s.computeKept t ∧ t.lost = s.lost ∧ ends t 3 ∧ retrains t ∧
          (t.link m.1 m.2).ordered = true ∧ (t.link m.1 m.2).fails = (s.link m.1 m.2).fails))) ∧
  (∀ (s : State) (die pll : Nat), die < 16 → pll < 4 → Goes (exec (.pllLossOfLock die pll) s) fun t => s.computeKept t ∧
    (t.reg (a_CLK_STATUS die)).getLsbD pll = false ∧ t.fld (a_CLK_PLLCNT die) f_CLK_PLLCNT_UNLOCKS =
      min (s.fld (a_CLK_PLLCNT die) f_CLK_PLLCNT_UNLOCKS + 1) (2 ^ f_CLK_PLLCNT_UNLOCKS.width - 1) ∧
    Records s t Code.PLL_UNLOCK die 31 [pll] ∧ t.stopped die = true ∧
    (∀ d, d ≠ die → (d ∈ t.clockLost ↔ d ∈ s.clockLost)) ∧
    (if die < 12 then t.linkState die 0 = 5 ∧ (s.linkState die 0 ≠ 5 → die ∈ t.lost)
      else t.linkState die 3 = 5 ∧ t.linkState die 4 = 5 ∧ t.lost = s.lost)) ∧
  ∀ s : State, Goes (exec .referenceLoss s) fun t => s.computeKept t ∧ t.refLost = true ∧ (∀ d, t.stopped d = true) ∧
    (∀ d, d < 16 → t.fld (a_CLK_STATUS d) f_CLK_STATUS_REF = 0 ∧ t.fld (a_CLK_PLLCNT d) f_CLK_PLLCNT_REFLOSS =
      min (s.fld (a_CLK_PLLCNT d) f_CLK_PLLCNT_REFLOSS + 1) (2 ^ f_CLK_PLLCNT_REFLOSS.width - 1)) ∧
    t.recs.seq = s.recs.seq + 2 ∧ (t.recs.last.getLast?).map (fun r => (r.seq, r.code, r.die)) =
      some (s.recs.seq + 2, Code.REFERENCE_LOST, 16) ∧
    (s.fld a_MGMT_BOOT f_MGMT_BOOT_STEP = 1 → t.fld a_MGMT_BOOT f_MGMT_BOOT_HOLD = 1 ∧
      t.fld a_MGMT_BOOT f_MGMT_BOOT_CODE = Code.REFERENCE_LOST)

/-- Writes, reads and copies at a home directory (R245 to R249). -/
def Obligations.HomeOrder : Prop :=
  (∀ (s : State) (die : Nat) (found : DirErr) (e : HomeEnt) (rest : List HomeEnt), found ≠ .double → s.homeList die = e :: rest →
    let r := e.req
    let applied (bs : List Byte) (t : State) : Prop := t.homeList die = rest ∧
      (∀ i, i < bs.length → t.byte (r.addr + i) = bs.getD i 0) ∧
      (∀ x, x < r.addr ∨ r.addr + bs.length ≤ x → t.byte x = s.byte x) ∧
      ∀ l, l ∈ r.hbmLines → t.dirEnt l = if r.mgmt then some ⟨l, true, 4096, false⟩ else none
    (∀ bs, r.data = some bs → bs ≠ [] → r.len = bs.length → (∀ c, r.agent ≠ .cell c) → (∀ c, r.agent ≠ .fetch c) →
      (r.mgmt = true → s.noRoom r = none) → s.memThere r.addr r.len → s.noMarks r.addr r.len → s.open_ die r = true → s.waitsLeft e = [] →
      (e.begun = false → s.needed r = [] → Goes (exec (.homeWrite die found) s) (applied bs)) ∧
      (e.begun = false → s.needed r ≠ [] → Goes (exec (.homeWrite die found) s) fun t => t.mem = s.mem ∧ t.dirs = s.dirs ∧
        t.homeList die = ⟨r, e.since, true, (s.needed r).flatMap fun x => (s.holders x).map fun h => (x.line, h)⟩ :: rest ∧
        ∀ x ∈ s.needed r, ∀ h ∈ s.holders x, ⟨homeOf x.line, h, x.line, x.mod⟩ ∈ t.invals) ∧
      (e.begun = false → (∀ l ls, r.hbmLines = l :: ls → s.dirSet (dirKey l) ≠ [] → Goes (exec (.homeWrite die .double) s) fun t =>
        t.mem = s.mem ∧ Records s t Code.DIRECTORY_ERROR die 31 [] ∧
        (∀ x ∈ s.dirSet (dirKey l), (∀ d, d < 12 → d ∉ s.lost → ⟨die, d, x.line, false⟩ ∈ t.invals) ∧ ⟨die, 12, x.line, true⟩ ∈ t.invals) ∧
        t.fld (a_DIR_ECC die) f_DIR_ECC_UNCORR = min (s.fld (a_DIR_ECC die) f_DIR_ECC_UNCORR + 1) (2 ^ f_DIR_ECC_UNCORR.width - 1))) ∧
      (e.begun = true → Goes (exec (.homeWriteApply die) s) (applied bs))) ∧
    (r.data = none → s.homeHead die e rest → s.memThere r.addr r.len → s.noMarks r.addr r.len →
      (∀ tag, r.agent = .pcie tag → Goes (exec (.homeRead die found) s) fun t => t.mem = s.mem ∧ t.homeList die = rest ∧
        t.outbox = s.outbox ++ [⟨.hostCompletion, tag, [0, r.len] ++ (s.bytes r.addr r.len).map BitVec.toNat⟩]) ∧
      (∀ c, r.agent = .fetch c → r.addr % 64 = 0 → r.len = 64 → inHbm r.addr 64 = true → (s.core c).missing = some r.addr →
        (s.dirSet (dirKey r.addr)).length < 16 → Goes (exec (.homeRead die found) s) fun t => t.mem = s.mem ∧ t.homeList die = rest ∧
          t.core c = { s.core c with missing := none, icache := fillLine (s.core c).icache r.addr } ∧
          ∃ x, t.dirEnt r.addr = some x ∧ x.holders.testBit (coreDie c) = true))) ∧
  ∀ (s : State) (die : Nat),
    (∀ v, s.invals.find? (fun v => v.target == die && !v.recalls && s.invalGoes v) = some v → die < 12 →
      Goes (exec (.invalidation die) s) fun t => t.mem = s.mem ∧ t.invals = s.invals.erase v ∧
        (∀ c, t.core c = if coreDie c = die then { s.core c with icache := (s.core c).icache.erase v.line } else s.core c) ∧
        ∀ x ∈ t.homeList v.home, (v.line, die) ∉ x.waits) ∧
    ∀ v bs, s.invals.find? (fun v => v.home == die && v.recalls && s.invalGoes v) = some v → bs.length = 64 →
      (s.dirEnt v.line).map (fun e => (e.mod, e.lost)) = some (true, false) → Goes (exec (.recallLine die (some bs)) s) fun t => t.invals = s.invals.erase v ∧
        t.bytes v.line 64 = bs ∧ (∀ x, x < v.line ∨ v.line + 64 ≤ x → t.byte x = s.byte x) ∧ t.dirEnt v.line = none ∧
        ∀ x ∈ t.homeList die, (v.line, 12) ∉ x.waits

/-- How request cells are served at the die that holds their target (R314, R341, R342, R344). -/
def Obligations.CellsAtTheirDie : Prop :=
  ∀ (s : State) (die : Nat) (found : DirErr) (c : Cell) (rest : List HomeEnt), found ≠ .double → s.cellHead die c rest →
    (c.kind = 1 →
      let n := bits c.g0 5 0
      let off := bits c.g0 19 8
      let q := (s.setHome die rest).readAny (c.addr * 16) (16 * n) 0xF 5
      let gr (i : Nat) : Nat := natLE ((q.bytes.drop (16 * i)).take 16)
      let tally := contentTally (s.reg (a_CHK_PKEY (baseOf die) c.part)) (2 * off) (wordsLE (q.bytes.length / 8 + 1) q.bytes)
      Goes (exec (.cellRead die found) s) fun t => t.mem = s.mem ∧ t.homeList die = rest ∧
        (q.code = 0 → 1 ≤ n → n ≤ 48 → Answers s t die c
          (((List.range ((n + 2) / 3)).map fun k => s.response die c 2 (2 ^ min 3 (n - 3 * k) - 1) ((off + 3 * k) * 2 ^ 24)
              (gr (3 * k)) (gr (3 * k + 1)) (gr (3 * k + 2)))
            ++ if c.g0.testBit 20 then [s.response die c 5 7 0 (tally.toNat + (n + 2) / 3 * 2 ^ 64) (c.addr + (n - 1) * 2 ^ 36) 0]
              else [])) ∧
        (q.code ≠ 0 → Answers s t die c [s.ackCell die c q.code (max q.at_ (c.addr * 16))])) ∧
    ((c.kind = 3 ∨ c.kind = 4) →
      let q := s.writeCell c
      Goes (exec (if c.kind = 3 then .cellWrite die found else .cellTwrite die found) s) fun t => t.homeList die = rest ∧
        Answers s t die c [s.ackCell die c q.code q.at_] ∧
        (c.kind = 4 → t.ctxDone (baseOf die) c = s.ctxDone (baseOf die) c + 1) ∧
        (q.code = 0 → (∀ p ∈ cellPieces c, inRegs p.1 = false) → t.gathered = s.gathered ∧
          (∀ p ∈ cellPieces c, t.bytes p.1 16 = p.2) ∧
          ∀ x, (∀ p ∈ cellPieces c, x < p.1 ∨ p.1 + 16 ≤ x) → t.byte x = s.byte x) ∧
        ((∀ p ∈ cellPieces c, inRegs p.1 = true) → t.mem = s.mem ∧ t.gathered = s.gathered ++
          (cellPieces c).flatMap fun p => [⟨.pilot c.core, p.1, true, true, BitVec.ofNat 64 (natLE (p.2.take 8))⟩,
            ⟨.pilot c.core, p.1 + 8, true, true, BitVec.ofNat 64 (natLE (p.2.drop 8))⟩])) ∧
    (c.kind = 5 → c.core < 0xC0 → s.loadClose die c = false → bits c.g0 79 64 ≤ s.ctxTotal c →
      let q := (s.setHome die rest).readAny (bits c.g1 35 0 * 16) (16 * (bits c.g1 48 36 + 1)) 0xF 5
      let v := bytesTally (s.reg (a_CHK_PKEY (baseOf die) c.part)) q.bytes
      Goes (exec (.cellTclose die found) s) fun t => t.mem = s.mem ∧ t.homeList die = rest ∧ t.ctxTotal c = 0 ∧
        Answers s t die c [if q.code ≠ 0 then s.ackCell die c q.code q.at_
          else s.ackCell die c (if v.toNat = bits c.g0 63 0 then 0 else Code.TALLY_MISMATCH) v.toNat]) ∧
    (c.kind = 0xC → bits c.g0 23 16 < 156 →
      let k := s.actor (bits c.g0 23 16)
      let n := bits c.g0 28 24
      let cc := a_LTR_CC (coreDie k) (coreNo k) n
      let cfg := a_LTR_CCCFG (coreDie k) (coreNo k) n
      let old := s.fld cc f_LTR_CC_COUNT
      let sum := old + bits c.g0 15 0
      (s.ccWritten k n = true → Goes (exec (.cellSignal die found) s) fun t => t.mem = s.mem ∧ t.homeList die = rest ∧
        Answers s t die c [s.ackCell die c 0 0] ∧ t.reg cc = s.reg cc ∧ t.cores = s.cores ∧
        t.ccHeld = s.ccHeld ++ [.add k n (bits c.g0 15 0) c.src c.core]) ∧
      (s.ccWritten k n = false → Goes (exec (.cellSignal die found) s) fun t => t.mem = s.mem ∧ t.homeList die = rest ∧
        Answers s t die c [s.ackCell die c 0 0] ∧ t.fld cc f_LTR_CC_COUNT = sum % 2 ^ 32 ∧
        t.fld cc f_LTR_CC_TARGET = s.fld cc f_LTR_CC_TARGET ∧ (∀ d, d ≠ k → t.core d = s.core d) ∧
        (if s.fld cfg f_LTR_CCCFG_ARMED = 1 ∧ old < s.fld cc f_LTR_CC_TARGET ∧ s.fld cc f_LTR_CC_TARGET ≤ sum then
          t.fld cfg f_LTR_CCCFG_ARMED = 0 ∧ t.fld cfg f_LTR_CCCFG_FIRED = 1 ∧ (t.core k).evpend.getLsbD 2 = true ∧
            (t.core k).tokens = ((s.core k).raise (s.fld cfg f_LTR_CCCFG_TOKEN)).tokens
        else t.core k = s.core k ∧ t.reg cfg = s.reg cfg)))

/-- What the adders of the stacks and galleys do (R271 to R273, R39). -/
def Obligations.AddersAndAtomics : Prop :=
  (∀ (s : State) (die : Nat) (found : DirErr) (c : Cell) (rest : List HomeEnt), found ≠ .double → s.cellHead die c rest →
    let r := atomicReq c
    let w := 8 * r.width
    let old := s.num r.addr r.width
    let x := r.operand % 2 ^ w
    let less (a b : Nat) : Bool := (BitVec.ofNat w a).slt (BitVec.ofNat w b)
    r.addr % r.width = 0 → s.memThere r.addr r.width → s.noMarks (blockOf r.addr) 4096 →
    (∀ b ∈ s.addCache r.addr, b.bad = false) →
    (∀ p ∈ [(Instr.atomicAdd die found, 0, (old + x) % 2 ^ w), (.atomicMax die found, 1, if less old x then x else old),
        (.atomicMin die found, 2, if less x old then x else old), (.atomicMaxu die found, 3, max old x), (.atomicMinu die found, 4, min old x),
        (.atomicAnd die found, 5, old &&& x), (.atomicOr die found, 6, old ||| x), (.atomicXor die found, 7, old ^^^ x), (.atomicSwap die found, 8, x),
        (.atomicCas die found, 9, if old = r.comparand % 2 ^ w then x else old),
        (.atomicFadd32 die found, 10, (Fmt.b32.add (Fmt.b32.decode old) (Fmt.b32.decode x)).bits)],
      r.aop = p.2.1 → (c.kind = 9 ∨ c.kind = 8) → (r.aop = 10 → r.width = 4 ∧ s.addersInvariant r.addr c.part = false) →
      Goes (exec p.1 s) fun t => t.homeList die = rest ∧ t.num r.addr r.width = p.2.2 % 2 ^ w ∧
        (∀ a, a < r.addr ∨ r.addr + r.width ≤ a → t.byte a = s.byte a) ∧
        Answers s t die c [if r.fetch then s.response die c 0xA 1 0 old 0 0 else s.ackCell die c 0 0]) ∧
    (r.aop = 10 → r.width = 4 → c.kind = 9 → s.addersInvariant r.addr c.part = true → Goes (exec (.atomicFadd32 die found) s) fun t =>
      t.mem = s.mem ∧ t.homeList die = rest ∧
        Answers s t die c [if r.fetch then s.response die c 0xA 1 0 (Code.ORDER_SENSITIVE_REFUSED * 2 ^ 64) 0 0
          else s.ackCell die c Code.ORDER_SENSITIVE_REFUSED r.addr])) ∧
  ∀ (s : State) (die : Nat) (found cache : DirErr) (c : Cell) (rest : List HomeEnt), found ≠ .double → cache ≠ .double →
    s.cellHead die c rest → (c.kind = 6 ∨ c.kind = 7) →
    let p := addPkt c
    let w := p.width
    let n := p.elems.length
    let apart (a k b m : Nat) : Prop := a + k ≤ b ∨ b + m ≤ a
    p.placed = true → s.marks = [] → (∀ b ∈ s.addCache p.addr, b.bad = false) →
    s.hbmDown p.addr (w * n) = false → s.hbmDown p.bwa 4 = false → (p.cwv = true → s.hbmDown p.cwa 8 = false) →
    apart p.addr (w * n) p.bwa 4 → (p.cwv = true → apart p.addr (w * n) p.cwa 8 ∧ apart p.bwa 4 p.cwa 8) →
    ∀ g h, blockG (s.num p.bwa 4) = some g → blockG p.word = some h →
      (g = h → Goes (exec (.adderRlAdd die found cache) s) fun t => t.homeList die = rest ∧ Answers s t die c [s.ackCell die c 0 0] ∧
        (∀ i, i < n → t.num (p.addr + w * i) w = (s.num (p.addr + w * i) w + p.elems.getD i 0) % 2 ^ (8 * w)) ∧
        t.num p.bwa 4 = blockJoin (s.num p.bwa 4) p.word ∧
        (p.cwv = true → t.num p.cwa 8 = (s.num p.cwa 8 + p.tally) % 2 ^ 64) ∧
        ∀ a, apart a 1 p.addr (w * n) → apart a 1 p.bwa 4 → (p.cwv = true → apart a 1 p.cwa 8) → t.byte a = s.byte a) ∧
      (g ≠ h → Goes (exec (.adderRlAdd die found cache) s) fun t => t.mem = s.mem ∧ t.homeList die = rest ∧
        Answers s t die c [s.ackCell die c Code.SCALE_MISMATCH p.addr] ∧
        (isHbm p.addr = true → let a := a_HBM_ADD_STATUS (homeOf p.addr) (stackWin (stackOf p.addr))
          t.fld a f_HBM_ADD_STATUS_SCALE = min (s.fld a f_HBM_ADD_STATUS_SCALE + 1) (2 ^ f_HBM_ADD_STATUS_SCALE.width - 1)))

/-- Schedulers, the symbol code at work, refresh, temperature and the log (R261 to R270, R467). -/
def Obligations.HbmControllers : Prop :=
  (∀ (s : State) (st pc : Nat) (r : SchedReq), st < 12 →
    let q := Tbl.get Sched.init (s.hbm st).scheds pc
    let now := s.tideOf (stackBase st)
    let ready := firstOfLine [] q.reqs
    let late (x : SchedReq) : Prop := x.since + 2000 ≤ now
    q.next now = some r → s.chanState r.line = 2 → Goes (exec (.hbmSchedulerIssue st pc) s) fun t => s.computeKept t ∧ t.regs = s.regs ∧
      (let u := Tbl.get Sched.init (t.hbm st).scheds pc
       u.reqs = q.reqs.erase r ++ q.wait.take 1 ∧ u.wait = q.wait.drop 1 ∧ Tbl.find u.rows (bankOf r.line) = some (bits r.line 35 22)) ∧ r ∈ ready ∧
      ((∃ x ∈ ready, late x) → late r) ∧
      ((∀ x ∈ ready, ¬ late x) → q.drain = false → (q.reqs.filter fun x => x.write).length < 48 →
        ((∃ x ∈ ready, x.write = false) → r.write = false) ∧
        ((∃ x ∈ ready, x.write = false ∧ q.hit x = true) → q.hit r = true)) ∧
      ((∀ x ∈ ready, ¬ late x) → 48 ≤ (q.reqs.filter fun x => x.write).length → (∃ x ∈ ready, x.write = true) → r.write = true)) ∧
  (∀ (s : State) (line : Nat) (errs : List SymErr) (fixed : Nat), line % 64 = 0 → inHbm line 64 = true → s.chanState line = 2 →
    let st := stackOf line
    let ecc := a_HBM_ECC (stackBase st) (stackWin st)
    let es := errs.filter fun e => decide (e.pos < 36)
    let n := s.fld (a_HBM_LOGPTR (stackBase st) (stackWin st)) f_HBM_LOGPTR_NEXT
    let logs (t : State) (e : Nat) : Prop :=
      ∀ w, w < 4 → t.reg (a_HBM_ERRLOG (stackBase st) (stackWin st) n w) = BitVec.ofNat 64 (e / 2 ^ (64 * w))
    let read := decodeWord (withErrors (codeword (s.bytes line 64)) es)
    let onDie (t : State) : Prop := t.fld ecc f_HBM_ECC_DIE = min 65535 (s.fld ecc f_HBM_ECC_DIE + fixed)
    (s.markAt line ≠ 2 → read = .clean → Goes (exec (.hbmReadDecode line errs fixed) s) fun t => t = { s with regs := t.regs } ∧
      s.onlyRegs t [ecc] ∧ onDie t ∧ t.fld ecc f_HBM_ECC_CORR = s.fld ecc f_HBM_ECC_CORR) ∧
    (∀ p v, s.markAt line ≠ 2 → read = .corrected p v → Goes (exec (.hbmReadDecode line errs fixed) s) fun t => onDie t ∧
      t.bytes line 64 = flipLine (s.bytes line 64) (es ++ [⟨p, BitVec.ofNat 16 v⟩]) ∧
      (∀ x, x < line ∨ line + 64 ≤ x → t.byte x = s.byte x) ∧ t.marks = s.marks ∧ t.cores = s.cores ∧
      t.fld ecc f_HBM_ECC_CORR = min (s.fld ecc f_HBM_ECC_CORR + 1) (2 ^ 32 - 1) ∧
      t.rowCount line = min (s.rowCount line + 1) (2 ^ 20 - 1) ∧ pageOf line ∈ (t.hbm st).scrubs ∧
      logs t (hbmEntry (s.tideOf (homeOf line)) Code.HBM_SYMBOL_CORRECTED line (2 ^ p) v (t.rowCount line))) ∧
    (s.markAt line = 2 ∨ read = .uncorrectable → Goes (exec (.hbmReadDecode line errs fixed) s) fun t => onDie t ∧
      t.mem = s.mem ∧ t.cores = s.cores ∧ t.markAt line = 2 ∧ (∀ x, x % 64 = 0 → isGalley x = false → x ≠ line → t.markAt x = s.markAt x) ∧
      t.fld ecc f_HBM_ECC_UNCORR = min (s.fld ecc f_HBM_ECC_UNCORR + 1) (2 ^ 16 - 1) ∧
      t.fld (a_HBM_ERRADDR (stackBase st) (stackWin st)) f_HBM_ERRADDR_VALID = 1 ∧
      logs t (hbmEntry (s.tideOf (homeOf line)) Code.HBM_DATA_ERROR line 0 0 (s.rowCount line)))) ∧
  (∀ (s : State) (st : Nat), st < 12 →
    let fixed (t : State) (line : Nat) (es : List SymErr) : Prop :=
      t.bytes line 64 = match decodeWord (withErrors (codeword (s.bytes line 64)) (es.filter fun e => decide (e.pos < 36))) with
        | .corrected p v => if s.markAt line = 2 then s.bytes line 64 else
            flipLine (s.bytes line 64) ((es.filter fun e => decide (e.pos < 36)) ++ [⟨p, BitVec.ofNat 16 v⟩])
        | _ => s.bytes line 64
    (∀ page rest errs, (s.hbm st).scrubs = page :: rest → s.chanState page = 2 → page % 64 = 0 → inHbm page (2 ^ 20) = true →
      Goes (exec (.hbmRowScrub st errs) s) fun t => t.cores = s.cores ∧ (∀ n, n < 16 → fixed t (pageLine page n) (errs.getD n [])) ∧
        ∀ x, (∀ n, n < 16 → x < pageLine page n ∨ pageLine page n + 64 ≤ x) → t.byte x = s.byte x) ∧
    (∀ errs, let line := st * 2 ^ 36 + (s.hbm st).patrol * 64
      let a := a_HBM_SCRUB (stackBase st) (stackWin st)
      (s.hbm st).patrol < 2 ^ 30 → s.fld a f_HBM_SCRUB_HOURS ≠ 0 → s.chanState line = 2 → (s.sched line).reqs = [] →
      Goes (exec (.hbmPatrolScrub st errs) s) fun t => t.cores = s.cores ∧ (t.hbm st).patrol = ((s.hbm st).patrol + 1) % 2 ^ 30 ∧
        fixed t line errs ∧ (∀ x, x < line ∨ line + 64 ≤ x → t.byte x = s.byte x) ∧
        t.fld a f_HBM_SCRUB_PASSES = if (s.hbm st).patrol = 2 ^ 30 - 1 then (s.fld a f_HBM_SCRUB_PASSES + 1) % 2 ^ 32
          else s.fld a f_HBM_SCRUB_PASSES)) ∧
  ∀ (s : State) (st : Nat), st < 12 →
    let b := stackBase st
    let stat := a_HBM_STACK_STATUS b (stackWin st)
    let now := s.tideOf b
    (∀ bank, bank < 4096 → (s.fld stat f_HBM_STACK_STATUS_STATE = 2 ∨ s.fld stat f_HBM_STACK_STATUS_STATE = 3) →
      (∀ last, Tbl.find (s.hbm st).refreshed bank = some last →
        last + (if 85 * 16 < signed 16 (s.fld stat f_HBM_STACK_STATUS_TEMP) then 1950 else 3900) ≤ now) →
      Goes (exec (.hbmRefresh st bank) s) fun t => s.computeKept t ∧ t.regs = s.regs ∧
        Tbl.find (t.hbm st).refreshed bank = some now ∧
        Tbl.find (Tbl.get Sched.init (t.hbm st).scheds (bank / 64)).rows (bank % 64) = none ∧
        (Tbl.get Sched.init (t.hbm st).scheds (bank / 64)).reqs = (Tbl.get Sched.init (s.hbm st).scheds (bank / 64)).reqs) ∧
    (∀ pc, pc < 64 → (s.fld stat f_HBM_STACK_STATUS_STATE = 2 ∨ s.fld stat f_HBM_STACK_STATUS_STATE = 3) →
      Goes (exec (.hbmRefresh st (4096 + pc)) s) fun t => s.computeKept t ∧ t.regs = s.regs ∧
        ∀ i, i < 64 → ∃ last, Tbl.find (t.hbm st).refreshed (pc * 64 + i) = some last ∧
          now < last + (if 85 * 16 < signed 16 (s.fld stat f_HBM_STACK_STATUS_TEMP) then 1950 else 3900)) ∧
    (∀ temp : Int, let th := a_PWR_THERM_HBM b
      let high : Bool := decide ((s.fld th f_PWR_THERM_HBM_THROTTLE : Int) ≤ temp)
      Goes (exec (.hbmTempRead st temp) s) fun t => s.computeKept t ∧ t.fld stat f_HBM_STACK_STATUS_TEMP = unsigned 16 temp ∧
        (t.hbm st).hotPace = (if high then
            if (match (s.hbm st).hotSince with
              | some t0 => t0
              | none => now) + 1_000_000 ≤ now then 2 else 1
          else if temp < (s.fld th f_PWR_THERM_HBM_CLEAR : Int) then 0 else (s.hbm st).hotPace) ∧
        t.fld (a_PWR_HBMPACE b (stackWin st)) f_PWR_HBMPACE_PACE =
          max (t.hbm st).hotPace (max (s.fld (a_PWR_STATUS b) f_PWR_STATUS_THERMAL) (s.hbm st).budgetPace) % 4 ∧
        ((s.fld th f_PWR_THERM_HBM_TRIP : Int) ≤ temp → ∀ c, c < 32 → t.fld (a_chan st c) f_HBM_CH_STATUS_STATE = 5) ∧
        (temp < (s.fld th f_PWR_THERM_HBM_TRIP : Int) → ∀ c, c < 32 → t.reg (a_chan st c) = s.reg (a_chan st c))) ∧
    Goes (exec (.hbmLogCollect st) s) fun t => s.computeKept t ∧ (t.hbm st).pend = [] ∧
      t.fld (a_HBM_LOGPTR b (stackWin st)) f_HBM_LOGPTR_PENDING = 0 ∧
      ((s.hbm st).pend.length ≤ 16 → (∀ n ∈ (s.hbm st).pend, bits (s.hbmEntryAt st n) 191 176 ≠ Code.HBM_SYMBOL_CORRECTED) →
        t.recs.seq = s.recs.seq + (s.hbm st).pend.length ∧
        (t.recs.last.map (·.body)).reverse.take (s.hbm st).pend.length =
          ((s.hbm st).pend.map fun n => bytesLE 32 (s.hbmEntryAt st n)).reverse)

/-- The states of HBM channels (R276 to R278) and margining (R279, R280). -/
def Obligations.HbmChannels : Prop :=
  (∀ (s : State) (st ch : Nat), st < 12 → ch < 32 →
    let b := stackBase st
    let a := a_chan st ch
    let was := s.fld a f_HBM_CH_STATUS_STATE
    let n := s.fld (a_HBM_LOGPTR b (stackWin st)) f_HBM_LOGPTR_NEXT
    let logged (t : State) (code : Nat) : Prop := ∀ w, w < 4 → t.reg (a_HBM_ERRLOG b (stackWin st) n w) =
      BitVec.ofNat 64 (chanEntry (s.tideOf b) code st ch / 2 ^ (64 * w))
    let retrains (t : State) : Prop := t.fld a f_HBM_CH_STATUS_STATE = 3 ∧
      t.fld a f_HBM_CH_STATUS_RETRAINS = min (s.fld a f_HBM_CH_STATUS_RETRAINS + 1) (2 ^ 16 - 1) ∧ logged t Code.HBM_RETRAIN
    let others (t : State) : Prop := ∀ c, c < 32 → c ≠ ch → t.reg (a_chan st c) = s.reg (a_chan st c)
    (∀ errors, was = 2 → 16 < errors → Goes (exec (.hbmChannelRetrain st ch errors) s) fun t => s.computeKept t ∧ others t ∧ retrains t) ∧
    (∀ src, was = 2 ∨ was = 4 → Accepts s src (cmdHbmRetrain st ch) (exec (.hbmRetrainCmd src st ch) s) fun t =>
      s.computeKept t ∧ others t ∧ retrains t) ∧
    (∀ src, Accepts s src (cmdHbmOffline st ch) (exec (.hbmOffline src st ch) s) fun t => s.computeKept t ∧ others t ∧
      t.fld (a_chanCtl st ch) f_HBM_CH_CTL_OFFLINE = 1 ∧ (if s.fld (a_chanCtl st ch) f_HBM_CH_CTL_OFFLINE = 0 ∧ s.chanLive st ch = true
        then t.fld a f_HBM_CH_STATUS_STATE = 4 else t.reg a = s.reg a)) ∧
    (∀ src, Accepts s src (cmdHbmOnline st ch) (exec (.hbmOnline src st ch) s) fun t => s.computeKept t ∧ others t ∧
      t.fld (a_chanCtl st ch) f_HBM_CH_CTL_OFFLINE = 0 ∧ (if s.fld (a_chanCtl st ch) f_HBM_CH_CTL_OFFLINE = 1 ∧ was = 4
        then retrains t else t.reg a = s.reg a)) ∧
    (was = 3 →
      (Goes (exec (.hbmRetrainDone st ch true) s) fun t => s.computeKept t ∧ others t ∧ Tbl.get 0 (t.hbm st).fails ch = 0 ∧
        t.fld a f_HBM_CH_STATUS_STATE = if s.fld (a_chanCtl st ch) f_HBM_CH_CTL_OFFLINE = 1 then 4 else 2) ∧
      Goes (exec (.hbmRetrainDone st ch false) s) fun t => s.computeKept t ∧ others t ∧
        Tbl.get 0 (t.hbm st).fails ch = Tbl.get 0 (s.hbm st).fails ch + 1 ∧
        (if 3 ≤ Tbl.get 0 (t.hbm st).fails ch then t.fld a f_HBM_CH_STATUS_STATE = 5 ∧ logged t Code.HBM_CHANNEL_DOWN ∧
            t.fld (a_HBM_STACK_STATUS b (stackWin st)) f_HBM_STACK_STATUS_STATE = 3 ∧
            ∀ p ∈ s.stackPartitions st, (p, Code.HBM_CHANNEL_DOWN) ∈ t.teardownAsks
          else retrains t)) ∧
    (∀ src pc pin mode, s.fld (a_margin st) f_HBM_MARGIN_STATUS_BUSY = 0 →
      Accepts s src (cmdMargin st pc ch pin mode) (exec (.hbmMarginStart src st pc ch pin mode) s) fun t => s.computeKept t ∧ others t ∧
        t.reg a = s.reg a ∧ (let m := a_margin st
          if was ≠ 4 then t.fld m f_HBM_MARGIN_STATUS_BUSY = 0 ∧ t.fld m f_HBM_MARGIN_STATUS_RESULT = 1
          else if 35 < pin % 64 then t.fld m f_HBM_MARGIN_STATUS_BUSY = 0 ∧ t.fld m f_HBM_MARGIN_STATUS_RESULT = 2
          else t.fld m f_HBM_MARGIN_STATUS_BUSY = 1 ∧ t.fld m f_HBM_MARGIN_STATUS_DONE = 0))) ∧
  (∀ (s : State) (die i : Nat) (e : HomeEnt) (l : Nat), 12 ≤ die → die < 16 → s.overHeld die = some (i, e, l) →
    Goes (exec (.hbmHeldTimeout die) s) fun t => t.mem = s.mem ∧ (s.homeList die)[i]? = some e ∧
      t.homeList die = (s.homeList die).eraseIdx i ∧ l ∈ e.req.hbmLines ∧
      max e.since (Tbl.get 0 (s.hbm (stackOf l)).since (chanOf l)) + 2_000_000 < s.tideOf die ∧
      t.fld (a_chan (stackOf l) (chanOf l)) f_HBM_CH_STATUS_TIMEOUTS =
        min (s.fld (a_chan (stackOf l) (chanOf l)) f_HBM_CH_STATUS_TIMEOUTS + 1) (2 ^ 16 - 1) ∧
      ∀ tag, e.req.agent = .pcie tag → e.req.data = none →
        t.outbox = s.outbox ++ [⟨.hostCompletion, tag, [Code.HBM_CHANNEL_DOWN, 0]⟩]) ∧
  ∀ (s : State) (st : Nat) (eye : List Word), st < 12 → eye.length = 32 → s.fld (a_margin st) f_HBM_MARGIN_STATUS_BUSY = 1 →
    let bit_ (v x : Nat) : Bool := (eye.getD v 0).getLsbD x
    let long (k n : Nat) (f : Nat → Bool) : Prop :=
      (k = 0 ∨ ∃ i, i + k ≤ n ∧ ∀ j, j < k → f (i + j) = true) ∧ ∀ i, i + k + 1 ≤ n → ∃ j, j ≤ k ∧ f (i + j) = false
    Goes (exec (.hbmMarginDone st eye) s) fun t => s.computeKept t ∧
      (∀ v, v < 32 → t.reg (a_HBM_EYE (stackBase st) (stackWin st) v) = eye.getD v 0) ∧
      t.fld (a_margin st) f_HBM_MARGIN_STATUS_BUSY = 0 ∧ t.fld (a_margin st) f_HBM_MARGIN_STATUS_DONE = 1 ∧
      long (t.fld (a_margin st) f_HBM_MARGIN_STATUS_WIDTH) 64 (bit_ 16) ∧
      long (t.fld (a_margin st) f_HBM_MARGIN_STATUS_HEIGHT) 32 fun v => bit_ v 32

/-- Lasers (R283 to R286), rings (R287), ports (R293 to R298, R305) and received power (R306). -/
def Obligations.LasersRingsPorts : Prop :=
  (∀ (s : State) (die j k : Nat), 12 ≤ die → die < 16 → j < 5 → k < 17 →
    let a := a_PHX_LASER die j k
    (∀ power bias offset, 2 ≤ s.laserSt die j k → s.laserSt die j k ≤ 4 →
      (∀ x ∈ s.takeovers, x.die = die → x.wave = k → x.bank ≠ j) →
      let first := (s.laser die j k).first.getD (power, bias)
      let bad := if 10 * power < 7 * first.1 ∨ 20000 < offset.natAbs then (s.laser die j k).bad + 1 else 0
      Goes (exec (.laserMonitorSample die j k power bias offset) s) fun t => s.computeKept t ∧
        t.fld a f_PHX_LASER_POWER = power % 2 ^ 16 ∧ t.fld a f_PHX_LASER_BIAS = bias % 2 ^ 16 ∧
        t.fld a f_PHX_LASER_WEAR = (if 13 * first.2 < 10 * bias then 1 else s.fld a f_PHX_LASER_WEAR) ∧
        (bad < 4 → t.laserSt die j k = s.laserSt die j k ∧ t.laser die j k = ⟨some first, bad⟩) ∧
        (4 ≤ bad → t.laserSt die j k = 5 ∧
          (j < 4 → s.laserSt die 4 k = 3 → s.takeover die k = none →
            t.takeovers = s.takeovers ++ [⟨die, k, j, false, s.tideOf die⟩]) ∧
          (j < 4 → s.laserSt die 4 k ≠ 3 → s.takeover die k = none → (Tbl.get 0 t.waves die).testBit k = true) ∧
          (j = 4 → s.laserSt die 4 k = 4 → (Tbl.get 0 t.waves die).testBit k = true))) ∧
    (∀ power bias offset, s.laserSt die j k < 2 ∨ 4 < s.laserSt die j k →
      Goes (exec (.laserMonitorSample die j k power bias offset) s) fun t => t = { s with regs := t.regs } ∧ s.onlyRegs t [a] ∧
        t.fld a f_PHX_LASER_POWER = power % 2 ^ 16 ∧ t.fld a f_PHX_LASER_BIAS = bias % 2 ^ 16 ∧ t.laserSt die j k = s.laserSt die j k) ∧
    (∀ x, s.takeover die k = some x → s.laserSt die 4 k = 3 → Goes (exec (.laserTakeover die k) s) fun t => s.computeKept t ∧
      t.laserSt die 4 k = 4 ∧ t.fld (a_PHX_LASER die 4 k) f_PHX_LASER_COVERS = x.bank % 16 ∧
      t.takeovers = s.takeovers.erase x ∧ Records s t Code.LASER_TAKEOVER die 31 []) ∧
    ∀ src, Accepts s src (cmdLaserRetire die j k) (exec (.laserRetire src die j k) s) fun t => s.computeKept t ∧
      if j < 4 ∧ s.laserSt die j k = 2 ∧ s.laserSt die 4 k = 3 ∧ s.takeover die k = none then t.laserSt die j k = 6 ∧
        t.takeovers = s.takeovers ++ [⟨die, k, j, true, s.tideOf die⟩]
      else t.takeovers = s.takeovers ∧ ∀ i w, i < 5 → w < 17 → t.laserSt die i w = s.laserSt die i w) ∧
  (∀ (s : State) (p : Nat), p < 32 →
    let die := portDie p
    let now := s.tideOf die
    let x := s.port p
    let N := now / s.calStep p
    let placed (t : State) : Prop := ∀ l ∈ t.portLanes p, ∀ k, t.slotOf p (t.lanePos l) = some k → t.laneSlot l = k
    (∀ slot tx heat power, slot < 17 → s.portSt p ≠ 3 →
      let f := if tx then f_PHX_SLOT_TXHEAT else f_PHX_SLOT_RXHEAT
      let g := if tx then f_PHX_SLOT_TXPWR else f_PHX_SLOT_RXPWR
      (0 ≤ heat → heat ≤ 255 → Goes (exec (.ringLockUpdate p slot tx heat power) s) fun t => t = { s with regs := t.regs } ∧
        t.fld (a_PHX_SLOT die (portNo p) slot) f = heat.toNat ∧ t.fld (a_PHX_SLOT die (portNo p) slot) g = power % 2 ^ 16 ∧
        ∀ a, a ≠ a_PHX_SLOT die (portNo p) slot → t.reg a = s.reg a) ∧
      ((heat < 0 ∨ 255 < heat) → x.untun.testBit slot = false → Goes (exec (.ringLockUpdate p slot tx heat power) s) fun t =>
        s.computeKept t ∧ (t.port p).untun.testBit slot = true ∧ Records s t Code.RING_UNTUNABLE die (s.portPart p) [])) ∧
    (x.rotating = false → Goes (exec (.darkMaskApply p) s) fun t => s.computeKept t ∧ placed t ∧
      (t.port p).effOwn = s.ownDark p ∧ (t.port p).effPeer = x.peer) ∧
    (x.rotating = true → N ≤ x.boundary → exec (.darkMaskApply p) s = .next s) ∧
    (x.rotating = true → x.boundary < N → (∀ e, x.hold = some e → e ≤ now) → Goes (exec (.darkMaskApply p) s) fun t =>
      s.computeKept t ∧ placed t ∧ (t.port p).boundary = N ∧
      (t.port p).effOwn = (if x.ownAt + 200000 ≤ N * s.calStep p then s.ownDark p else x.effOwn) ∧
      (t.port p).effPeer = (if x.peerAt + 200000 ≤ N * s.calStep p then x.peer else x.effPeer)) ∧
    (∀ light failed eyes, s.portSt p < 3 → Goes (exec (.portTrainStep p light failed eyes) s) fun t => s.computeKept t ∧
      (x.step = 0 → (t.port p).step = 1 ∧ ∀ j k, j < 5 → k < 17 →
        t.laserSt die j k = if s.laserSt die j k = 0 then 1 else s.laserSt die j k) ∧
      (x.step = 1 → (t.port p).step = 2 ∧ t.portSt p = 1) ∧
      (x.step = 2 → (t.port p).step = 3 ∧ ∀ k, k < 17 → failed.testBit k = true → (t.port p).untun.testBit k = true) ∧
      (x.step = 3 → light = true → (t.port p).step = 4) ∧
      (x.step = 3 → light = false → x.since + 100_000_000 ≤ now → x.noLight = false →
        (t.port p).step = 3 ∧ (t.port p).noLight = true ∧ Records s t Code.LINK_TRAIN_FAIL die (s.portPart p) []) ∧
      (x.step = 4 → ∀ node pp step, x.ident = some (node, pp, step) →
        let e := a_PHX_PORT_EXP die (portNo p)
        let wrong := s.fld e f_PHX_PORT_EXP_CHECK = 1 ∧ ¬ (node = s.fld e f_PHX_PORT_EXP_NODE ∧ pp = s.fld e f_PHX_PORT_EXP_PORT)
        t.fld (a_port p) f_PHX_PORT_PEER_NODE = node % 4096 ∧ t.fld (a_port p) f_PHX_PORT_PEER_PORT = pp % 32 ∧
        (wrong → t.portSt p = 4 ∧ Records s t Code.PORT_MISWIRED die (s.portPart p) []) ∧
        (¬ wrong → step ≠ s.calStep p → t.portSt p = 5 ∧ Records s t Code.CAL_STEP_MISMATCH die (s.portPart p) []) ∧
        (¬ wrong → step = s.calStep p → (t.port p).step = 5)) ∧
      (x.step = 5 → (t.port p).step = 6 ∧ ∀ k, k < 17 → k < eyes.length →
        Tbl.get 0 (t.port p).eyes k = eyes.getD k 0 % 2 ^ 24) ∧
      (x.step = 6 → N ≤ x.since / s.calStep p → t = s) ∧
      (x.step = 6 → x.since / s.calStep p < N → (t.port p).step = 7 ∧ t.portSt p = 2 ∧ t.fld (a_port p) f_PHX_PORT_TARGET =
        s.planCount p (s.fld (a_LANE_PLANSEL die) f_LANE_PLANSEL_CUR) % 2 ^ f_PHX_PORT_TARGET.width)) ∧
    (∀ src, s.portSt p ≠ 3 → Accepts s src (cmdPortRetrain p) (exec (.phxPortRetrain src p) s) fun t => s.computeKept t ∧
      t.portSt p = 1 ∧ (t.port p).step = 2 ∧ (t.port p).untun = 0 ∧ (t.port p).rotating = false ∧
      ∀ l ∈ s.portLanes p, t.lanePort l = 0x3F) ∧
    (∀ src, s.fld (a_port p) f_PHX_PORT_DISABLE = 0 → Accepts s src (cmdPortDisable p) (exec (.portDisable src p) s) fun t =>
      s.computeKept t ∧ t.portSt p = 3 ∧ t.fld (a_port p) f_PHX_PORT_DISABLE = 1 ∧ (t.port p).step = 0 ∧ (t.port p).low = [] ∧
      ∀ l ∈ s.portLanes p, t.lanePort l = 0x3F) ∧
    (∀ eye, s.portSt p = 2 → x.boundary < N →
      let turns : Bool := match x.peerSync, s.stide with
        | some a, some b => decide (max a b + 200000 ≤ N * s.calStep p)
        | _, _ => false
      ((x.rotating || turns) = true → (∀ e, x.hold = some e → e ≤ now) →
        Goes (exec (.calibrationStepBoundary p eye) s) fun t => s.computeKept t ∧
          (t.port p).boundary = N ∧ (t.port p).hold = none ∧ placed t ∧ (t.port p).rotating = true ∧
          ∀ g, s.gapOf p = some g → Tbl.get 0 (t.port p).eyes g = eye % 2 ^ 24) ∧
      ((x.rotating || turns) = false → Goes (exec (.calibrationStepBoundary p eye) s) fun t =>
        t = { s with ports := t.ports } ∧ t.port p = { x with eyes := (t.port p).eyes })) ∧
    (∀ slot power, s.fld (a_port p) f_PHX_PORT_DISABLE = 1 → exec (.opticalLowPower p slot power) s = .next s) ∧
    ∀ slot power, slot < 17 → s.fld (a_port p) f_PHX_PORT_DISABLE = 0 →
      let r := a_PHX_SLOT die (portNo p) slot
      let since := Tbl.get 0 x.low slot
      let dim := Tbl.get 0 x.dim slot
      Goes (exec (.opticalLowPower p slot power) s) fun t => s.computeKept t ∧ t.fld r f_PHX_SLOT_RXPWR = power % 2 ^ 16 ∧
        (slot ∉ s.usable p → Tbl.get 0 (t.port p).low slot = 0 ∧ Tbl.get 0 (t.port p).dim slot = 0 ∧ t.recs = s.recs) ∧
        (slot ∈ s.usable p →
          (178 ≤ power → Tbl.get 0 (t.port p).low slot = 0 ∧ t.recs = s.recs) ∧
          (178 < power → (t.port p).lowTold.testBit slot = false) ∧
          (power < 178 → since = 0 → Tbl.get 0 (t.port p).low slot = now + 1 ∧ t.recs = s.recs) ∧
          (power < 178 → since ≠ 0 → since + 1_000_000_000 ≤ now + 1 → x.lowTold.testBit slot = false →
            (t.port p).lowTold.testBit slot = true ∧ Records s t Code.OPTICAL_LOW_POWER die (s.portPart p) []) ∧
          (power < 178 → since ≠ 0 → (now + 1 < since + 1_000_000_000 ∨ x.lowTold.testBit slot = true) →
            t.recs = s.recs ∧ (t.port p).low = x.low ∧ (t.port p).lowTold = x.lowTold) ∧
          (power < 63 → dim ≠ 0 → dim + 10_000 ≤ now + 1 → ∀ l, (s.portLanes p).find? (fun l => s.laneSlot l == slot) = some l →
            s.laneSt l = 2 → x.filled.testBit (s.lanePos l) = true → (t.laneSt l = 4 ∨ t.laneSt l = 5) ∧ ∃ d ∈ t.detections, d.code = Code.LANE_FAULT ∧ d.die = die ∧
              d.core = laneNo l / 16 ∧ d.sub = laneNo l % 16)))

/-- What lanes receive, and how they leave and enter service (R290 to R292, R296, R300 to R304). -/
def Obligations.Lanes : Prop :=
  (∀ (s : State) (l : Nat), l < 384 →
    let die := laneDie l
    let now := s.tideOf die
    let p := s.lanePort l
    let x := s.lane l
    let st := s.laneSt l
    let recent := (x.faults.filter fun t => decide (now < t + 1_000_000_000)) ++ [now]
    let told (t : State) (code : Nat) : Prop := ∃ d ∈ t.detections, d.code = code ∧ d.die = die ∧ d.ukind = 6 ∧ d.core = laneNo l / 16 ∧
      d.sub = laneNo l % 16
    let enters (t : State) : Prop := t.lanePort l = p ∧
      if (s.port p).filled.testBit (s.lanePos l) = true then t.laneSt l = 2 ∧ t.reg (a_LANE_CW die (laneNo l)) = 0 else t.laneSt l = 1
    (∀ raw, st = 2 → raw.length = 136 → s.portSt p ≠ 3 → Goes (exec (.laneCodewordReceive l raw) s) fun t => s.computeKept t ∧
      t.fld (a_LANE_CW die (laneNo l)) f_LANE_CW_COUNT = (s.fld (a_LANE_CW die (laneNo l)) f_LANE_CW_COUNT + 1) % 2 ^ 64 ∧
      (∀ w n, rsDecode (raw.map BitVec.toNat) = some (w, n) →
        let d := descrambleWord x.scr (w.drop 8)
        let bs := d.1.map fun n => BitVec.ofNat 8 n
        (t.router die).arr = (s.router die).arr ++ [⟨l, (cellOf (bs.take 64)).1, (cellOf (bs.take 64)).2⟩,
          ⟨l, (cellOf (bs.drop 64)).1, (cellOf (bs.drop 64)).2⟩] ∧
        t.laneSt l = 2 ∧ (t.lane l).rxIdx = x.rxIdx + 1 ∧ (t.lane l).scr = d.2 ∧
        t.fld (a_LANE_FEC die (laneNo l)) f_LANE_FEC_CORR = (if n = 0 then s.fld (a_LANE_FEC die (laneNo l)) f_LANE_FEC_CORR
          else min (s.fld (a_LANE_FEC die (laneNo l)) f_LANE_FEC_CORR + 1) (2 ^ 32 - 1))) ∧
      (rsDecode (raw.map BitVec.toNat) = none → (t.lane l).scr = (descrambleWord x.scr ((raw.map BitVec.toNat).drop 8)).2) ∧
      (rsDecode (raw.map BitVec.toNat) = none → portDie p = die →
        ⟨p, false, s.lanePos l, x.rxSeq, x.rxIdx + 1, now, false⟩ ∈ (t.router die).ents ∧ (t.router die).arr = (s.router die).arr ∧
        t.fld (a_LANE_FEC die (laneNo l)) f_LANE_FEC_UNCORR = min (s.fld (a_LANE_FEC die (laneNo l)) f_LANE_FEC_UNCORR + 1) (2 ^ 32 - 1) ∧
        (s.exempt die (s.laneSlot l) = true ∨ (x.uncorr.filter fun t => decide (now < t + 1_000_000)).length < 15 → t.laneSt l = 2) ∧
        (s.exempt die (s.laneSlot l) = false → 15 ≤ (x.uncorr.filter fun t => decide (now < t + 1_000_000)).length →
          (s.port p).filled.testBit (s.lanePos l) = true → told t Code.LANE_FAULT ∧ t.laneSt l = if 3 ≤ recent.length then 5 else 4))) ∧
    (∀ d, x.due = some d → d ≤ now → st = 1 ∨ st = 3 → p < 32 → Goes (exec (.laneMoveReturn l) s) fun t => s.computeKept t ∧
      (t.lane l).due = none ∧ enters t) ∧
    (∀ port raw, s.listens l = false → exec (.controlCodewordReceive port (some l) raw) s = .next s) ∧
    (∀ cause dark, cause = 1 ∨ cause = 2 → (s.port p).filled.testBit (s.lanePos l) = false →
      exec (.laneFault l cause dark) s = .next s) ∧
    (∀ cause dark, 1 ≤ st → st ≤ 4 → cause = 1 ∨ cause = 2 ∧ st ≠ 4 ∧ x.markAt + 2176 * (2 - x.marks) ≤ now →
      (s.port p).filled.testBit (s.lanePos l) = true → p < 32 → Goes (exec (.laneFault l cause dark) s) fun t => s.computeKept t ∧
      t.fld (a_stat l) f_LANE_STATUS_FAULTS = min (s.fld (a_stat l) f_LANE_STATUS_FAULTS + 1) 255 ∧ (t.lane l).faults = recent ∧
      (t.port p).lfault.testBit (s.lanePos l) = true ∧ told t Code.LANE_FAULT ∧
      (if 3 ≤ recent.length then t.laneSt l = 5 ∧ told t Code.LANE_FAILED else t.laneSt l = 4 ∧ (t.lane l).since = now)) ∧
    (∀ dark, st < 5 → (die, laneNo l) ∈ s.laneAsks → Goes (exec (.laneFault l 6 dark) s) fun t => s.computeKept t ∧
      t.laneSt l = 6 ∧ t.laneAsks = s.laneAsks.erase (die, laneNo l) ∧
      t.fld (a_stat l) f_LANE_STATUS_FAULTS = s.fld (a_stat l) f_LANE_STATUS_FAULTS ∧ (st ≠ 0 → told t Code.LANE_FAULT)) ∧
    (st = 4 → x.dropped = false → p < 32 → Goes (exec (.laneRecoveryDone l) s) fun t => s.computeKept t ∧ enters t) ∧
    (st = 4 → x.dropped = false → x.since + 1_000_000 < now → Goes (exec (.laneRecoveryTimeout l) s) fun t => s.computeKept t ∧
      t.laneSt l = 5 ∧ told t Code.LANE_FAILED) ∧
    ∀ src,
      (s.fld (a_lctl l) f_LANE_CTL_OFFLINE = 0 → Accepts s src (cmdLaneOffline l) (exec (.laneOffline src l) s) fun t => s.computeKept t ∧
        t.fld (a_lctl l) f_LANE_CTL_OFFLINE = 1 ∧ t.laneSt l = if st < 5 then 6 else st) ∧
      (s.fld (a_lctl l) f_LANE_CTL_OFFLINE = 1 → Accepts s src (cmdLaneOnline l) (exec (.laneOnline src l) s) fun t => s.computeKept t ∧
        t.fld (a_lctl l) f_LANE_CTL_OFFLINE = 0 ∧ (if st = 6 then t.laneSt l = 0 ∧ t.lanePort l = 0x3F else t.laneSt l = st)) ∧
      (st = 2 → Accepts s src (cmdLaneRetrain l) (exec (.laneRetrain src l) s) fun t => s.computeKept t ∧ t.laneSt l = 4 ∧
        (t.lane l).since = now ∧ t.fld (a_stat l) f_LANE_STATUS_FAULTS = s.fld (a_stat l) f_LANE_STATUS_FAULTS ∧
        (t.lane l).faults = x.faults)) ∧
  ∀ (s : State) (p : Nat) (lane : Option Nat) (raw : List Byte), p < 32 → s.portSt p ≠ 3 → raw.length = 136 →
    (∀ l, lane = some l → l < 384 ∧ s.lanePort l = p ∧ s.listens l = true) →
    let cw (l : Nat) := a_LANE_CW (laneDie l) (laneNo l)
    let fec (l : Nat) := a_LANE_FEC (laneDie l) (laneNo l)
    let counted (t : State) (l : Nat) : Prop :=
      t.fld (cw l) f_LANE_CW_COUNT = (s.fld (cw l) f_LANE_CW_COUNT + 1) % 2 ^ 64 ∧ (t.lane l).rxIdx = 0
    let fixed (t : State) (l n : Nat) : Prop := t.fld (fec l) f_LANE_FEC_CORR =
      if n = 0 then s.fld (fec l) f_LANE_FEC_CORR else min (s.fld (fec l) f_LANE_FEC_CORR + 1) (2 ^ 32 - 1)
    let asBefore (t : State) : Prop := (t.port p).peer = (s.port p).peer ∧ (t.port p).filled = (s.port p).filled ∧
      (t.port p).ident = (s.port p).ident
    (rsDecode (raw.map BitVec.toNat) = none → Goes (exec (.controlCodewordReceive p lane raw) s) fun t => s.computeKept t ∧
      asBefore t ∧ (lane = none → t = s) ∧ ∀ l, lane = some l → counted t l ∧
        t.fld (fec l) f_LANE_FEC_UNCORR = min (s.fld (fec l) f_LANE_FEC_UNCORR + 1) (2 ^ 32 - 1)) ∧
    ∀ w n, rsDecode (raw.map BitVec.toNat) = some (w, n) →
      let bs := (w.drop 8).map fun b => BitVec.ofNat 8 b
      let f (a k : Nat) : Nat := natLE ((bs.drop a).take k)
      (controlOk bs = false → Goes (exec (.controlCodewordReceive p lane raw) s) fun t => s.computeKept t ∧ asBefore t ∧
        (lane = none → t = s) ∧ ∀ l, lane = some l → counted t l ∧ fixed t l n) ∧
      (controlOk bs = true → Goes (exec (.controlCodewordReceive p lane raw) s) fun t => s.computeKept t ∧
        (t.port p).peer = f 12 4 ∧ (t.port p).peerAt = f 16 8 ∧ (t.port p).filled = f 24 2 ∧
        (t.port p).peerSync = (if (f 6 1).testBit 0 then some (f 64 8) else none) ∧
        (t.port p).ident = some (bits (f 2 2) 11 0, bits (f 4 1) 4 0, f 8 4) ∧
        ∀ l, lane = some l → fixed t l n ∧ (t.lane l).rxSeq = natLE (bs.take 2) ∧ (t.lane l).rxIdx = 0)

/-- What a slot has of a base die's cells (R316 to R322), what its ports send (R289 to R291, R327 to R329), combining (R331 to R334), and what
expires (R328, R329). A lane's recent faults count by R303. That a control codeword's name is kept for the 2,176 tide units of its block and
8,000 more, and the 11,000 for which the name of an entry is remembered, are the model's choices (log entries 11 and 31). -/
def Obligations.Routers : Prop :=
  (∀ (s : State) (b bad : Nat), 12 ≤ b → b < 16 →
    let r := s.router b
    let now := s.tideOf b
    let outs := s.outputs b
    let counted (t : State) (i : Nat) : Prop := t.fld (a_RTR_COUNT b i) f_RTR_COUNT_COUNT =
      (s.fld (a_RTR_COUNT b i) f_RTR_COUNT_COUNT + 1) % 2 ^ f_RTR_COUNT_COUNT.width
    let noCal : Prop := ∀ p ∈ diePorts b, (s.port p).step < 3 ∨ s.portSt p = 3 ∨ ∃ x, (s.port p).calAt = some x ∧ now < x + 2176
    let crcFailed (t : State) (part : Nat) : Prop := counted t 10 ∧ (part < 24 → (part, Code.FABRIC_CELL_CRC) ∈ t.teardownAsks) ∧
      ∃ d ∈ t.detections, d.code = Code.FABRIC_CELL_CRC ∧ d.die = b
    r.held = [] → r.quay = [] → r.loc = [] → r.combos = [] → noCal →
    (∀ a : Arrival, let c := a.cell
      let free (l : Nat) : Nat := (outs.filter fun x => s.lanePort x == s.lanePort l).length
      let wanted (l : Nat) : Prop := l ∈ outs ∧ (s.fld (a_RTR_ROUTE b c.dst) f_RTR_ROUTE_MASK).testBit (s.lanePort l) = true ∧
        s.lanePort l ∈ diePorts b ∧ s.portPart (s.lanePort l) = c.part
      let given (t : State) (l : Nat) : Prop := t.lane l = { s.lane l with tx := some c } ∧ t.outbox = s.outbox ∧ counted t 1
      r.arr = [a] → a.lane < 384 → r.crossing = [] → (∀ l ∈ dieLanes b, (s.lane l).tx = none) → (∀ l ∈ outs, s.txIndex l < 256) →
      (a.good = false → Goes (exec (.routerSlot b bad) s) fun t => s.computeKept t ∧ (t.router b).arr = [] ∧ (t.router b).eject = r.eject ∧
        t.lanes = s.lanes ∧ t.outbox = s.outbox ∧ crcFailed t c.part) ∧
      (a.good = true → kindOk c = true → c.part = s.portPart (s.lanePort a.lane) → s.tornAt b c.part = false → s.stale b c = false →
        c.kind ≠ 0xD → c.kind ≠ 0xE →
        (c.dst = s.nodeId → s.canEject b c = true → Goes (exec (.routerSlot b bad) s) fun t => s.computeKept t ∧ (t.router b).arr = [] ∧
          (t.router b).eject = r.eject ++ [c] ∧ t.lanes = s.lanes ∧ t.outbox = s.outbox ∧ counted t 2) ∧
        (c.dst ≠ s.nodeId → c.part < 24 → (mergeKey c = none ∨ s.fld (a_RTR_CTL b) f_RTR_CTL_CWIN = 0) →
          ((∃ l, wanted l) → Goes (exec (.routerSlot b bad) s) fun t => s.computeKept t ∧ (t.router b).arr = [] ∧
            ∃ l, wanted l ∧ (∀ l', wanted l' → free l' ≤ free l) ∧ given t l) ∧
          ((∀ l, ¬ wanted l) → (∃ p ∈ diePorts b, (s.fld (a_RTR_ROUTE b c.dst) f_RTR_ROUTE_MASK).testBit p = true ∧ s.portPart p = c.part) →
            (∃ l ∈ outs, s.lanePort l ∈ diePorts b ∧ s.portPart (s.lanePort l) = c.part) →
            Goes (exec (.routerSlot b bad) s) fun t => s.computeKept t ∧ (t.router b).arr = [] ∧ counted t 4 ∧
              ∃ l ∈ outs, s.portPart (s.lanePort l) = c.part ∧ given t l)) ∧
        (c.dst ≠ s.nodeId → mergeKey c ≠ none → s.fld (a_RTR_CTL b) f_RTR_CTL_CWIN ≠ 0 → ∀ n res, s.freeEntry b c.part = some (n, res) →
          Goes (exec (.routerSlot b bad) s) fun t => s.computeKept t ∧ (t.router b).arr = [] ∧ t.lanes = s.lanes ∧ t.outbox = s.outbox ∧
            Tbl.get none (t.router b).combos n =
              some ⟨c, [⟨c.src, c.core, c.rid, if c.kind = 1 then bits c.g0 19 8 else 0, 1⟩], 0, false, 0, res⟩)) ∧
      (∀ l c0, wanted l → (∀ l', wanted l' → l' = l) → a.good = true → kindOk c = true → c.part = s.portPart (s.lanePort a.lane) →
        s.tornAt b c.part = false → s.stale b c = false → c.kind < 0xD → c0.kind < 0xD → c.dst ≠ s.nodeId → c.part < 24 →
        (mergeKey c = none ∨ s.fld (a_RTR_CTL b) f_RTR_CTL_CWIN = 0) →
        let x := s.lane l
        let u := s.modLane l fun y => { y with tx := some c0 }
        let q := scrambleWord x.txScr ((cellBytes c0 ++ cellBytes c).map BitVec.toNat)
        Goes (exec (.routerSlot b bad) u) fun t => s.computeKept t ∧ counted t 1 ∧
          t.outbox = s.outbox ++ [⟨.lane, l, pamLevels (rsEncode q.1)⟩] ∧
          (t.router b).words = r.words ++ [⟨s.lanePort l, s.lanePos l, x.txSeq, s.txIndex l, [c0, c], now, false⟩] ∧
          t.lane l = { x with tx := none, txIdx := s.txIndex l + 1, txScr := q.2 })) ∧
    (∀ x : Nat × WaitCell, r.arr = [] → r.crossing = [x] → (∀ l ∈ dieLanes b, (s.lane l).tx = none) → (∀ l ∈ outs, s.txIndex l < 256) →
      bad.testBit 0 = true → Goes (exec (.routerSlot b bad) s) fun t => s.computeKept t ∧ (t.router b).crossing = [] ∧
        (t.router b).held = [] ∧ (t.router b).quay = [] ∧ (t.router b).eject = r.eject ∧ t.lanes = s.lanes ∧ t.outbox = s.outbox ∧
        crcFailed t x.2.cell.part) ∧
    (r.arr = [] → r.crossing = [] → (∀ l ∈ dieLanes b, (s.lane l).tx = none) → Goes (exec (.routerSlot b bad) s) fun t => s.computeKept t ∧
      t.regs = s.regs ∧ (t.router b).eject = r.eject ∧
      (∀ l ∈ outs, s.txIndex l < 256 → t.lane l = s.lane l) ∧
      (∀ l ∈ outs, 256 ≤ s.txIndex l →
        let x := s.lane l
        let seq := if x.txAt.isSome then (x.txSeq + 1) % 65536 else x.txSeq
        t.lane l = { x with txSeq := seq, txIdx := 1, txAt := some now } ∧
        ⟨s.lanePort l, s.lanePos l, seq, 0, [], now, false⟩ ∈ (t.router b).words ∧
        ⟨.lane, l, pamLevels (rsEncode ((s.controlBytes (s.lanePort l) (s.lanePos l) seq).map BitVec.toNat))⟩ ∈ t.outbox))) ∧
  (∀ (s : State) (b : Nat) (c : Cell) (rest : List Cell), 12 ≤ b → b < 16 → (s.router b).eject = c :: rest →
    let die := if s.loadClose (coreDie c.core) c then coreDie c.core
      else if c.kind = 5 ∧ 0xC0 ≤ c.core then answerDie c.core else cellDie c
    let merged : Prop := 0xC0 ≤ c.core ∧ (cellResponse c = true ∨ c.kind = 5) ∧ die ≠ b
    (s.tornAt b c.part = false → merged → s.crossRoom b die = false → exec (.ejectionHandoff b) s = .next s) ∧
    (s.tornAt b c.part = false → merged → s.crossRoom b die = true → Goes (exec (.ejectionHandoff b) s) fun t => s.computeKept t ∧
      s.onlyFlits t ∧ t = { s with regs := t.regs, routers := t.routers } ∧ (t.router b).eject = rest ∧
      (t.router die).crossing = (s.router die).crossing ++ [(b, ⟨c, s.tideOf die, false, none, none⟩)]) ∧
    (s.tornAt b c.part = false → ¬ merged → Goes (exec (.ejectionHandoff b) s) fun t => s.computeKept t ∧ t.regs = s.regs ∧ (t.router b).eject = rest ∧
      Tbl.get [] t.quay die = Tbl.get [] s.quay die ++ [⟨b, c.part, .cell c, 0, 0, none⟩] ∧
      (c.kind = 4 → c.core < 0xC0 → (t.ctxList (baseOf die)).any (TransferCtx.of c) = true ∧
        t.ctxDone (baseOf die) c = s.ctxDone (baseOf die) c)) ∧
    (s.tornAt b c.part = true → Goes (exec (.ejectionHandoff b) s) fun t => s.computeKept t ∧ (t.router b).eject = rest ∧
      t.quay = s.quay ∧ t.ctxs = s.ctxs ∧ t.fld (a_RTR_COUNT b 12) f_RTR_COUNT_COUNT =
        (s.fld (a_RTR_COUNT b 12) f_RTR_COUNT_COUNT + 1) % 2 ^ f_RTR_COUNT_COUNT.width)) ∧
  (∀ (s : State) (b n : Nat) (x : Combo), 12 ≤ b → b < 16 → n < 4096 → (s.router b).combos = [(n, some x)] → x.sent = false →
    s.fld (a_RTR_CTL b) f_RTR_CTL_CWIN ≤ x.age →
    (∀ k, x.tickets = [k] → k.cells = 1 → Goes (exec (.combiningRelease b) s) fun t => s.computeKept t ∧
      (t.router b).held = (s.router b).held ++ [⟨x.cell, s.tideOf b, true, none, none⟩] ∧ Tbl.get none (t.router b).combos n = none) ∧
    ((∀ k, x.tickets = [k] → k.cells ≠ 1) → Goes (exec (.combiningRelease b) s) fun t => s.computeKept t ∧
      (t.router b).held = (s.router b).held ++
        [⟨{ x.cell with src := s.nodeId, core := 0xC0 + 16 * (b - 12) + n / 256, rid := n % 256 }, s.tideOf b, true, none, none⟩] ∧
      Tbl.get none (t.router b).combos n = some ⟨x.cell, x.tickets, x.age, true,
        if x.cell.kind = 1 then bits x.cell.g0 5 0 + bits x.cell.g0 20 20 else 1, x.reserved⟩)) ∧
  (∀ (s : State) (p : Nat) (e : LinkEnt), p < 32 →
    let b := portDie p
    let now := s.tideOf b
    (s.router b).ents.find? (fun e => e.port == p && decide (e.since + 3000 ≤ now)) = some e →
    (e.carried = true → Goes (exec (.linkEntryExpire p) s) fun t => s.computeKept t ∧ t.regs = s.regs ∧
      (t.router b).ents = (s.router b).ents.erase e ∧ (t.router b).words = (s.router b).words) ∧
    (e.carried = false → Goes (exec (.linkEntryExpire p) s) fun t => s.computeKept t ∧
      (s.laneAt p e.pos = none →
        (t.router b).ents = (s.router b).ents.erase e ++ [⟨p, true, e.pos, e.bseq, e.index, now, false⟩]) ∧
      ∀ l, s.laneAt p e.pos = some l →
        let fills := (s.port p).filled.testBit e.pos
        (s.laneSt l ≠ 2 ∨ fills = true →
          (t.router b).ents = (s.router b).ents.erase e ++ [⟨p, true, e.pos, (s.lane l).took.1, (s.lane l).took.2, now, false⟩]) ∧
        (s.laneSt l = 0 ∨ 5 ≤ s.laneSt l ∨ fills = false → t.laneSt l = s.laneSt l) ∧
        (1 ≤ s.laneSt l → s.laneSt l ≤ 4 → fills = true → (t.laneSt l = 4 ∨ t.laneSt l = 5) ∧ (t.port p).lfault.testBit e.pos = true ∧
          t.fld (a_stat l) f_LANE_STATUS_FAULTS = min (s.fld (a_stat l) f_LANE_STATUS_FAULTS + 1) 255 ∧
          ∃ d ∈ t.detections, d.code = Code.LANE_FAULT ∧ d.die = laneDie l ∧ d.core = laneNo l / 16 ∧ d.sub = laneNo l % 16))) ∧
  (∀ (s : State) (b : Nat), 12 ≤ b → b < 16 → Goes (exec (.replayHoldExpire b) s) fun t => s.computeKept t ∧ t.regs = s.regs ∧
    t.outbox = s.outbox ∧ (∀ w, w ∈ (t.router b).words ↔ w ∈ (s.router b).words ∧
      s.tideOf b < w.since + 8000 + if w.index = 0 then 2176 else 0) ∧
    (∀ a, a ∈ (t.router b).acted ↔ a ∈ (s.router b).acted ∧ s.tideOf b < a.since + 11000) ∧
    (t.router b).ents = (s.router b).ents ∧ (t.router b).held = (s.router b).held) ∧
  ∀ (s : State) (b : Nat) (e : HomeEnt) (rest : List HomeEnt) (c : Cell) (x : Combo), 12 ≤ b → b < 16 → s.homeList b = e :: rest →
    e.req.agent = .cell c → 0xC0 ≤ c.core → answerDie c.core = b → (cellResponse c = true ∨ c.kind = 5) →
    let n := (c.core - 0xC0) % 16 * 256 + c.rid
    let left := if c.kind = 0xB then 0 else if c.kind = 2 then x.left - granules c.gmask else x.left - 1
    Tbl.get none (s.router b).combos n = some x → Goes (exec (.combinedResponseFanout b) s) fun t => s.computeKept t ∧
      t.homeList b = rest ∧ Tbl.get none (t.router b).combos n = (if left = 0 then none else some { x with left := left }) ∧
      ∀ k ∈ x.tickets,
        let c1 : Cell := ⟨c.kind, c.part, k.src, s.nodeId, k.core, k.rid, c.itide, c.gmask, c.addr,
          if c.kind = 0xB then c.g0 - c.g0 % 65536 + k.cells else c.g0, c.g1, c.g2⟩
        if k.src = s.nodeId then ⟨b, c.part, .cell c1, 0, 0, none⟩ ∈ Tbl.get [] t.quay (answerDie k.core)
        else ⟨c1, s.tideOf b, true, none, none⟩ ∈ (t.router b).loc

/-- Responses at the lighter they answer (R341 to R343). -/
def Obligations.Responses : Prop :=
  ∀ (s : State) (die rid : Nat) (e : HomeEnt) (rest : List HomeEnt) (cell : Cell) (r : Request), die < 12 → s.homeList die = e :: rest →
    e.req.agent = .cell cell → cell.core < 156 → coreDie cell.core = die → cell.rid = rid →
    let c := s.actor cell.core
    s.request c rid = some r → r.ghost = false → r.quiet = false → r.fail = none → s.actor (s.logical c) = c →
    let raised (t : State) : Prop := t.request c rid = none ∧ (t.core c).tokens = ((s.core c).raise (hdRaise r.desc)).tokens
    let fails (t : State) (code : Nat) : Prop := t.request c rid = none ∧ (t.core c).tokens = (s.core c).tokens ∧
      (t.core c).evpend.getLsbD 7 = true ∧
      (let slot := s.fld (a_LTR_ERRPTR (coreDie c) (coreNo c)) f_LTR_ERRPTR_NEXT
       t.reg (a_LTR_ERRLOG (coreDie c) (coreNo c) slot 0) = BitVec.ofNat 64 (hdTag r.desc) ∧
       (t.reg (a_LTR_ERRLOG (coreDie c) (coreNo c) slot 1)).toNat / 2 ^ 48 = code) ∧
      t.fld (a_LTR_ERRCNT (coreDie c) (coreNo c)) f_LTR_ERRCNT_COUNT =
        min (s.fld (a_LTR_ERRCNT (coreDie c) (coreNo c)) f_LTR_ERRCNT_COUNT + 1) (2 ^ f_LTR_ERRCNT_COUNT.width - 1)
    let others (t : State) : Prop := t.homeList die = rest ∧ ∀ k, k ≠ rid → t.request c k = s.request c k
    (cell.kind = 2 → hdOp r.desc = 1 → r.signalling = false →
      let bs := bytesLE 16 cell.g0 ++ bytesLE 16 cell.g1 ++ bytesLE 16 cell.g2
      let gs := (List.range 3).filter fun i => cell.gmask.testBit i
      let dst (i : Nat) : Nat := bits r.desc 175 128 + 16 * (cell.addr / 2 ^ 24 + i)
      let n := gs.length
      ((∀ i, i < 3 → isGalley (dst i) = true) → s.noMarks (dst 0) 48 →
        Goes (exec (.cellReadRsp die) s) fun t => others t ∧
          (∀ i ∈ gs, t.bytes (dst i) 16 = (bs.drop (16 * i)).take 16) ∧
          (∀ x, (∀ i ∈ gs, x < dst i ∨ dst i + 16 ≤ x) → t.byte x = s.byte x) ∧
          (r.acked + n < r.total → ∃ own, t.request c rid = some { r with acked := r.acked + n, own := own }) ∧
          (r.total ≤ r.acked + n → r.tallied = false → r.own = r.theirs → (rcvOf r.desc).on = false → raised t)) ∧
      ((∀ i, i < 3 → isHbm (dst i) = true) → r.acked < r.total → Goes (exec (.cellReadRsp die) s) fun t => others t ∧ t.mem = s.mem ∧
        (∃ own, t.request c rid = some { r with own := own }) ∧
        ∀ x ∈ rspRuns cell, let a := bits r.desc 175 128 + 16 * x.1
          ⟨coreDie c, s.partOf c, .lighter (s.logical c) rid x.2.1 (16 * x.1), a, 16 * x.2.1, some x.2.2⟩ ∈ Tbl.get [] t.quay (homeOf a))) ∧
    (cell.kind = 0xA → hdOp r.desc = 0x18 → r.total ≤ r.acked + 1 →
      let res := bits r.desc 191 144
      (bits cell.g0 79 64 = 0 → isGalley res = true → s.noMarks res 8 →
        Goes (exec (.cellAtomicRsp die) s) fun t => others t ∧ raised t ∧ t.bytes res 8 = bytesLE 8 (cell.g0 % 2 ^ 64) ∧
          ∀ x, x < res ∨ res + 8 ≤ x → t.byte x = s.byte x) ∧
      (bits cell.g0 79 64 = 0 → isHbm res = true → r.acked < r.total → Goes (exec (.cellAtomicRsp die) s) fun t => others t ∧
        t.mem = s.mem ∧ t.request c rid = some r ∧
        ⟨coreDie c, s.partOf c, .lighter (s.logical c) rid 1 0, res, 8, some (bytesLE 8 (cell.g0 % 2 ^ 64))⟩ ∈ Tbl.get [] t.quay (homeOf res)) ∧
      (bits cell.g0 79 64 ≠ 0 → Goes (exec (.cellAtomicRsp die) s) fun t => others t ∧ t.mem = s.mem ∧ fails t (bits cell.g0 79 64))) ∧
    (cell.kind = 0xB → hdOp r.desc ≠ 1 →
      let code := bits cell.g0 31 16
      let n := bits cell.g0 15 0
      (code = 0 → Goes (exec (.cellAck die) s) fun t => others t ∧ t.mem = s.mem ∧
        (r.acked + n < r.total → t.request c rid = some { r with acked := r.acked + n } ∧ t.cores = s.cores) ∧
        (r.total ≤ r.acked + n → (rcvOf r.desc).on = false ∨ r.signalling = true → raised t) ∧
        (r.total ≤ r.acked + n → (rcvOf r.desc).on = true → r.signalling = false →
          t.request c rid = some { r with total := 1, acked := 0, signalling := true } ∧ t.cores = s.cores ∧
          (let v := rcvOf r.desc
           v.node = s.nodeId → ∃ p, (Tbl.get [] t.quay (coreDie v.core)).getLast? = some p ∧ ∃ x, p.agent = .cell x ∧ x.kind = 0xC ∧
             x.rid = rid ∧ x.core = s.logical c ∧ x.g0 = v.inc + v.core * 2 ^ 16 + v.ctr * 2 ^ 24))) ∧
      (code ≠ 0 → code ≠ Code.TALLY_MISMATCH → r.total ≤ r.acked + n → Goes (exec (.cellAck die) s) fun t =>
        others t ∧ t.mem = s.mem ∧ fails t code))

/-- The COLL block (R358 to R365), and the control cells of a partition (R346, R361, R362). -/
def Obligations.CollectivesAndTeardowns : Prop :=
  (∀ (s : State) (die : Nat) (a : CollAsk), die < 12 → s.collAsks.find? (fun a => coreDie a.core == die) = some a →
    let c := s.actor a.core
    let k := coreNo c
    let n := a.ctr
    n < 32 →
    Goes (exec (.collectiveOpen die) s) fun t => t.mem = s.mem ∧ t.collAsks = s.collAsks.erase a ∧
      ((s.collState die k n = 1 ∨ s.collState die k n = 2) → t.collState die k n = s.collState die k n ∧
        t.fld (a_COLL_STATUS die) f_COLL_STATUS_BUSY =
          min (s.fld (a_COLL_STATUS die) f_COLL_STATUS_BUSY + 1) (2 ^ f_COLL_STATUS_BUSY.width - 1) ∧
        (t.core (13 * die + k)).evpend.getLsbD 7 = true) ∧
      (s.collState die k n ≠ 1 → s.collState die k n ≠ 2 →
        t.fld (a_COLL_CTX die k n 0) f_COLL_CTX_CID = a.cid % 2 ^ 32 ∧ t.reg (a_COLL_CTX die k n 1) = BitVec.ofNat 64 a.deadline ∧
        t.reg (a_COLL_CTX die k n 2) = BitVec.ofNat 64 (s.tideOf die) ∧
        (s.earlyOf die a.cid (s.partOf (13 * die + k)) = none →
          (s.tideOf die < a.deadline → t.collState die k n = 1 ∧ t.cores = s.cores ∧ t.recs = s.recs ∧
            t.reg (a_LTR_CCCFG die k n) = s.reg (a_LTR_CCCFG die k n)) ∧
          (a.deadline ≤ s.tideOf die → t.collState die k n = 4 ∧ t.fld (a_COLL_CTX die k n 0) f_COLL_CTX_CODE = Code.COLL_DEADLINE ∧
            t.reg (a_COLL_CTX die k n 3) = BitVec.ofNat 64 a.deadline ∧ t.fld (a_LTR_CCCFG die k n) f_LTR_CCCFG_ARMED = 0)) ∧
        ∀ e, s.earlyOf die a.cid (s.partOf (13 * die + k)) = some e → t.collState die k n = 4 ∧
          t.reg (a_LTR_CCCFG die k n) = s.reg (a_LTR_CCCFG die k n) ∧
          t.fld (a_COLL_CTX die k n 0) f_COLL_CTX_CODE = s.fld (a_COLL_EARLY die e 0) f_COLL_EARLY_CODE ∧
          t.reg (a_COLL_CTX die k n 3) = s.reg (a_COLL_EARLY die e 1))) ∧
  (∀ (s : State) (die k n : Nat), die < 12 →
    let d := (s.reg (a_COLL_CTX die k n 1)).toNat
    let part := s.partOf (13 * die + k)
    let cid := s.fld (a_COLL_CTX die k n 0) f_COLL_CTX_CID
    let now := s.tideOf die
    (findCtx (fun c m => s.collState die c m == 1 && decide ((s.reg (a_COLL_CTX die c m 1)).toNat ≤ now)) = some (k, n) →
      Goes (exec (.collectiveDeadline die) s) fun t => t.mem = s.mem ∧ t.collState die k n = 4 ∧ d ≤ now ∧
        t.fld (a_COLL_CTX die k n 0) f_COLL_CTX_CODE = Code.COLL_DEADLINE ∧ t.reg (a_COLL_CTX die k n 3) = BitVec.ofNat 64 d ∧
        t.fld (a_LTR_CCCFG die k n) f_LTR_CCCFG_ARMED = 0 ∧ Records s t Code.COLL_DEADLINE die part [cid, d] ∧
        (t.core (13 * die + k)).evpend.getLsbD 7 = true ∧
        ∀ p ∈ s.partPorts part, s.serving p ≠ [] → ∃ w ∈ (t.router (portDie p)).loc, w.port = some p ∧ w.cell.kind = 0xD ∧
          w.cell.part = part ∧ w.cell.dst = s.farNode p ∧ w.cell.g0 = controlWord 2 Code.COLL_DEADLINE (some s.nodeId) d ∧
          w.cell.g1 = cid) ∧
    (findCtx (fun c m => s.collState die c m == 2 &&
        decide ((s.reg (a_COLL_CTX die c m 1)).toNat + s.fld (a_COLL_CTL die) f_COLL_CTL_GRACE ≤ now)) = some (k, n) →
      Goes (exec (.collectiveFinal die) s) fun t => s.computeKept t ∧ t.collState die k n = 3 ∧
        t.fld (a_COLL_RECPTR die) f_COLL_RECPTR_NEXT = (s.fld (a_COLL_RECPTR die) f_COLL_RECPTR_NEXT + 1) % 2 ^ f_COLL_RECPTR_NEXT.width)) ∧
  (∀ (s : State) (x : Nat × Cell), s.ctl.find? (fun x => isTeardown x.2) = some x →
    let p := x.2.part
    let code := bits x.2.g0 23 8
    let tide := bits x.2.g0 127 64
    p < 24 → s.pstate p ≠ 0 →
    ((p, code, tide) ∈ s.teardownsSeen → exec .teardown s = .next { s with ctl := s.ctl.erase x }) ∧
    ((p, code, tide) ∉ s.teardownsSeen → Tbl.get none s.torn p = none → Goes (exec .teardown s) fun t => t.mem = s.mem ∧
      t.ctl = s.ctl.erase x ∧ (p, code, tide) ∈ t.teardownsSeen ∧
      (Tbl.get none t.torn p).map (fun y => (y.first, y.code, y.tide, y.told)) = some (s.tideOf 12, code, tide, false) ∧
      (∀ b, 12 ≤ b → b < 16 → (t.fld (a_RTR_STATUS b) f_RTR_STATUS_TORN).testBit p = true) ∧
      (s.pstate p ≠ 2 → t.pstate p = s.pstate p) ∧ (s.pstate p = 2 → t.pstate p = 3) ∧
      (∀ c, c < 156 → s.partOf c = p → (s.core c).run ≠ .retired → ∀ q, q < 4 → (t.core c).queue q = []) ∧
      (∀ q ∈ s.partPorts p, s.serving q ≠ [] →
        ⟨{ x.2 with dst := s.farNode q }, s.tideOf (portDie q), true, none, some q⟩ ∈ (t.router (portDie q)).loc) ∧
      ∀ d, d < 16 → ∃ o ∈ t.outbox, o.kind = .quay ∧ o.dest = d ∧ o.data.getD 1 0 = 5 ∧ o.data.getD 4 0 = 2 ^ p + code * 2 ^ 24)) ∧
  ∀ (s : State) (x : Nat × Cell), s.ctl.find? (fun x => x.2.kind == 0xD && bits x.2.g0 7 0 == 2) = some x →
    let cid := bits x.2.g1 31 0
    let tide := bits x.2.g0 127 64
    let code := bits x.2.g0 23 8
    ((cid, tide) ∈ s.abortsFlooded → exec .abort s = .next { s with ctl := s.ctl.erase x }) ∧
    ((cid, tide) ∉ s.abortsFlooded → (∀ d, Tbl.get [] s.collSeen d = []) → Goes (exec .abort s) fun t => t.mem = s.mem ∧
      t.ctl = s.ctl.erase x ∧ (cid, tide) ∈ t.abortsFlooded ∧
      (∀ p ∈ s.partPorts x.2.part, s.serving p ≠ [] →
        ⟨{ x.2 with dst := s.farNode p }, s.tideOf (portDie p), true, none, some p⟩ ∈ (t.router (portDie p)).loc) ∧
      ∀ d ∈ s.partDies x.2.part, ∀ k n, (k, n) ∈ s.ctxsOf d cid x.2.part → (s.collState d k n = 1 ∨ s.collState d k n = 2) →
        t.collState d k n = 4 ∧ t.fld (a_COLL_CTX d k n 0) f_COLL_CTX_CODE = code ∧ t.reg (a_COLL_CTX d k n 3) = BitVec.ofNat 64 tide)

/-- Alignment within the package (R376) and between modules (R377, R378). The 10 ms of FREE are R539's. -/
def Obligations.TideAlignsAndFollows : Prop :=
  (∀ (s : State) (die : Nat), die < 16 → die ≠ 12 → s.dieUp die = true → s.clockLost.contains die = false →
    (∀ x, (s.followOf die).sent = some x → x ≤ s.tideOf die → x + 100_000 ≤ s.tideOf die) →
    Goes (exec (.tideProbeSend die) s) fun t => t = { s with outbox := t.outbox, follow := t.follow } ∧
      t.outbox = s.outbox ++ [⟨.quay, 12, [evtHead die 12 6, 6, 0xF, s.stamp die, 0]⟩] ∧ (t.followOf die).sent = some (s.tideOf die) ∧
      (t.followOf die).frac = (s.followOf die).frac) ∧
  (∀ (s : State) (m : EvtMsg), eventGood m 6 → s.routeUp m.src m.dst = true →
    let sub := bits m.body 351 344
    let o := (twoWay (bits m.body 63 0) (bits m.body 127 64) m.tide (s.stamp m.dst)).1
    (sub = 0 → m.dst = 12 → Goes (exec (.tideAlignProbe m) s) fun t => s.onlyFlits t ∧ t = { s with regs := t.regs, outbox := t.outbox } ∧
      t.outbox = s.outbox ++ [⟨.quay, m.src, [evtHead 12 m.src 6, 6, 0xF, s.stamp 12, m.tide + s.stamp 12 * 2 ^ 64 + 2 ^ 344]⟩]) ∧
    (sub = 1 → m.dst < 16 → m.dst ≠ 12 →
      ((s.followOf m.dst).aligned = true → Goes (exec (.tideAlignReply m) s) fun t => s.onlyFlits t ∧
        t = { s with regs := t.regs, follow := t.follow } ∧
        (t.followOf m.dst).slew = o * 2 ^ 35 / 100_000 ∧
        (t.followOf m.dst).until_ = s.tideOf m.dst + max 1 (Int.toNat (100_000 + o / 32))) ∧
      ((s.followOf m.dst).aligned = false → (s.anyImposed = false ∨ o = 0) → 0 ≤ (s.count40 m.dst : Int) + o * 2 ^ 35 →
        (s.count40 m.dst : Int) + o * 2 ^ 35 < 2 ^ 104 → Goes (exec (.tideAlignReply m) s) fun t => s.onlyFlits t ∧
          t = { s with regs := t.regs, follow := t.follow, tide := t.tide, ports := t.ports, lanes := t.lanes } ∧
          (m.dst < 12 → t.ports = s.ports ∧ t.lanes = s.lanes) ∧ (t.count40 m.dst : Int) = s.count40 m.dst + o * 2 ^ 35 ∧ (t.followOf m.dst).aligned = true ∧
          ∀ d, d ≠ m.dst → t.tideOf d = s.tideOf d) ∧
      ((s.followOf m.dst).aligned = false → s.anyImposed = true → o ≠ 0 → s.fld (a_TIDE_STATUS m.dst) f_TIDE_STATUS_STATE ≠ 4 →
        Goes (exec (.tideAlignReply m) s) fun t => s.computeKept t ∧ t.tide = s.tide ∧
          t.fld (a_TIDE_STATUS m.dst) f_TIDE_STATUS_STATE = 4 ∧ Records s t Code.TIDE_FAULT m.dst 31 [])) ∧
    (sub = 2 → m.dst < 16 → bits m.body 63 32 = 0 → Goes (exec (.tideAlignRate m) s) fun t => s.onlyFlits t ∧
      t = { s with regs := t.regs, follow := t.follow } ∧
      (t.followOf m.dst).rates = (s.followOf m.dst).rates ++ [(bits m.body 127 64, bits m.body 31 0)])) ∧
  (∀ (s : State) (die : Nat) (r : Nat × Nat), die < 16 → (s.followOf die).rates.find? (fun r => decide (r.1 ≤ s.tideOf die)) = some r →
    Goes (exec (.rateApply die) s) fun t => t = { s with regs := t.regs, follow := t.follow } ∧
      (t.followOf die).rates = (s.followOf die).rates.erase r ∧ t.fld (a_TIDE_OFFSET die) f_TIDE_OFFSET_RATE = r.2 % 2 ^ 32 ∧
      ∀ a, a ≠ a_TIDE_OFFSET die → t.reg a = s.reg a) ∧
  ∀ s : State,
    let a := a_TIDE_STATUS 12
    let now := s.tideOf 12
    let sends (t : State) (p g0 g1 : Nat) : Prop := t.outbox = s.outbox ∧ ∃ g2, (t.router (portDie p)).loc =
      (s.router (portDie p)).loc ++ [⟨⟨0xE, 31, s.farNode p, s.nodeId, 0, 0, bits now 15 8, 7, 0, g0, g1, g2⟩, s.tideOf (portDie p), true,
        none, some p⟩]
    let alt := s.fld (a_TIDE_CTL 12) f_TIDE_CTL_ALT
    let moves := s.servoSt == 3 && s.portLive alt
    (let p := if moves then alt else if s.fld a f_TIDE_STATUS_PORT = 0x3F then s.fld (a_TIDE_CTL 12) f_TIDE_CTL_PARENT
       else s.fld a f_TIDE_STATUS_PORT
     s.isRoot = false → (∀ x, s.servo.sent = some x → x ≤ now → x + 125_000 ≤ now) → s.portLive p = true →
     Goes (exec .syncReqSend s) fun t => s.computeKept t ∧ t.fld a f_TIDE_STATUS_PORT = p ∧ t.servoSt = (if moves then 1 else s.servoSt) ∧
       sends t p (1 + s.stamp 12 * 2 ^ 64) s.servo.seq ∧ t.servo.req = some (s.servo.seq, s.stamp 12) ∧ t.servo.sent = some now) ∧
    (∀ x arrival, s.timeArrival 1 = some x → bits x.2.g0 63 8 = 0 → bits x.2.g1 127 64 = 0 → x.2.g2 = 0 →
      (s.servoSt = 2 ∨ s.rootReady = true) → Goes (exec (.syncReq arrival) s) fun t => s.computeKept t ∧ t.regs = s.regs ∧
        t.ctl = s.ctl.erase x ∧ sends t x.1 (2 + arrival % 2 ^ 64 * 2 ^ 64) (bits x.2.g1 63 0 + s.stamp 12 * 2 ^ 64)) ∧
    (∀ x arrival seq t1, s.timeArrival 2 = some x → s.servo.req = some (seq, t1) → s.isRoot = false → bits x.2.g0 63 8 = 0 →
      bits x.2.g1 63 0 = seq → x.1 = s.fld a f_TIDE_STATUS_PORT → bits x.2.g2 31 20 = 0 → bits x.2.g2 127 64 = 0 →
      let o := (twoWay t1 (bits x.2.g0 127 64) (bits x.2.g1 127 64) arrival).1
      let n := o.natAbs
      let st := s.servoSt
      let good := if n ≤ 4 then (if st = 1 then s.servo.good else 0) + 1 else 0
      Goes (exec (.syncRsp arrival) s) fun t => s.computeKept t ∧ t.ctl = s.ctl.erase x ∧ t.servo.req = none ∧
        t.fld a f_TIDE_STATUS_ROOTNODE = bits x.2.g2 11 0 ∧
        t.fld a f_TIDE_STATUS_DEPTH = (bits x.2.g2 19 12 + 1) % 2 ^ f_TIDE_STATUS_DEPTH.width ∧
        (st = 4 → t.servoSt = 4) ∧ (st ≠ 4 → 3200 < n → s.anyImposed = true → t.servoSt = 4) ∧
        (st ≠ 4 → s.anyImposed = true → s.servo.first = false → t.tide = s.tide ∧ (n ≠ 0 → t.servoSt = 4) ∧
          (n = 0 → t.servoSt = 1 ∧ t.servo.first = true ∧ t.entries = s.entries)) ∧
        (st ≠ 4 → s.anyImposed = false → s.servo.first = false → t.servoSt = 1 ∧ t.servo.first = true ∧ (∀ d i, t.slot d i = none) ∧
          (t.recs.last.getLast?).map (·.code) = some Code.TIDE_UNLOCKED ∧
          (0 ≤ (s.count40 12 : Int) + o * 2 ^ 35 → (s.count40 12 : Int) + o * 2 ^ 35 < 2 ^ 104 →
            (t.count40 12 : Int) = s.count40 12 + o * 2 ^ 35)) ∧
        (s.servo.first = true → (n ≤ 3200 ∨ s.anyImposed = false) → t.tide = s.tide ∧ t.entries = s.entries ∧
          (st = 2 → n ≤ 8 → t.servoSt = 2) ∧
          (st = 2 → 8 < n → t.servoSt = 1 ∧ Records s t Code.TIDE_UNLOCKED 12 31 []) ∧
          (st = 0 ∨ st = 1 ∨ st = 3 → t.servoSt = (if 8 ≤ good then 2 else 1) ∧ (good < 8 → t.servo.good = good)))) ∧
    (s.isRoot = false → moves = true → Goes (exec .tideServoTimeout s) fun t => s.computeKept t ∧ t.servoSt = 1 ∧
      t.fld a f_TIDE_STATUS_PORT = alt) ∧
    (s.isRoot = false → (s.servoSt = 3 ∧ s.portLive alt = false ∧ s.servo.since + 50_000_000 ≤ now ∨
        s.servoSt < 2 ∧ s.anyImposed = true ∧ max s.servo.since s.servo.imposed + 10_000_000 ≤ now) →
      Goes (exec .tideServoTimeout s) fun t => s.computeKept t ∧ t.servoSt = 4 ∧ t.servo.told = true ∧
        (s.servo.told = false → Records s t Code.TIDE_FAULT 12 31 []))

/-- The lighter's operations (R337 to R344, R203, R204), where no injection corrupts a tally and no error mark lies on what is read. -/
def Obligations.LighterDescriptors : Prop :=
  ∀ (s : State) (c q rid : Nat) (d : Desc), s.ltrHead c q rid d → s.injections = [] →
    let x := d.num
    let die := coreDie c
    let k := (s.core c).headTaken q x
    let st := a_LTR_STATUS die (coreNo c)
    let lev := s.levelOf c
    let opened (t : State) (len total own : Nat) (tallied host : Bool) : Prop := t.mem = s.mem ∧ t.presses = s.presses ∧ t.core c = k ∧
      (∀ b, b ≠ c → t.core b = s.core b) ∧ t.request c rid = some ⟨q, x, len, total, 0, own, 0, none, false, false, false, tallied, host, none⟩ ∧
      ∀ r, r ≠ rid → t.request c r = s.request c r
    let issued (t : State) : Prop := t.fld st f_LTR_STATUS_WUISSUED = (s.fld st f_LTR_STATUS_WUISSUED + 1) % 2 ^ f_LTR_STATUS_WUISSUED.width
    let fails (i : Instr) (code unit detail : Nat) : Prop := Goes (exec i s) fun t => t.mem = s.mem ∧ t.quay = s.quay ∧
      t.routers = s.routers ∧ t.outbox = s.outbox ∧ (∀ r, t.request c r = s.request c r) ∧ s.lighterErred t c k x code unit detail
    let quietly (i : Instr) : Prop := Goes (exec i s) fun t => t.mem = s.mem ∧ t.quay = s.quay ∧ t.routers = s.routers ∧
      t.outbox = s.outbox ∧ (∀ r, t.request c r = s.request c r) ∧ t.core c = k.raise (hdRaise x) ∧ issued t ∧
      t.fld (a_LTR_SUPPRESS die (coreNo c)) f_LTR_SUPPRESS_LEFT = s.fld (a_LTR_SUPPRESS die (coreNo c)) f_LTR_SUPPRESS_LEFT - 1
    let left := s.fld (a_LTR_SUPPRESS die (coreNo c)) f_LTR_SUPPRESS_LEFT
    let fits (len : Nat) : Prop := hdLen x = len ∧ hdReserved x = false
    -- LOAD and PUT
    (let g := bits x 319 256
     let n := bits x 336 320 + 1
     let a := gaLocal g
     let la := bits x 175 128
     let tally := s.tallied c (gaNode g)
     let win := gaNode g = s.nodeId ∧ isHostWin a = true
     (hdOp x = 1 → s.xferCheck c x = none →
       (¬ win → Goes (exec (.lighterLoad c) s) fun t => opened t n (n / 16 + if tally then (n / 16 + 47) / 48 else 0) 0 tally false ∧
         t.outbox = s.outbox ∧ s.sendsCells t c (bit x 337) ((List.range ((n / 16 + 47) / 48)).map fun i =>
           (s.reqCell c (gaNode g) rid 1 7 (a + 768 * i) (min 48 (n / 16 - 48 * i) + 48 * i * 2 ^ 8 + b2n tally * 2 ^ 20) 0 0,
             addrDie (a + 768 * i)))) ∧
       (win → Goes (exec (.lighterLoad c) s) fun t => opened t n n 0 tally true ∧
         let tag := s.logical c * 256 + rid
         let cut := tlpCut s.maxRead n a 0 n
         (t.hostReads.map fun y => (y.tag, y.addr, y.off, y.len, y.got)) = (s.hostReads.map fun y => (y.tag, y.addr, y.off, y.len, y.got)) ++
           cut.map (fun y => (tag, a + y.1, y.1, y.2, 0)) ∧
         (s.hostReads = [] → t.outbox = s.outbox ++ cut.map fun y => ⟨.hostRead, tag, [s.hostAddr (a + y.1), y.2, y.1]⟩))) ∧
     (hdOp x = 2 → s.xferCheck c x = none → s.memThere la n → s.noMarks la n →
       let bs := s.bytes la n
       let v := (bytesTally (s.ltrKey c) bs).toNat
       (¬ win → tally = false → Goes (exec (.lighterPut c) s) fun t => opened t n ((n + 47) / 48) v false false ∧ t.outbox = s.outbox ∧
         s.sendsCells t c true (s.dataCells c (gaNode g) rid 3 a bs)) ∧
       (¬ win → tally = true → Goes (exec (.lighterPut c) s) fun t => opened t n ((n + 47) / 48 + 1) v true false ∧ t.outbox = s.outbox ∧
         s.sendsCells t c true (s.dataCells c (gaNode g) rid 4 a bs ++
           [(s.reqCell c (gaNode g) rid 5 7 a (v + (n + 47) / 48 * 2 ^ 64) (a / 16 + (n / 16 - 1) * 2 ^ 36) 0, addrDie a)])) ∧
       (win →
         let far := (bytesTally (s.reg (a_CHK_PKEY 12 (s.partOf c))) bs).toNat
         let put (t : State) : Prop := t.mem = s.mem ∧ (∀ r, t.request c r = s.request c r) ∧
           t.outbox = s.outbox ++ (tlpCut s.maxWrite n a 0 n).map fun y =>
             ⟨.hostWrite, s.hostAddr (a + y.1), ((bs.drop y.1).take y.2).map BitVec.toNat⟩
         ((rcvOf x).on = false → (tally = false ∨ v = far) → Goes (exec (.lighterPut c) s) fun t => put t ∧
           t.core c = k.raise (hdRaise x)) ∧
         (tally = true → v ≠ far → Goes (exec (.lighterPut c) s) fun t => put t ∧ s.lighterErred t c k x Code.TALLY_MISMATCH 0 g ∧
           ∃ y ∈ t.detections, y.code = Code.TALLY_MISMATCH ∧ y.die = die ∧ y.core = coreNo c ∧ y.detail0 = v ∧ y.detail1 = far))) ∧
     (∀ code, s.xferCheck c x = some code → (hdOp x = 1 → fails (.lighterLoad c) code 0 g) ∧ (hdOp x = 2 → fails (.lighterPut c) code 0 g))) ∧
    (lighterLen (hdOp x) = none → fails (.lighterLoad c) Code.LIGHTER_BAD_OP 0 0) ∧
    -- STORE
    (hdOp x = 3 →
      let g := bits x 255 192
      let n := if bit x 191 then 32 else 16
      let a := gaLocal g
      let bs := bytesLE n (bits x 511 256)
      let v := (bytesTally (s.ltrKey c) bs).toNat
      (fits 4 → bits x 190 128 = 0 → s.globalOk c g n 16 true = true → s.reachable c (gaNode g) = true →
        ¬ (gaNode g = s.nodeId ∧ isHostWin a = true) →
        (s.tallied c (gaNode g) = false → Goes (exec (.lighterStore c) s) fun t => opened t n 1 v false false ∧ t.outbox = s.outbox ∧
          s.sendsCells t c true (s.dataCells c (gaNode g) rid 3 a bs)) ∧
        (s.tallied c (gaNode g) = true → Goes (exec (.lighterStore c) s) fun t => opened t n 2 v true false ∧ t.outbox = s.outbox ∧
          s.sendsCells t c true (s.dataCells c (gaNode g) rid 4 a bs ++
            [(s.reqCell c (gaNode g) rid 5 7 a (v + 2 ^ 64) (a / 16 + (n / 16 - 1) * 2 ^ 36) 0, addrDie a)]))) ∧
      (¬ fits 4 ∨ bits x 190 128 ≠ 0 → fails (.lighterStore c) Code.BAD_DESCRIPTOR 0 g) ∧
      (fits 4 → bits x 190 128 = 0 → s.globalOk c g n 16 true = false → fails (.lighterStore c) Code.BAD_ADDRESS 0 g)) ∧
    -- RLADD32 and RLADD64
    (∀ w i, (w, i) ∈ [(4, Instr.lighterRladd32 c), (8, .lighterRladd64 c)] → hdOp x = (if w = 4 then 0x10 else 0x11) →
      let g := bits x 479 416
      let n := bits x 579 576 + 1
      let src := bits x 175 128
      let sbw := bits x 415 368
      let clean := fits 5 ∧ bits x 609 582 = 0 ∧ bits x 367 176 = 0 ∧ (bit x 623 = false ∨ bits x 639 624 ≠ 0)
      let there := s.rlDstBad c g n (bits x 527 480) (bits x 575 528) (bit x 581) = false ∧ s.localOk c src (4096 * n) 4096 = true ∧
        s.localOk c sbw (4 * n) 4 = true
      (clean → there → s.reachable c (gaNode g) = true →
        s.memThere src (4096 * n) → s.noMarks src (4096 * n) → s.memThere sbw (4 * n) → s.noMarks sbw (4 * n) →
        let words := (List.range n).map fun j => natLE (s.bytes (sbw + 4 * j) 4)
        ((∃ y ∈ words, blockG y = none) → fails i Code.BAD_SCALE 0 g) ∧
        ((∀ y ∈ words, (blockG y).isSome = true) → (left ≠ 0 → quietly i) ∧
          (left = 0 → Goes (exec i s) fun t =>
            opened t (4096 * n) (n * if w = 4 then 128 else 256) 0 false false ∧ issued t ∧ s.sendsCells t c (bit x 580)
              (s.rlCells c rid w g (bits x 527 480) (bits x 575 528) (bit x 581 && lev != 0) n words (s.bytes src (4096 * n)))))) ∧
      (¬ clean → fails i Code.BAD_DESCRIPTOR 0 g) ∧ (clean → ¬ there → fails i Code.BAD_ADDRESS 0 g)) ∧
    -- ATOMIC
    (hdOp x = 0x18 →
      let g := bits x 255 192
      let a := gaLocal g
      let w := if bit x 139 then 8 else 4
      let op := bits x 143 140
      (fits 3 → bits x 137 128 = 0 → op ≤ 10 → s.globalOk c g w w false = true → (bit x 138 = true → s.localOk c (bits x 191 144) 8 8 = true) →
        (op = 10 → s.invariant (s.partOf c) = true → fails (.lighterAtomic c) Code.ORDER_SENSITIVE_REFUSED 0 g) ∧
        ((op = 10 → s.invariant (s.partOf c) = false) → s.reachable c (gaNode g) = true →
          (left ≠ 0 → op ≠ 10 → quietly (.lighterAtomic c)) ∧
          (left = 0 ∨ op = 10 → Goes (exec (.lighterAtomic c) s) fun t => opened t w 1 0 false false ∧ (op ≠ 10 → issued t) ∧
            s.sendsCells t c false [(if op = 0 ∧ bit x 138 = false then
                s.reqCell c (gaNode g) rid 8 7 a (bits x 383 320 + b2n (bit x 139) * 2 ^ 64 + a % 16 * 2 ^ 68) 0 0
              else s.reqCell c (gaNode g) rid 9 7 a (bits x 383 320 + bits x 319 256 * 2 ^ 64)
                (op + b2n (bit x 139) * 16 + b2n (bit x 138) * 32 + a % 16 * 2 ^ 8) 0, addrDie a)]))) ∧
      (¬ fits 3 ∨ bits x 137 128 ≠ 0 ∨ 10 < op → fails (.lighterAtomic c) Code.BAD_DESCRIPTOR 0 g)) ∧
    -- SIGNAL
    (hdOp x = 0x20 →
      let node := bits x 255 244
      let core := bits x 243 236
      let clean := fits 2 ∧ bits x 230 224 = 0 ∧ bits x 207 128 = 0 ∧ bits x 223 208 ≠ 0
      (clean → s.reachable c node = true → (left ≠ 0 → quietly (.lighterSignal c)) ∧
        (left = 0 → Goes (exec (.lighterSignal c) s) fun t => opened t 0 1 0 false false ∧ issued t ∧
          s.sendsCells t c true [(s.reqCell c node rid 0xC 7 0 (bits x 223 208 + core * 2 ^ 16 + bits x 235 231 * 2 ^ 24) 0 0, coreDie core)])) ∧
      (¬ clean → fails (.lighterSignal c) Code.BAD_DESCRIPTOR 0 (node * 2 ^ 48)) ∧
      (clean → s.reachable c node = false → fails (.lighterSignal c) Code.NODE_UNREACHABLE 0 (node * 2 ^ 48))) ∧
    -- CCSET
    (hdOp x = 0x22 →
      let n := bits x 185 181
      (fits 2 → bits x 180 128 = 0 → s.ccWritten c n = true → Goes (exec (.ccset c) s) fun t => t.mem = s.mem ∧
        t.core c = k.raise (hdRaise x) ∧ (∀ r, t.request c r = s.request c r) ∧ t.regs = s.regs ∧
        t.ccHeld = s.ccHeld ++ [.set c n (bits x 255 224) (bits x 223 192) (bits x 191 186)]) ∧
      (fits 2 → bits x 180 128 = 0 → s.ccWritten c n = false → Goes (exec (.ccset c) s) fun t => t.mem = s.mem ∧
        t.core c = k.raise (hdRaise x) ∧ (∀ r, t.request c r = s.request c r) ∧ t.ccHeld = s.ccHeld ∧ t.fld (a_LTR_CC die (coreNo c) n) f_LTR_CC_COUNT = bits x 255 224 ∧
        t.fld (a_LTR_CC die (coreNo c) n) f_LTR_CC_TARGET = bits x 223 192 ∧
        t.fld (a_LTR_CCCFG die (coreNo c) n) f_LTR_CCCFG_TOKEN = bits x 191 186 ∧
        t.fld (a_LTR_CCCFG die (coreNo c) n) f_LTR_CCCFG_ARMED = 1 ∧
        ∀ r, r ≠ a_LTR_CC die (coreNo c) n → r ≠ a_LTR_CCCFG die (coreNo c) n → t.reg r = s.reg r) ∧
      (¬ fits 2 ∨ bits x 180 128 ≠ 0 → fails (.ccset c) Code.BAD_DESCRIPTOR 0 0)) ∧
    -- XVERIFY
    (hdOp x = 0x38 →
      let n := bits x 376 352 + 1
      let a := bits x 175 128
      let cw := bits x 351 304
      let w := if bit x 377 then 8 else 4
      let tally (i : Nat) : Nat := linTally (s.ltrKey c) (8 * w) ((a + 4096 * i) / w)
        ((List.range (4096 / w)).map fun j => natLE (s.bytes (a + 4096 * i + w * j) w))
      let bad (i : Nat) : Prop := natLE (s.bytes (cw + 8 * i) 8) % 2 ^ (8 * w) ≠ tally i
      let row := if bit x 380 then Instr.xverifySet c else .xverifyVerify c
      (s.xverifyCheck c x = none →
        (lev = 0 → Goes (exec row s) fun t => t.mem = s.mem ∧ t.core c = k.raise (hdRaise x)) ∧
        (lev ≠ 0 → s.memThere a (4096 * n) → s.noMarks a (4096 * n) → s.memThere cw (8 * n) → s.noMarks cw (8 * n) →
          (bit x 380 = true → (cw + 8 * n ≤ a ∨ a + 4096 * n ≤ cw) → Goes (exec (.xverifySet c) s) fun t =>
            (t.core c).tokens = (k.raise (hdRaise x)).tokens ∧ (∀ i, i < n → t.bytes (cw + 8 * i) 8 = bytesLE 8 (tally i)) ∧
            ∀ y, y < cw ∨ cw + 8 * n ≤ y → t.byte y = s.byte y) ∧
          (bit x 380 = false → (∀ i, i < n → ¬ bad i) → Goes (exec (.xverifyVerify c) s) fun t => t.mem = s.mem ∧
            t.detections = s.detections ∧ t.core c = k.raise (hdRaise x)) ∧
          (∀ i, bit x 380 = false → i < n → bad i → (∀ j, j < i → ¬ bad j) → Goes (exec (.xverifyVerify c) s) fun t => t.mem = s.mem ∧
            s.lighterErred t c k x Code.TALLY_MISMATCH (4096 * i % 2 ^ 32) 0 ∧ ∃ y : Detection, t.detections = s.detections ++ [y] ∧
              y.code = Code.TALLY_MISMATCH ∧ y.die = die ∧ y.ukind = 5 ∧ y.detail0 = natLE (s.bytes (cw + 8 * i) 8) ∧ y.detail1 = tally i))) ∧
      ∀ code, s.xverifyCheck c x = some code → fails row code 0 0)

/-- Streams (R354 to R356). -/
def Obligations.Streams : Prop :=
  (∀ (s : State) (c q rid : Nat) (d : Desc), s.ltrHead c q rid d → hdOp d.num = 0x28 →
    let x := d.num
    let k := (s.core c).headTaken q x
    let p := s.press c
    let blocks := bits x 599 596 + 1
    let fails (code : Nat) : Prop := Goes (exec (.stream c) s) fun t => t.mem = s.mem ∧ t.quay = s.quay ∧ t.routers = s.routers ∧
      (∀ r, t.request c r = s.request c r) ∧ s.lighterErred t c k x code 0 (bits x 479 416)
    ∀ h, s.nextStream c q = some h →
      (s.streamCheck c x = none → h.lost = false →
        Goes (exec (.stream c) s) fun t => t.mem = s.mem ∧ t.quay = s.quay ∧ t.routers = s.routers ∧ t.core c = k ∧
          t.request c rid = some ⟨q, x, 4096 * blocks, 128 * blocks, 0, 0, 0, none, false, false, false, false, false,
            some ⟨h.ord, bit x 588 && s.levelOf c != 0, false, [], none⟩⟩ ∧
          (t.press c).drains = p.drains ∧ (t.press c).sticks = p.sticks) ∧
      (∀ code, s.streamCheck c x = some code → fails code) ∧
      (s.streamCheck c x = none → h.lost = true → fails Code.PRESS_HALTED)) ∧
  (∀ (s : State) (c : Nat) (x : StreamHold), (∀ q, q < 4 → s.headMay c q = false) → s.holdable c = some x → x ∈ (s.press c).streams →
    Goes (exec (.stream c) s) fun t => t = { s with presses := t.presses } ∧ (∀ b, b ≠ c → t.press b = s.press b) ∧
      { x with held := true } ∈ (t.press c).streams) ∧
  (∀ (s : State) (c rid : Nat) (r : Request) (t0 : StreamRun) (h : StreamHold), s.stopped (coreDie c) = false →
    let p := s.press c
    let hold (t : StreamRun) : Option StreamHold := p.streams.find? fun x => x.ord == t.ord
    s.findStream c (fun t => !t.read && (match hold t with
      | some x => x.held || x.lost
      | none => true)) = some (rid, r, t0) → hold t0 = some h → h.lost = false → r.quiet = false → r.ghost = false →
    let d := r.desc
    let n := bits d 599 596 + 1
    let first := 8 * bits d 595 592
    let sb := bits d 383 336
    let G := signed 16 (bits d 415 400)
    let rl (i j : Nat) : Int × Nat := stickToRL 32 G (bits d 586 581) (Tbl.get 0 p.qe h.set) (p.stickAt h.set i j)
    let bad (i : Nat) : Prop := Tbl.get false p.ckv h.set = true ∧ p.rowDiff h.set i ≠ 0
    ((∀ i, first ≤ i → i < first + 8 * n → ¬ bad i) → sb % 8 = 0 → isGalley sb = true → galleyDie sb = coreDie c →
      Goes (exec (.streamReadEnd c []) s) fun t =>
        (∀ i j, i < 8 * n → j < 128 → t.bytes (sb + 4 * (128 * i + j)) 4 = bytesLE 4 (unsigned 32 (rl (first + i) j).1)) ∧
        (∀ a, a < sb ∨ sb + 4096 * n ≤ a → t.byte a = s.byte a) ∧ t.cores = s.cores ∧
        (∀ x ∈ (t.press c).streams, x.ord ≠ h.ord) ∧
        (h.clear = false → (t.press c).sticks = p.sticks ∧ (t.press c).qe = p.qe ∧ (t.press c).ckv = p.ckv) ∧
        (h.clear = true → (∀ i j, i < 128 → j < 128 → (t.press c).stickAt h.set i j = 0) ∧ Tbl.get 0 (t.press c).qe h.set = h.qe ∧
          Tbl.get false (t.press c).ckv h.set = decide (1 ≤ s.levelOf c)) ∧
        ∃ pr, t.request c rid = some { r with stream := some ⟨t0.ord, t0.tally, true, (List.range n).map fun b => blockWord G
          (((List.range 8).flatMap fun i => (List.range 128).map fun j => (rl (first + 8 * b + i) j).2).foldl (fun a f => a ||| f) 0), pr⟩ }) ∧
    ∀ i, first ≤ i → i < first + 8 * n → bad i → (∀ j, first ≤ j → j < i → ¬ bad j) → Goes (exec (.streamReadEnd c []) s) fun t =>
      t.mem = s.mem ∧ t.request c rid = none ∧ (t.press c).halted = true ∧
      (t.core c).evpend.getLsbD 7 = true ∧ (p.halted = false → (t.core c).evpend.getLsbD 5 = true) ∧
      (let slot := s.fld (a_LTR_ERRPTR (coreDie c) (coreNo c)) f_LTR_ERRPTR_NEXT
       t.reg (a_LTR_ERRLOG (coreDie c) (coreNo c) slot 0) = BitVec.ofNat 64 (hdTag d) ∧
       (t.reg (a_LTR_ERRLOG (coreDie c) (coreNo c) slot 1)).toNat / 2 ^ 48 = Code.PRESS_CHECKSUM) ∧
      ∃ y ∈ t.detections, y.code = Code.PRESS_CHECKSUM ∧ y.die = coreDie c ∧ y.core = coreNo c ∧
        y.sub = (if coreNo c = 12 then h.set else 2 ^ h.set)) ∧
  ∀ (s : State) (c rid : Nat) (r : Request) (t0 : StreamRun), s.stopped (coreDie c) = false →
    s.findStream c (fun t => t.read) = some (rid, r, t0) → s.streamProving c r.desc t0 = false →
    let d := r.desc
    let n := bits d 599 596 + 1
    let sb := bits d 383 336
    let st := a_LTR_STATUS (coreDie c) (coreNo c)
    let sup := a_LTR_SUPPRESS (coreDie c) (coreNo c)
    let issued (t : State) : Prop := t.fld st f_LTR_STATUS_WUISSUED = (s.fld st f_LTR_STATUS_WUISSUED + 1) % 2 ^ f_LTR_STATUS_WUISSUED.width
    isGalley sb = true → s.noMarks sb (4096 * n) →
      (r.quiet = true ∨ s.fld sup f_LTR_SUPPRESS_LEFT = 0 → Goes (exec (.streamSend c) s) fun t => s.computeKept t ∧ issued t ∧
        t.request c rid = some { r with stream := none } ∧ (∀ k, k ≠ rid → t.request c k = s.request c k) ∧
        s.sendsCells t c (bit d 587) (s.rlCells c rid 4 (bits d 479 416) (bits d 527 480) (bits d 575 528) t0.tally n
          t0.words (s.bytes sb (4096 * n)))) ∧
      (r.quiet = false → s.fld sup f_LTR_SUPPRESS_LEFT ≠ 0 → Goes (exec (.streamSend c) s) fun t => t.mem = s.mem ∧ t.quay = s.quay ∧
        t.routers = s.routers ∧ issued t ∧ t.request c rid = none ∧ (∀ k, k ≠ rid → t.request c k = s.request c k) ∧
        t.fld sup f_LTR_SUPPRESS_LEFT = s.fld sup f_LTR_SUPPRESS_LEFT - 1 ∧ (t.core c).tokens = ((s.core c).raise (hdRaise d)).tokens)

/-- How entries come in (R383, R384) and what the kinds of compute dies do (R382, R387 to R390, R189). What stands for STEP in a refused
commit word is a free value (log entry 5); the count of a ring overrun adds every entry lost (log entry 15). -/
def Obligations.ScheduleEntries : Prop :=
  (∀ (s : State) (src : Source) (die : Nat) (v : Word), die < 16 → s.dieUp die = true → (Source.order src).2 = 0 →
    let w (i : Nat) : Nat := Tbl.get 0 s.puts (die * 4 + i) * 2 ^ (64 * i)
    let e := w 0 + w 1 + w 2 + v.toNat * 2 ^ 192
    let ok := s.entryOk e ⟨1, die, 0xF⟩
    let full := ∃ d ∈ enDies e, s.freeSlot d (enPart e) = none
    let a := a_TIDE_SCHED die
    let told (t : State) (code : Nat) : Prop := t.jseq = s.jseq + 1 ∧ ∃ j, Tbl.find t.journal (s.jseq % 4096) = some j ∧
      j.addr = a_TIDE_PUT die 3 ∧ j.code = code ∧ j.new = v
    let now := s.alone = true ∧ s.wayOpen src (a_TIDE_PUT die 3) = true
    (¬ now → exec (.tidePutSubmit src die v) s = .next (s.gather ⟨src, a_TIDE_PUT die 3, true, true, v⟩)) ∧ (now →
    let refused (code : Nat) : Prop := Goes (exec (.tidePutSubmit src die v) s) fun t => s.computeKept t ∧ t.entries = s.entries ∧
      told t code ∧ t.fld a f_TIDE_SCHED_REFUSED = min 65535 (s.fld a f_TIDE_SCHED_REFUSED + 1)
    (ok = false → refused Code.SCHED_BAD_ENTRY) ∧ (ok = true → s.entryAddrOk e = false → refused Code.BAD_ADDRESS) ∧
    (ok = true → s.entryAddrOk e = true → full → refused Code.SCHED_FULL) ∧
    (ok = true → s.entryAddrOk e = true → ¬ full → Goes (exec (.tidePutSubmit src die v) s) fun t => s.computeKept t ∧ told t 0 ∧
      (∀ at_ i, enDies e = [at_] → s.freeSlot at_ (enPart e) = some i → at_ < 16 → i < 1024 →
        t.slot at_ i = some ⟨e, 1, s.tideOf at_, 0, none, false, none, at_ == die⟩ ∧
        ∀ d j, d < 16 → j < 1024 → (d, j) ≠ (at_, i) → t.slot d j = s.slot d j) ∧
      ∀ d ∈ enDies e, d ≠ die → ∃ o ∈ t.outbox, o.kind = .quay ∧ o.dest = d ∧ o.data = [evtHead die d 2, 2, 0xF, s.tideOf die, e + 2 ^ 256]))) ∧
  (∀ (s : State) (c : Nat), c < 156 →
    let die := coreDie c
    let base := s.fld (a_TIDE_RING die (coreNo c)) f_TIDE_RING_BASE
    let prod := s.num base 8
    let cons := s.num (base + 8) 8
    let n := (prod + 2 ^ 64 - cons) % 2 ^ 64
    let a := a_TIDE_SCHED die
    let counted (t : State) (k : Nat) : Prop := t.fld a f_TIDE_SCHED_REFUSED = min 65535 (s.fld a f_TIDE_SCHED_REFUSED + k)
    base ≠ 0 → s.dieUp die = true → s.noMarks base 2112 → Goes (exec (.tideRingPoll c) s) fun t =>
      t.num (base + 8) 8 = prod ∧ (∀ y, y < base + 8 ∨ base + 16 ≤ y → t.byte y = s.byte y) ∧
      (n = 0 → t = { s with freeCount := t.freeCount }) ∧
      (64 < n → t.cores = s.cores ∧ t.entries = s.entries ∧ counted t n ∧ Records s t Code.SCHED_RING_OVERRUN die (s.partOf c) []) ∧
      (n = 1 →
        let e := s.num (base + 64 + 32 * (cons % 64)) 32
        let by_ : PutBy := ⟨2, die, coreNo c⟩
        (s.entryOk e by_ = false → t.entries = s.entries ∧ counted t 1 ∧ (t.core c).evpend.getLsbD 7 = true ∧
          (t.reg (a_LTR_ERRLOG die (coreNo c) (s.fld (a_LTR_ERRPTR die (coreNo c)) f_LTR_ERRPTR_NEXT) 1)).toNat / 2 ^ 48 =
            Code.SCHED_BAD_ENTRY ∧
          t.reg (a_LTR_ERRLOG die (coreNo c) (s.fld (a_LTR_ERRPTR die (coreNo c)) f_LTR_ERRPTR_NEXT) 0) = BitVec.ofNat 64 (enTag e)) ∧
        (s.entryOk e by_ = true → s.entryAddrOk e = true →
          (enKind e = 4 → t.cores = s.cores ∧ t.entries = s.entries ∧
            t.collAsks = s.collAsks ++ [⟨13 * enDie e + enCore e, bits e 36 32, bits e 31 0, enMark e⟩]) ∧
          ∀ i, enKind e ≠ 4 → enDies e = [die] → s.freeSlot die (enPart e) = some i → i < 1024 → t.cores = s.cores ∧
            t.slot die i = some ⟨e, 2, s.tideOf die, 0, none, false, none, true⟩))) ∧
  ∀ (s : State) (die : Nat), die < 12 →
    let now := s.tideOf die
    let moved (t : State) (i : Nat) (x : SchedSlot) : Prop := (enRepeat x.entry ≤ x.done → t.slot die i = none) ∧
      (x.done < enRepeat x.entry → ∃ told, t.slot die i = some ⟨x.entry, x.source, x.accepted, x.done + 1, told, false, none, x.known⟩)
    let late (x : SchedSlot) : Prop := x.due + 16 < now ∧ ¬ (enKind x.entry = 5 ∧ x.due < x.accepted)
    let slips (t : State) (x : SchedSlot) : Prop := (¬ late x → t.reg (a_TIDE_SLIP die) = s.reg (a_TIDE_SLIP die)) ∧
      (late x → t.fld (a_TIDE_SLIP die) f_TIDE_SLIP_COUNT = min (s.fld (a_TIDE_SLIP die) f_TIDE_SLIP_COUNT + 1) (2 ^ 32 - 1) ∧
        t.fld (a_TIDE_SLIP die) f_TIDE_SLIP_MAX = max (s.fld (a_TIDE_SLIP die) f_TIDE_SLIP_MAX) (min (2 ^ 32 - 1) (now - x.due)))
    let tells (t : State) (x : SchedSlot) : Prop := late x → x.told = none →
      Records s t Code.TIDE_SLIP die (enPart x.entry) [enKind x.entry, enTag x.entry, x.due, now - x.due]
    let recorded (t : State) (x : SchedSlot) (mask : Nat) : Prop :=
      let addr := bits x.entry 95 48
      let w := now % 2 ^ 64 + enTag x.entry * 2 ^ 64 + enKind x.entry * 2 ^ 80 + b2n (decide (16 < now - x.due)) * 2 ^ 88
      (∀ k, k < 13 → mask.testBit k = true → (t.core (s.actor (13 * die + k))).evpend.getLsbD 3 = true) ∧
      (addr = 0 → t.mem = s.mem) ∧
      (addr ≠ 0 → s.rangeOpen die true addr 16 = true → s.memThere addr 16 → s.noMarks addr 16 →
        t.bytes addr 16 = bytesLE 16 w ∧ ∀ y, y < addr ∨ addr + 16 ≤ y → t.byte y = s.byte y) ∧
      (addr ≠ 0 → s.rangeOpen die true addr 16 = false → t.mem = s.mem)
    let copied (t : State) (x : SchedSlot) : Prop :=
      let c := s.actor (13 * die + enCore x.entry)
      let k := s.core c
      let a := bits x.entry 17 0
      let q := bits x.entry 25 24
      let n := 16 * hdLen (natLE (k.pbytes a 16))
      let queued (bs : List Byte) : Prop := (t.core c).queue q = k.queue q ++ [⟨bs⟩] ∧ (t.core c).tokens = k.tokens ∧ (t.core c).g = k.g ∧
        (t.core c).pc = k.pc
      (∀ b, b ≠ c → t.core b = s.core b) ∧ t.mem = s.mem ∧ (∀ bs, x.held = some bs → queued bs) ∧
        (x.held = none → (∀ e ∈ k.pmarks, e.1 + 8 ≤ a ∨ a + n ≤ e.1) → k.enqCheck q a false (natLE (k.pbytes a 16)) = none →
          queued (k.pbytes a n))
    let kept (t : State) (i : Nat) (x : SchedSlot) : Prop :=
      let k := s.core (s.actor (13 * die + enCore x.entry))
      let a := bits x.entry 17 0
      let n := 16 * hdLen (natLE (k.pbytes a 16))
      (x.held.isSome = true ∨ k.stores ≠ [] → t = { s with entries := t.entries } ∧ t.slot die i = some { x with busy := true }) ∧
        (x.held = none → k.stores = [] → t.slot die i = some { x with busy := true, held := some (k.pbytes a n) } ∧
          ((∀ e ∈ k.pmarks, e.1 + 8 ≤ a ∨ a + n ≤ e.1) → ∀ b, (t.core b).queues = (s.core b).queues))
    (∀ i x, s.dueSlot die 1 = some (i, x) → Goes (exec (.schedMark die none) s) fun t => t.presses = s.presses ∧ moved t i x ∧ slips t x ∧
      tells t x ∧ recorded t x (bits x.entry 12 0)) ∧
    (∀ i x (m : Member), s.dueSlot die 1 = some (i, x) → bits x.entry 95 48 = 0 →
      let p := enPart x.entry
      let table := s.voteTable m
      let votes (u : Nat) : List VoteEntry := table.filter fun e => e.valid && e.step == m.step && e.u == u
      let wins (u : Nat) : Prop := m.replicas < 2 * (votes u).length
      let own := (table[m.ridx]?.map VoteEntry.u).getD 0
      let told (t : State) (code other : Nat) : Prop := ∃ d, t.detections = s.detections ++ [d] ∧ d.code = code ∧ d.die = coreDie m.core ∧
        d.core = coreNo m.core ∧ d.detail0 = own ∧ d.detail1 = other
      (s.voteFinal m = true → m.ridx < m.replicas → Goes (exec (.schedMark die (some ⟨.vote, m⟩)) s) fun t => t.mem = s.mem ∧ moved t i x ∧
        (wins own → t.detections = s.detections ∧ (t.voteOf p).odd = none) ∧
        (∀ u, wins u → u ≠ own → told t Code.REPLICA_ODD u ∧ ∃ y, (t.voteOf p).odd = some y ∧ y.u = u ∧
          (∀ e ∈ votes u, y.src ≤ e.node) ∧ (y.src = 0xFFF ∨ ∃ e ∈ votes u, e.node = y.src)) ∧
        ((∀ u, ¬ wins u) → let again := (s.voteOf p).replayed = true ∧ (s.voteOf p).step = m.step
          (again → told t Code.DIVERGENCE 0 ∧ (p < 24 → (p, Code.DIVERGENCE) ∈ t.teardownAsks)) ∧
          (¬ again → told t Code.VOTE_NO_MAJORITY 0 ∧ (t.voteOf p).replayed = true ∧ (t.voteOf p).step = m.step))) ∧
      let open_ := s.reachNow (coreDie m.core) false (tensorLines m.tensors)
      (open_ = false → ∀ duty ∈ [MarkDuty.repair, .shard], Goes (exec (.schedMark die (some ⟨duty, m⟩)) s) fun t => t.mem = s.mem ∧ moved t i x ∧
        t.duties = s.duties ++ [(p, ⟨duty, m⟩)]) ∧
      (∀ y, open_ = true → (s.voteOf p).odd = some y → Goes (exec (.schedMark die (some ⟨.repair, m⟩)) s) fun t => t.mem = s.mem ∧ moved t i x ∧
        (s.updateTally m = y.u → t.detections = s.detections ∧ (t.voteOf p).odd = none) ∧
        (s.updateTally m ≠ y.u → (∃ d ∈ t.detections, d.code = Code.DIVERGENCE ∧ d.detail0 = s.updateTally m ∧ d.detail1 = y.u) ∧
          (p < 24 → (p, Code.DIVERGENCE) ∈ t.teardownAsks))) ∧
      (open_ = true → Goes (exec (.schedMark die (some ⟨.shard, m⟩)) s) fun t => t.mem = s.mem ∧ moved t i x ∧
        ⟨.hostWrite, m.dest, (s.shardObject m).map BitVec.toNat⟩ ∈ t.outbox) ∧
      (∀ flags count owned, s.reachNow (coreDie m.core) false (policyLines flags count owned) = false →
        Goes (exec (.schedMark die (some ⟨.policy flags count owned, m⟩)) s) fun t => t.mem = s.mem ∧ moved t i x ∧
          t.duties = s.duties ++ [(p, ⟨.policy flags count owned, m⟩)]) ∧
      (∀ flags count owned t0 r, s.reachNow (coreDie m.core) false (policyLines flags count owned) = true →
        flaggedTensors (s.bytes flags count) = t0 :: r →
        let nf := s.fld (a_COLL_CTL (coreDie m.core)) (if s.clusterOf m.core % 2 = 0 then f_COLL_CTL_NF0 else f_COLL_CTL_NF1)
        (nf = 0 → Goes (exec (.schedMark die (some ⟨.policy flags count owned, m⟩)) s) fun t => t.mem = s.mem ∧ moved t i x ∧
          (t.recs.last.getLast?).map (fun r => (r.code, r.part, r.body)) = some (Code.NONFINITE_SKIP, p, argBody [m.step, t0])) ∧
        (2 ≤ nf → Goes (exec (.schedMark die (some ⟨.policy flags count owned, m⟩)) s) fun t => t.mem = s.mem ∧ moved t i x ∧
          (p < 24 → (p, Code.NONFINITE_ABORT) ∈ t.teardownAsks))) ∧
      ∀ manifest tallies obj, checkpointWhole manifest tallies = false ∨ s.restoredData m obj = none →
        Goes (exec (.schedMark die (some ⟨.restore manifest tallies obj, m⟩)) s) fun t => t.mem = s.mem ∧ moved t i x ∧
          (checkpointWhole manifest tallies = true → (t.recs.last.getLast?).map (·.code) = some Code.CHECKPOINT_CORRUPT)) ∧
    (∀ i x, s.dueSlot die 2 = some (i, x) →
      ((s.prefetch die x).isSome = true → Goes (exec (.schedPrefetch die) s) fun t => moved t i x ∧ slips t x ∧ tells t x ∧ copied t x) ∧
      (s.prefetch die x = none → Goes (exec (.schedPrefetch die) s) fun t => kept t i x)) ∧
    (∀ i x, s.heldPrefetch die = none → (s.heldPrefetches die).find? (fun x => x.2.held.isNone) = some (i, x) →
      Goes (exec (.prefetchEnqueue die) s) fun t => kept t i x) ∧
    (∀ i x, s.heldPrefetch die = some (i, x) → Goes (exec (.prefetchEnqueue die) s) fun t => moved t i x ∧ slips t x ∧ tells t x ∧
      copied t x) ∧
    (∀ i x, s.dueSlot die 3 = some (i, x) → Goes (exec (.schedPrewarm die) s) fun t => t = { s with entries := t.entries, ramps := t.ramps } ∧
      t.slot die i = some { x with busy := true } ∧
      (t.ramp die).prewarms = (s.ramp die).prewarms ++ [⟨i, x.due, max x.accepted ((x.due - 32000) / 2000 * 2000) / 2000 * 2000, 0, false⟩]) ∧
    (∀ p x, s.dueStart die = some p → s.slot die p.entry = some x →
      Goes (exec (.prewarmStart die) s) fun t => moved t p.entry x ∧ slips t x ∧ tells t x ∧ recorded t x (bits x.entry 16 4) ∧
        (t.ramp die).prewarms = (s.ramp die).prewarms.erase p ∧ (t.ramp die).keep = now + s.fld (a_PWR_RAMP die) f_PWR_RAMP_HOLD) ∧
    ∀ i x, s.dueSlot die 5 = some (i, x) →
      let ca := bits x.entry 95 48
      let pa := bits x.entry 47 0
      let prep := s.num pa 8
      let torn := ∃ y, Tbl.get none s.torn (enPart x.entry) = some y ∧ y.first ≤ x.due
      let beaten := s.actionBeaten (enPart x.entry) false
      let rest (t : State) (l : List (Nat × Nat)) : Prop := ∀ y, (∀ r ∈ l, y < r.1 ∨ r.1 + r.2 ≤ y) → t.byte y = s.byte y
      let event (t : State) : Prop := moved t i x ∧ slips t x ∧
        (enCore x.entry ≠ 0xF → (t.core (s.actor (13 * die + enCore x.entry))).evpend.getLsbD 3 = true)
      s.noMarks ca 16 → s.noMarks pa 8 → (pa + 8 ≤ ca ∨ ca + 16 ≤ pa) →
      (x.accepted ≤ x.due → ¬ torn → beaten = false → prep.testBit 63 = true → Goes (exec (.schedCommit die) s) fun t => event t ∧ tells t x ∧
        t.num ca 8 = prep ∧ t.num (ca + 8) 8 = now % 2 ^ 64 ∧ t.num pa 8 = prep - 2 ^ 63 ∧ rest t [(ca, 16), (pa, 8)]) ∧
      (x.due < x.accepted ∨ torn ∨ beaten = true ∨ prep.testBit 63 = false → Goes (exec (.schedCommit die) s) fun t => event t ∧
        t.num ca 8 < 2 ^ 63 ∧ t.num (ca + 8) 8 = now % 2 ^ 64 ∧ rest t [(ca, 16)] ∧
        ∃ r ∈ t.recs.last, r.code = Code.COMMIT_WITHHELD ∧ r.die = die ∧ r.part = enPart x.entry)

/-- Schedule actions of base dies and of every die (R382, R298, R299, R425, R449). -/
def Obligations.ScheduleActions : Prop :=
  (∀ (s : State) (die i : Nat) (x w : SchedSlot) (k : Nat), 12 ≤ die → die < 16 → s.dueSlot die 8 = some (i, x) →
    laneWinner (s.lanePeers die x) = some (k, w) →
    (∀ p ∈ diePorts die, (s.port p).rotating = true → s.tideOf die / s.calStep p ≤ (s.port p).boundary) →
    let plan (y : SchedSlot) : Nat := bits y.entry 2 0
    let n := plan w
    let lost := ((s.lanePeers die x).filter fun y => plan y.2 != n).length
    Goes (exec (.schedLane die) s) fun t => s.computeKept t ∧ t.fld (a_LANE_PLANSEL die) f_LANE_PLANSEL_CUR = n ∧
      t.fld (a_TIDE_SCHED die) f_TIDE_SCHED_CONFLICTS = min (s.fld (a_TIDE_SCHED die) f_TIDE_SCHED_CONFLICTS + lost) 65535 ∧
      (s.lanePeers die x = [(i, x)] → x.done < enRepeat x.entry → ∃ y, t.slot die i = some y ∧ y.done = x.done + 1 ∧ y.entry = x.entry) ∧
      ∀ p ∈ diePorts die, t.fld (a_port p) f_PHX_PORT_TARGET = s.planCount p n ∧
        (∀ l ∈ s.portLanes p, s.lanePos l < s.planTarget p n → t.lanePort l = p ∧ t.lanePos l = s.lanePos l ∧ t.laneSt l = s.laneSt l ∧
          t.laneSlot l = s.laneSlot l) ∧
        (∀ l ∈ t.portLanes p, t.lanePos l < s.planTarget p n ∧
          ((l ∈ s.portLanes p ∧ t.lanePos l = s.lanePos l) ∨ s.fld (a_lctl l) f_LANE_CTL_ENABLE = 1 ∧
            s.fld (a_lctl l) f_LANE_CTL_PART = s.portPart p ∧ t.laneSt l = 1 ∧ (t.lane l).due = some (s.tideOf die + 20000))) ∧
        (s.planTarget p (s.fld (a_LANE_PLANSEL die) f_LANE_PLANSEL_CUR) < s.planTarget p n → t.spareLane p = none ∨ ∀ j, j < s.planTarget p n → (t.laneAt p j).isSome = true)) ∧
  (∀ (s : State) (die i : Nat) (x : SchedSlot), 12 ≤ die → die < 16 → s.dueSlot die 9 = some (i, x) →
    Goes (exec (.schedCalhold die) s) fun t => s.computeKept t ∧
      (∀ p ∈ diePorts die, (bits x.entry 39 32).testBit (p % 8) = true →
        (t.port p).hold = some (x.due + min (bits x.entry 31 0) (s.calStep p))) ∧
      ∀ p, (p ∉ diePorts die ∨ (bits x.entry 39 32).testBit (p % 8) = false) → t.port p = s.port p) ∧
  (∀ (s : State) (p e : Nat), p < 32 → (s.port p).hold = some e → e ≤ s.tideOf (portDie p) →
    let N := s.tideOf (portDie p) / s.calStep p
    ((s.port p).rotating = false ∨ N ≤ (s.port p).boundary → Goes (exec (.calholdEnd p) s) fun t => t = { s with ports := t.ports } ∧
      t.port p = { s.port p with hold := none } ∧ ∀ q, q ≠ p → t.port q = s.port q) ∧
    ((s.port p).rotating = true → (s.port p).boundary < N → Goes (exec (.calholdEnd p) s) fun t => s.computeKept t ∧
      (t.port p).hold = none ∧ (t.port p).boundary = N ∧ ∀ l ∈ t.portLanes p, t.slotOf p (t.lanePos l) = some (t.laneSlot l))) ∧
  (∀ (s : State) (die i : Nat) (x : SchedSlot), 12 ≤ die → die < 16 → s.dueSlot die 0xA = some (i, x) → bits x.entry 38 37 < 3 →
    let st := 3 * (die - 12) + bits x.entry 38 37
    let ch := bits x.entry 36 32
    Goes (exec (.schedHbmMaint die) s) fun t => s.computeKept t ∧ t.maints = s.maints ++ [⟨st, ch, x.due + bits x.entry 31 0⟩] ∧
      t.fld (a_chan st ch) f_HBM_CH_STATUS_STATE = (if s.chanLive st ch then 4 else s.fld (a_chan st ch) f_HBM_CH_STATUS_STATE)) ∧
  (∀ (s : State) (st ch : Nat) (m : Maint), st < 12 → ch < 32 →
    s.maints.find? (fun m => m.stack == st && m.chan == ch && decide (m.stop ≤ s.tideOf (stackBase st))) = some m →
    Goes (exec (.hbmMaintEnd st ch) s) fun t => s.computeKept t ∧ t.maints = s.maints.erase m ∧
      (s.fld (a_chan st ch) f_HBM_CH_STATUS_STATE = 4 ∧ s.fld (a_chanCtl st ch) f_HBM_CH_CTL_OFFLINE = 0 →
        t.fld (a_chan st ch) f_HBM_CH_STATUS_STATE = 3 ∧ t.fld (a_chan st ch) f_HBM_CH_STATUS_RETRAINS =
          min (s.fld (a_chan st ch) f_HBM_CH_STATUS_RETRAINS + 1) (2 ^ f_HBM_CH_STATUS_RETRAINS.width - 1)) ∧
      (s.fld (a_chan st ch) f_HBM_CH_STATUS_STATE ≠ 4 → t.regs = s.regs)) ∧
  (∀ (s : State) (die n : Nat) (x : SchedSlot), die < 16 → s.dueSlot die 0xC = some (n, x) → s.tideOf die ≤ x.due + 16 →
    let i := bits x.entry 15 0
    let a := a_FI_INJ die i 0
    let kind := s.fld a f_FI_INJ_KIND
    let dur := s.fld a f_FI_INJ_DURATION * 1000
    let now := s.tideOf die
    let st := a_FI_STATUS die
    let may := s.fld (a_FI_CTL die) f_FI_CTL_ENABLE = 1 ∧ i < 16 ∧ s.fld a f_FI_INJ_VALID = 1 ∧ Tbl.get none s.injections (die * 16 + i) = none ∧
      s.pstate (s.fld a f_FI_INJ_PART) = 2 ∧ s.targetOk die i = true ∧ (dur = 0 → kind = 2 ∨ kind = 3)
    (s.rehearseBeaten die x = true → Goes (exec (.schedRehearse die) s) fun t => s.computeKept t ∧ t.injections = s.injections ∧
      t.lanes = s.lanes ∧ t.reg st = s.reg st ∧ ∃ j, Tbl.find t.journal (s.jseq % 4096) = some j ∧ j.code = Code.COMMAND_OVERRIDDEN ∧
        j.addr = a_TIDE_ENTRY die n 0) ∧
    (may → s.rehearseBeaten die x = false → Goes (exec (.schedRehearse die) s) fun t => s.computeKept t ∧
      Tbl.get none t.injections (die * 16 + i) = some ⟨now, false⟩ ∧ (t.fld st f_FI_STATUS_ACTIVE).testBit i = true ∧
      t.fld st f_FI_STATUS_STARTED = min (s.fld st f_FI_STATUS_STARTED + 1) (2 ^ f_FI_STATUS_STARTED.width - 1) ∧
      (∀ u ∈ s.fiUnits die i, ∃ r ∈ t.rehearsals, r.unit = u ∧ r.start = now ∧ (dur ≠ 0 → r.stop = now + dur)) ∧
      t.delays = s.delays ++ (if kind = 5 then [⟨s.fld a f_FI_INJ_PART, now, now + dur⟩] else []) ∧
      (kind ≠ 1 → kind ≠ 4 → t.lanes = s.lanes ∧ Records s t Code.REHEARSAL_START die (s.fld a f_FI_INJ_PART) []) ∧
      (kind = 1 → ∀ l, l = 96 * (die - 12) + s.fld a f_FI_INJ_TARGET → 1 ≤ s.laneSt l → s.laneSt l ≤ 4 →
        t.laneSt l = 4 ∧ (t.lane l).dropped = true)) ∧
    (¬ may → s.rehearseBeaten die x = false → Goes (exec (.schedRehearse die) s) fun t => s.computeKept t ∧ t.injections = s.injections ∧ t.lanes = s.lanes ∧
      t.fld st f_FI_STATUS_REFUSED = min (s.fld st f_FI_STATUS_REFUSED + 1) (2 ^ f_FI_STATUS_REFUSED.width - 1) ∧
      Records s t Code.FI_BUSY die (enPart x.entry) [])) ∧
  (∀ (s : State) (die i : Nat) (j : Injection), die < 16 → i < 16 → Tbl.get none s.injections (die * 16 + i) = some j →
    let dur := s.fld (a_FI_INJ die i 0) f_FI_INJ_DURATION * 1000
    let ends := j.used = true ∨ dur ≠ 0 ∧ j.start + dur ≤ s.tideOf die
    (¬ ends → exec (.injectionEnd die i) s = .next s) ∧
    (ends → Goes (exec (.injectionEnd die i) s) fun t => s.computeKept t ∧ Tbl.get none t.injections (die * 16 + i) = none ∧
      (∀ n, (t.fld (a_FI_STATUS die) f_FI_STATUS_ACTIVE).testBit n = ((s.fld (a_FI_STATUS die) f_FI_STATUS_ACTIVE).testBit n && n != i)) ∧
      Records s t Code.REHEARSAL_END die (s.fld (a_FI_INJ die i 0) f_FI_INJ_PART) [] ∧
      (s.fld (a_FI_INJ die i 0) f_FI_INJ_KIND = 1 ∨ s.fld (a_FI_INJ die i 0) f_FI_INJ_KIND = 4 → ∀ l ∈ s.fiLanes die i,
        (s.lane l).dropped = true → (t.lane l).dropped = false ∧ (t.lane l).since = s.tideOf die ∧ t.laneSt l = s.laneSt l))) ∧
  ∀ (s : State) (die n : Nat) (x : SchedSlot) (y : Nat), die < 16 → s.dueSlot die 0x0D = some (n, x) → s.tideOf die ≤ x.due + 16 →
    bits x.entry 7 0 = 0x0B + y → y < 3 → enPart x.entry < 24 →
    let p := enPart x.entry
    let key := stagedKey y p die
    (s.actionBeaten p true = true → Goes (exec (.schedApply die) s) fun t => s.computeKept t ∧ t.staged = s.staged ∧
      t.reg (a_IMPO_STAGED y) = s.reg (a_IMPO_STAGED y) ∧ t.jseq = s.jseq + 1) ∧
    (s.actionBeaten p true = false → Goes (exec (.schedApply die) s) fun t => s.computeKept t ∧ Tbl.get none t.staged key = none ∧
      (die = 12 → if s.fld (a_IMPO_STAGED y) ⟨p, p⟩ = 1 then t.fld (a_IMPO_STAGED y) ⟨p, p⟩ = 0 ∧
          (t.recs.last.getLast?).map (·.code) = some Code.IMPO_APPLIED
        else (t.recs.last.getLast?).map (·.code) = some Code.IMPO_NOTHING_STAGED) ∧
      (∀ r, y = 0 → 12 ≤ die → Tbl.get none s.staged key = some [r] → rb r 1 < 8 →
        (s.fld (a_LANE_PLANSEL die) f_LANE_PLANSEL_CUR = rb r 1 → t.reg (a_LANE_PLAN die (rb r 1)) = s.reg (a_LANE_PLAN die (rb r 1)) ∧
          ∃ z ∈ t.recs.last, z.code = Code.LANE_PLAN_IN_FORCE ∧ z.die = die ∧ z.part = p) ∧
        (s.fld (a_LANE_PLANSEL die) f_LANE_PLANSEL_CUR ≠ rb r 1 → ∀ q, q < 8 → t.fld (a_LANE_PLAN die (rb r 1)) (f_plan q) =
          if s.portPart (8 * (die - 12) + q) = p then laneCount r q else s.fld (a_LANE_PLAN die (rb r 1)) (f_plan q))) ∧
      (∀ rs, y = 1 → Tbl.get none s.staged key = some rs →
        (∀ j z, j ≠ n → s.slot die j = some z → (enPart z.entry ≠ p ∨ z.source ≠ 0) → t.slot die j = some z) ∧
        (∀ j z, j < 1024 → t.slot die j = some z → z.source = 0 → enPart z.entry = p → z.entry ∈ rs ∧ z.done = 0 ∧ z.accepted = s.tideOf die)) ∧
      ∀ r, y = 2 → Tbl.get none s.staged key = some [r] →
        (12 ≤ die → t.reg (a_CHK_PKEY die p) = BitVec.ofNat 64 (rn r 8 8)) ∧
        (die < 12 → ∀ k, k < 2 → (s.clustersOf p).testBit (2 * die + k) = true →
          t.fld (a_CHK_CFG die k) f_CHK_CFG_LEVEL = rb r 1 % 2 ^ f_CHK_CFG_LEVEL.width ∧
          t.reg (a_CHK_KEY die k) = BitVec.ofNat 64 (rn r 8 8)))

/-- The loader (R412 to R418, R424). -/
def Obligations.ImpositionLoads : Prop :=
  (∀ (s : State) (src : Source), src ≠ .jtag → (∀ c, src ≠ .pilot c) →
    let a := s.fld a_IMPO_SRC f_IMPO_SRC_ADDR
    let len := s.num (a + 8) 4
    let n := if 80 ≤ len ∧ len ≤ 2 ^ 20 ∧ len % 16 = 0 then len else 64
    (s.loaderOpen = true → Accepts s src cmdImpoLoad (exec (.impoLoad src) s) fun t =>
      t.fld a_IMPO_STATUS f_IMPO_STATUS_STATE = 1 ∧ t.cores = s.cores ∧ t.mem = s.mem ∧
      (a % 4096 ≠ 0 ∨ inHbm a n = false → t.loader = some ⟨src, [], some ⟨Code.BAD_ADDRESS, 0xFF, 0xFFFF, none⟩, [], [], none⟩) ∧
      (a % 4096 = 0 → inHbm a n = true → s.hbmDown a n = false → s.rangeOpen 12 false a n = false → t.loader = some ⟨src, [], none, [], [], none⟩) ∧
      (a % 4096 = 0 → inHbm a n = true → s.hbmDown a n = false → s.rangeOpen 12 false a n = true →
        (s.hbmBad a n = none → t.loader = some ⟨src, s.bytes a n, none, [], [], none⟩) ∧
        ∀ l, s.hbmBad a n = some l → t.loader = some ⟨src, [], some ⟨Code.HBM_DATA_ERROR, 0xFF, 0xFFFF, some (l - a)⟩, [], [], none⟩)) ∧
    (s.loaderOpen = false → s.alone = true → s.dieUp 12 = true → s.overridden cmdImpoLoad = false → Goes (exec (.impoLoad src) s) fun t => s.computeKept t ∧
      t.loader = s.loader ∧ t.fld a_IMPO_STATUS f_IMPO_STATUS_RESULT = 3 ∧ t.fld a_IMPO_ERR f_IMPO_ERR_CODE = Code.IMPO_BUSY ∧
      t.fld a_IMPO_STATUS f_IMPO_STATUS_STATE = s.fld a_IMPO_STATUS f_IMPO_STATUS_STATE)) ∧
  (∀ (s : State) (x : LoadRun), s.loader = some x → s.fld a_IMPO_STATUS f_IMPO_STATUS_STATE = 1 →
    let im := parseImage x.image
    let refused (b : ImgBad) : Prop := Goes (exec .impoReadComplete s) fun t => s.computeKept t ∧ t.loader = none ∧
      s.onlyRegs t [a_IMPO_STATUS, a_IMPO_ERR, a_JRNL_STATUS, a_PCIE_RING_TAIL] ∧ t.fld a_IMPO_STATUS f_IMPO_STATUS_RESULT = 3 ∧
      t.fld a_IMPO_STATUS f_IMPO_STATUS_STATE = 0 ∧ t.fld a_IMPO_ERR f_IMPO_ERR_CODE = b.code % 2 ^ f_IMPO_ERR_CODE.width ∧
      t.fld a_IMPO_ERR f_IMPO_ERR_SECT = b.sect % 2 ^ f_IMPO_ERR_SECT.width ∧
      t.fld a_IMPO_ERR f_IMPO_ERR_RECORD = b.record % 2 ^ f_IMPO_ERR_RECORD.width ∧
      (t.recs.last.getLast?).map (·.code) = some Code.IMPO_REFUSED
    let a := s.fld a_IMPO_SRC f_IMPO_SRC_ADDR
    let len := s.num (a + 8) 4
    let n := if 80 ≤ len ∧ len ≤ 2 ^ 20 ∧ len % 16 = 0 then len else 64
    (x.unread = true → a % 4096 = 0 → inHbm a n = true → s.hbmDown a n = false →
      (s.rangeOpen 12 false a n = false → Goes (exec .impoReadComplete s) fun t => s.computeKept t ∧
        t.fld a_IMPO_STATUS f_IMPO_STATUS_STATE = 1 ∧ t.loader = some ⟨x.src, [], none, [], [], none⟩) ∧
      (s.rangeOpen 12 false a n = true → s.hbmBad a n = none → ∃ u, exec .impoReadComplete s = exec .impoReadComplete u ∧ s.onlyFlits u ∧
        u = { s with regs := u.regs, loader := some ⟨x.src, s.bytes a n, none, [], [], none⟩ })) ∧
    (∀ b, x.bad = some b → refused b) ∧ (∀ b, x.bad = none → x.image ≠ [] → s.imageChecks x.image = some b → refused b) ∧
    (x.bad = none → x.image ≠ [] → imgNum x.image 0 4 ≠ 0x4F504D49 → refused ⟨Code.IMPO_BAD_MAGIC, 0xFF, 0xFFFF, some 0⟩) ∧
    (x.bad = none → imgNum x.image 0 4 = 0x4F504D49 → imgNum x.image 4 2 ≠ 0x0100 → refused ⟨Code.IMPO_BAD_VERSION, 0xFF, 0xFFFF, some 4⟩) ∧
    (x.bad = none → x.image ≠ [] → s.imageChecks x.image = none →
      (im.replace = true → Goes (exec .impoReadComplete s) fun t => t = { s with regs := t.regs } ∧ s.onlyRegs t [a_IMPO_STATUS] ∧
        t.fld a_IMPO_STATUS f_IMPO_STATUS_STATE = 4) ∧
      (im.replace = false → im.mod = false → (∀ d, d < 16 → s.writable d = true) → Goes (exec .impoReadComplete s) fun t => t.mem = s.mem ∧
        t.cores = s.cores ∧ t.fld a_IMPO_STATUS f_IMPO_STATUS_STATE = 3 ∧ (∃ y, t.loader = some y ∧ y.image = x.image ∧ y.failed = none) ∧
        (∀ p ∈ im.plist, t.pstate p = 1 ∧ Tbl.get none t.torn p = none) ∧ (∀ p, p < 24 → p ∉ im.plist → t.pstate p = s.pstate p) ∧
        ∀ r ∈ im.recs 5, rb r 1 < 4 → rb r 0 < 24 → rb r 2 < 4 →
          (∀ r' ∈ im.recs 5, rb r' 0 = rb r 0 → rb r' 1 = rb r 1 → rb r' 2 = rb r 2 → r' = r) →
          let w := a_HBM_WIN (12 + rb r 1) (rb r 0) (rb r 2)
          t.fld w f_HBM_WIN_VALID = 1 ∧ t.fld w f_HBM_WIN_BASE = rn r 4 2 % 2 ^ f_HBM_WIN_BASE.width ∧
            t.fld w f_HBM_WIN_LIMIT = rn r 6 2 % 2 ^ f_HBM_WIN_LIMIT.width ∧
            t.fld (a_BLK_LOCK (regDie w) (regBlock w)) f_BLK_LOCK_LOCKED = 1))) ∧
  (∀ (s : State) (x : LoadRun), s.loader = some x → s.fld a_IMPO_STATUS f_IMPO_STATUS_STATE = 3 →
    let im := parseImage x.image
    (∀ d, s.failedDie x = some d → Goes (exec .impoApplyComplete s) fun t => s.computeKept t ∧ t.loader = none ∧
      t.fld a_IMPO_STATUS f_IMPO_STATUS_RESULT = 3 ∧ t.fld a_IMPO_ERR f_IMPO_ERR_CODE = Code.IMPO_WRITE_FAILED ∧
      t.fld a_IMPO_STATUS f_IMPO_STATUS_STATE = 0 ∧ (∀ p ∈ im.plist, t.pstate p = 0) ∧
      ∃ r, t.recs.last.getLast? = some r ∧ r.code = Code.IMPO_WRITE_FAILED ∧ r.body = argBody [d]) ∧
    (s.failedDie x = none → Goes (exec .impoApplyComplete s) fun t => t.mem = s.mem ∧ t.loader = none ∧
      t.fld a_IMPO_STATUS f_IMPO_STATUS_RESULT = 1 ∧ t.fld a_IMPO_STATUS f_IMPO_STATUS_STATE = 0 ∧
      t.reg a_IMPO_LAST = BitVec.ofNat 64 im.id ∧ (t.recs.last.getLast?).map (·.code) = some Code.IMPO_LOADED ∧
      (∀ p ∈ im.plist, (Tbl.get none s.torn p = none → t.pstate p = 2 ∧ ∀ b, 12 ≤ b → b < 16 → t.fld (a_RTR_STATUS b) ⟨p, p⟩ = 0) ∧
        (∀ y, Tbl.get none s.torn p = some y → t.pstate p = 3 ∧ ∀ b, 12 ≤ b → b < 16 → t.fld (a_RTR_STATUS b) ⟨p, p⟩ = 1)) ∧
      ∀ p ∈ im.plist, ∀ k ∈ maskClusters (im.clusters p), ∀ c ∈ clusterCores k,
        (im.enabled c = true → (t.core c).run = .halted ∧ (t.core c).pc = s.reg (a_PILOT_ENTRY (coreDie c) (coreNo c)) ∧
          (t.core c).qcap = im.capsOf c ∧ ∀ q, (t.core c).queue q = []) ∧
        (im.enabled c = false → (t.core c).run = .retired))) ∧
  (∀ (s : State) (x : LoadRun), s.loader = some x → s.fld a_IMPO_STATUS f_IMPO_STATUS_STATE = 4 →
    let im := parseImage x.image
    Goes (exec .impoStagingComplete s) fun t => s.computeKept t ∧ t.loader = none ∧ t.fld a_IMPO_STATUS f_IMPO_STATUS_RESULT = 2 ∧
      t.fld a_IMPO_STATUS f_IMPO_STATUS_STATE = 0 ∧ t.reg a_IMPO_LAST = BitVec.ofNat 64 im.id ∧
      (t.recs.last.getLast?).map (·.code) = some Code.IMPO_STAGED ∧
      ∀ p ∈ im.plist, s.pstate p = 2 → ∀ y, y < 3 → (im.sect (stagedType y)).isSome = true →
        t.fld (a_IMPO_STAGED y) ⟨p, p⟩ = 1 ∧ ∀ d, d < 16 →
          Tbl.get none t.staged (stagedKey y p d) = some ((im.recs (stagedType y)).filter fun r => (s.recDies y p r).contains d)) ∧
  ∀ (s : State) (src : Source) (parts : Nat), parts < 2 ^ 24 →
    (src ≠ .jtag → (∀ c, src ≠ .pilot c) →
      (Accepts s src (cmdImpoRelease parts) (exec (.impoRelease src parts) s) fun t => t.mem = s.mem ∧ ∀ p, p < 24 →
        (s.pstate p < 2 ∨ parts.testBit p = false → t.pstate p = s.pstate p) ∧
        (2 ≤ s.pstate p → parts.testBit p = true → t.pstate p = 0 ∧ (∀ b, 12 ≤ b → b < 16 → t.fld (a_RTR_STATUS b) ⟨p, p⟩ = 1) ∧
          (∀ d j y, t.slot d j = some y → enPart y.entry ≠ p) ∧
          (∀ y d, y < 3 → d < 16 → t.fld (a_IMPO_STAGED y) ⟨p, p⟩ = 0 ∧ Tbl.get none t.staged (stagedKey y p d) = none) ∧
          ∀ k ∈ maskClusters (s.clustersOf p), ∀ c ∈ clusterCores k, (∀ q, (t.core c).queue q = []) ∧
            (t.core c).run = if (s.core c).run = .retired then .retired else .halted)) ∧
      Accepts s src (cmdImpoDiscard parts) (exec (.impoDiscard src parts) s) fun t => s.computeKept t ∧
        ∀ p, p < 24 → parts.testBit p = true → ∀ y d, y < 3 → d < 16 →
          t.fld (a_IMPO_STAGED y) ⟨p, p⟩ = 0 ∧ Tbl.get none t.staged (stagedKey y p d) = none) ∧
    (∀ c, exec (.impoRelease (.pilot c) parts) s = .next s)

/-- The managers of the board (R430 to R446). Which partitions a lost module's jobs have is an operand, and a harbourmaster that hears a
higher claim acts as a candidate (log entry 17). -/
def Obligations.Managers : Prop :=
  (∀ s : State,
    let now := s.tideOf 12
    let beat : Nat := s.role + s.boardSlot * 4 + s.fld a_MGMT_ROLE f_MGMT_ROLE_EPOCH * 2 ^ 32
    (∀ w n, s.mgr.window = some w → (∀ x, s.mgr.beat = some x → x + 100_000 ≤ now) → s.master = some n → s.role ≠ 1 → s.role ≠ 2 → s.mgr.pause ≤ now →
      Goes (exec .heartbeatSend s) fun t => t = { s with mgr := t.mgr, routers := t.routers } ∧ t.mgr.beat = some now ∧
        (∀ b, b ≠ 12 → t.router b = s.router b) ∧ t.router 12 = { s.router 12 with loc := (s.router 12).loc ++ [⟨⟨0xE, 31, n, s.nodeId, 0, 0,
          bits now 15 8, 7, 0, 0x10 + s.nodeId * 2 ^ 24 + s.mgr.next % 2 ^ 32 * 2 ^ 64 + s.myEpoch % 2 ^ 32 * 2 ^ 96, beat % 2 ^ 128,
          beat / 2 ^ 128 % 2 ^ 128⟩, now, true, none, none⟩] }) ∧
    (∀ w, s.mgr.window = some w → (∀ x, s.mgr.beat = some x → x + 100_000 ≤ now) → (s.role = 1 ∨ s.role = 2 ∨ s.master = none) →
      Goes (exec .heartbeatSend s) fun t => t = { s with mgr := t.mgr, routers := t.routers } ∧ t.mgr.beat = some now ∧
        ∀ n ∈ s.boardNodes, ∃ x ∈ (t.router 12).loc, x.cell.kind = 0xE ∧ x.cell.dst = n ∧ bits x.cell.g0 7 0 = 0x10 ∧ bits x.cell.g1 1 0 = s.role) ∧
    (s.mgr.window = none → s.fld a_MGMT_BOOT f_MGMT_BOOT_STEP = 7 → s.mgr.beat = none → Goes (exec .heartbeatSend s) fun t =>
      s.computeKept t ∧ t.mgr.window = some now ∧ t.mgr.beat = some now ∧
      (s.strapRole = 2 → t.fld a_MGMT_BOOT f_MGMT_BOOT_STEP = 8 ∧ t.role = s.role) ∧ (s.strapRole = 3 → t.role = 0) ∧
      (s.strapRole = 1 → t.role = 2 ∧ t.sbKnown = true ∧ t.fld a_MGMT_ROLE f_MGMT_ROLE_SBNODE = s.nodeId)) ∧
    (s.mgr.window = none → s.fld a_MGMT_BOOT f_MGMT_BOOT_STEP ≠ 7 → exec .heartbeatSend s = .next s) ∧
    (∀ w, s.mgr.window = some w →
      (s.strapRole = 0 → s.mgr.settled = false → w + 200_000 ≤ now → s.role ≠ 1 → Goes (exec .harbourmasterClaim s) fun t => s.computeKept t ∧
        (s.hmKnown = true → t.role = 3) ∧
        (s.hmKnown = false → s.fld a_MGMT_ROLE f_MGMT_ROLE_EPOCH < 2 ^ 31 → t.role = 1 ∧ t.mgr.settled = true ∧
          t.mgr.own = s.fld a_MGMT_ROLE f_MGMT_ROLE_EPOCH + 1 ∧ t.fld a_MGMT_ROLE f_MGMT_ROLE_HMNODE = s.nodeId)) ∧
      (s.role = 3 → s.strapRole ≠ 0 → w + 2_000_000 + 200_000 * s.boardSlot ≤ now → Goes (exec .candidateClaim s) fun t =>
        s.computeKept t ∧ (s.hmKnown = false → t.role = 1 ∧ t.mgr.own = s.fld a_MGMT_ROLE f_MGMT_ROLE_EPOCH + 1) ∧
        (s.hmKnown = true → s.sbKnown = false → t.role = 2 ∧ t.fld a_MGMT_ROLE f_MGMT_ROLE_SBNODE = s.nodeId) ∧
        (s.hmKnown = true → s.sbKnown = true → t = s)) ∧
      (s.mgr.settled = false → w + 5_200_000 ≤ now → Goes (exec .heartbeatWindowEnd s) fun t => s.computeKept t ∧ t.mgr.settled = true ∧
        (s.boot.hbmDone = true → s.fld a_MGMT_BOOT f_MGMT_BOOT_STEP = 8 ∨ s.fld a_MGMT_BOOT f_MGMT_BOOT_STEP = 9 → t.fld a_MGMT_BOOT f_MGMT_BOOT_STEP = 0x0A)))) ∧
  (∀ (s s0 : State) (m : MgrIn), s.takeMsg 0x10 (fun _ => true) = some (m, s0) → Goes (exec .heartbeat s) fun t => s.computeKept t ∧
    t.ctl = s0.ctl ∧ (Tbl.get none t.mgr.peers m.src).map (fun p => (p.role, p.last)) = some (bits m.body 1 0, s.tideOf 12) ∧
    t.fld a_MGMT_ROLE f_MGMT_ROLE_EPOCH =
      max (max m.epoch (bits m.body 63 32)) (s.fld a_MGMT_ROLE f_MGMT_ROLE_EPOCH) % 2 ^ f_MGMT_ROLE_EPOCH.width ∧
    (bits m.body 1 0 = 1 → s.role ≠ 1 → (s.hmKnown = false ∨ s.fld a_MGMT_ROLE f_MGMT_ROLE_EPOCH < m.epoch) →
      t.hmKnown = true ∧ t.fld a_MGMT_ROLE f_MGMT_ROLE_HMNODE = m.src % 2 ^ f_MGMT_ROLE_HMNODE.width ∧ t.role = s.role) ∧
    (bits m.body 1 0 = 1 → s.role = 1 → s.fld a_MGMT_ROLE f_MGMT_ROLE_EPOCH < m.epoch → t.role = 3) ∧
    (bits m.body 1 0 = 1 → s.role = 1 → m.epoch ≤ s.fld a_MGMT_ROLE f_MGMT_ROLE_EPOCH → m.epoch = s.mgr.own → (m.src < s.nodeId → t.role = 3 ∧ Records s t Code.MANAGER_CONFLICT 16 31 []) ∧
      (s.nodeId ≤ m.src → t.role = 1)) ∧
    (bits m.body 1 0 = 2 → s.sbKnown = false → t.sbKnown = true ∧ t.fld a_MGMT_ROLE f_MGMT_ROLE_SBNODE = m.src % 2 ^ f_MGMT_ROLE_SBNODE.width)) ∧
  (∀ (s : State) (node parts : Nat) (p : Peer), node < 4096 → parts < 2 ^ 24 → Tbl.get none s.mgr.peers node = some p →
    let torn (t : State) : Prop := ∀ q, q < 24 → parts.testBit q = true → (s.pstate q = 1 ∨ s.pstate q = 2) → Tbl.get none s.torn q = none →
      s.tideOf 12 < 2 ^ 64 → (∀ x ∈ s.teardownsSeen, x.2.2 ≠ s.tideOf 12) →
      (Tbl.get none t.torn q).map (fun y => (y.code, y.node)) = some (Code.MODULE_LOST, node)
    let hm := s.hmKnown = true ∧ s.fld a_MGMT_ROLE f_MGMT_ROLE_HMNODE = node
    let late := max p.last p.pause + 500_000 ≤ s.tideOf 12
    (¬ late → exec (.moduleLost node parts) s = .next s) ∧
    (late → Goes (exec (.moduleLost node parts) s) fun t => t.mem = s.mem ∧ Tbl.get none t.mgr.peers node = none ∧
      (s.role = 1 → torn t) ∧
      (s.role = 2 → hm → t.role = 1 ∧ t.mgr.own = s.mgr.hmEpoch + 1 ∧
        (s.injections = [] → ∃ r ∈ t.recs.last, r.code = Code.MANAGER_TAKEOVER ∧ r.seq = s.recs.seq + 1) ∧ torn t) ∧
      (s.role ≠ 1 → (s.role ≠ 2 ∨ ¬ hm) → t.torn = s.torn ∧ t.cores = s.cores ∧ t.recs = s.recs))) ∧
  (∀ s : State, Goes (exec .mailboxPoll s) fun t => t = { s with teardownAsks := t.teardownAsks } ∧
    (∀ x ∈ s.teardownAsks, x ∈ t.teardownAsks) ∧
    ∀ c, c < 156 → (s.reg (a_PILOT_MAILBOX (coreDie c) (coreNo c))).toNat / 2 ^ 48 = 0x7D0A → s.partOf c < 24 → s.pstate (s.partOf c) = 2 →
      s.dieUp (coreDie c) = true →
      let code := (s.reg (a_PILOT_MAILBOX (coreDie c) (coreNo c))).toNat % 2 ^ 16
      (s.partOf c, if s.role = 1 ∧ Code.listed code = false then Code.TEARDOWN_REQUESTED else code) ∈ t.teardownAsks) ∧
  (∀ (s : State) (p : Nat) (x : TornPart), Tbl.get none s.tornOld p = none → Tbl.get none s.torn p = some x →
    ((x.told = true ∨ s.tideOf 12 < x.first + 1_000_000) → exec (.teardownRecord p) s = .next s) ∧
    (x.told = false → x.first + 1_000_000 ≤ s.tideOf 12 → Goes (exec (.teardownRecord p) s) fun t => s.computeKept t ∧
      Tbl.get none t.torn p = some { x with told := true } ∧ Records s t x.code 16 p [x.node, x.tide])) ∧
  (∀ (s : State) (p : Preempt), s.preempts.find? (fun p => !p.past && decide (p.deadline ≤ s.tideOf 12)) = some p →
    p.job.part < 24 → Goes (exec .preemptDeadline s) fun t => t.mem = s.mem ∧
      t.preempts = s.preempts.map (fun q => if q = p then { p with past := true, late := p.late || !p.saved } else q) ∧
      (p.saved = false → p.late = false → s.injections = [] → ∃ r ∈ t.recs.last, r.code = Code.CHECKPOINT_LATE ∧ r.part = p.job.part ∧
        r.seq = s.recs.seq + 1) ∧
      (s.role ≠ 1 → (p.job.part, Code.PREEMPTED) ∈ t.teardownAsks) ∧
      (s.role = 1 → (s.pstate p.job.part = 1 ∨ s.pstate p.job.part = 2) → Tbl.get none s.torn p.job.part = none → s.tideOf 12 < 2 ^ 64 →
        (∀ x ∈ s.teardownsSeen, x.2.2 ≠ s.tideOf 12) → (Tbl.get none t.torn p.job.part).map (·.code) = some Code.PREEMPTED)) ∧
  (∀ (s : State) (part job step addr : Nat) (tallies : List (Option Nat)),
    let ended := ∃ p ∈ s.preempts, p.job.part = part ∧ p.late = true
    (ended → exec (.checkpointManifest part job step addr tallies) s = .next s) ∧
    (¬ ended → none ∈ tallies → Goes (exec (.checkpointManifest part job step addr tallies) s) fun t => s.computeKept t ∧
      t.preempts = s.preempts.map (fun p => if p.job.part = part then { p with late := !p.saved } else p) ∧
      Records s t Code.CHECKPOINT_LATE 16 part []) ∧
    (¬ ended → none ∉ tallies → Goes (exec (.checkpointManifest part job step addr tallies) s) fun t => s.computeKept t ∧
      Records s t Code.CHECKPOINT_DONE 16 part [step] ∧ (∀ p ∈ t.preempts, p.job.part = part → p.saved = true) ∧
      let m := [0x43, 0x4B, 0x4D, 0x46, 0, 1, 0, 0] ++ bytesLE 8 job ++ bytesLE 8 step ++ bytesLE 4 tallies.length ++ [0, 0, 0, 0] ++
        bytesLE 8 ((tallies.filterMap id).sum % 2 ^ 64) ++ bytesLE 8 (s.tideOf 12) ++ List.replicate 12 0
      ⟨.hostWrite, addr, (m ++ bytesLE 4 (crc32c m)).map BitVec.toNat⟩ ∈ t.outbox)) ∧
  (∀ (s : State) (part : Nat) (recs : List (List Byte)) (shards : Nat),
    let rs := recs.map stepRec
    let n := lastHeld rs
    let fwd (h : Nat) : Prop := ∃ r ∈ rs, r.shard = h ∧ (r.cstep = n ∨ r.ready = true ∧ r.pstep = n)
    let slices (h : Nat) : Prop := ∃ r ∈ rs, r.shard = h ∧ n ≤ r.cstep + 1 ∧ r.gvalid = true ∧ r.gstep = n
    let old (h : Nat) : Prop := ∃ r ∈ rs, r.shard = h ∧ n ≤ r.cstep + 1
    let decided (code : Nat) : Prop := Goes (exec (.restartDecide part recs shards) s) fun t => s.computeKept t ∧ t.regs = s.regs ∧
      Records s t code 16 part [n]
    let all (f : Nat → Prop) : Prop := ∀ h, h < shards → f h
    s.recs.buf.length < 256 →
    (all fwd → decided Code.ROLL_FORWARD) ∧ (¬ all fwd → all (fun h => fwd h ∨ slices h) → decided Code.RECOVERY_REPLAY) ∧
    (¬ all fwd → ¬ all (fun h => fwd h ∨ slices h) → all old → decided Code.STEP_REPLAY) ∧
    (¬ all fwd → ¬ all (fun h => fwd h ∨ slices h) → ¬ all old → decided Code.ROLLBACK)) ∧
  ∀ (s : State) (src : Source) (die core : Nat), die < 12 →
    (core < 12 → AcceptsOnly s src (cmdFiRetire die core) [] (exec (.fiRetire src die core) s) fun t => s.computeKept t ∧
      t.standAsks = s.standAsks ++ [(13 * die + core, true)]) ∧
    (12 ≤ core → core < 16 → Goes (exec (.fiRetire src die core) s) fun t => s.computeKept t ∧ t.standAsks = s.standAsks ∧
      t.jseq = s.jseq + 1 ∧ ∃ j, Tbl.find t.journal (s.jseq % 4096) = some j ∧ j.code = Code.BAD_REG_ACCESS ∧ j.addr = a_FI_RETIRE die)

/-- Power (R453 to R467) and crossings (R471). Where a 21st low sample comes while the hold is on, the sample only counts; the power-off
comes 1 ms after the timeout (log entry 20). -/
def Obligations.PowerAndCrossings : Prop :=
  (∀ (s : State) (vin cur pow : Nat) (rails : Bool), s.off = false →
    let a := a_PWR_SUPPLY
    let st := s.fld a f_PWR_SUPPLY_STATE
    let now := s.tideOf 12
    let shown (t : State) : Prop := t.fld a f_PWR_SUPPLY_VIN = vin ∧ t.fld a f_PWR_SUPPLY_INPUT = min 65535 pow ∧
      t.fld a f_PWR_SUPPLY_VMIN = min (s.fld a f_PWR_SUPPLY_VMIN) vin ∧ t.supply.current = some cur ∧
      t.modPg = (rails && decide (4000 ≤ vin) && decide (vin ≤ 6000) && decide (t.fld a f_PWR_SUPPLY_STATE < 2))
    (6600 ≤ vin ∨ vin < 3000 → Goes (exec (.supplySample vin cur pow rails) s) fun t => t.off = true ∧ t.cores = [] ∧
      t.recs = RecState.init ∧ t.modPg = false) ∧
    (3000 ≤ vin → vin < 6600 →
      (3800 ≤ vin → vin ≤ 6000 → st < 2 → Goes (exec (.supplySample vin cur pow rails) s) fun t => s.computeKept t ∧ t.recs = s.recs ∧ shown t ∧
        t.fld a f_PWR_SUPPLY_STATE = 0 ∧ t.supply.low = 0 ∧ t.supply.high = 0) ∧
      (vin < 3800 → s.supply.low < 20 → st < 2 → Goes (exec (.supplySample vin cur pow rails) s) fun t => s.computeKept t ∧ t.recs = s.recs ∧
        shown t ∧ t.supply.low = s.supply.low + 1 ∧
        t.supply.t0 = (if s.supply.low = 0 ∧ ¬ (s.supply.kept = true ∧ now ≤ s.supply.t0 + 5_020_000) then now else s.supply.t0)) ∧
      (vin < 3800 → 20 ≤ s.supply.low → st < 2 → s.loader = none → Goes (exec (.supplySample vin cur pow rails) s) fun t =>
        t.mem = s.mem ∧ t.marks = s.marks ∧ t.presses = s.presses ∧ shown t ∧ t.fld a f_PWR_SUPPLY_STATE = 2 ∧
        (∀ d, d < 16 → t.fld (a_PWR_STATUS d) f_PWR_STATUS_BROWNOUT = 1) ∧ (∀ d, d < 12 → (t.ramp d).level = 0 ∧ (t.ramp d).slots = []) ∧
        t.supply.kept = true ∧ (s.supply.kept = false → t.supply.early = s.starting ∧ Records s t Code.SUPPLY_LOW 16 31 [] ∧
          t.fld a_PWR_SUPPLY_CNT f_PWR_SUPPLY_CNT_LOW = min (s.fld a_PWR_SUPPLY_CNT f_PWR_SUPPLY_CNT_LOW + 1) (2 ^ f_PWR_SUPPLY_CNT_LOW.width - 1)) ∧
        (s.supply.kept = true → t.recs = s.recs ∧ t.fld a_PWR_SUPPLY_CNT f_PWR_SUPPLY_CNT_LOW = s.fld a_PWR_SUPPLY_CNT f_PWR_SUPPLY_CNT_LOW) ∧
        (∀ d, d < 16 → ∃ o ∈ t.outbox, o.kind = .quay ∧ o.dest = d ∧ o.data.getD 0 0 = evtHead 12 d 5 ∧ o.data.getD 1 0 = 5) ∧
        ∀ c, c < 156 → coreNo c < 12 → s.actor c = c → s.partOf c < 24 → (s.core c).run = .running → (s.core c).loads = [] →
          (t.core c).run = .halted) ∧
      (6000 < vin → s.supply.high = 20 → st < 2 → Goes (exec (.supplySample vin cur pow rails) s) fun t => s.computeKept t ∧ shown t ∧
        t.fld a f_PWR_SUPPLY_STATE = 1 ∧ Records s t Code.SUPPLY_HIGH 16 31 []) ∧
      (6000 < vin → s.supply.high = 20 → st = 3 ∨ st = 2 ∧ s.supply.good < 99 → Goes (exec (.supplySample vin cur pow rails) s) fun t =>
        s.computeKept t ∧ shown t ∧ t.fld a f_PWR_SUPPLY_STATE = st ∧ Records s t Code.SUPPLY_HIGH 16 31 []) ∧
      (4000 ≤ vin → 99 ≤ s.supply.good → st = 2 → now ≤ s.supply.t0 + 5_020_000 → s.supply.early = false → s.boot.resetWaits = false →
        Goes (exec (.supplySample vin cur pow rails) s) fun t => s.computeKept t ∧ shown t ∧ t.fld a f_PWR_SUPPLY_STATE = 0 ∧
          (∀ d, d < 16 → t.fld (a_PWR_STATUS d) f_PWR_STATUS_BROWNOUT = 0) ∧
          ∀ d, d < 12 → t.fld (a_PWR_STATUS d) f_PWR_STATUS_CLOCK = s.maxClock d)) ∧
    (st = 2 → s.supply.t0 + 5_020_000 ≤ now → Goes (exec .brownoutTimeout s) fun t => s.computeKept t ∧ t.fld a f_PWR_SUPPLY_STATE = 3 ∧
      Records s t Code.SUPPLY_LOST 16 31 [] ∧ t.supply.offAt = some (now + 1_000_000))) ∧
  (∀ (s : State) (die draw : Nat), die < 16 → s.dieUp die = true → s.clockLost.contains die = false → s.refLost = false → draw < 2 ^ 16 →
    let T := s.tideOf die / 10000 * 10000
    let r := s.ramp die
    let top := s.maxClock die
    Tbl.get 0 s.budgetSent die < T → Goes (exec (.budgetSend die draw) s) fun t => s.computeKept t ∧
      t.fld (a_PWR_STATUS die) f_PWR_STATUS_DRAW = draw ∧ Tbl.get 0 t.budgetSent die = T ∧ (t.ramp die).held = false ∧
      (let dem := t.fld (a_PWR_STATUS die) f_PWR_STATUS_DEMAND
       (12 ≤ die → dem = draw) ∧
       (die < 12 → r.clocks ≠ [] → (∀ k ∈ r.clocks, k = top) → draw + 255 < 2 ^ 16 →
         dem = draw + if r.asked then s.fld (a_PWR_RAMP die) f_PWR_RAMP_WINC else 0) ∧
       ∀ d, d < 16 → ∃ o ∈ t.outbox, o.kind = .quay ∧ o.dest = d ∧ o.data.getD 0 0 = evtHead die d 1 ∧ o.data.getD 1 0 = 1 ∧
         (let b := o.data.getD 4 0
          bits b 15 0 = draw ∧ bits b 31 16 = dem ∧ bits b 127 64 = T % 2 ^ 64 ∧
            bits b 48 48 = s.fld (a_PWR_STATUS die) f_PWR_STATUS_THERMAL ∧ bits b 50 50 = b2n r.held))) ∧
  (∀ (s : State) (die : Nat), die < 12 → s.dieUp die = true → s.stopped die = false →
    Tbl.get 0 s.budgetDone die < (s.tideOf die - 5000) / 10000 * 10000 →
    let A := availPower (s.envelope die) (bits (s.report1 die 12) 151 144) ((List.range 4).map fun b => bits (s.report1 die (12 + b)) 15 0)
    let q := allocate A ((List.range 12).map fun d => bits (s.report1 die d) 31 16) ((List.range 12).map s.floorOf)
    let a := a_PWR_BUDGET die
    Goes (exec (.budgetAllocate die) s) fun t => s.computeKept t ∧ t.fld a f_PWR_BUDGET_BUDGET = q.1.getD die 0 % 2 ^ 16 ∧
      t.fld a f_PWR_BUDGET_AVAIL = A % 2 ^ 16 ∧ t.fld a f_PWR_BUDGET_FLOOR = s.floorOf die % 2 ^ 16 ∧
      t.fld (a_PWR_STATUS die) f_PWR_STATUS_FLOORCUT = b2n q.2 ∧ ∀ d, d < 12 → d ≠ die → t.reg (a_PWR_BUDGET d) = s.reg (a_PWR_BUDGET d)) ∧
  (∀ (s : State) (die : Nat), 12 ≤ die → die < 16 → s.dieUp die = true → s.stopped die = false →
    let T := (s.tideOf die - 5000) / 10000 * 10000
    let A := availPower (s.envelope die) (bits (s.report1 die 12) 151 144) ((List.range 4).map fun b => bits (s.report1 die (12 + b)) 15 0)
    Tbl.get 0 s.budgetDone die < T → Goes (exec (.budgetAllocate die) s) fun t => s.computeKept t ∧ Tbl.get 0 t.budgetDone die = T ∧
      (∀ d, d < 12 → t.reg (a_PWR_BUDGET d) = s.reg (a_PWR_BUDGET d)) ∧ ∀ j, j < 3 → let st := 3 * (die - 12) + j
        (t.hbm st).budgetPace = if A ≤ 12 * minBudget then 1 else if 2000 ≤ A then 0 else (s.hbm st).budgetPace) ∧
  (∀ (s : State) (die draw : Nat), die < 12 → s.dieUp die = true → s.stopped die = false →
    let b := s.tideOf die / 2000 * 2000
    let now := s.tideOf die
    let r := s.ramp die
    let a := a_PWR_STATUS die
    let budget := s.fld (a_PWR_BUDGET die) f_PWR_BUDGET_BUDGET
    let due := r.level < 16 ∧ s.rampStalled die = true
    let hot := s.fld a f_PWR_STATUS_THERMAL = 1
    let fast := s.fld a f_PWR_STATUS_RATE = 1
    let held := hot ∨ fast ∨ budget < draw + s.fld (a_PWR_RAMP die) f_PWR_RAMP_WINC
    let idle := r.idle (s.fld (a_PWR_RAMP die) f_PWR_RAMP_HOLD) now
    let n := a_PWR_RAMP_CNT die
    r.last < b → r.prewarms = [] → Goes (exec (.waveBoundary die draw) s) fun t => s.computeKept t ∧ (t.ramp die).last = b ∧
      (due → ¬ held → (t.ramp die).level = r.level + 1 ∧
        t.fld n f_PWR_RAMP_CNT_WAVES = (s.fld n f_PWR_RAMP_CNT_WAVES + 1) % 2 ^ f_PWR_RAMP_CNT_WAVES.width ∧
        (∀ x ∈ r.slots, x ∈ (t.ramp die).slots) ∧ ((r.slots.map (·.slot)).Nodup → (∀ x ∈ r.slots, x.slot < 52) →
          r.slots.length + waveSlots (r.level + 1) ≤ 52 → (t.ramp die).slots.length = r.slots.length + waveSlots (r.level + 1))) ∧
      (due → held → (t.ramp die).level = r.level ∧ (t.ramp die).slots = r.slots ∧
        t.fld n f_PWR_RAMP_CNT_HELD = min (s.fld n f_PWR_RAMP_CNT_HELD + 1) (2 ^ f_PWR_RAMP_CNT_HELD.width - 1) ∧
        t.fld (a_PWR_RAMP die) f_PWR_RAMP_HREASON = if s.fld a f_PWR_STATUS_THERMAL = 1 then 2 else if s.fld a f_PWR_STATUS_RATE = 1 then 3 else 1) ∧
      (¬ due → (1 ≤ r.level → waveSlots r.level ≤ idle.length → r.keep ≤ now → (t.ramp die).level = r.level - 1) ∧
        (r.level = 0 ∨ idle.length < waveSlots r.level ∨ now < r.keep ∧ r.level ≤ 16 → (t.ramp die).level = r.level ∧
          (t.ramp die).slots = r.slots)) ∧
      t.fld a f_PWR_STATUS_CLOCK =
        (if hot ∨ budget < draw then max 16 (s.fld a f_PWR_STATUS_CLOCK - 2)
         else if 20 * draw < 19 * budget ∧ ¬ fast then min (s.maxClock die) (s.fld a f_PWR_STATUS_CLOCK + 1) else s.fld a f_PWR_STATUS_CLOCK)) ∧
  (∀ (s : State) (die : Nat) (temp rise : Int) (volt : Nat), die < 16 → s.dieUp die = true → -2048 ≤ temp → temp < 2048 → volt < 2 ^ 16 →
    let th := a_PWR_THERM die
    let trip := (s.fld th f_PWR_THERM_TRIP : Int) ≤ temp ∧ s.clockLost.contains die = false
    (¬ trip → Goes (exec (.tempSample die temp rise volt) s) fun t => s.computeKept t ∧
      t.fld (a_PWR_SENSE die) f_PWR_SENSE_TEMP = unsigned 16 temp ∧ t.fld (a_PWR_SENSE die) f_PWR_SENSE_VOLT = volt ∧
      ((s.fld th f_PWR_THERM_THROTTLE : Int) ≤ temp → t.fld (a_PWR_STATUS die) f_PWR_STATUS_THERMAL = 1 ∧
        (s.hot.contains die = false → die < 12 ∨ rise ≤ 24 → Records s t Code.THERMAL_THROTTLE die 31 [unsigned 16 temp, 2]) ∧
        (12 ≤ die → ∀ j, j < 3 → t.fld (a_PWR_STATUS (3 * (die - 12) + j)) f_PWR_STATUS_THERMAL = 1)) ∧
      (temp < (s.fld th f_PWR_THERM_THROTTLE : Int) → temp < (s.fld th f_PWR_THERM_CLEAR : Int) →
        (die < 12 → s.hot.contains (baseOf die) = false) → t.fld (a_PWR_STATUS die) f_PWR_STATUS_THERMAL = 0)) ∧
    (trip → Goes (exec (.tempSample die temp rise volt) s) fun t => t.mem = s.mem ∧ t.clockLost.contains die = true ∧
      ∃ x, t.recs.last.getLast? = some x ∧ x.code = Code.THERMAL_TRIP ∧ x.die = die)) ∧
  ∀ (s : State) (die g : Nat), die < 16 → g < 16 → hasGroup die g = true →
    let a := a_CLK_XSTAT die g
    let x := a_CLK_XCFG die g
    let since (t : State) : Option Nat := Tbl.get none t.crossStops (die * 16 + g)
    (s.fld a f_CLK_XSTAT_STOPPED = 0 → Goes (exec (.crossingClockStop die g) s) fun t => s.computeKept t ∧ t.fld a f_CLK_XSTAT_STOPPED = 1 ∧
      t.fld a f_CLK_XSTAT_STOPS = min (s.fld a f_CLK_XSTAT_STOPS + 1) (2 ^ f_CLK_XSTAT_STOPS.width - 1) ∧ since t = some (s.tideOf die)) ∧
    (Goes (exec (.crossingClockReturn die g) s) fun t => s.computeKept t ∧ t.fld a f_CLK_XSTAT_STOPPED = 0 ∧ since t = none) ∧
    ∀ w, since s = some w →
      (s.fld x f_CLK_XCFG_MODE = 0 ∨ s.tideOf die ≤ w + s.fld x f_CLK_XCFG_TIMEOUT * 1000 → exec (.crossingTimeout die g) s = .next s) ∧
      (s.fld x f_CLK_XCFG_MODE ≠ 0 → w + s.fld x f_CLK_XCFG_TIMEOUT * 1000 < s.tideOf die → Goes (exec (.crossingTimeout die g) s) fun t =>
        ((g = 7 → ∀ n, n < 64 → (s.qp n).jobs = []) → t.mem = s.mem) ∧ (g ≠ 0 → g ≠ 7 → t.presses = s.presses) ∧ since t = none ∧
        (∃ y, t.recs.last.getLast? = some y ∧ y.code = Code.CROSSING_TIMEOUT ∧ y.die = die ∧ y.body = argBody [g]) ∧
        t.fld a f_CLK_XSTAT_TIMEOUTS = min (s.fld a f_CLK_XSTAT_TIMEOUTS + 1) (2 ^ f_CLK_XSTAT_TIMEOUTS.width - 1) ∧
        (g = 0 → ∀ c, c < 156 → coreDie c = die → (∃ e ∈ (s.core c).loads, e.data = none ∧ isGalley e.addr = true) →
          (s.core c).tstatus.getLsbD 3 = false → (t.core c).tcause = BitVec.ofNat 64 Code.CROSSING_TIMEOUT ∧
          (t.core c).tepc = (s.core c).pc ∧ (t.core c).pc = (s.core c).tvec) ∧
        (g = 3 → ∀ r ∈ Tbl.get [] t.quay die, r.hbmLines.isEmpty = true ∨ r ∉ Tbl.get [] s.quay die) ∧
        (g = 5 → t.cores = s.cores ∧ ∀ l, 96 * (die - 12) ≤ l → l < 96 * (die - 12) + 96 → (t.lane l).tx = none) ∧
        (g = 6 → t.hostReads = []) ∧ (g = 7 → t.ethHeld = []) ∧ (g = 9 → t.cores = s.cores ∧ t.uartRx = [] ∧ t.uart.tx = []))

/-- Start-up (R528 to R540). What HBM holds after a cold reset is free (log entry 5); the clocks and the order of steps are those of log
entry 19. -/
def Obligations.StartUp : Prop :=
  let boot := a_MGMT_BOOT
  let step (t : State) : Nat := t.fld boot f_MGMT_BOOT_STEP
  let held (t : State) (code : Nat) : Prop := t.fld boot f_MGMT_BOOT_HOLD = 1 ∧ t.fld boot f_MGMT_BOOT_CODE = code
  (∀ (s : State) (power : Bool),
    (s.off = power → (power = false → s.brownout = false) → Goes (exec (.coldReset power) s) fun t =>
      t.off = false ∧ t.cores = [] ∧ t.presses = [] ∧ t.marks = [] ∧ t.tide = [] ∧ t.journal = [] ∧ t.recs = RecState.init ∧
        t.released = false ∧ t.flash = s.flash ∧ t.tap = s.tap ∧ t.flashQuar = s.storedQuar ∧ t.pending = s.pending ∧
        t.modPg = (power || s.modPg) ∧
        (∀ a, isHbm a = false → Tbl.get 0 t.mem a = 0) ∧
        (∀ a, a ≠ a_MGMT_SEC → (∀ st n, st < 12 → n < 8 → a ≠ a_HBM_REPAIR (stackBase st) (stackWin st) n) → t.reg a = State.reset.reg a) ∧
        (∀ st n, st < 12 → n < 8 → t.reg (a_HBM_REPAIR (stackBase st) (stackWin st) n) = s.reg (a_HBM_REPAIR (stackBase st) (stackWin st) n)) ∧
        t.fld a_MGMT_SEC f_MGMT_SEC_SVN = s.fld a_MGMT_SEC f_MGMT_SEC_SVN ∧
        ∀ p ∈ [(12, 3), (14, 3), (12, 4), (13, 4)], s.linkState p.1 p.2 = 5 → bridgeNo p.1 p.2 ∈ t.broken) ∧
    (s.off = false → s.brownout = true → exec (.coldReset false) s = .next { s with boot := { s.boot with resetWaits := true } }) ∧
    (s.off ≠ power → exec (.coldReset power) s = .next s)) ∧
  (∀ (s : State) (v w : Nat),
    let now := s.tideOf 12
    let shows (t : State) (x : Nat) : Prop := t.fld a_MGMT_STRAP f_MGMT_STRAP_SLOT = bits x 7 4 ∧
      t.fld a_MGMT_STRAP f_MGMT_STRAP_BOOT = bits x 3 3 ∧ t.fld a_MGMT_STRAP f_MGMT_STRAP_ROLE = bits x 1 0
    (s.inStep 1 = true → 100_000 ≤ s.boot.age → s.pllUp = true → s.refLost = false → Goes (exec (.strapSample v) s) fun t => s.computeKept t ∧ step t = 2 ∧
      t.boot.sample = some (strapBits v) ∧ t.outbox = s.outbox ++ [⟨.uart, 0, [2, 0]⟩]) ∧
    (s.inStep 1 = true → s.boot.age < 100_000 ∨ s.pllUp = false → exec (.strapSample v) s = .next s) ∧
    (∀ u, s.inStep 2 = true → 110_000 ≤ s.boot.age → s.boot.again = none → s.boot.sample = some u →
      (u = strapBits v → Goes (exec (.strapSample v) s) fun t => s.computeKept t ∧ step t = 3 ∧ shows t v ∧
        t.outbox = s.outbox ++ [⟨.uart, 0, [3, 0]⟩]) ∧
      (u ≠ strapBits v → Goes (exec (.strapSample v) s) fun t => s.computeKept t ∧ step t = 2 ∧
        t.fld boot f_MGMT_BOOT_CODE = Code.STRAP_INVALID ∧ t.fld boot f_MGMT_BOOT_HOLD = 0 ∧ t.boot.again = some now)) ∧
    ∀ t0, s.boot.again = some t0 → s.inStep 2 = true → t0 + 10_000_000 ≤ now →
      (strapBits v = strapBits w → Goes (exec (.strapResample v w) s) fun t => s.computeKept t ∧ step t = 3 ∧ shows t v) ∧
      (strapBits v ≠ strapBits w → exec (.strapResample v w) s = .next { s with boot := { s.boot with again := some now } })) ∧
  (∀ (s : State) (slotA slotB : Option Nat) (key : Bool), s.inStep 3 = true →
    let first := 1 - s.fld a_MGMT_STRAP f_MGMT_STRAP_BOOT
    let svn (n : Nat) : Option Nat := if n = 0 then slotA else slotB
    let good (n : Nat) : Prop := ∃ x, svn n = some x ∧ s.fld a_MGMT_SEC f_MGMT_SEC_SVN ≤ x
    let runs (t : State) (n : Nat) : Prop := step t = 4 ∧ t.fld a_MGMT_FW f_MGMT_FW_SLOT = n ∧
      ∀ x, svn n = some x → t.fld a_MGMT_FW f_MGMT_FW_SVN = x % 2 ^ 16
    Goes (exec (.bootVerify slotA slotB key) s) fun t => s.computeKept t ∧ t.boot.keyBad = !key ∧
      (good first → runs t first) ∧ (¬ good first → good (1 - first) → runs t (1 - first)) ∧
      (¬ good first → ¬ good (1 - first) → step t = 3 ∧ held t Code.BOOT_IMAGE_BAD ∧ t.recs.seq = s.recs.seq + 2)) ∧
  (∀ (s : State) (pilot micro : Bool) (sts bridges : Nat), s.inStep 4 = true →
    (pilot = false ∨ micro = false → Goes (exec (.mgmtFirmwareStart pilot micro sts bridges) s) fun t => s.computeKept t ∧ step t = 4 ∧
      held t Code.FIRMWARE_BAD_SIGNATURE ∧ Records s t Code.FIRMWARE_BAD_SIGNATURE 12 31 [] ∧ t.released = s.released) ∧
    (pilot = true → micro = true → s.broken = [] → bridges = 0 → Goes (exec (.mgmtFirmwareStart pilot micro sts bridges) s) fun t =>
      let r := s.flashBytes 0x1D0_0000 512
      s.computeKept t ∧ step t = 5 ∧ t.released = true ∧
      (∀ d, d < 16 → t.reg (a_CLK_STATUS d) = BitVec.ofNat 64 (clocksUp d)) ∧
      (∀ d, d < 12 → bit sts d = false → t.linkState d 0 = if s.linkDisabled d 0 then 4 else 2) ∧
      (∀ d, d < 12 → bit sts d = true → s.linkState d 0 ≠ 5 → d ∈ t.lost ∧ t.linkState d 0 = 5) ∧
      (recordGood r = true → ∀ b ∈ baseDies, t.fld (a_RTR_NODE b) f_RTR_NODE_NODE =
        (16 * srNum r 8 1 + s.fld a_MGMT_STRAP f_MGMT_STRAP_SLOT) % 2 ^ 12) ∧
      (recordGood r = true → t.fld (a_TIDE_CTL 12) f_TIDE_CTL_ROOT = bits (srFlags r) 1 1 ∧ t.fld (a_TIDE_CTL 12) f_TIDE_CTL_PARENT = srParent r ∧
        ∀ st, st < 12 → t.fld (a_HBM_CFG (stackBase st) (stackWin st)) f_HBM_CFG_RATE_CAP = bits (srNum r 0xC 3) (2 * st + 1) (2 * st)) ∧
      (recordGood r = false → (∀ b ∈ baseDies, t.fld (a_RTR_NODE b) f_RTR_NODE_NODE = s.fld a_MGMT_STRAP f_MGMT_STRAP_SLOT) ∧
        (∀ p, p < 32 → t.fld (a_port p) f_PHX_PORT_DISABLE = 1) ∧
        ∃ x, t.recs.last.getLast? = some x ∧ x.code = Code.BOOT_IMAGE_BAD ∧ x.die = 12 ∧ x.body = argBody [2]))) ∧
  (∀ (s : State) (x : SelfFail), s.inStep 5 = true → s.broken.length < 2 →
    let zeroed (t : State) : Prop := (∀ a, isHbm a = false → Tbl.get 0 t.mem a = 0) ∧ (∀ a, isHbm a = true → Tbl.get 0 t.mem a = Tbl.get 0 s.mem a) ∧
      (∀ c, (t.core c).pmem = []) ∧ ∀ c, (t.press c).sticks = [] ∧ (t.press c).csticks = []
    (Goes (exec (.selfTest []) s) fun t => zeroed t ∧ step t = 6 ∧ t.recs = s.recs ∧ t.outbox = s.outbox ++ [⟨.uart, 0, [6, 0]⟩] ∧
      ∀ st, st < 12 → t.fld (a_HBM_STACK_STATUS (stackBase st) (stackWin st)) f_HBM_STACK_STATUS_STATE = 1 ∧
        ∀ c, c < 32 → t.fld (a_chan st c) f_HBM_CH_STATUS_STATE = 1) ∧
    (1 ≤ x.row → x.row ≤ 2 → Goes (exec (.selfTest [x]) s) fun t => zeroed t ∧ step t = 5 ∧ held t Code.SELFTEST_FAIL ∧
      Records s t Code.SELFTEST_FAIL x.die 31 [x.row, 0xF, x.addr]) ∧
    (x.row = 4 → x.ukind < 4 → x.die < 12 → x.core < 13 → (s.unit (unitId x.ukind x.die x.core x.sub)).quarantined = false →
      Goes (exec (.selfTest [x]) s) fun t => zeroed t ∧ step t = 6 ∧ t.fld boot f_MGMT_BOOT_CODE = Code.SELFTEST_FAIL ∧
        Records s t Code.SELFTEST_FAIL x.die 31 [4, x.ukind, x.addr] ∧ (t.core (13 * x.die + x.core)).run = .retired ∧
        (t.unit (unitId x.ukind x.die x.core x.sub)).quarantined = true)) ∧
  (∀ (s : State) (l : List StackBoot), l.length = 12 → (∃ n, 6 ≤ n ∧ n < 10 ∧ s.inStep n = true) → s.boot.hbmDone = false →
    Goes (exec (.startupHbm l) s) fun t => s.computeKept t ∧ t.boot.hbmDone = true ∧
      step t = (if s.mgr.settled = true ∧ 8 ≤ step s then 0xA else step s) ∧
      ∀ st x, l[st]? = some x →
        let a := a_HBM_STACK_STATUS (stackBase st) (stackWin st)
        (x.organised = false → t.fld a f_HBM_STACK_STATUS_STATE = 4 ∧ ∀ c, c < 32 → t.fld (a_chan st c) f_HBM_CH_STATUS_STATE = 0) ∧
        (x.organised = true → bit s.boot.flags 3 = false →
          let r := bootRate x (s.fld (a_HBM_CFG (stackBase st) (stackWin st)) f_HBM_CFG_RATE_CAP)
          t.fld a f_HBM_STACK_STATUS_RATE = r ∧
            (t.fld a f_HBM_STACK_STATUS_STATE = if (List.range 32).any (fun c => bit (bootFailed x r) c) then 3 else 2) ∧
            ∀ c, c < 32 → t.fld (a_chan st c) f_HBM_CH_STATUS_STATE = if bit (bootFailed x r) c then 5 else 2)) ∧
  ∀ (s : State) (st : Nat), s.inStep 0xA = true → bit s.boot.flags 0 = true → s.boot.auto = false → s.servoSt = 2 ∨ s.rootReady = true →
    s.loaderOpen = true → s.topStack = some st →
    let a := (st + 1) * 2 ^ 36 - 2 ^ 20
    (s.rangeOpen 12 true a (2 ^ 20) = false → Goes (exec .autostart s) fun t => s.computeKept t ∧ t.boot = s.boot ∧ t.loader = s.loader) ∧
    (s.rangeOpen 12 true a (2 ^ 20) = true → s.hbmDown a (2 ^ 20) = false → Goes (exec .autostart s) fun t =>
      t.boot.auto = true ∧ t.cores = s.cores ∧ t.presses = s.presses ∧ t.fld a_IMPO_SRC f_IMPO_SRC_ADDR = a ∧
        ∀ b, Tbl.get 0 t.mem b = if a ≤ b ∧ b < a + 2 ^ 20 then s.flashByte (0x1C0_0000 + (b - a)) else Tbl.get 0 s.mem b)

/-- The PCIe endpoint (R477 to R487, R510). What of a request is no legal PCIe, and how records dropped are counted for the overrun record, are
the choices of log entry 21. -/
def Obligations.HostAccesses : Prop :=
  (∀ (s : State) (bar off len tag : Nat) (data : List Byte),
    let faulted (t : State) : Prop := s.computeKept t ∧ t.quay = s.quay ∧ t.fld a_PCIE_ERRCNT f_PCIE_ERRCNT_HOSTFAULT =
      min (s.fld a_PCIE_ERRCNT f_PCIE_ERRCNT_HOSTFAULT + 1) (2 ^ f_PCIE_ERRCNT_HOSTFAULT.width - 1)
    let goes (t : State) (a : Nat) (r : MemReq) : Prop := t = { s with quay := t.quay } ∧
      ∀ d, Tbl.get [] t.quay d = if d = addrDie a then Tbl.get [] s.quay d ++ r.packets else Tbl.get [] s.quay d
    let reaches (n : Nat) (a : Nat) : Prop := (bar = 2 ∧ off + n ≤ 0xC000_0000 ∧ a = 0xE0_0000_0000 + off) ∨
      (bar = 4 ∧ off + n ≤ 0xC0_0000_0000 ∧ a = off)
    let nowhere (n : Nat) : Prop := (bar = 2 ∨ bar = 4) ∧ ∀ a, reaches n a → s.hostReach a = false
    let a0 := 0xF0_0000_0000 + off
    let gone (l : List RegCmd) (t : State) : Prop := t = { s with gathered := s.gathered ++ l, outbox := t.outbox }
    let tells (t : State) (v : Nat) : Prop := t.outbox = s.outbox ++ [⟨.hostCompletion, tag, [0, v]⟩]
    let open_ := s.wayOpen .pcie a0 = true ∧ ∀ y ∈ s.regReads, regDie y.addr ≠ regDie a0
    (off + 8 ≤ 0x10_0000_0000 → s.noDie a0 = false → off % 8 = 0 →
      (open_ → ¬ isFlits a0 →
        (Goes (exec (.hostMemoryRead 0 off 8 tag) s) fun t => t = { s with regs := t.regs, unread := t.unread, outbox := t.outbox } ∧
          s.onlyFlits t ∧ tells t (s.readReg a0).toNat) ∧
        (Goes (exec (.hostMemoryRead 0 off 4 tag) s) fun t => s.computeKept t ∧ s.onlyFlits t ∧ tells t ((s.readReg a0).toNat % 2 ^ 32))) ∧
      (¬ open_ → exec (.hostMemoryRead 0 off 8 tag) s = .next { s with regReads := s.regReads ++ [⟨.pcie tag, a0, 8⟩] }) ∧
      (data.length = 8 → Goes (exec (.hostMemoryWrite 0 off data) s) fun t =>
        gone [⟨.pcie, a0, true, true, BitVec.ofNat 64 (natLE data)⟩] t ∧ t.outbox = s.outbox)) ∧
    (0 < len → len ≤ 4096 → off % 4096 + len ≤ 4096 → off + len ≤ 0x10_0000_0000 → s.noDie a0 = false →
      ¬ (len = 8 ∧ off % 8 = 0) → ¬ (len = 4 ∧ off % 4 = 0) →
      Goes (exec (.hostMemoryRead 0 off len tag) s) fun t => gone [⟨.pcie, a0, false, false, 0⟩] t ∧ tells t (2 ^ (8 * len) - 1)) ∧
    (0 < len → len ≤ 4096 → off % 4096 + len ≤ 4096 → off + len ≤ 0x10_0000_0000 → s.noDie a0 = true →
      Goes (exec (.hostMemoryRead 0 off len tag) s) fun t => faulted t ∧
        t.outbox.getLast? = some ⟨.hostCompletion, tag, [Code.HOST_WINDOW_FAULT, 0]⟩) ∧
    (len ≤ 4096 → off % 4096 + len ≤ 4096 →
      (∀ a, reaches len a → s.hostReach a = true → Goes (exec (.hostMemoryRead bar off len tag) s) fun t =>
        goes t a ⟨12, 31, .pcie tag, a, len, none⟩) ∧
      (nowhere len → Goes (exec (.hostMemoryRead bar off len tag) s) fun t => faulted t ∧
        t.outbox.getLast? = some ⟨.hostCompletion, tag, [Code.HOST_WINDOW_FAULT, 0]⟩)) ∧
    (data.length ≤ 512 → off % 4096 + data.length ≤ 4096 →
      (∀ a, reaches data.length a → s.hostReach a = true → Goes (exec (.hostMemoryWrite bar off data) s) fun t =>
        goes t a ⟨12, 31, .pcie 0, a, data.length, some data⟩) ∧
      (nowhere data.length → Goes (exec (.hostMemoryWrite bar off data) s) fun t => faulted t)) ∧
    (Goes (exec (.hostMemoryRead 8 0 4 tag) s) fun t => t = { s with outbox := t.outbox } ∧ tells t 0x4712_1F6E) ∧
    Goes (exec (.hostMemoryWrite 8 68 [3, 0, 0, 0]) s) fun t => t = { s with pcie := t.pcie } ∧
      (t.pcie.d3hot = true ↔ s.pcie.d3hot = true ∨ ∀ p, p < 24 → s.pstate p ≠ 2)) ∧
  (∀ (s : State) (tag off c rid : Nat) (r : Request) (data : List Byte), s.hostRequest tag = some (c, rid, r) → c < 156 →
    r.quiet = false → r.ghost = false → r.fail = none → s.logical c = tag / 256 →
    let a := bits r.desc 175 128 + off
    let summed (key : Word) (old : Nat) : Nat := (old + (contentTally key (off / 8) (wordsLE ((data.length + 7) / 8) data)).toNat) % 2 ^ 64
    let r1 := { r with
      acked := r.acked + data.length
      own := if r.tallied then summed (s.ltrKey c) r.own else 0
      theirs := if r.tallied then summed (s.reg (a_CHK_PKEY 12 (s.partOf c))) r.theirs else 0 }
    let faults (t : State) (unit : Nat) : Prop := t.mem = s.mem ∧ t.presses = s.presses ∧ t.request c rid = none ∧
      (∀ y ∈ t.hostReads, y.tag ≠ tag) ∧
      s.lighterErred t c (s.core c) r.desc Code.HOST_WINDOW_FAULT unit (targetOf r.desc) ∧
      t.fld a_PCIE_ERRCNT f_PCIE_ERRCNT_HOSTFAULT =
        min (s.fld a_PCIE_ERRCNT f_PCIE_ERRCNT_HOSTFAULT + 1) (2 ^ f_PCIE_ERRCNT_HOSTFAULT.width - 1)
    (isGalley a = true → inGalley (galleyDie a) a data.length = true → s.noMarks a data.length →
      Goes (exec (.hostWindowCompletion tag off data true) s) fun t =>
        t.bytes a data.length = data ∧ (∀ x, x < a ∨ a + data.length ≤ x → t.byte x = s.byte x) ∧ t.presses = s.presses ∧
        (r.acked + data.length < r.total → t.request c rid = some r1 ∧ (∀ y ∈ t.hostReads, ∃ x ∈ s.hostReads, x.tag = y.tag ∧ x.off = y.off)) ∧
        (r.total ≤ r.acked + data.length → ((rcvOf r.desc).on = false → t.request c rid = none) ∧ (∀ y ∈ t.hostReads, y.tag ≠ tag) ∧
          (hdOp r.desc = 1 → r1.own ≠ r1.theirs → s.lighterErred t c (s.core c) r.desc Code.TALLY_MISMATCH 0 (targetOf r.desc)) ∧
          (r1.own = r1.theirs → (rcvOf r.desc).on = false → (t.core c).tokens = ((s.core c).raise (hdRaise r.desc)).tokens))) ∧
    (isHbm a = true → data.length ≤ 256 → r.acked < r.total → Goes (exec (.hostWindowCompletion tag off data true) s) fun t =>
      t.mem = s.mem ∧ t.request c rid = some { r1 with acked := r.acked } ∧ t.cores = s.cores ∧
      Tbl.get [] t.quay (homeOf a) = Tbl.get [] s.quay (homeOf a) ++
        [⟨coreDie c, s.partOf c, .lighter (s.logical c) rid data.length off, a, data.length, some data⟩]) ∧
    (off < 2 ^ 32 → Goes (exec (.hostWindowCompletion tag off data false) s) fun t => faults t off) ∧
    let late (x : HostRead) : Prop := x.tag = tag ∧ ∃ t0, x.sent = some t0 ∧ t0 + 50_000_000 ≤ s.tideOf 12
    ((∀ x ∈ s.hostReads, ¬ late x) → exec (.hostCompletionTimeout tag) s = .next s) ∧
    ((∃ x ∈ s.hostReads, late x) → (∀ x ∈ s.hostReads, x.off < 2 ^ 32) → ∃ x ∈ s.hostReads, late x ∧
      Goes (exec (.hostCompletionTimeout tag) s) fun t => faults t x.off)) ∧
  (∀ s : State, Goes (exec .functionLevelReset s) fun t => t.mem = s.mem ∧ t.presses = s.presses ∧
    t.fld a_PCIE_RING_CTL f_PCIE_RING_CTL_EN = 0 ∧ t.fld a_PCIE_STATUS f_PCIE_STATUS_MPS = 0 ∧ t.hostReads = [] ∧ t.pcie = PcieFn.init ∧
    ∀ y ∈ s.hostReads, ∀ c rid r, s.hostRequest y.tag = some (c, rid, r) → t.request c rid = none) ∧
  (∀ s : State,
    let log := s.fld a_PCIE_RING_CTL f_PCIE_RING_CTL_LOG2SIZE
    let tail := s.fld a_PCIE_RING_TAIL f_PCIE_RING_TAIL_TAIL
    let head := s.fld a_PCIE_RING_HEAD f_PCIE_RING_HEAD_HEAD
    let slot := s.fld a_PCIE_RING_BASE f_PCIE_RING_BASE_BASE * 4096 + 128 * (tail % 2 ^ log)
    let phase := decide (tail / 2 ^ log % 2 = 0)
    let used := (tail + 2 ^ 32 - head) % 2 ^ 32
    let en := s.fld a_PCIE_RING_CTL f_PCIE_RING_CTL_EN
    let wrote (t : State) (r : StatusRec) : Prop := s.computeKept t ∧
      t.fld a_PCIE_RING_TAIL f_PCIE_RING_TAIL_TAIL = (tail + 1) % 2 ^ 32 ∧ ∃ sent, t.outbox = s.outbox ++ sent ++
        [⟨.hostWrite, slot, ((r.bytes phase).map BitVec.toNat).take 120⟩, ⟨.hostWrite, slot + 120, ((r.bytes phase).map BitVec.toNat).drop 120⟩]
    (en = 0 ∨ 2 ^ log ≤ used → exec .statusRecordWrite s = .next s) ∧
    (en = 1 → used < 2 ^ log →
      (s.recs.dropped = 0 → s.recs.buf = [] → exec .statusRecordWrite s = .next s) ∧
      (∀ r rest, s.recs.dropped = 0 → s.recs.buf = r :: rest → Goes (exec .statusRecordWrite s) fun t =>
        wrote t { r with lostBefore := s.recs.markNext } ∧ t.recs.buf = rest ∧ t.recs.markNext = false) ∧
      (s.recs.dropped ≠ 0 → Goes (exec .statusRecordWrite s) fun t =>
        Records s t Code.STATUS_RING_OVERRUN 16 31 [s.recs.dropped] ∧ (∃ r, t.recs.last.getLast? = some r ∧ wrote t r) ∧
          t.recs.dropped = 0 ∧ t.recs.markNext = true ∧ t.recs.buf = s.recs.buf)) ∧
    ∀ h, ((h % 2 ^ 32 + 2 ^ 32 - head) % 2 ^ 32 ≤ used → Goes (exec (.pcieRingHead h) s) fun t => t = { s with regs := t.regs } ∧
        t.fld a_PCIE_RING_HEAD f_PCIE_RING_HEAD_HEAD = h % 2 ^ 32 ∧ s.onlyRegs t [a_PCIE_RING_HEAD]) ∧
      (used < (h % 2 ^ 32 + 2 ^ 32 - head) % 2 ^ 32 → Goes (exec (.pcieRingHead h) s) fun t => s.computeKept t ∧
        t.fld a_PCIE_RING_HEAD f_PCIE_RING_HEAD_HEAD = head ∧ t.fld a_PCIE_ERRCNT f_PCIE_ERRCNT_DOORBELL =
          min (s.fld a_PCIE_ERRCNT f_PCIE_ERRCNT_DOORBELL + 1) (2 ^ f_PCIE_ERRCNT_DOORBELL.width - 1))) ∧
  (∀ (s : State) (dp : Nat) (leaders : List Nat) (jobs : List JobMark),
    let passed (t : State) (d : Nat) : Prop := t.mem = s.mem ∧ t.presses = s.presses ∧
      (∀ n ∈ leaders, n ≠ s.nodeId → s.told t n 0x11 (bytesLE 16 (5 + d % 2 ^ 64 * 2 ^ 64))) ∧
      ∀ j ∈ jobs, ∃ p ∈ t.preempts, p.job = j ∧ p.deadline = d % 2 ^ 64 ∧ p.notice = s.tideOf j.die ∧ p.past = false
    Goes (exec (.pciePreempt (some dp) leaders jobs) s) (fun t => passed t dp) ∧
    (∀ d rest, s.preemptDps = d :: rest → Goes (exec (.pciePreempt none leaders jobs) s) fun t => passed t d ∧ t.preemptDps = rest)) ∧
  (∀ (s : State) (src : Source) (log : Nat), s.fld a_PCIE_RING_CTL f_PCIE_RING_CTL_EN = 0 →
    let l := log % 32
    (6 ≤ l → l ≤ 16 → AcceptsOnly s src (cmdRingEnable log) [a_PCIE_RING_CTL, a_PCIE_RING_HEAD] (exec (.ringEnable src log) s) fun t =>
      s.computeKept t ∧ t.fld a_PCIE_RING_CTL f_PCIE_RING_CTL_EN = 1 ∧ t.fld a_PCIE_RING_CTL f_PCIE_RING_CTL_LOG2SIZE = l ∧
        t.fld a_PCIE_RING_TAIL f_PCIE_RING_TAIL_TAIL = 0 ∧ t.fld a_PCIE_RING_HEAD f_PCIE_RING_HEAD_HEAD = 0) ∧
    (l < 6 ∨ 16 < l → s.alone = true → s.wayOpen src a_PCIE_RING_CTL = true → s.commandCode src (cmdRingEnable log) = 0 → Goes (exec (.ringEnable src log) s) fun t => s.computeKept t ∧
      t.reg a_PCIE_RING_CTL = s.reg a_PCIE_RING_CTL ∧
      ∃ e, Tbl.find t.journal (s.jseq % 4096) = some e ∧ e.addr = a_PCIE_RING_CTL ∧ e.code = Code.BAD_REG_ACCESS)) ∧
  ∀ (s : State) (state width speed mps : Nat) (flit : Bool), state < 8 → width < 32 → speed < 8 → mps < 16 →
    Goes (exec (.pcieLinkReset state width speed mps flit) s) fun t => t = { s with regs := t.regs } ∧ s.onlyRegs t [a_PCIE_STATUS] ∧
      t.fld a_PCIE_STATUS f_PCIE_STATUS_STATE = state ∧ t.fld a_PCIE_STATUS f_PCIE_STATUS_WIDTH = width ∧
      t.fld a_PCIE_STATUS f_PCIE_STATUS_SPEED = speed ∧ t.fld a_PCIE_STATUS f_PCIE_STATUS_MPS = mps ∧
      t.fld a_PCIE_STATUS f_PCIE_STATUS_FLIT = b2n flit

/-- Ethernet, RoCEv2 and PTP (R488 to R495, R511). The NAK kinds, one NAK for a run of packets out of order, and four Syncs in a row are the
choices of log entry 22. -/
def Obligations.Ethernet : Prop :=
  let cnt (t : State) (k i : Nat) : Nat := t.fld (a_ETH_CNT k i) f_ETH_CNT_COUNT
  let apart (x n y m : Nat) : Prop := x + n ≤ y ∨ y + m ≤ x
  (∀ (s : State) (k : Nat), k < 2 →
    (s.ethSt k = 1 → Goes (exec (.ethLinkDown k) s) fun t => s.computeKept t ∧ t.ethSt k = 0 ∧ Records s t Code.ETH_LINK_DOWN 12 31 []) ∧
    (s.ethSt k ≠ 1 → exec (.ethLinkDown k) s = .next s) ∧
    (s.ethSt k = 0 → Goes (exec (.ethLinkUp k) s) fun t => t = { s with regs := t.regs } ∧ t.ethSt k = 1 ∧ s.onlyRegs t [a_ETH_PORT k 0]) ∧
    (s.ethSt k = 1 →
      let a := s.fld (a_ETH_PORT k 1) f_ETH_PORT_IP4
      let b := (s.reg (a_ETH_PORT k 2)).toNat + (s.reg (a_ETH_PORT k 3)).toNat * 2 ^ 64
      let mac := s.fld (a_ETH_PORT k 0) f_ETH_PORT_MAC_0 + s.fld (a_ETH_PORT k 1) f_ETH_PORT_MAC_1 * 2 ^ 16
      let answers (t : State) (v6 : Bool) (target : Nat) (d : List Nat) : Prop := s.computeKept t ∧ cnt t k 1 = (cnt s k 1 + 1) % 2 ^ 64 ∧
        s.onlyRegs t [a_ETH_CNT k 0, a_ETH_CNT k 1] ∧
        t.outbox = if s.fld (a_ETH_PORT k 0) f_ETH_PORT_DISABLE = 0 ∧ target ≠ 0 ∧ target = (if v6 then b else a) then
          s.outbox ++ [⟨.eth, k, d⟩] else s.outbox
      (∀ v6 target asker, Goes (exec (.arpRequest k v6 target asker) s) fun t => answers t v6 target [5, b2n v6, target, mac, asker]) ∧
      (∀ v6 target asker data, (data.length ≤ 9000 → Goes (exec (.icmpEchoRequest k v6 target asker data) s) fun t =>
          answers t v6 target ([6, b2n v6, target, asker] ++ data.map BitVec.toNat)) ∧
        (9216 < data.length → Goes (exec (.icmpEchoRequest k v6 target asker data) s) fun t => t = { s with regs := t.regs } ∧
          cnt t k 3 = (cnt s k 3 + 1) % 2 ^ 64)) ∧
      ∀ prio q, Goes (exec (.priorityFlowControl k prio q) s) fun t => s.computeKept t ∧ cnt t k 1 = (cnt s k 1 + 1) % 2 ^ 64 ∧
        Tbl.get 0 t.ethPause k = if s.fld (a_ETH_PORT k 0) f_ETH_PORT_PFC = 1 ∧ s.fld (a_ETH_PORT k 0) f_ETH_PORT_PRIO = prio
          then s.tideOf 12 + (q % 2 ^ 16 * 128 + 99) / 100 else Tbl.get 0 s.ethPause k)) ∧
  (∀ (s : State) (n : Nat), n < 64 →
    let q := s.qp n
    let k := s.qpPort n
    let dqp := s.qpBits n 383 360
    let live := s.qpReady n = true ∧ s.ethSt k = 1 ∧ s.ethPaused k = false ∧ s.fld (a_ETH_PORT k 0) f_ETH_PORT_DISABLE = 0
    let base := s.qpBits n 55 8
    let prod := s.num base 8
    let slot := base + 64 + prod % 2 ^ s.qpBits n 7 4 * 32
    let room := 0 < 2 ^ s.qpBits n 7 4 - (prod + 2 ^ 64 - s.num (base + 8) 8) % 2 ^ 64 ∧ s.rangeOpen 12 false (base + 8) 8 = true
    let there (a n : Nat) : Prop := s.memThere a n ∧ s.noMarks a n
    let free (a : Nat) (bs : List Byte) : Prop := s.rangeOpen 12 true a bs.length = true ∧ there a bs.length
    let errs (t : State) (psn : Nat) : Prop := t.qpBits n 307 304 = 2 ∧ (t.qp n).jobs = [] ∧ (t.qp n).incoming = none ∧
      ∃ r, t.recs.last.getLast? = some r ∧ r.code = Code.RDMA_ERROR ∧ r.die = 12 ∧ r.part = s.qpPart n ∧ r.body = argBody [n, psn % 2 ^ 24]
    (s.qpBits n 303 303 = 0 → ∀ src, Accepts s src (cmdQpEnable n) (exec (.qpEnable src n) s) fun t => s.computeKept t ∧ t.qpReady n = true ∧
      t.qp n = { QpState.init with una := s.npsn n, since := s.tideOf 12 } ∧ (∀ hi lo, hi < 303 → t.qpBits n hi lo = s.qpBits n hi lo) ∧
      ∀ m, m ≠ n → t.qp m = s.qp m) ∧
    (live →
      (Goes (exec (.roceCnp n) s) fun t => s.computeKept t ∧ (t.qp n).rate = max 1_000_000_000 (q.rate / 2) ∧
        (t.qp n).rateAt = s.tideOf 12 ∧ cnt t k 7 = (cnt s k 7 + 1) % 2 ^ 64 ∧ (t.qp n).jobs = q.jobs ∧ t.outbox = s.outbox) ∧
      (q.rateAt + 55_000 ≤ s.tideOf 12 → q.rate < 400_000_000_000 → Goes (exec (.roceRateRestore n) s) fun t =>
        t = { s with qps := t.qps } ∧ (∀ m, m ≠ n → t.qp m = s.qp m) ∧
          t.qp n = { q with rate := min 400_000_000_000 (q.rate + 20_000_000_000), rateAt := s.tideOf 12 }) ∧
      (∀ j psn, q.jobs = [j] → q.cqes = [] → (psn + 1) % 2 ^ 24 ≠ q.una → psnDiff (psn + 1) q.una ≤ psnDiff (s.npsn n) q.una →
        j.acked ((psn + 1) % 2 ^ 24) (s.npsn n) = true → bit j.wqe 242 = false → room →
        let cqe := bytesLE 32 (cqeNum (bits j.wqe 511 448) j.tally (if j.code = 0 then wqLen j.wqe else 0) j.code (wqOp j.wqe) n)
        free slot cqe → free base (bytesLE 8 (prod + 1)) → Goes (exec (.roceAck n psn) s) fun t => t.presses = s.presses ∧
          t.bytes slot 32 = cqe ∧ t.num base 8 = (prod + 1) % 2 ^ 64 ∧
          (∀ a, (a < slot ∨ slot + 32 ≤ a) → (a < base ∨ base + 8 ≤ a) → t.byte a = s.byte a) ∧
          (t.qp n).jobs = [] ∧ (t.qp n).una = (psn + 1) % 2 ^ 24 ∧ (t.qp n).tries = 0 ∧ (t.qp n).cqes = []) ∧
      (∀ j, q.jobs = [j] → q.cqes = [] → j.code = 0 → j.packets = 1 → j.psn = q.una → q.una < 2 ^ 24 → j.acked q.una (s.npsn n) = false →
        let again (t : State) : Prop := t.mem = s.mem ∧ (t.qp n).tries = q.tries + 1 ∧ (t.qp n).since = s.tideOf 12 ∧ (t.qp n).jobs = [j] ∧
          cnt t k 6 = (cnt s k 6 + psnDiff (s.npsn n) q.una) % 2 ^ 64 ∧ t.outbox = s.outbox ++
            [⟨.eth, k, [wqOp j.wqe - 1, dqp, q.una, 3, bits j.wqe 447 384, bits j.wqe 383 352, wqLen j.wqe] ++
              ((s.bytes (wqLaddr j.wqe) (wqLen j.wqe)).take (s.qpMtu n)).map BitVec.toNat⟩]
        (q.tries + 1 < s.qpBits n 292 290 → Goes (exec (.roceNak n q.una 0) s) fun t => again t ∧ cnt t k 5 = (cnt s k 5 + 1) % 2 ^ 64) ∧
        (s.qpBits n 292 290 ≤ q.tries + 1 → Goes (exec (.roceNak n q.una 0) s) fun t => errs t q.una) ∧
        (∀ kind, 2 ≤ kind → Goes (exec (.roceNak n q.una kind) s) fun t => errs t q.una) ∧
        (q.since + 4096 * 2 ^ s.qpBits n 296 293 ≤ s.tideOf 12 →
          (q.tries + 1 < s.qpBits n 292 290 → Goes (exec (.roceRetryTimeout n) s) again) ∧
          (s.qpBits n 292 290 ≤ q.tries + 1 → Goes (exec (.roceRetryTimeout n) s) fun t => errs t q.una)) ∧
        (s.tideOf 12 < q.since + 4096 * 2 ^ s.qpBits n 296 293 → exec (.roceRetryTimeout n) s = .next s)) ∧
      (q.cqes = [] →
        let psn := s.epsn n
        let acks (t : State) : Prop := t.epsn n = (psn + 1) % 2 ^ 24 ∧ t.outbox = s.outbox ++ [⟨.eth, k, [2, dqp, psn]⟩]
        let naks (t : State) (p kind : Nat) : Prop := t.outbox = s.outbox ++ [⟨.eth, k, [3, dqp, p, kind]⟩] ∧ cnt t k 4 = (cnt s k 4 + 1) % 2 ^ 64
        (∀ raddr rkey data b, q.incoming = none → s.regionOf n raddr rkey data.length = some b → data ≠ [] → data.length ≤ s.qpMtu n →
          (free (b + raddr) data → Goes (exec (.roceWriteReceive n psn 3 raddr rkey data.length data false) s) fun t => acks t ∧
            t.bytes (b + raddr) data.length = data ∧ (∀ a, (a < b + raddr ∨ b + raddr + data.length ≤ a) → t.byte a = s.byte a) ∧
            t.presses = s.presses ∧ (t.qp n).incoming = none) ∧
          (s.rangeOpen 12 true (b + raddr) data.length = false → Goes (exec (.roceWriteReceive n psn 3 raddr rkey data.length data false) s) fun t =>
            acks t ∧ t.mem = s.mem ∧ (t.qp n).incoming = none)) ∧
        (∀ raddr rkey dlen data b, q.incoming = none → s.regionOf n raddr rkey dlen = some b → data.length = s.qpMtu n → data.length < dlen →
          free (b + raddr) data → Goes (exec (.roceWriteReceive n psn 0 raddr rkey dlen data false) s) fun t => acks t ∧
            t.bytes (b + raddr) data.length = data ∧ (t.qp n).incoming = some (.write (b + raddr + data.length) (dlen - data.length))) ∧
        (∀ a left data, q.incoming = some (.write a left) → data ≠ [] → data.length = left → left ≤ s.qpMtu n → free a data →
          Goes (exec (.roceWriteReceive n psn 2 0 0 0 data false) s) fun t => acks t ∧ t.bytes a left = data ∧ (t.qp n).incoming = none) ∧
        (∀ raddr rkey dlen data, q.incoming = none → s.regionOf n raddr rkey dlen = none →
          Goes (exec (.roceWriteReceive n psn 3 raddr rkey dlen data false) s) fun t => errs t psn ∧
            (∃ l, t.outbox = s.outbox ++ [⟨.eth, k, [3, dqp, psn, 2]⟩] ++ l) ∧ cnt t k 4 = (cnt s k 4 + 1) % 2 ^ 64) ∧
        (∀ p pos raddr rkey dlen data,
          (pos = 4 ∨ 7 ≤ pos → Goes (exec (.roceWriteReceive n p pos raddr rkey dlen data false) s) fun t => s.computeKept t ∧ naks t p 4) ∧
          ∀ e ∈ [(5, 3), (6, 2)], Goes (exec (.roceWriteReceive n p e.1 raddr rkey dlen data false) s) fun t => t = { s with regs := t.regs } ∧
            cnt t k e.2 = (cnt s k e.2 + 1) % 2 ^ 64) ∧
        (∀ p pos raddr rkey dlen data, pos < 4 → 0 < psnDiff p psn → Goes (exec (.roceWriteReceive n p pos raddr rkey dlen data false) s) fun t =>
          s.computeKept t ∧ t.epsn n = psn ∧
            (psnDiff p psn < 2 ^ 23 → (t.qp n).naked = true ∧ (q.naked = false → naks t psn 0) ∧ (q.naked = true → t.outbox = s.outbox)) ∧
            (2 ^ 23 ≤ psnDiff p psn → t.outbox = s.outbox ++ [⟨.eth, k, [2, dqp, psnDiff psn 1]⟩])) ∧
        (let rb := s.qpBits n 107 60
         let rl := s.qpBits n 59 56
         let cons := s.num (rb + 8) 8
         let entry := rb + 64 + cons % 2 ^ rl * 32
         let rqe := s.num entry 32
         let rbuf := bits rqe 159 112
         (s.num rb 8 = cons → s.ringOpen n .recv = true → q.incoming = none → ∀ data, Goes (exec (.roceSendReceive n psn 3 data false) s) fun t =>
           s.computeKept t ∧ naks t psn 1 ∧ t.epsn n = psn) ∧
         (∀ data, s.num rb 8 ≠ cons → q.incoming = none → data ≠ [] → data.length ≤ s.qpMtu n → data.length ≤ bits rqe 191 160 → room →
           (inHbm rbuf data.length = true ∨ isGalley rbuf = true ∧ isGalley (rbuf + data.length - 1) = true) →
           s.ringOpen n .recv = true → there entry 32 → there (rb + 8) 8 →
           let u := (((s.readMem entry 32 0xF 5).st.unitFlits 12 false entry 32).openWrite 12 (rb + 8) (bytesLE 8 (cons + 1))).st
           u.rangeOpen 12 true rbuf data.length = true → there rbuf data.length →
           let cqe := bytesLE 32 (cqeNum (bits rqe 255 192) 0 data.length 0 0x82 n)
           (u.openWrite 12 rbuf data).st.ringOpen n .compl = true → there slot 32 → there base 8 →
           apart (rb + 8) 8 rbuf data.length → apart (rb + 8) 8 base 16 →
           apart (rb + 8) 8 slot 32 → apart rbuf data.length base 16 → apart rbuf data.length slot 32 →
           Goes (exec (.roceSendReceive n psn 3 data false) s) fun t => acks t ∧ t.bytes rbuf data.length = data ∧ t.bytes slot 32 = cqe ∧
             t.num base 8 = (prod + 1) % 2 ^ 64 ∧ t.num (rb + 8) 8 = (cons + 1) % 2 ^ 64 ∧ (t.qp n).incoming = none ∧
             ∀ a, (a < rbuf ∨ rbuf + data.length ≤ a) → (a < slot ∨ slot + 32 ≤ a) → (a < base ∨ base + 8 ≤ a) → (a < rb + 8 ∨ rb + 16 ≤ a) →
               t.byte a = s.byte a))) ∧
      (let sb := s.qpBits n 159 112
       let cons := s.num (sb + 8) 8
       let entry := sb + 64 + cons % 2 ^ s.qpBits n 111 108 * 64
       let w := s.num entry 64
       let psn := s.npsn n
       (∀ m, m < 64 → m ≠ n → s.qpBits m 303 303 = 0) → s.ethHeld = [] → s.unitErrs = [] → q.jobs = [] → q.cqes = [] → q.una = psn →
       s.num sb 8 = (cons + 1) % 2 ^ 64 → (∀ r, s.ringOpen n r = true) → there entry 64 → there (sb + 8) 8 →
       s.wqeCheck n w = 0 → wqLen w ≤ s.qpMtu n → s.rangeOpen 12 false (wqLaddr w) (wqLen w) = true → there (wqLaddr w) (wqLen w) →
       apart (sb + 8) 8 (wqLaddr w) (wqLen w) →
       let bs := s.bytes (wqLaddr w) (wqLen w)
       Goes (exec .ethSendPoll s) fun t => t.num (sb + 8) 8 = (cons + 1) % 2 ^ 64 ∧
         (∀ a, (a < sb + 8 ∨ sb + 16 ≤ a) → t.byte a = s.byte a) ∧ t.presses = s.presses ∧ t.npsn n = (psn + 1) % 2 ^ 24 ∧
         (t.qp n).jobs = [⟨w, psn, 1, if bit w 241 then (bytesTally (s.reg (a_CHK_PKEY 12 (s.qpPart n))) bs).toNat else 0, 0⟩] ∧
         t.outbox = s.outbox ++ [⟨.eth, k, [wqOp w - 1, dqp, psn, 3, bits w 447 384, bits w 383 352, wqLen w] ++ bs.map BitVec.toNat⟩]))) ∧
  ∀ s : State,
    let p := s.ptp
    let now := s.tideOf 12
    let unlocks (t : State) : Prop := s.computeKept t ∧ t.ptp.locked = false ∧ t.ptp.good = 0 ∧ t.ptp.bad = 0 ∧
      t.fld (a_TIDE_DELAY 12) f_TIDE_DELAY_PTPOFF = 0 ∧ Records s t Code.PTP_UNLOCKED 12 31 []
    (∀ (port : Nat) (f : PtpFrom) (x : PtpTimes) (time : Nat), port < 2 → s.ethSt port = 1 →
      let same : Bool := p.chosen == some (port, f.rank)
      let chosen := p.chosen = none ∨ same = true ∨ ∃ y, p.chosen = some y ∧ (f.rank < y.2 ∨ p.last + 4_000_000_000 ≤ now)
      let delay : Int := match x.delay with
        | some y => ((x.t2 - x.t1) + (y.2 - y.1)) / 2
        | none => p.delay
      let n := (x.t2 - x.t1 - delay).natAbs
      let good := if n ≤ 100 then (if same then p.good else 0) + 1 else 0
      let bad := if 500 < n then (if same then p.bad else 0) + 1 else 0
      (s.role ≠ 1 → Goes (exec (.ptpSync port f x time) s) fun t => t = { s with regs := t.regs } ∧
        cnt t port 3 = (cnt s port 3 + 1) % 2 ^ 64) ∧
      (s.role = 1 → s.fld (a_ETH_PORT port 0) f_ETH_PORT_PTPDOM ≠ f.domain ∨ ¬ chosen → Goes (exec (.ptpSync port f x time) s) fun t =>
        t = { s with regs := t.regs } ∧ s.onlyRegs t [a_ETH_CNT port 1]) ∧
      (s.role = 1 → s.fld (a_ETH_PORT port 0) f_ETH_PORT_PTPDOM = f.domain → chosen →
        (p.locked = true → 4 ≤ bad → Goes (exec (.ptpSync port f x time) s) unlocks) ∧
        (¬ (p.locked = true ∧ 4 ≤ bad) → s.isRoot = false ∨ s.fld (a_TIDE_CTL 12) f_TIDE_CTL_PTPSTEER = 0 →
          Goes (exec (.ptpSync port f x time) s) fun t => s.computeKept t ∧
            let o : Int := (time : Int) - now
            t.outbox = s.outbox ++ (if s.fld (a_ETH_PORT port 0) f_ETH_PORT_DISABLE = 0 then [⟨.eth, port, [7, f.domain]⟩] else []) ∧
            t.ptp = ⟨p.locked || decide (8 ≤ good), good, bad, now, o, delay, some (port, f.rank)⟩ ∧
              (t.ptp.locked = true → -(2 : Int) ^ 31 ≤ o → o < (2 : Int) ^ 31 →
                t.fld (a_TIDE_DELAY 12) f_TIDE_DELAY_PTPOFF = unsigned 32 o) ∧
              (t.ptp.locked = false → t.fld (a_TIDE_DELAY 12) f_TIDE_DELAY_PTPOFF = 0)))) ∧
    (p.locked = true → p.last + 4_000_000_000 ≤ now → Goes (exec .ptpSyncTimeout s) unlocks) ∧
    (p.locked = false ∨ now < p.last + 4_000_000_000 → exec .ptpSyncTimeout s = .next s)

/-- Manager control messages (R496 to R498). What an undefined kind is answered by, which partitions a request names, and that a WRITE has no
REPLY are the choices of log entry 17. -/
def Obligations.Orders : Prop :=
  let okind (k b : Nat) : Bool := bits b 7 0 == k || !(decide (1 ≤ bits b 7 0) && decide (bits b 7 0 ≤ 7))
  let torn (s t : State) (parts code node : Nat) : Prop := ∀ q, q < 24 → parts.testBit q = true → (s.pstate q = 1 ∨ s.pstate q = 2) →
    Tbl.get none s.torn q = none → s.tideOf 12 < 2 ^ 64 → (∀ x ∈ s.teardownsSeen, x.2.2 ≠ s.tideOf 12) →
    (Tbl.get none t.torn q).map (fun y => (y.code, y.node)) = some (code, node)
  let kept (s t : State) : Prop := t.mem = s.mem ∧ t.marks = s.marks
  let replied (s t : State) (m : MgrIn) (code : Nat) (data : List Byte) : Prop := ∃ x e l r, (t.router 12).loc =
    l ++ s.mgrCells m.src 0x12 x e (bytesLE 2 code ++ bytesLE 2 data.length ++ bytesLE 4 m.msgid ++ data) ++ r
  let plain (a : Nat) : Prop := a ≠ a_MGMT_ROLE ∧ a ≠ a_TIDE_MGR 12 ∧ a ≠ a_PCIE_RING_TAIL ∧ ¬ isFlits a
  let way (s : State) (src : Source) (a : Nat) : Prop := s.wayOpen src a = true ∧ ∀ y ∈ s.regReads, regDie y.addr ≠ regDie a
  let rows (jobs : List JobMark) (parts : Nat) : List (Nat × Instr) := [(1, .orderWrite none), (2, .orderRead none),
    (3, .orderTeardownReq none parts), (4, .orderMemread none), (5, .orderPreempt none jobs), (6, .orderPause none), (7, .orderHandover none)]
  (∀ (s s0 : State) (m : MgrIn) (jobs : List JobMark) (parts : Nat) (x : Nat × Instr), x ∈ rows jobs parts →
    s.takeMsg 0x11 (okind x.1) = some (m, s0) →
    let noted (t : State) : Prop := t.ctl = s0.ctl ∧
      t.fld a_MGMT_ROLE f_MGMT_ROLE_EPOCH = max m.epoch (s.fld a_MGMT_ROLE f_MGMT_ROLE_EPOCH) % 2 ^ 32
    let ack (e : Nat) : List WaitCell := s.mgrCells m.src 0x14 (s.mgr.next % 2 ^ 32) e (bytesLE 4 m.msgid)
    let acked (t : State) : Prop := (∃ e l, (t.router 12).loc = (s.router 12).loc ++ ack e ++ l) ∧ m.msgid ∈ Tbl.get [] t.mgr.acted m.src
    let quiet (t : State) : Prop := s.computeKept t ∧ t.gathered = s.gathered ∧ t.torn = s.torn ∧ t.quay = s.quay ∧ t.preempts = s.preempts ∧
      t.role = s.role ∧ t.mgr.peers = s.mgr.peers
    let held := s.fld (a_TIDE_MGR 12) f_TIDE_MGR_EPOCH
    let a := bits m.body 111 64
    let journaled (t : State) (code : Nat) : Prop := t.jseq = s.jseq + 1 ∧ ∃ e, Tbl.find t.journal (s.jseq % 4096) = some e ∧ e.code = code ∧
      e.addr = (if x.1 ≤ 2 then a else 0)
    let beaten := x.1 ≠ 1 ∧ m.epoch ≠ 0 ∧ ∃ n, n < m.src ∧ Source.manager n m.epoch ∈ s0.ordersMet
    (m.msgid ∈ Tbl.get [] s.mgr.acted m.src → Goes (exec x.2 s) fun t => noted t ∧ quiet t ∧ ∃ e, (t.router 12).loc = (s.router 12).loc ++ ack e) ∧
    (m.msgid ∉ Tbl.get [] s.mgr.acted m.src →
      (bits m.body 7 0 ≠ x.1 ∨ bits m.body 15 8 ≠ 0 → Goes (exec x.2 s) fun t => noted t ∧ acked t ∧ quiet t ∧
        replied s t m Code.BAD_DESCRIPTOR []) ∧
      (bits m.body 7 0 = x.1 → bits m.body 15 8 = 0 → m.epoch < held → Goes (exec x.2 s) fun t => noted t ∧ acked t ∧ quiet t ∧
        replied s t m Code.STALE_MANAGER [] ∧ journaled t Code.STALE_MANAGER) ∧
      (bits m.body 7 0 = x.1 → bits m.body 15 8 = 0 → held ≤ m.epoch → beaten → Goes (exec x.2 s) fun t => noted t ∧ acked t ∧ quiet t ∧
        replied s t m Code.COMMAND_OVERRIDDEN [] ∧ journaled t Code.COMMAND_OVERRIDDEN) ∧
      (bits m.body 7 0 = x.1 → bits m.body 15 8 = 0 → held ≤ m.epoch → ¬ beaten → Goes (exec x.2 s) fun t => (noted t ∨ x.1 = 7 ∧ s.role = 2) ∧ acked t ∧ kept s t ∧
        (x.1 ≠ 1 → m.epoch ≠ 0 → t.fld (a_TIDE_MGR 12) f_TIDE_MGR_EPOCH = m.epoch % 2 ^ f_TIDE_MGR_EPOCH.width) ∧
        (x.1 = 1 → s.computeKept t ∧
          t.gathered = s.gathered ++ [⟨.manager m.src m.epoch, a, true, true, BitVec.ofNat 64 (bits m.body 191 128)⟩]) ∧
        (x.1 = 2 → s.computeKept t ∧ (inRegs a = true → s.dieUp (regDie a) = false → replied s t m Code.DIE_UNAVAILABLE []) ∧
          (a % 8 ≠ 0 → inRegs a = false ∨ s.dieUp (regDie a) = true → replied s t m 0 (bytesLE 8 (2 ^ 64 - 1)) ∧
            t.gathered = s.gathered ++ [⟨.manager m.src m.epoch, a, false, false, 0⟩]) ∧
          (a % 8 = 0 → inRegs a = true → s.dieUp (regDie a) = true →
            (way s (.manager m.src m.epoch) a → plain a → replied s t m 0 (bytesLE 8 (s.readReg a).toNat)) ∧
            (¬ way s (.manager m.src m.epoch) a → t.regReads = s.regReads ++ [⟨.order m, a, 8⟩]))) ∧
        (x.1 = 3 → (s.role ≠ 1 → quiet t) ∧
          (s.role = 1 → torn s t parts (if Code.listed (bits m.body 31 16) then bits m.body 31 16 else Code.TEARDOWN_REQUESTED)
            (if m.body.testBit 76 then bits m.body 75 64 else 0x1000))) ∧
        (x.1 = 4 → s.computeKept t ∧
          let n := bits m.body 127 112
          let there := inHbm a n = true ∨ (isGalley a = true ∧ inGalley (galleyDie a) a n = true)
          (n < 16 ∨ 480 < n → t.quay = s.quay ∧ replied s t m Code.BAD_DESCRIPTOR []) ∧
          (16 ≤ n → n ≤ 480 → ¬ there → t.quay = s.quay ∧ replied s t m Code.BAD_ADDRESS []) ∧
          (16 ≤ n → n ≤ 480 → there → s.dieUp (addrDie a) = false → t.quay = s.quay ∧ replied s t m Code.DIE_UNAVAILABLE []) ∧
          (16 ≤ n → n ≤ 480 → there → s.dieUp (addrDie a) = true → ∀ d, Tbl.get [] t.quay d =
            if d = addrDie a then Tbl.get [] s.quay d ++ [⟨12, 31, .mgmt .manager m.src m.msgid, a, n, none⟩] else Tbl.get [] s.quay d)) ∧
        (x.1 = 5 → (∀ j ∈ jobs, ∃ p ∈ t.preempts, p.job = j ∧ p.deadline = bits m.body 127 64 ∧ p.notice = s.tideOf j.die ∧ p.past = false) ∧
          ∀ p ∈ s.preempts, ∃ q ∈ t.preempts, q = { p with marked := q.marked }) ∧
        (x.1 = 6 → s.computeKept t ∧ ∀ p, Tbl.get none s.mgr.peers m.src = some p → Tbl.get none t.mgr.peers m.src =
          some { p with pause := s.tideOf 12 + min 10_000 (bits m.body 95 64) * 1_000_000 }) ∧
        (x.1 = 7 → s.computeKept t ∧ (s.role = 2 → t.role = 1 ∧ t.mgr.own = m.epoch + 1 ∧
          t.fld a_MGMT_ROLE f_MGMT_ROLE_HMNODE = s.nodeId ∧ t.hmKnown = true) ∧ (s.role ≠ 2 → t.role = s.role))))) ∧
  (∀ (s : State) (bs : List Byte), s.role = 1 → bits (natLE bs) 7 0 = 2 → bits (natLE bs) 15 8 = 0 →
    s.fld (a_TIDE_MGR 12) f_TIDE_MGR_EPOCH ≤ s.myEpoch →
    let a := bits (natLE bs) 111 64
    a % 8 = 0 → inRegs a = true → s.dieUp (regDie a) = true → way s (.manager s.nodeId s.myEpoch) a → plain a →
    (∀ n, Source.manager n s.myEpoch ∈ s.ordersMet → s.nodeId ≤ n) → Goes (exec (.orderRead (some bs)) s) fun t =>
      s.computeKept t ∧ t.gathered = s.gathered ∧ t.quay = s.quay ∧
        t.outbox = s.outbox ++ [⟨.eth, 7411, [0, 8] ++ (bytesLE 8 (s.readReg a).toNat).map BitVec.toNat⟩]) ∧
  (∀ (s s0 : State) (m : MgrIn),
    (s.takeMsg 0x12 (fun _ => true) = some (m, s0) → Goes (exec .mgmtReply s) fun t => s.computeKept t ∧ t.ctl = s0.ctl ∧ t.outbox = s.outbox ∧
      t.routers = s.routers ∧ t.mgr.replies = s.mgr.replies ++ [(m.src, bits m.body 63 32, bits m.body 15 0, bytesLE (bits m.body 31 16) (m.body / 2 ^ 64))]) ∧
    (s.takeMsg 0x14 (fun _ => true) = some (m, s0) → Goes (exec .mgmtAck s) fun t => s.computeKept t ∧ t.ctl = s0.ctl ∧ t.outbox = s.outbox ∧
      t.routers = s.routers ∧ ∀ x, x ∈ t.mgr.out ↔ x ∈ s.mgr.out ∧ ¬ (x.dest = m.src ∧ x.msgid = bits m.body 31 0)) ∧
    (s.takeMsg 0x13 (fun _ => true) = some (m, s0) → ∀ parts,
      let code := bits m.body 143 128
      let part := bits m.body 172 168
      Goes (exec (.mgmtRecord parts) s) fun t => kept s t ∧ t.ctl = s0.ctl ∧ m.msgid ∈ Tbl.get [] t.mgr.acted m.src ∧
        (∃ e l, (t.router 12).loc = (s.router 12).loc ++ s.mgrCells m.src 0x14 (s.mgr.next % 2 ^ 32) e (bytesLE 4 m.msgid) ++ l) ∧
        (s.role ≠ 1 ∨ m.msgid ∈ Tbl.get [] s.mgr.acted m.src ∨ teardownCodes.contains code = false →
          s.computeKept t ∧ t.torn = s.torn) ∧
        (s.role = 1 → m.msgid ∉ Tbl.get [] s.mgr.acted m.src → teardownCodes.contains code = true →
          torn s t (if part < 24 then 2 ^ part else parts) code 0x1000))) ∧
  ∀ (s : State) (x : MgrMsg), (s.mgr.out.find? fun y => decide (y.sent + 100_000 ≤ s.tideOf 12)) = some x →
    (8 ≤ x.tries → exec .mgmtRetransmit s = .next { s with mgr := { s.mgr with out := s.mgr.out.erase x } }) ∧
    (x.tries < 8 → Goes (exec .mgmtRetransmit s) fun t => t = { s with mgr := t.mgr, routers := t.routers } ∧
      (∀ b, b ≠ 12 → t.router b = s.router b) ∧
      t.router 12 = { s.router 12 with loc := (s.router 12).loc ++ s.mgrCells x.dest x.kind x.msgid x.epoch x.data } ∧
      { x with tries := x.tries + 1, sent := s.tideOf 12 } ∈ t.mgr.out ∧ t.mgr.out.length = s.mgr.out.length)

/-- The management port (R499 to R502). Codes and numbers of the DMTF standards, which the spec does not repeat, are those of log entry 23. -/
def Obligations.ManagementPort : Prop :=
  let rows (tag x y : Nat) (doe b : Bool) (data : List Byte) : List Instr := [.mctpRegRead tag x, .mctpRegWrite tag x y, .mctpHbmWrite tag x data,
    .mctpHbmRead tag x y, .mctpRecordGet tag x, .mctpPreempt tag x [] [], .pldmGetTid tag, .pldmGetVersion tag x, .pldmGetTypes tag,
    .pldmGetCommands tag x, .pldmGetPdrRepositoryInfo tag, .pldmGetPdr tag x, .pldmGetSensorReading tag x, .pldmGetStateSensorReadings tag x,
    .spdmGetVersion doe tag, .spdmGetCapabilities doe tag x, .spdmNegotiateAlgorithms doe tag b b, .spdmGetDigests doe tag,
    .spdmGetCertificate doe tag x y x, .spdmChallenge doe tag x y, .spdmGetMeasurements doe tag x b y]
  (∀ (s : State) (tag x y : Nat) (doe b : Bool) (data : List Byte) (i : Instr), s.firmwareUp = false → i ∈ rows tag x y doe b data →
    exec i s = .next s) ∧
  (∀ (s : State) (tag e : Nat), s.off = false →
    (e % 256 ≠ 0 → e % 256 ≠ 255 → exec (.mctpSetEndpointId tag (.setEid e)) s =
      .next { s with eid := e % 256, outbox := s.outbox ++ [⟨.mctp, tag, [0, e % 256]⟩] }) ∧
    (e % 256 = 0 ∨ e % 256 = 255 → Sends s .mctp tag [2] (exec (.mctpSetEndpointId tag (.setEid e)) s)) ∧
    (∀ arg, Sends s .mctp tag [0, s.eid, 0, 0] (exec (.mctpSetEndpointId tag (.control 2 arg)) s) ∧
      (e = 0 ∨ 6 < e → Sends s .mctp tag [5] (exec (.mctpSetEndpointId tag (.control e arg)) s))) ∧
    ∀ len, exec (.mctpSetEndpointId tag (.other e len)) s = .next s) ∧
  ∀ (s : State) (tag : Nat), s.firmwareUp = true →
    let answers (i : Instr) (d : List Nat) : Prop := Sends s .mctp tag d (exec i s)
    let also (t : State) (d : List Nat) : Prop := t.outbox = s.outbox ++ [⟨.mctp, tag, d⟩]
    (∀ (a : Nat) (v : Word),
      (inRegs a = false → answers (.mctpRegRead tag a) [Code.BAD_ADDRESS] ∧ answers (.mctpRegWrite tag a v) [Code.BAD_ADDRESS]) ∧
      (inRegs a = true → s.dieUp (regDie a) = false → answers (.mctpRegRead tag a) [Code.DIE_UNAVAILABLE] ∧
        Goes (exec (.mctpRegWrite tag a v) s) fun t => s.computeKept t ∧ t.regs = s.regs ∧ also t [Code.DIE_UNAVAILABLE]) ∧
      (inRegs a = true → s.dieUp (regDie a) = true → a % 8 ≠ 0 → Goes (exec (.mctpRegRead tag a) s) fun t =>
        t = { s with gathered := s.gathered ++ [⟨.mctp, a, false, false, 0⟩], outbox := t.outbox } ∧ also t [0, 2 ^ 64 - 1]) ∧
      (inRegs a = true → s.dieUp (regDie a) = true → a % 8 = 0 →
        let way := s.wayOpen .mctp a = true ∧ ∀ y ∈ s.regReads, regDie y.addr ≠ regDie a
        (¬ way → exec (.mctpRegRead tag a) s = .next { s with regReads := s.regReads ++ [⟨.mctp tag, a, 8⟩] }) ∧
        (way → ¬ isFlits a → Goes (exec (.mctpRegRead tag a) s) fun t => s.onlyFlits t ∧
          t = { s with regs := t.regs, unread := t.unread, outbox := t.outbox } ∧ also t [0, (s.readReg a).toNat]) ∧
        exec (.mctpRegWrite tag a v) s =
          .next { s with gathered := s.gathered ++ [⟨.mctp, a, true, true, v⟩], outbox := s.outbox ++ [⟨.mctp, tag, [0]⟩] })) ∧
    (∀ (a n : Nat) (data : List Byte),
      let posted (t : State) (r : MemReq) : Prop := t = { s with quay := t.quay } ∧
        ∀ d, Tbl.get [] t.quay d = if d = addrDie a then Tbl.get [] s.quay d ++ r.packets else Tbl.get [] s.quay d
      let there (n : Nat) : Prop := inHbm a n = true ∧ s.dieUp (addrDie a) = true ∧ s.boot.hbmDone = true
      (n = 0 ∨ 1024 < n → answers (.mctpHbmRead tag a n) [Code.BAD_DESCRIPTOR]) ∧
      (data = [] ∨ 1024 < data.length → answers (.mctpHbmWrite tag a data) [Code.BAD_DESCRIPTOR]) ∧
      (0 < n → n ≤ 1024 → (inHbm a n = false → answers (.mctpHbmRead tag a n) [Code.BAD_ADDRESS]) ∧
        (there n → Goes (exec (.mctpHbmRead tag a n) s) fun t => posted t ⟨12, 31, .mgmt .mctp tag tag, a, n, none⟩)) ∧
      (data ≠ [] → data.length ≤ 1024 →
        (inHbm a data.length = false ∨ a % 16 ≠ 0 ∨ s.inImposed a data.length = true → answers (.mctpHbmWrite tag a data) [Code.BAD_ADDRESS]) ∧
        (a % 16 = 0 → s.inImposed a data.length = false → there data.length → Goes (exec (.mctpHbmWrite tag a data) s) fun t =>
          posted t ⟨12, 31, .mgmt .mctp tag tag, a, data.length, some data⟩))) ∧
    (∀ first, answers (.mctpRecordGet tag first)
      (0 :: ((s.recs.last.filter fun r => decide (first ≤ r.seq)).take 8).flatMap fun r => r.sent.map BitVec.toNat)) ∧
    (∀ dp leaders jobs, Goes (exec (.mctpPreempt tag dp leaders jobs) s) fun t => t.mem = s.mem ∧ t.presses = s.presses ∧
      t.outbox.getLast? = some ⟨.mctp, tag, [0]⟩ ∧ (∀ n ∈ leaders, n ≠ s.nodeId →
        s.told t n 0x11 (bytesLE 16 (5 + dp % 2 ^ 64 * 2 ^ 64))) ∧
      ∀ j ∈ jobs, ∃ p ∈ t.preempts, p.job = j ∧ p.deadline = dp % 2 ^ 64 ∧ p.notice = s.tideOf j.die ∧ p.past = false) ∧
    answers (.pldmGetTid tag) [0, Config.pldmTid] ∧ answers (.pldmGetTypes tag) [0, 2 ^ 0 + 2 ^ 2] ∧
    answers (.pldmGetPdrRepositoryInfo tag) (0 :: Config.pdrInfo) ∧ (∀ h, answers (.pldmGetPdr tag h) (0 :: Config.pdr h)) ∧
    (∀ y, answers (.pldmGetVersion tag y) (if y = 0 ∨ y = 2 then 0 :: Config.pldmVersion y else [0x83])) ∧
    (∀ y, answers (.pldmGetCommands tag y) (if y = 0 then [0, 2 ^ 2 + 2 ^ 3 + 2 ^ 4 + 2 ^ 5]
      else if y = 2 then [0, 2 ^ 0x11 + 2 ^ 0x21 + 2 ^ 0x50 + 2 ^ 0x51] else [0x83])) ∧
    (let reads (id die v : Nat) : Prop := answers (.pldmGetSensorReading tag id) (if s.dieUp die then [0, 0, v] else [0, 2])
     (∀ d, d < 16 → reads (1 + d) d (s.fld (a_PWR_SENSE d) f_PWR_SENSE_TEMP) ∧ reads (31 + d) d (s.fld (a_PWR_STATUS d) f_PWR_STATUS_DRAW)) ∧
     (∀ st, st < 12 → reads (17 + st) (stackBase st) (s.fld (a_HBM_STACK_STATUS (stackBase st) (stackWin st)) f_HBM_STACK_STATUS_TEMP)) ∧
     reads 29 12 (s.fld a_PWR_SUPPLY f_PWR_SUPPLY_VIN) ∧ reads 30 12 (s.fld a_PWR_SUPPLY f_PWR_SUPPLY_INPUT) ∧
     (∀ id, id = 0 ∨ 47 ≤ id → answers (.pldmGetSensorReading tag id) [0x80])) ∧
    (let ready := 0x0A ≤ s.fld a_MGMT_BOOT f_MGMT_BOOT_STEP
     let tornNow := ∃ p, p < 24 ∧ s.pstate p = 3
     let worn := (∃ n, n < 64 ∧ s.quarUsed n = true) ∨ ∃ c, c < 156 ∧ (s.core c).run = .retired
     (ready → tornNow → answers (.pldmGetStateSensorReadings tag 100) [0, 2]) ∧
     (¬ ready ∨ (¬ tornNow ∧ worn) → answers (.pldmGetStateSensorReadings tag 100) [0, 1]) ∧
     (ready → ¬ tornNow → ¬ worn → answers (.pldmGetStateSensorReadings tag 100) [0, 0]) ∧
     (∀ p, p < 24 → answers (.pldmGetStateSensorReadings tag (101 + p)) [0, s.pstate p]) ∧
     ∀ id, id < 100 ∨ 125 ≤ id → answers (.pldmGetStateSensorReadings tag id) [0x80]) ∧
    ∀ doe : Bool,
      let k : OutKind := if doe then .hostCompletion else .mctp
      let tells (i : Instr) (d : List Nat) : Prop := Sends s k tag d (exec i s)
      let stage := (s.spdmConn doe).stage
      let becomes (i : Instr) (c : SpdmConn) (d : List Nat) : Prop := Goes (exec i s) fun t => t = { s with spdm := t.spdm, outbox := t.outbox } ∧
        t.spdmConn doe = c ∧ t.spdmConn (!doe) = s.spdmConn (!doe) ∧ t.outbox = s.outbox ++ [⟨k, tag, d⟩]
      let signs (i : Instr) (d : List Nat) : Prop :=
        (s.boot.keyBad = false → exec i s =
          .next { s with freeCount := s.freeCount + 1, outbox := s.outbox ++ [⟨k, tag, d ++ [(Config.signed s.freeCount d).toNat]⟩] }) ∧
        (s.boot.keyBad = true → s.boot.attested = true → tells i [0x7F, 5]) ∧
        (s.boot.keyBad = true → s.boot.attested = false → Goes (exec i s) fun t => s.computeKept t ∧ t.boot.attested = true ∧
          Records s t Code.ATTESTATION_FAILED 12 31 [] ∧ t.outbox.getLast? = some ⟨k, tag, [0x7F, 5]⟩)
      let slot := s.fld a_MGMT_FW f_MGMT_FW_SLOT
      let block (i : Nat) : List Nat := if i = 1 then [1, (Config.measured 1 []).toNat]
        else if i = 2 then [2, (Config.measured 2 (s.slotImage slot)).toNat]
        else if i = 3 then [3, (Config.measured 2 (s.slotImage (1 - slot))).toNat]
        else if i = 4 then [4, (Config.measured 4 s.pilotInForce).toNat]
        else if i = 5 then [5, (Config.measured 5 s.microImage).toNat]
        else if i = 6 then [6, s.fld a_MGMT_FW f_MGMT_FW_SVN, s.fld a_MGMT_FW f_MGMT_FW_OSVN, s.fld a_MGMT_SEC f_MGMT_SEC_SVN]
        else if i = 7 then [7, (s.reg a_IMPO_LAST).toNat, s.lastHcrc] else [8, (s.reg a_MGMT_STRAP).toNat]
      let hash := (Config.sha384 Config.certChain).toNat
      becomes (.spdmGetVersion doe tag) ⟨1, 0⟩ [0x04, 0x11, 0x12, 0x13] ∧
      (∀ v p h, stage = 0 → tells (.spdmGetCapabilities doe tag v) [0x7F, 4] ∧ tells (.spdmNegotiateAlgorithms doe tag p h) [0x7F, 4]) ∧
      (∀ v, 1 ≤ stage → (0x11 ≤ v → v ≤ 0x13 → becomes (.spdmGetCapabilities doe tag v) ⟨2, v⟩ (0x61 :: Config.spdmCaps v)) ∧
        (v < 0x11 ∨ 0x13 < v → tells (.spdmGetCapabilities doe tag v) [0x7F, 0x41])) ∧
      (2 ≤ stage → becomes (.spdmNegotiateAlgorithms doe tag true true) ⟨3, (s.spdmConn doe).version⟩ (0x63 :: Config.spdmAlgorithms) ∧
        tells (.spdmNegotiateAlgorithms doe tag true false) [0x7F, 1] ∧ tells (.spdmNegotiateAlgorithms doe tag false true) [0x7F, 1]) ∧
      (stage < 3 → tells (.spdmGetDigests doe tag) [0x7F, 4] ∧ ∀ x y z b, tells (.spdmGetCertificate doe tag x y z) [0x7F, 4] ∧
        tells (.spdmChallenge doe tag x y) [0x7F, 4] ∧ tells (.spdmGetMeasurements doe tag x b y) [0x7F, 4]) ∧
      (3 ≤ stage → tells (.spdmGetDigests doe tag) [0x01, 1, hash] ∧
        (∀ off len, off < Config.certChain.length → tells (.spdmGetCertificate doe tag 0 off len)
          ([0x02, 0, min len (Config.certChain.length - off), Config.certChain.length - off - min len (Config.certChain.length - off)] ++
            ((Config.certChain.drop off).take len).map BitVec.toNat)) ∧
        (∀ nonce, signs (.spdmChallenge doe tag 0 nonce) [0x03, 0, hash, nonce]) ∧
        (∀ nonce i, 1 ≤ i → i ≤ 8 → tells (.spdmGetMeasurements doe tag i false nonce) (0x60 :: block i) ∧
          signs (.spdmGetMeasurements doe tag i true nonce) (0x60 :: block i ++ [nonce])) ∧
        (∀ nonce, tells (.spdmGetMeasurements doe tag 0 false nonce) [0x60, 8] ∧
          tells (.spdmGetMeasurements doe tag 255 false nonce) (0x60 :: (block 1 ++ block 2 ++ block 3 ++ block 4 ++ block 5 ++ block 6 ++
            block 7 ++ block 8))) ∧
        ∀ i nonce b, 8 < i → i ≠ 255 → tells (.spdmGetMeasurements doe tag i b nonce) [0x7F, 1])

/-- Console, JTAG, flash, firmware (R507 to R509, R547 to R552). The pause of a swap, the other slot's version after it, and the TAP's first
instruction are the choices of log entry 23. -/
def Obligations.ConsoleFlash : Prop :=
  let up (s t : State) (a : Nat) (f : Fld) : Prop := t.fld a f = min (s.fld a f + 1) (2 ^ f.width - 1)
  let refused (s t : State) (a : Nat) : Prop := s.computeKept t ∧ t.reg a = s.reg a ∧ t.flash = s.flash ∧ t.flashOp = s.flashOp ∧
    ∃ e, Tbl.find t.journal (s.jseq % 4096) = some e ∧ e.addr = a ∧ e.code = Code.BAD_REG_ACCESS
  (∀ (s : State) (m : UartMove), s.off = false →
    let l := s.uartRx.drop m.taken
    let d := s.fld a_UART_CFG f_UART_CFG_DIV
    let sent : UartState := { s.uart with tx := s.uart.tx ++ m.put.take (256 - s.uart.tx.length) }
    let line (b : Byte) (stop : Bool) : List (Nat × Bool) := (1, true) :: (List.range 10).map fun i =>
      ((i + 1) * d / 16 - i * d / 16, if i = 0 then false else if i = 9 then stop else b.getLsbD (i - 1))
    (s.crossStopped 12 9 = true → (∀ x, exec (.uartCharacterReceive m x) s = .next s) ∧ exec .uartBreak s = .next s) ∧
    (s.crossStopped 12 9 = false →
      exec (.uartCharacterReceive m []) s = .next { s with uartRx := l, uart := sent } ∧
      (533 ≤ d →
        (∀ b, l.length < 256 → exec (.uartCharacterReceive m (line b true)) s =
          .next { s with uartRx := l ++ [b], uart := { sent with high := false } }) ∧
        (∀ b, 256 ≤ l.length → Goes (exec (.uartCharacterReceive m (line b true)) s) fun t =>
          t = { s with uartRx := l, uart := { sent with high := false }, regs := t.regs } ∧
          up s t a_UART_CNT f_UART_CNT_OVERRUN ∧ s.onlyRegs t [a_UART_CNT]) ∧
        (∀ b, Goes (exec (.uartCharacterReceive m (line b false)) s) fun t => s.computeKept t ∧ t.uartRx = l ∧
          t.uart = { sent with high := true } ∧ up s t a_UART_CNT f_UART_CNT_FRAMING) ∧
        ∀ n, 20 * d ≤ 16 * n → exec (.uartCharacterReceive m [(1, true), (n, false)]) s =
          .next { s with uartRx := l, uart := { sent with high := true } }) ∧
      Goes (exec .uartBreak s) fun t => t = { s with regs := t.regs, uart := { s.uart with high := true } } ∧
        up s t a_UART_CNT f_UART_CNT_BREAKS ∧ s.onlyRegs t [a_UART_CNT])) ∧
  (∀ (s : State) (src : Source) (div : Nat),
    (533 ≤ div → div ≤ 13889 → AcceptsOnly s src (cmdUartDiv div) [a_UART_CFG] (exec (.uartDivWrite src div) s) fun t =>
      s.computeKept t ∧ t.fld a_UART_CFG f_UART_CFG_DIV = div) ∧
    (div < 533 ∨ 13889 < div → s.alone = true → s.wayOpen src a_UART_CFG = true → s.commandCode src (cmdUartDiv div) = 0 → Goes (exec (.uartDivWrite src div) s) fun t => refused s t a_UART_CFG)) ∧
  (∀ s : State,
    (exec .jtagTapReset s = .next { s with tap := ⟨.idcode, 0⟩ }) ∧
    (s.off = false →
      let out (k : OutKind) (d : List Nat) (i : TapInstr) : State := { s with tap := ⟨i, s.tap.preload⟩, outbox := s.outbox ++ [⟨k, 0, d⟩] }
      (exec .jtagBypass s = .next { s with tap := ⟨.bypass, s.tap.preload⟩ }) ∧ (exec .jtagIdcode s = .next (out .jtag [0x1C12_A8F3] .idcode)) ∧
      (∀ pins preload, exec (.jtagSamplePreload pins preload) s =
        .next { s with tap := ⟨.sample, preload⟩, outbox := s.outbox ++ [⟨.jtag, 0, [pins]⟩] }) ∧
      (let free (perst : Bool) : Prop := perst = true ∧ ∀ p, p < 24 → s.pstate p ≠ 2
       let barred (t : State) : Prop := s.computeKept t ∧ t.tap = ⟨.bypass, s.tap.preload⟩ ∧ (∀ o ∈ t.outbox, o.kind = .pin → o ∈ s.outbox) ∧
         t.jseq = s.jseq + 1 ∧ ∃ e, Tbl.find t.journal (s.jseq % 4096) = some e ∧ e.code = Code.BAD_REG_ACCESS ∧ e.iface = Source.code .jtag
       ∀ perst, (free perst → exec (.jtagExtest perst) s = .next (out .pin [s.tap.preload] .extest) ∧
           exec (.jtagClamp perst) s = .next (out .pin [s.tap.preload] .clamp)) ∧
         (¬ free perst → Goes (exec (.jtagExtest perst) s) barred ∧ Goes (exec (.jtagClamp perst) s) barred)) ∧
      ∀ a, a % 8 = 0 →
        (∀ v, Goes (exec (.jtagDebugAccess a (some v)) s) fun t => s.onlyFlits t ∧ (inRegs a = false → t.regs = s.regs) ∧
          t = { s with tap := ⟨.debug, s.tap.preload⟩, gathered := s.gathered ++ [⟨.jtag, a, true, true, v⟩], regs := t.regs }) ∧
        (inRegs a = true → s.dieUp (regDie a) = true → ¬ (s.wayOpen .jtag a = true ∧ ∀ y ∈ s.regReads, regDie y.addr ≠ regDie a) →
          exec (.jtagDebugAccess a none) s = .next { s with tap := ⟨.debug, s.tap.preload⟩, regReads := s.regReads ++ [⟨.jtag, a, 8⟩] }) ∧
        (inRegs a = true → s.dieUp (regDie a) = true → (s.wayOpen .jtag a = true ∧ ∀ y ∈ s.regReads, regDie y.addr ≠ regDie a) →
          Goes (exec (.jtagDebugAccess a none) s) fun t => s.onlyFlits t ∧ ∃ v : Word,
          t = { out .jtag [v.toNat] .debug with unread := t.unread, regs := t.regs } ∧
          (¬ isFlits a → v = s.readReg a)) ∧
        (inRegs a = false ∨ s.dieUp (regDie a) = false → Goes (exec (.jtagDebugAccess a none) s) fun t => s.onlyFlits t ∧
          (inRegs a = false → t.regs = s.regs) ∧ t = { out .jtag [2 ^ 64 - 1] .debug with regs := t.regs }))) ∧
  (∀ (s : State) (src : Source) (addr : Nat) (x : Nat × CmdId × Instr),
    x ∈ [(1, cmdFlashRead addr, .flashRead src addr), (2, cmdFlashProgram addr, .flashProgram src addr),
      (3, cmdFlashErase addr, .flashErase src addr)] →
    let a := addr % 2 ^ 32 / 512 * 512
    let st := a_MGMT_FLASH_STATUS
    let named := a < 0x1D1_0000 ∨ (0x1E0_0000 ≤ a ∧ a < 0x1E1_0000) ∨ (0x1F0_0000 ≤ a ∧ a < 0x1F1_0000)
    let open_ := a < 0x1D1_0000 ∧ ¬ (4 ≤ s.fld a_MGMT_BOOT f_MGMT_BOOT_STEP ∧ a / 0x80_0000 = s.fld a_MGMT_FW f_MGMT_FW_SLOT)
    let ok := (x.1 = 1 ∧ named) ∨ (x.1 ≠ 1 ∧ open_)
    let begun := ok ∧ (x.1 = 3 → a % 0x1_0000 = 0)
    (s.fld st f_MGMT_FLASH_STATUS_BUSY = 1 → s.alone = true → s.wayOpen src a_MGMT_FLASH_CTL = true → s.commandCode src x.2.1 = 0 → Goes (exec x.2.2 s) fun t => refused s t a_MGMT_FLASH_CTL ∧
      t.reg st = s.reg st) ∧
    (s.fld st f_MGMT_FLASH_STATUS_BUSY = 0 → AcceptsOnly s src x.2.1 [a_MGMT_FLASH_CTL, st] (exec x.2.2 s) fun t =>
      s.computeKept t ∧ t.flash = s.flash ∧ t.fld a_MGMT_FLASH_CTL f_MGMT_FLASH_CTL_ADDR = a / 512 ∧
      (begun → t.fld st f_MGMT_FLASH_STATUS_BUSY = 1 ∧ t.flashOp = some ⟨x.1, a, s.flashBuf⟩) ∧
      (¬ begun → t.fld st f_MGMT_FLASH_STATUS_BUSY = 0 ∧ t.flashOp = s.flashOp) ∧
      (¬ ok → t.fld st f_MGMT_FLASH_STATUS_RESULT = 1) ∧ (ok → ¬ begun → t.fld st f_MGMT_FLASH_STATUS_RESULT = 2))) ∧
  (∀ (s : State) (o : FlashOp) (held : Option (List Byte)), s.flashOp = some o →
    let st := a_MGMT_FLASH_STATUS
    let ends (t : State) (r : Nat) : Prop := s.computeKept t ∧ t.flashOp = none ∧ t.fld st f_MGMT_FLASH_STATUS_BUSY = 0 ∧
      t.fld st f_MGMT_FLASH_STATUS_RESULT = r ∧ t.fld st f_MGMT_FLASH_STATUS_OPS = (s.fld st f_MGMT_FLASH_STATUS_OPS + 1) % 2 ^ 32
    let writes (t : State) (bs : List Byte) : Prop := t.flashBytes o.addr 512 = bs ∧
      ∀ b, b < o.addr ∨ o.addr + 512 ≤ b → t.flashByte b = s.flashByte b
    (o.cmd = 1 → Goes (exec (.flashCommandDone held) s) fun t => ends t 0 ∧ t.flash = s.flash ∧
      (¬ (0x1E0_0000 ≤ o.addr ∧ o.addr < 0x1E1_0000) → ∀ w, w < 64 →
        t.reg (a_MGMT_FLASH_BUF w) = BitVec.ofNat 64 (natLE (s.flashBytes (o.addr + 8 * w) 8)))) ∧
    (o.cmd = 2 → o.data.length = 512 →
      (held = none → Goes (exec (.flashCommandDone held) s) fun t => ends t 0 ∧ writes t o.data) ∧
      ∀ l, held = some l → l.length = 512 → l ≠ o.data → Goes (exec (.flashCommandDone held) s) fun t => ends t 3 ∧ writes t l) ∧
    (o.cmd = 3 → Goes (exec (.flashCommandDone held) s) fun t => ends t 0 ∧
      ∀ b, t.flashByte b = if o.addr ≤ b ∧ b < o.addr + 0x1_0000 then 0xFF else s.flashByte b)) ∧
  (∀ (s : State) (svn : Option Nat),
    let fw := a_MGMT_FW
    let counter := s.fld a_MGMT_SEC f_MGMT_SEC_SVN
    let records (t : State) (code : Nat) : Prop := ∃ r ∈ t.recs.last, r.code = code ∧ r.seq = s.recs.seq + 1 ∧ r.die = 12
    let order (n k ms : Nat) (t : State) : Prop := s.told t n 0x11 (bytesLE 12 (k + ms * 2 ^ 64))
    let done (t : State) : Prop := s.computeKept t ∧ t.swapAsk = none ∧
      (∀ v, svn = some v → counter ≤ v → t.fld fw f_MGMT_FW_SLOT = 1 - s.fld fw f_MGMT_FW_SLOT ∧ t.fld fw f_MGMT_FW_SVN = v % 2 ^ 16 ∧
        t.fld fw f_MGMT_FW_OSVN = s.fld fw f_MGMT_FW_SVN ∧ t.fld fw f_MGMT_FW_OVALID = 1 ∧ records t Code.MGMT_SWAPPED ∧
        t.mgr.pause = s.tideOf 12 + 10_000_000_000 ∧
        (s.role = 1 → order (s.fld a_MGMT_ROLE f_MGMT_ROLE_SBNODE) 7 0 t ∧ order (s.fld a_MGMT_ROLE f_MGMT_ROLE_SBNODE) 6 10_000 t) ∧
        (s.role ≠ 1 → ∀ n, s.master = some n → order n 6 10_000 t)) ∧
      ((svn = none ∨ ∃ v, svn = some v ∧ v < counter) → t.fld fw f_MGMT_FW_SLOT = s.fld fw f_MGMT_FW_SLOT ∧ t.fld fw f_MGMT_FW_OVALID = 0 ∧
        t.fld fw f_MGMT_FW_SVN = s.fld fw f_MGMT_FW_SVN ∧ records t Code.FIRMWARE_BAD_SIGNATURE)
    (∀ src, s.swapAsk = none → s.role ≠ 1 ∨ s.sbKnown = true → Accepts s src cmdMgmtSwap (exec (.mgmtSwap (some src) svn) s) done) ∧
    (∀ src, s.swapAsk ≠ none ∨ (s.role = 1 ∧ s.sbKnown = false) → s.alone = true → s.wayOpen src a_MGMT_FWCTL = true → s.commandCode src cmdMgmtSwap = 0 →
      Goes (exec (.mgmtSwap (some src) svn) s) fun t => refused s t a_MGMT_FWCTL ∧ t.reg fw = s.reg fw ∧ t.swapAsk = s.swapAsk) ∧
    (s.swapAsk ≠ none → Goes (exec (.mgmtSwap none svn) s) done)) ∧
  ∀ (s : State) (src : Source) (value : Nat),
    let v := value % 2 ^ 16
    let may := (src = .pcie ∨ src = .mctp ∨ ∃ n e, src = .manager n e) ∧ s.fld a_MGMT_SEC f_MGMT_SEC_BURNING = 0 ∧
      s.fld a_MGMT_SEC f_MGMT_SEC_SVN < v ∧ v ≤ s.fld a_MGMT_FW f_MGMT_FW_SVN
    (may → AcceptsOnly s src (cmdSvnWrite value) [a_MGMT_SEC] (exec (.svnWrite src value) s) fun t => s.computeKept t ∧
      t.fld a_MGMT_SEC f_MGMT_SEC_SVN = v ∧ t.fld a_MGMT_SEC f_MGMT_SEC_BURNING = 1) ∧
    (¬ may → s.alone = true → s.wayOpen src a_MGMT_SEC = true → s.commandCode src (cmdSvnWrite value) = 0 → Goes (exec (.svnWrite src value) s) fun t => refused s t a_MGMT_SEC) ∧
    (Goes (exec .fuseBurnDone s) fun t => t = { s with regs := t.regs } ∧ s.onlyRegs t [a_MGMT_SEC] ∧
      t.fld a_MGMT_SEC f_MGMT_SEC_BURNING = 0 ∧ t.fld a_MGMT_SEC f_MGMT_SEC_SVN = s.fld a_MGMT_SEC f_MGMT_SEC_SVN)

/-- Commands are taken first in, first out. That an empty queue ends a tide tick is a DESIGN CHOICE (log entry 3). -/
def Obligations.StepRunsFront : Prop :=
  (∀ (s : State) (i : Instr) (rest : List Instr), step { s with pending := i :: rest } = exec i { s with pending := rest }) ∧
  (∀ (s : State) (i : Instr) (rest : List Instr), s.pending = i :: rest → step s = exec i { s with pending := rest }) ∧
  ∀ s : State, s.pending = [] → step s = .next s.tick

/-- The reset state (R88, R528): the values the spec gives. -/
def Obligations.ResetState : Prop :=
  let r := State.reset
  r.pending = [] ∧ r.marksWf = true ∧ r.flashWf = true ∧ r.pilotInv ∧ (∀ a, isHbm a = false → r.byte a = 0) ∧
  (∀ c, (r.core c).run = .halted ∧ (r.core c).prog = false ∧ (r.core c).pc = 0 ∧ (r.core c).standin = none ∧
    (∀ i, (r.core c).rg i = 0) ∧ (∀ i, (r.core c).vr i = 0) ∧ (∀ i, (r.core c).mr i = 0) ∧ ∀ n, (r.core c).token n = 0) ∧
  (∀ c, (r.press c).sticks = [] ∧ (r.press c).qe = [] ∧ (r.press c).ckv = [] ∧ (r.press c).seq = 0 ∧ (r.press c).halted = false) ∧
  (∀ die, r.tideOf die = 0) ∧ r.jseq = 0 ∧ r.journal = [] ∧ r.recs.seq = 0 ∧ r.recs.last = [] ∧ r.released = false ∧
  r.fld a_MGMT_BOOT f_MGMT_BOOT_STEP = 1 ∧ r.fld a_MGMT_BOOT f_MGMT_BOOT_HOLD = 0 ∧ r.fld a_UART_CFG f_UART_CFG_DIV = 13889 ∧
  r.fld a_PCIE_RING_CTL f_PCIE_RING_CTL_LOG2SIZE = 6 ∧ r.fld a_PCIE_RING_CTL f_PCIE_RING_CTL_EN = 0 ∧
  (∀ p, p < 24 → r.pstate p = 0) ∧ ∀ die blk, die < 16 → blk < 24 → r.fld (a_BLK_LOCK die blk) f_BLK_LOCK_LOCKED = 0

/-- Pilot words and their decoding (R110 to R116). The lane data of a vector command that its word does not name is 0 in what is decoded. -/
def Obligations.PilotWordsDecode : Prop :=
  (∀ (c : Nat) (rd ra rb rc : Fin 32) (imm : BitVec 14) (w16 : BitVec 16) (off : BitVec 26) (idx : BitVec 12) (kind : Fin 4) (sh tk tk' : Fin 64)
    (x y z : Fin 8) (p3 : Fin 3) (m4 : Fin 16) (f a : Fin 2) (q : BitVec 8) (b b' : Bool) (op : CsrOp) (i : Instr),
    i ∈ [.add c rd ra rb, .sub c rd ra rb, .and c rd ra rb, .or c rd ra rb, .xor c rd ra rb, .andn c rd ra rb, .shl c rd ra rb,
        .shr c rd ra rb, .sra c rd ra rb, .ror c rd ra rb, .slt c rd ra rb, .sltu c rd ra rb, .min c rd ra rb, .max c rd ra rb,
        .minu c rd ra rb, .maxu c rd ra rb, .addw c rd ra rb, .subw c rd ra rb, .clz c rd ra, .ctz c rd ra, .popc c rd ra,
        .sel c rd ra rb rc, .mul c rd ra rb, .mulh c rd ra rb, .mulhu c rd ra rb, .div c rd ra rb, .divu c rd ra rb, .rem c rd ra rb,
        .remu c rd ra rb, .madd c rd ra rb rc] ∨
    i ∈ [.addi c rd ra imm, .andi c rd ra imm, .ori c rd ra imm, .xori c rd ra imm, .slti c rd ra imm, .sltiu c rd ra imm,
        .shi c rd ra kind sh, .movz c rd kind w16, .movk c rd kind w16, .movn c rd kind w16, .lb c rd ra imm, .lh c rd ra imm,
        .lw c rd ra imm, .ld c rd ra imm, .lbu c rd ra imm, .lhu c rd ra imm, .lwu c rd ra imm, .sb c rd ra imm, .sh c rd ra imm,
        .sw c rd ra imm, .sd c rd ra imm, .beq c ra rb imm, .bne c ra rb imm, .blt c ra rb imm, .bge c ra rb imm, .bltu c ra rb imm,
        .bgeu c ra rb imm, .j c off, .jl c off] ∨
    i ∈ [.csrr c rd idx, .wumark c op rd ra, .jr c ra, .jlr c rd ra, .fence c b b', .waitev c rd, .trap c idx, .eret c, .enq c q ra,
        .press c m4 f a tk, .forme c tk tk' ra, .stickrd c tk tk' ra, .stickclr c m4 ra] ∨
    (idx ≠ 0x050 ∧ i ∈ [.csrw c rd ra idx, .csrs c rd ra idx, .csrc c rd ra idx]) ∨
    (tk ≠ 0 ∧ i ∈ [.tkwait c tk, .tktry c rd tk, .tkread c rd tk, .tkraise c tk, .tkset c tk ra]) ∨
    i ∈ [.vadd c x y rd ra rb 0, .vsub c x y rd ra rb 0, .vmul c x y rd ra rb 0, .vfma c x y rd ra rb 0, .vfnma c x y rd ra rb 0,
        .vdiv c x y rd ra rb, .vmin c x y rd ra rb, .vmax c x y rd ra rb, .vand c x y rd ra rb, .vor c x y rd ra rb, .vxor c x y rd ra rb,
        .vshl c x y rd ra rb, .vshr c x y rd ra rb, .vsra c x y rd ra rb, .vsqrt c x y rd ra, .vabs c x y rd ra, .vrcp c x y rd ra,
        .vrsqrt c x y rd ra, .vexp c x y rd ra, .vlog c x y rd ra, .vsig c x y rd ra, .vtanh c x y rd ra, .vneg c x y rd ra 0] ∨
    i ∈ [.vld c rd ra imm, .vst c rd ra imm, .vldm c x ra imm, .vstm c x ra imm, .vmov c x y rd ra, .vcvt c x y rd ra kind z,
        .vbcast c x y rd ra, .vextr c x rd ra rb, .vins c x rd ra rb, .vperm c x y rd ra rb, .viota c x y rd, .vrmax c x y rd ra,
        .vrmin c x y rd ra] ∨
    (y ≠ 0 ∧ i = .vsel c x y rd ra rb) ∨
    i ∈ [.vsclr c x ra, .vsadd c x y z ra 0, .vsdot c x y z ra rb 0, .vsacc c x y 0, .vsrd c x rd y rb, .vsraw c rd x p3, .vswraw c x ra p3,
        .vcmpeq c x y z ra rb, .vcmplt c x y z ra rb, .vcmple c x y z ra rb, .vcmpun c x y z ra rb, .mand c x y z, .mor c x y z,
        .mxor c x y z, .mnot c x y, .mpopc c x rd y] →
    pilotWord i < 2 ^ 32 ∧ decodePilot c (pilotWord i) = some i) ∧
  ∀ (c w : Nat) (i : Instr), w < 2 ^ 32 → decodePilot c w = some i → pilotWord i = w

/-- An invariant of every step of a pilot, over states that no run need reach. -/
def Obligations.PilotsKeepInvariant : Prop :=
  ∀ (s t : State) (i : Instr) (rest : List Instr), s.pilotInv → s.pending = i :: rest → Instr.ofPilot i → step s = .next t →
    t.pilotInv ∧ t.pending = rest
end

