-- ==== Sys2Proof/Laws/Field.lean ====
section
/-! SUPPORT. What a bit field reads after a write of it, or of a field beside it. -/

namespace Sys2Proof

/-- Bit `i` of a field: bit `lo + i` of the word. -/
theorem Fld.testBit_get (f : Fld) (w : Word) (i : Nat) :
    (f.get w).testBit i = (decide (i < f.width) && w.getLsbD (f.lo + i)) := by
  simp [Fld.get, Nat.testBit_mod_two_pow, Nat.testBit_div_two_pow, BitVec.getLsbD, Nat.add_comm]

/-- Bit `j` of a word after a write of a field. -/
theorem Fld.getLsbD_set (f : Fld) (w : Word) (v j : Nat) :
    (f.set w v).getLsbD j = (decide (j < 64) &&
      if f.lo ≤ j ∧ j < f.lo + f.width then v.testBit (j - f.lo) else w.getLsbD j) := by
  have key : ∀ m n : Nat, (BitVec.ofNat 64 ((m % 2 ^ n) * 2 ^ f.lo)).getLsbD j
      = (decide (j < 64) && (decide (f.lo ≤ j) && (decide (j - f.lo < n) && m.testBit (j - f.lo)))) := by
    intro m n
    rw [BitVec.getLsbD_ofNat, Nat.testBit_mul_two_pow, Nat.testBit_mod_two_pow]
  have mk : ∀ n : Nat, (2 ^ n - 1) = (2 ^ n - 1) % 2 ^ n := fun n =>
    (Nat.mod_eq_of_lt (Nat.sub_lt (Nat.two_pow_pos n) (by omega))).symm
  unfold Fld.set Fld.mask
  rw [mk f.width]
  simp only [BitVec.getLsbD_or, BitVec.getLsbD_and, BitVec.getLsbD_not, key, Nat.testBit_two_pow_sub_one]
  by_cases h64 : j < 64
  · by_cases hlo : f.lo ≤ j
    · by_cases hw : j - f.lo < f.width
      · have : j < f.lo + f.width := by omega
        simp [h64, hlo, hw, this]
      · have : ¬ j < f.lo + f.width := by omega
        simp [h64, hlo, hw, this]
    · simp [h64, hlo]
  · have : w.getLsbD j = false := BitVec.getLsbD_of_ge w j (by omega)
    simp [h64, this]

/-- A field read after its write. -/
theorem Fld.get_set (f : Fld) (w : Word) (v : Nat) (h1 : f.lo ≤ f.hi) (h2 : f.hi < 64) :
    f.get (f.set w v) = v % 2 ^ f.width := by
  apply Nat.eq_of_testBit_eq
  intro i
  rw [Fld.testBit_get, Fld.getLsbD_set, Nat.testBit_mod_two_pow]
  by_cases h : i < f.width
  · have hw : f.width = f.hi + 1 - f.lo := rfl
    have : f.lo + i < 64 := by omega
    simp [h, this]
  · simp [h]

/-- A field read after a write of a field beside it. -/
theorem Fld.get_set_disjoint (f g : Fld) (w : Word) (v : Nat) (h1 : f.lo ≤ f.hi) (_h2 : f.hi < 64) (h3 : g.hi < 64)
    (h : g.hi < f.lo ∨ f.hi < g.lo) : g.get (f.set w v) = g.get w := by
  apply Nat.eq_of_testBit_eq
  intro i
  rw [Fld.testBit_get, Fld.testBit_get, Fld.getLsbD_set]
  by_cases hi : i < g.width
  · have hw : f.width = f.hi + 1 - f.lo := rfl
    have hg : g.width = g.hi + 1 - g.lo := rfl
    have h64 : g.lo + i < 64 := by omega
    have hn : ¬ (f.lo ≤ g.lo + i ∧ g.lo + i < f.lo + f.width) := by omega
    simp [hi, h64, hn]
  · simp [hi]

/-- A field fits its width. -/
theorem Fld.get_lt (f : Fld) (w : Word) : f.get w < 2 ^ f.width := Nat.mod_lt _ (Nat.two_pow_pos _)

end Sys2Proof
end

