-- ==== Sys2Proof/Laws/Table.lean ====
section
/-! SUPPORT. What a sparse table reads after a write, and that every write keeps the canonical form. -/

namespace Sys2Proof

variable {α : Type}

theorem Tbl.find_erase (t : Tbl α) (k : Nat) : Tbl.find (Tbl.erase t k) k = none := by
  induction t with
  | nil => rfl
  | cons e r ih =>
    obtain ⟨k', v⟩ := e
    by_cases h : k' = k <;> simp [Tbl.erase, Tbl.find, h, ih]

theorem Tbl.find_erase_ne (t : Tbl α) {k j : Nat} (h : j ≠ k) : Tbl.find (Tbl.erase t k) j = Tbl.find t j := by
  induction t with
  | nil => rfl
  | cons e r ih =>
    obtain ⟨k', v⟩ := e
    by_cases hk : k' = k
    · subst hk; simp [Tbl.erase, Tbl.find, Ne.symm h, ih]
    · simp only [Tbl.erase, hk, if_false, Tbl.find, ih]

theorem Tbl.find_insert (t : Tbl α) (k : Nat) (v : α) : Tbl.find (Tbl.insert t k v) k = some v := by
  induction t with
  | nil => simp [Tbl.insert, Tbl.find]
  | cons e r ih =>
    obtain ⟨k', w⟩ := e
    by_cases h1 : k < k'
    · simp [Tbl.insert, Tbl.find, h1]
    · by_cases h2 : k = k'
      · simp [Tbl.insert, Tbl.find, h2]
      · simp [Tbl.insert, Tbl.find, h1, h2, Ne.symm h2, ih]

theorem Tbl.find_insert_ne (t : Tbl α) {k j : Nat} (v : α) (h : j ≠ k) : Tbl.find (Tbl.insert t k v) j = Tbl.find t j := by
  induction t with
  | nil => simp [Tbl.insert, Tbl.find, Ne.symm h]
  | cons e r ih =>
    obtain ⟨k', w⟩ := e
    by_cases h1 : k < k'
    · simp [Tbl.insert, Tbl.find, h1, Ne.symm h]
    · by_cases h2 : k = k'
      · subst h2; simp [Tbl.insert, Tbl.find, Ne.symm h]
      · simp only [Tbl.insert, h1, h2, if_false, Tbl.find, ih]

@[simp] theorem Tbl.get_nil (d : α) (k : Nat) : Tbl.get d [] k = d := rfl

/-- A read of the key just written gives the value written. -/
@[simp] theorem Tbl.get_set [DecidableEq α] (d : α) (t : Tbl α) (k : Nat) (v : α) : Tbl.get d (Tbl.set d t k v) k = v := by
  by_cases h : v = d <;> simp [Tbl.get, Tbl.set, h, Tbl.find_erase, Tbl.find_insert]

/-- A write leaves every other key alone. -/
theorem Tbl.get_set_ne [DecidableEq α] (d : α) {d' : α} (t : Tbl α) {k j : Nat} (v : α) (h : j ≠ k) :
    Tbl.get d' (Tbl.set d t k v) j = Tbl.get d' t j := by
  by_cases hv : v = d <;> simp [Tbl.get, Tbl.set, hv, Tbl.find_erase_ne _ h, Tbl.find_insert_ne _ _ h]

/-- Both at once. -/
theorem Tbl.get_set_if [DecidableEq α] (d : α) (t : Tbl α) (k j : Nat) (v : α) :
    Tbl.get d (Tbl.set d t k v) j = if j = k then v else Tbl.get d t j := by
  by_cases h : j = k
  · subst h; simp
  · simp [h, Tbl.get_set_ne _ _ _ h]

/-- Keys that rise above a bound rise above a lower one. -/
theorem Tbl.rising_mono {lo lo' : Nat} {t : Tbl α} (h : lo' ≤ lo) (ht : Tbl.rising (some lo) t = true) :
    Tbl.rising (some lo') t = true := by
  cases t with
  | nil => rfl
  | cons e r =>
    obtain ⟨k, v⟩ := e
    simp only [Tbl.rising, Bool.and_eq_true, decide_eq_true_eq] at ht ⊢
    exact ⟨by omega, ht.2⟩

theorem Tbl.rising_erase {lo : Nat} {t : Tbl α} (k : Nat) (h : Tbl.rising (some lo) t = true) :
    Tbl.rising (some lo) (Tbl.erase t k) = true := by
  induction t generalizing lo with
  | nil => rfl
  | cons e r ih =>
    obtain ⟨k', v⟩ := e
    simp only [Tbl.rising, Bool.and_eq_true, decide_eq_true_eq] at h
    by_cases hk : k' = k
    · simpa [Tbl.erase, hk] using ih (Tbl.rising_mono (Nat.le_of_lt h.1) h.2)
    · simp [Tbl.erase, hk, Tbl.rising, h.1, ih h.2]

theorem Tbl.rising_insert {lo : Nat} {t : Tbl α} {k : Nat} (v : α) (hk : lo < k) (h : Tbl.rising (some lo) t = true) :
    Tbl.rising (some lo) (Tbl.insert t k v) = true := by
  induction t generalizing lo with
  | nil => simp [Tbl.insert, Tbl.rising, hk]
  | cons e r ih =>
    obtain ⟨k', w⟩ := e
    simp only [Tbl.rising, Bool.and_eq_true, decide_eq_true_eq] at h
    by_cases h1 : k < k'
    · simp [Tbl.insert, Tbl.rising, h1, hk, h.2]
    · by_cases h2 : k = k'
      · simp [Tbl.insert, Tbl.rising, h2, h.1, h.2]
      · simp [Tbl.insert, Tbl.rising, h1, h2, h.1, ih (show k' < k by omega) h.2]

/-- A table rises from nothing when it rises above a bound below its first key. -/
theorem Tbl.rising_none {t : Tbl α} : Tbl.rising none t = true ↔ ∀ k v r, t = (k, v) :: r → Tbl.rising (some k) r = true := by
  cases t with
  | nil => simp [Tbl.rising]
  | cons e r => obtain ⟨k, v⟩ := e; simp [Tbl.rising]

theorem Tbl.rising_none_of {lo : Nat} {t : Tbl α} (h : Tbl.rising (some lo) t = true) : Tbl.rising none t = true := by
  cases t with
  | nil => rfl
  | cons e r => obtain ⟨k, v⟩ := e; simp only [Tbl.rising, Bool.and_eq_true] at h ⊢; exact h.2

theorem Tbl.rising_none_erase {t : Tbl α} (k : Nat) (h : Tbl.rising none t = true) : Tbl.rising none (Tbl.erase t k) = true := by
  cases t with
  | nil => rfl
  | cons e r =>
    obtain ⟨k', v⟩ := e
    simp only [Tbl.rising] at h
    by_cases hk : k' = k
    · simpa [Tbl.erase, hk] using Tbl.rising_none_of (Tbl.rising_erase k h)
    · simpa [Tbl.erase, hk, Tbl.rising] using Tbl.rising_erase k h

theorem Tbl.rising_none_insert {t : Tbl α} (k : Nat) (v : α) (h : Tbl.rising none t = true) :
    Tbl.rising none (Tbl.insert t k v) = true := by
  cases t with
  | nil => rfl
  | cons e r =>
    obtain ⟨k', w⟩ := e
    simp only [Tbl.rising] at h
    by_cases h1 : k < k'
    · simp [Tbl.insert, Tbl.rising, h1, h]
    · by_cases h2 : k = k'
      · simp [Tbl.insert, Tbl.rising, h2, h]
      · simpa [Tbl.insert, Tbl.rising, h1, h2] using Tbl.rising_insert v (show k' < k by omega) h

theorem Tbl.mem_erase {t : Tbl α} {k : Nat} {e : Nat × α} (h : e ∈ Tbl.erase t k) : e ∈ t := by
  induction t with
  | nil => exact h
  | cons e' r ih =>
    obtain ⟨k', v⟩ := e'
    by_cases hk : k' = k
    · simp only [Tbl.erase, hk, if_true] at h; exact List.mem_cons_of_mem _ (ih h)
    · simp only [Tbl.erase, hk, if_false, List.mem_cons] at h
      rcases h with h | h
      · exact h ▸ List.mem_cons_self
      · exact List.mem_cons_of_mem _ (ih h)

theorem Tbl.mem_insert {t : Tbl α} {k : Nat} {v : α} {e : Nat × α} (h : e ∈ Tbl.insert t k v) : e = (k, v) ∨ e ∈ t := by
  induction t with
  | nil => simpa [Tbl.insert] using h
  | cons e' r ih =>
    obtain ⟨k', w⟩ := e'
    by_cases h1 : k < k'
    · simpa [Tbl.insert, h1] using h
    · by_cases h2 : k = k'
      · subst h2
        simp only [Tbl.insert, Nat.lt_irrefl, if_false, if_true, List.mem_cons] at h ⊢
        rcases h with h | h
        · exact .inl h
        · exact .inr (.inr h)
      · simp only [Tbl.insert, h1, h2, if_false, List.mem_cons] at h ⊢
        rcases h with h | h
        · exact .inr (.inl h)
        · rcases ih h with h | h
          · exact .inl h
          · exact .inr (.inr h)

/-- The canonical form said over entries. -/
theorem Tbl.wf_iff [DecidableEq α] {d : α} {t : Tbl α} :
    Tbl.wf d t = true ↔ Tbl.rising none t = true ∧ ∀ e ∈ t, e.2 ≠ d := by
  simp [Tbl.wf, Tbl.clean, List.all_eq_true]

@[simp] theorem Tbl.wf_nil [DecidableEq α] (d : α) : Tbl.wf d [] = true := rfl

/-- A write keeps the canonical form. -/
theorem Tbl.wf_set [DecidableEq α] {d : α} {t : Tbl α} (k : Nat) (v : α) (h : Tbl.wf d t = true) :
    Tbl.wf d (Tbl.set d t k v) = true := by
  rw [Tbl.wf_iff] at h ⊢
  by_cases hv : v = d
  · simp only [Tbl.set, hv, if_true]
    exact ⟨Tbl.rising_none_erase k h.1, fun e he => h.2 e (Tbl.mem_erase he)⟩
  · simp only [Tbl.set, hv, if_false]
    refine ⟨Tbl.rising_none_insert k v h.1, fun e he => ?_⟩
    rcases Tbl.mem_insert he with he | he
    · simpa [he] using hv
    · exact h.2 e he

theorem Tbl.rising_filter {t : Tbl α} (p : Nat × α → Bool) {lo : Nat} (h : Tbl.rising (some lo) t = true) :
    Tbl.rising (some lo) (t.filter p) = true := by
  induction t generalizing lo with
  | nil => rfl
  | cons e r ih =>
    obtain ⟨k, v⟩ := e
    simp only [Tbl.rising, Bool.and_eq_true, decide_eq_true_eq] at h
    by_cases hp : p (k, v) = true
    · simp [List.filter_cons, hp, Tbl.rising, h.1, ih h.2]
    · simpa [List.filter_cons, hp] using ih (Tbl.rising_mono (Nat.le_of_lt h.1) h.2)

/-- Taking entries out keeps the canonical form. -/
theorem Tbl.wf_filter [DecidableEq α] {d : α} {t : Tbl α} (p : Nat × α → Bool) (h : Tbl.wf d t = true) :
    Tbl.wf d (t.filter p) = true := by
  rw [Tbl.wf_iff] at h ⊢
  refine ⟨?_, fun e he => h.2 e (List.mem_filter.mp he).1⟩
  cases t with
  | nil => rfl
  | cons e r =>
    obtain ⟨k, v⟩ := e
    have hr : Tbl.rising (some k) r = true := by simpa [Tbl.rising] using h.1
    by_cases hp : p (k, v) = true
    · simpa [List.filter_cons, hp, Tbl.rising] using Tbl.rising_filter p hr
    · simpa [List.filter_cons, hp] using Tbl.rising_none_of (Tbl.rising_filter p hr)

end Sys2Proof
end

