-- ==== Sys2Proof/Laws/State.lean ====
section
/-! SUPPORT. What each update of the state leaves alone, field by field, and what a read gives after it. -/

namespace Sys2Proof.Machine
open Sys2Proof

section
variable (s : State) (a : Nat) (v : Word)

@[simp] theorem State.setReg_pending : (s.setReg a v).pending = s.pending := rfl
@[simp] theorem State.setReg_freeCount : (s.setReg a v).freeCount = s.freeCount := rfl
@[simp] theorem State.setReg_mem : (s.setReg a v).mem = s.mem := rfl
@[simp] theorem State.setReg_marks : (s.setReg a v).marks = s.marks := rfl
@[simp] theorem State.setReg_gathered : (s.setReg a v).gathered = s.gathered := rfl
@[simp] theorem State.setReg_latches : (s.setReg a v).latches = s.latches := rfl
@[simp] theorem State.setReg_holds : (s.setReg a v).holds = s.holds := rfl
@[simp] theorem State.setReg_released : (s.setReg a v).released = s.released := rfl
@[simp] theorem State.setReg_lost : (s.setReg a v).lost = s.lost := rfl
@[simp] theorem State.setReg_tide : (s.setReg a v).tide = s.tide := rfl
@[simp] theorem State.setReg_cores : (s.setReg a v).cores = s.cores := rfl
@[simp] theorem State.setReg_presses : (s.setReg a v).presses = s.presses := rfl
@[simp] theorem State.setReg_lighters : (s.setReg a v).lighters = s.lighters := rfl
@[simp] theorem State.setReg_unread : (s.setReg a v).unread = s.unread := rfl
@[simp] theorem State.setReg_chk : (s.setReg a v).chk = s.chk := rfl
@[simp] theorem State.setReg_units : (s.setReg a v).units = s.units := rfl
@[simp] theorem State.setReg_rehearsals : (s.setReg a v).rehearsals = s.rehearsals := rfl
@[simp] theorem State.setReg_detections : (s.setReg a v).detections = s.detections := rfl
@[simp] theorem State.setReg_standAsks : (s.setReg a v).standAsks = s.standAsks := rfl
@[simp] theorem State.setReg_teardownAsks : (s.setReg a v).teardownAsks = s.teardownAsks := rfl
@[simp] theorem State.setReg_recs : (s.setReg a v).recs = s.recs := rfl
@[simp] theorem State.setReg_journal : (s.setReg a v).journal = s.journal := rfl
@[simp] theorem State.setReg_jseq : (s.setReg a v).jseq = s.jseq := rfl
@[simp] theorem State.setReg_applied : (s.setReg a v).applied = s.applied := rfl
@[simp] theorem State.setReg_ordersNow : (s.setReg a v).ordersNow = s.ordersNow := rfl
@[simp] theorem State.setReg_pcie : (s.setReg a v).pcie = s.pcie := rfl
@[simp] theorem State.setReg_uart : (s.setReg a v).uart = s.uart := rfl
@[simp] theorem State.setReg_pilotFw : (s.setReg a v).pilotFw = s.pilotFw := rfl
@[simp] theorem State.setReg_delays : (s.setReg a v).delays = s.delays := rfl
@[simp] theorem State.setReg_replays : (s.setReg a v).replays = s.replays := rfl
@[simp] theorem State.setReg_regReads : (s.setReg a v).regReads = s.regReads := rfl
@[simp] theorem State.setReg_unitErrs : (s.setReg a v).unitErrs = s.unitErrs := rfl
@[simp] theorem State.setReg_dirBad : (s.setReg a v).dirBad = s.dirBad := rfl
@[simp] theorem State.setReg_duties : (s.setReg a v).duties = s.duties := rfl
@[simp] theorem State.setReg_otDone : (s.setReg a v).otDone = s.otDone := rfl
@[simp] theorem State.setReg_ramps : (s.setReg a v).ramps = s.ramps := rfl
@[simp] theorem State.setReg_injections : (s.setReg a v).injections = s.injections := rfl
@[simp] theorem State.setReg_engines : (s.setReg a v).engines = s.engines := rfl
@[simp] theorem State.setReg_hist : (s.setReg a v).hist = s.hist := rfl
@[simp] theorem State.setReg_histRanges : (s.setReg a v).histRanges = s.histRanges := rfl
@[simp] theorem State.setReg_galleys : (s.setReg a v).galleys = s.galleys := rfl
@[simp] theorem State.setReg_berths : (s.setReg a v).berths = s.berths := rfl
@[simp] theorem State.setReg_audits : (s.setReg a v).audits = s.audits := rfl
@[simp] theorem State.setReg_laneAsks : (s.setReg a v).laneAsks = s.laneAsks := rfl
@[simp] theorem State.setReg_quay : (s.setReg a v).quay = s.quay := rfl
@[simp] theorem State.setReg_homes : (s.setReg a v).homes = s.homes := rfl
@[simp] theorem State.setReg_dirs : (s.setReg a v).dirs = s.dirs := rfl
@[simp] theorem State.setReg_invals : (s.setReg a v).invals = s.invals := rfl
@[simp] theorem State.setReg_ctxs : (s.setReg a v).ctxs = s.ctxs := rfl
@[simp] theorem State.setReg_hbms : (s.setReg a v).hbms = s.hbms := rfl
@[simp] theorem State.setReg_links : (s.setReg a v).links = s.links := rfl
@[simp] theorem State.setReg_clockLost : (s.setReg a v).clockLost = s.clockLost := rfl
@[simp] theorem State.setReg_refLost : (s.setReg a v).refLost = s.refLost := rfl
@[simp] theorem State.setReg_routers : (s.setReg a v).routers = s.routers := rfl
@[simp] theorem State.setReg_collCtxs : (s.setReg a v).collCtxs = s.collCtxs := rfl
@[simp] theorem State.setReg_collRecs : (s.setReg a v).collRecs = s.collRecs := rfl
@[simp] theorem State.setReg_collEarly : (s.setReg a v).collEarly = s.collEarly := rfl
@[simp] theorem State.setReg_collSeen : (s.setReg a v).collSeen = s.collSeen := rfl
@[simp] theorem State.setReg_ccHeld : (s.setReg a v).ccHeld = s.ccHeld := rfl
@[simp] theorem State.setReg_votes : (s.setReg a v).votes = s.votes := rfl
@[simp] theorem State.setReg_modPg : (s.setReg a v).modPg = s.modPg := rfl
@[simp] theorem State.setReg_abortsFlooded : (s.setReg a v).abortsFlooded = s.abortsFlooded := rfl
@[simp] theorem State.setReg_teardownsSeen : (s.setReg a v).teardownsSeen = s.teardownsSeen := rfl
@[simp] theorem State.setReg_recordReady : (s.setReg a v).recordReady = s.recordReady := rfl
@[simp] theorem State.setReg_lasers : (s.setReg a v).lasers = s.lasers := rfl
@[simp] theorem State.setReg_takeovers : (s.setReg a v).takeovers = s.takeovers := rfl
@[simp] theorem State.setReg_declared : (s.setReg a v).declared = s.declared := rfl
@[simp] theorem State.setReg_waves : (s.setReg a v).waves = s.waves := rfl
@[simp] theorem State.setReg_ports : (s.setReg a v).ports = s.ports := rfl
@[simp] theorem State.setReg_lanes : (s.setReg a v).lanes = s.lanes := rfl
@[simp] theorem State.setReg_stide : (s.setReg a v).stide = s.stide := rfl
@[simp] theorem State.setReg_ctl : (s.setReg a v).ctl = s.ctl := rfl
@[simp] theorem State.setReg_servo : (s.setReg a v).servo = s.servo := rfl
@[simp] theorem State.setReg_mgr : (s.setReg a v).mgr = s.mgr := rfl
@[simp] theorem State.setReg_torn : (s.setReg a v).torn = s.torn := rfl
@[simp] theorem State.setReg_entries : (s.setReg a v).entries = s.entries := rfl
@[simp] theorem State.setReg_puts : (s.setReg a v).puts = s.puts := rfl
@[simp] theorem State.setReg_collAsks : (s.setReg a v).collAsks = s.collAsks := rfl
@[simp] theorem State.setReg_maints : (s.setReg a v).maints = s.maints := rfl
@[simp] theorem State.setReg_follow : (s.setReg a v).follow = s.follow := rfl
@[simp] theorem State.setReg_preempts : (s.setReg a v).preempts = s.preempts := rfl
@[simp] theorem State.setReg_staged : (s.setReg a v).staged = s.staged := rfl
@[simp] theorem State.setReg_boot : (s.setReg a v).boot = s.boot := rfl
@[simp] theorem State.setReg_loader : (s.setReg a v).loader = s.loader := rfl
@[simp] theorem State.setReg_claims : (s.setReg a v).claims = s.claims := rfl
@[simp] theorem State.setReg_tornOld : (s.setReg a v).tornOld = s.tornOld := rfl
@[simp] theorem State.setReg_off : (s.setReg a v).off = s.off := rfl
@[simp] theorem State.setReg_flash : (s.setReg a v).flash = s.flash := rfl
@[simp] theorem State.setReg_broken : (s.setReg a v).broken = s.broken := rfl
@[simp] theorem State.setReg_flashQuar : (s.setReg a v).flashQuar = s.flashQuar := rfl
@[simp] theorem State.setReg_supply : (s.setReg a v).supply = s.supply := rfl
@[simp] theorem State.setReg_budgets : (s.setReg a v).budgets = s.budgets := rfl
@[simp] theorem State.setReg_budgetSent : (s.setReg a v).budgetSent = s.budgetSent := rfl
@[simp] theorem State.setReg_budgetDone : (s.setReg a v).budgetDone = s.budgetDone := rfl
@[simp] theorem State.setReg_calm : (s.setReg a v).calm = s.calm := rfl
@[simp] theorem State.setReg_hot : (s.setReg a v).hot = s.hot := rfl
@[simp] theorem State.setReg_rising : (s.setReg a v).rising = s.rising := rfl
@[simp] theorem State.setReg_crossStops : (s.setReg a v).crossStops = s.crossStops := rfl
@[simp] theorem State.setReg_hostReads : (s.setReg a v).hostReads = s.hostReads := rfl
@[simp] theorem State.setReg_preemptDps : (s.setReg a v).preemptDps = s.preemptDps := rfl
@[simp] theorem State.setReg_qps : (s.setReg a v).qps = s.qps := rfl
@[simp] theorem State.setReg_ethPause : (s.setReg a v).ethPause = s.ethPause := rfl
@[simp] theorem State.setReg_ethHeld : (s.setReg a v).ethHeld = s.ethHeld := rfl
@[simp] theorem State.setReg_ptp : (s.setReg a v).ptp = s.ptp := rfl
@[simp] theorem State.setReg_lastHcrc : (s.setReg a v).lastHcrc = s.lastHcrc := rfl
@[simp] theorem State.setReg_eid : (s.setReg a v).eid = s.eid := rfl
@[simp] theorem State.setReg_spdm : (s.setReg a v).spdm = s.spdm := rfl
@[simp] theorem State.setReg_uartRx : (s.setReg a v).uartRx = s.uartRx := rfl
@[simp] theorem State.setReg_tap : (s.setReg a v).tap = s.tap := rfl
@[simp] theorem State.setReg_flashOp : (s.setReg a v).flashOp = s.flashOp := rfl
@[simp] theorem State.setReg_swapAsk : (s.setReg a v).swapAsk = s.swapAsk := rfl
@[simp] theorem State.setReg_outbox : (s.setReg a v).outbox = s.outbox := rfl

end

section
variable (s : State) (a : Nat) (f : Fld) (v : Nat)

@[simp] theorem State.setFld_pending : (s.setFld a f v).pending = s.pending := rfl
@[simp] theorem State.setFld_freeCount : (s.setFld a f v).freeCount = s.freeCount := rfl
@[simp] theorem State.setFld_mem : (s.setFld a f v).mem = s.mem := rfl
@[simp] theorem State.setFld_marks : (s.setFld a f v).marks = s.marks := rfl
@[simp] theorem State.setFld_gathered : (s.setFld a f v).gathered = s.gathered := rfl
@[simp] theorem State.setFld_latches : (s.setFld a f v).latches = s.latches := rfl
@[simp] theorem State.setFld_holds : (s.setFld a f v).holds = s.holds := rfl
@[simp] theorem State.setFld_released : (s.setFld a f v).released = s.released := rfl
@[simp] theorem State.setFld_lost : (s.setFld a f v).lost = s.lost := rfl
@[simp] theorem State.setFld_tide : (s.setFld a f v).tide = s.tide := rfl
@[simp] theorem State.setFld_cores : (s.setFld a f v).cores = s.cores := rfl
@[simp] theorem State.setFld_presses : (s.setFld a f v).presses = s.presses := rfl
@[simp] theorem State.setFld_lighters : (s.setFld a f v).lighters = s.lighters := rfl
@[simp] theorem State.setFld_unread : (s.setFld a f v).unread = s.unread := rfl
@[simp] theorem State.setFld_chk : (s.setFld a f v).chk = s.chk := rfl
@[simp] theorem State.setFld_units : (s.setFld a f v).units = s.units := rfl
@[simp] theorem State.setFld_rehearsals : (s.setFld a f v).rehearsals = s.rehearsals := rfl
@[simp] theorem State.setFld_detections : (s.setFld a f v).detections = s.detections := rfl
@[simp] theorem State.setFld_standAsks : (s.setFld a f v).standAsks = s.standAsks := rfl
@[simp] theorem State.setFld_teardownAsks : (s.setFld a f v).teardownAsks = s.teardownAsks := rfl
@[simp] theorem State.setFld_recs : (s.setFld a f v).recs = s.recs := rfl
@[simp] theorem State.setFld_journal : (s.setFld a f v).journal = s.journal := rfl
@[simp] theorem State.setFld_jseq : (s.setFld a f v).jseq = s.jseq := rfl
@[simp] theorem State.setFld_applied : (s.setFld a f v).applied = s.applied := rfl
@[simp] theorem State.setFld_ordersNow : (s.setFld a f v).ordersNow = s.ordersNow := rfl
@[simp] theorem State.setFld_pcie : (s.setFld a f v).pcie = s.pcie := rfl
@[simp] theorem State.setFld_uart : (s.setFld a f v).uart = s.uart := rfl
@[simp] theorem State.setFld_pilotFw : (s.setFld a f v).pilotFw = s.pilotFw := rfl
@[simp] theorem State.setFld_delays : (s.setFld a f v).delays = s.delays := rfl
@[simp] theorem State.setFld_replays : (s.setFld a f v).replays = s.replays := rfl
@[simp] theorem State.setFld_regReads : (s.setFld a f v).regReads = s.regReads := rfl
@[simp] theorem State.setFld_unitErrs : (s.setFld a f v).unitErrs = s.unitErrs := rfl
@[simp] theorem State.setFld_dirBad : (s.setFld a f v).dirBad = s.dirBad := rfl
@[simp] theorem State.setFld_duties : (s.setFld a f v).duties = s.duties := rfl
@[simp] theorem State.setFld_otDone : (s.setFld a f v).otDone = s.otDone := rfl
@[simp] theorem State.setFld_ramps : (s.setFld a f v).ramps = s.ramps := rfl
@[simp] theorem State.setFld_injections : (s.setFld a f v).injections = s.injections := rfl
@[simp] theorem State.setFld_engines : (s.setFld a f v).engines = s.engines := rfl
@[simp] theorem State.setFld_hist : (s.setFld a f v).hist = s.hist := rfl
@[simp] theorem State.setFld_histRanges : (s.setFld a f v).histRanges = s.histRanges := rfl
@[simp] theorem State.setFld_galleys : (s.setFld a f v).galleys = s.galleys := rfl
@[simp] theorem State.setFld_berths : (s.setFld a f v).berths = s.berths := rfl
@[simp] theorem State.setFld_audits : (s.setFld a f v).audits = s.audits := rfl
@[simp] theorem State.setFld_laneAsks : (s.setFld a f v).laneAsks = s.laneAsks := rfl
@[simp] theorem State.setFld_quay : (s.setFld a f v).quay = s.quay := rfl
@[simp] theorem State.setFld_homes : (s.setFld a f v).homes = s.homes := rfl
@[simp] theorem State.setFld_dirs : (s.setFld a f v).dirs = s.dirs := rfl
@[simp] theorem State.setFld_invals : (s.setFld a f v).invals = s.invals := rfl
@[simp] theorem State.setFld_ctxs : (s.setFld a f v).ctxs = s.ctxs := rfl
@[simp] theorem State.setFld_hbms : (s.setFld a f v).hbms = s.hbms := rfl
@[simp] theorem State.setFld_links : (s.setFld a f v).links = s.links := rfl
@[simp] theorem State.setFld_clockLost : (s.setFld a f v).clockLost = s.clockLost := rfl
@[simp] theorem State.setFld_refLost : (s.setFld a f v).refLost = s.refLost := rfl
@[simp] theorem State.setFld_routers : (s.setFld a f v).routers = s.routers := rfl
@[simp] theorem State.setFld_collCtxs : (s.setFld a f v).collCtxs = s.collCtxs := rfl
@[simp] theorem State.setFld_collRecs : (s.setFld a f v).collRecs = s.collRecs := rfl
@[simp] theorem State.setFld_collEarly : (s.setFld a f v).collEarly = s.collEarly := rfl
@[simp] theorem State.setFld_collSeen : (s.setFld a f v).collSeen = s.collSeen := rfl
@[simp] theorem State.setFld_ccHeld : (s.setFld a f v).ccHeld = s.ccHeld := rfl
@[simp] theorem State.setFld_votes : (s.setFld a f v).votes = s.votes := rfl
@[simp] theorem State.setFld_modPg : (s.setFld a f v).modPg = s.modPg := rfl
@[simp] theorem State.setFld_abortsFlooded : (s.setFld a f v).abortsFlooded = s.abortsFlooded := rfl
@[simp] theorem State.setFld_teardownsSeen : (s.setFld a f v).teardownsSeen = s.teardownsSeen := rfl
@[simp] theorem State.setFld_recordReady : (s.setFld a f v).recordReady = s.recordReady := rfl
@[simp] theorem State.setFld_lasers : (s.setFld a f v).lasers = s.lasers := rfl
@[simp] theorem State.setFld_takeovers : (s.setFld a f v).takeovers = s.takeovers := rfl
@[simp] theorem State.setFld_declared : (s.setFld a f v).declared = s.declared := rfl
@[simp] theorem State.setFld_waves : (s.setFld a f v).waves = s.waves := rfl
@[simp] theorem State.setFld_ports : (s.setFld a f v).ports = s.ports := rfl
@[simp] theorem State.setFld_lanes : (s.setFld a f v).lanes = s.lanes := rfl
@[simp] theorem State.setFld_stide : (s.setFld a f v).stide = s.stide := rfl
@[simp] theorem State.setFld_ctl : (s.setFld a f v).ctl = s.ctl := rfl
@[simp] theorem State.setFld_servo : (s.setFld a f v).servo = s.servo := rfl
@[simp] theorem State.setFld_mgr : (s.setFld a f v).mgr = s.mgr := rfl
@[simp] theorem State.setFld_torn : (s.setFld a f v).torn = s.torn := rfl
@[simp] theorem State.setFld_entries : (s.setFld a f v).entries = s.entries := rfl
@[simp] theorem State.setFld_puts : (s.setFld a f v).puts = s.puts := rfl
@[simp] theorem State.setFld_collAsks : (s.setFld a f v).collAsks = s.collAsks := rfl
@[simp] theorem State.setFld_maints : (s.setFld a f v).maints = s.maints := rfl
@[simp] theorem State.setFld_follow : (s.setFld a f v).follow = s.follow := rfl
@[simp] theorem State.setFld_preempts : (s.setFld a f v).preempts = s.preempts := rfl
@[simp] theorem State.setFld_staged : (s.setFld a f v).staged = s.staged := rfl
@[simp] theorem State.setFld_boot : (s.setFld a f v).boot = s.boot := rfl
@[simp] theorem State.setFld_loader : (s.setFld a f v).loader = s.loader := rfl
@[simp] theorem State.setFld_claims : (s.setFld a f v).claims = s.claims := rfl
@[simp] theorem State.setFld_tornOld : (s.setFld a f v).tornOld = s.tornOld := rfl
@[simp] theorem State.setFld_off : (s.setFld a f v).off = s.off := rfl
@[simp] theorem State.setFld_flash : (s.setFld a f v).flash = s.flash := rfl
@[simp] theorem State.setFld_broken : (s.setFld a f v).broken = s.broken := rfl
@[simp] theorem State.setFld_flashQuar : (s.setFld a f v).flashQuar = s.flashQuar := rfl
@[simp] theorem State.setFld_supply : (s.setFld a f v).supply = s.supply := rfl
@[simp] theorem State.setFld_budgets : (s.setFld a f v).budgets = s.budgets := rfl
@[simp] theorem State.setFld_budgetSent : (s.setFld a f v).budgetSent = s.budgetSent := rfl
@[simp] theorem State.setFld_budgetDone : (s.setFld a f v).budgetDone = s.budgetDone := rfl
@[simp] theorem State.setFld_calm : (s.setFld a f v).calm = s.calm := rfl
@[simp] theorem State.setFld_hot : (s.setFld a f v).hot = s.hot := rfl
@[simp] theorem State.setFld_rising : (s.setFld a f v).rising = s.rising := rfl
@[simp] theorem State.setFld_crossStops : (s.setFld a f v).crossStops = s.crossStops := rfl
@[simp] theorem State.setFld_hostReads : (s.setFld a f v).hostReads = s.hostReads := rfl
@[simp] theorem State.setFld_preemptDps : (s.setFld a f v).preemptDps = s.preemptDps := rfl
@[simp] theorem State.setFld_qps : (s.setFld a f v).qps = s.qps := rfl
@[simp] theorem State.setFld_ethPause : (s.setFld a f v).ethPause = s.ethPause := rfl
@[simp] theorem State.setFld_ethHeld : (s.setFld a f v).ethHeld = s.ethHeld := rfl
@[simp] theorem State.setFld_ptp : (s.setFld a f v).ptp = s.ptp := rfl
@[simp] theorem State.setFld_lastHcrc : (s.setFld a f v).lastHcrc = s.lastHcrc := rfl
@[simp] theorem State.setFld_eid : (s.setFld a f v).eid = s.eid := rfl
@[simp] theorem State.setFld_spdm : (s.setFld a f v).spdm = s.spdm := rfl
@[simp] theorem State.setFld_uartRx : (s.setFld a f v).uartRx = s.uartRx := rfl
@[simp] theorem State.setFld_tap : (s.setFld a f v).tap = s.tap := rfl
@[simp] theorem State.setFld_flashOp : (s.setFld a f v).flashOp = s.flashOp := rfl
@[simp] theorem State.setFld_swapAsk : (s.setFld a f v).swapAsk = s.swapAsk := rfl
@[simp] theorem State.setFld_outbox : (s.setFld a f v).outbox = s.outbox := rfl

end

section
variable (s : State) (c : Nat) (k : CoreState)

@[simp] theorem State.setCore_pending : (s.setCore c k).pending = s.pending := rfl
@[simp] theorem State.setCore_freeCount : (s.setCore c k).freeCount = s.freeCount := rfl
@[simp] theorem State.setCore_mem : (s.setCore c k).mem = s.mem := rfl
@[simp] theorem State.setCore_marks : (s.setCore c k).marks = s.marks := rfl
@[simp] theorem State.setCore_regs : (s.setCore c k).regs = s.regs := rfl
@[simp] theorem State.setCore_gathered : (s.setCore c k).gathered = s.gathered := rfl
@[simp] theorem State.setCore_latches : (s.setCore c k).latches = s.latches := rfl
@[simp] theorem State.setCore_holds : (s.setCore c k).holds = s.holds := rfl
@[simp] theorem State.setCore_released : (s.setCore c k).released = s.released := rfl
@[simp] theorem State.setCore_lost : (s.setCore c k).lost = s.lost := rfl
@[simp] theorem State.setCore_tide : (s.setCore c k).tide = s.tide := rfl
@[simp] theorem State.setCore_presses : (s.setCore c k).presses = s.presses := rfl
@[simp] theorem State.setCore_lighters : (s.setCore c k).lighters = s.lighters := rfl
@[simp] theorem State.setCore_unread : (s.setCore c k).unread = s.unread := rfl
@[simp] theorem State.setCore_chk : (s.setCore c k).chk = s.chk := rfl
@[simp] theorem State.setCore_units : (s.setCore c k).units = s.units := rfl
@[simp] theorem State.setCore_rehearsals : (s.setCore c k).rehearsals = s.rehearsals := rfl
@[simp] theorem State.setCore_detections : (s.setCore c k).detections = s.detections := rfl
@[simp] theorem State.setCore_standAsks : (s.setCore c k).standAsks = s.standAsks := rfl
@[simp] theorem State.setCore_teardownAsks : (s.setCore c k).teardownAsks = s.teardownAsks := rfl
@[simp] theorem State.setCore_recs : (s.setCore c k).recs = s.recs := rfl
@[simp] theorem State.setCore_journal : (s.setCore c k).journal = s.journal := rfl
@[simp] theorem State.setCore_jseq : (s.setCore c k).jseq = s.jseq := rfl
@[simp] theorem State.setCore_applied : (s.setCore c k).applied = s.applied := rfl
@[simp] theorem State.setCore_ordersNow : (s.setCore c k).ordersNow = s.ordersNow := rfl
@[simp] theorem State.setCore_pcie : (s.setCore c k).pcie = s.pcie := rfl
@[simp] theorem State.setCore_uart : (s.setCore c k).uart = s.uart := rfl
@[simp] theorem State.setCore_pilotFw : (s.setCore c k).pilotFw = s.pilotFw := rfl
@[simp] theorem State.setCore_delays : (s.setCore c k).delays = s.delays := rfl
@[simp] theorem State.setCore_replays : (s.setCore c k).replays = s.replays := rfl
@[simp] theorem State.setCore_regReads : (s.setCore c k).regReads = s.regReads := rfl
@[simp] theorem State.setCore_unitErrs : (s.setCore c k).unitErrs = s.unitErrs := rfl
@[simp] theorem State.setCore_dirBad : (s.setCore c k).dirBad = s.dirBad := rfl
@[simp] theorem State.setCore_duties : (s.setCore c k).duties = s.duties := rfl
@[simp] theorem State.setCore_otDone : (s.setCore c k).otDone = s.otDone := rfl
@[simp] theorem State.setCore_ramps : (s.setCore c k).ramps = s.ramps := rfl
@[simp] theorem State.setCore_injections : (s.setCore c k).injections = s.injections := rfl
@[simp] theorem State.setCore_engines : (s.setCore c k).engines = s.engines := rfl
@[simp] theorem State.setCore_hist : (s.setCore c k).hist = s.hist := rfl
@[simp] theorem State.setCore_histRanges : (s.setCore c k).histRanges = s.histRanges := rfl
@[simp] theorem State.setCore_galleys : (s.setCore c k).galleys = s.galleys := rfl
@[simp] theorem State.setCore_berths : (s.setCore c k).berths = s.berths := rfl
@[simp] theorem State.setCore_audits : (s.setCore c k).audits = s.audits := rfl
@[simp] theorem State.setCore_laneAsks : (s.setCore c k).laneAsks = s.laneAsks := rfl
@[simp] theorem State.setCore_quay : (s.setCore c k).quay = s.quay := rfl
@[simp] theorem State.setCore_homes : (s.setCore c k).homes = s.homes := rfl
@[simp] theorem State.setCore_dirs : (s.setCore c k).dirs = s.dirs := rfl
@[simp] theorem State.setCore_invals : (s.setCore c k).invals = s.invals := rfl
@[simp] theorem State.setCore_ctxs : (s.setCore c k).ctxs = s.ctxs := rfl
@[simp] theorem State.setCore_hbms : (s.setCore c k).hbms = s.hbms := rfl
@[simp] theorem State.setCore_links : (s.setCore c k).links = s.links := rfl
@[simp] theorem State.setCore_clockLost : (s.setCore c k).clockLost = s.clockLost := rfl
@[simp] theorem State.setCore_refLost : (s.setCore c k).refLost = s.refLost := rfl
@[simp] theorem State.setCore_routers : (s.setCore c k).routers = s.routers := rfl
@[simp] theorem State.setCore_collCtxs : (s.setCore c k).collCtxs = s.collCtxs := rfl
@[simp] theorem State.setCore_collRecs : (s.setCore c k).collRecs = s.collRecs := rfl
@[simp] theorem State.setCore_collEarly : (s.setCore c k).collEarly = s.collEarly := rfl
@[simp] theorem State.setCore_collSeen : (s.setCore c k).collSeen = s.collSeen := rfl
@[simp] theorem State.setCore_ccHeld : (s.setCore c k).ccHeld = s.ccHeld := rfl
@[simp] theorem State.setCore_votes : (s.setCore c k).votes = s.votes := rfl
@[simp] theorem State.setCore_modPg : (s.setCore c k).modPg = s.modPg := rfl
@[simp] theorem State.setCore_abortsFlooded : (s.setCore c k).abortsFlooded = s.abortsFlooded := rfl
@[simp] theorem State.setCore_teardownsSeen : (s.setCore c k).teardownsSeen = s.teardownsSeen := rfl
@[simp] theorem State.setCore_recordReady : (s.setCore c k).recordReady = s.recordReady := rfl
@[simp] theorem State.setCore_lasers : (s.setCore c k).lasers = s.lasers := rfl
@[simp] theorem State.setCore_takeovers : (s.setCore c k).takeovers = s.takeovers := rfl
@[simp] theorem State.setCore_declared : (s.setCore c k).declared = s.declared := rfl
@[simp] theorem State.setCore_waves : (s.setCore c k).waves = s.waves := rfl
@[simp] theorem State.setCore_ports : (s.setCore c k).ports = s.ports := rfl
@[simp] theorem State.setCore_lanes : (s.setCore c k).lanes = s.lanes := rfl
@[simp] theorem State.setCore_stide : (s.setCore c k).stide = s.stide := rfl
@[simp] theorem State.setCore_ctl : (s.setCore c k).ctl = s.ctl := rfl
@[simp] theorem State.setCore_servo : (s.setCore c k).servo = s.servo := rfl
@[simp] theorem State.setCore_mgr : (s.setCore c k).mgr = s.mgr := rfl
@[simp] theorem State.setCore_torn : (s.setCore c k).torn = s.torn := rfl
@[simp] theorem State.setCore_entries : (s.setCore c k).entries = s.entries := rfl
@[simp] theorem State.setCore_puts : (s.setCore c k).puts = s.puts := rfl
@[simp] theorem State.setCore_collAsks : (s.setCore c k).collAsks = s.collAsks := rfl
@[simp] theorem State.setCore_maints : (s.setCore c k).maints = s.maints := rfl
@[simp] theorem State.setCore_follow : (s.setCore c k).follow = s.follow := rfl
@[simp] theorem State.setCore_preempts : (s.setCore c k).preempts = s.preempts := rfl
@[simp] theorem State.setCore_staged : (s.setCore c k).staged = s.staged := rfl
@[simp] theorem State.setCore_boot : (s.setCore c k).boot = s.boot := rfl
@[simp] theorem State.setCore_loader : (s.setCore c k).loader = s.loader := rfl
@[simp] theorem State.setCore_claims : (s.setCore c k).claims = s.claims := rfl
@[simp] theorem State.setCore_tornOld : (s.setCore c k).tornOld = s.tornOld := rfl
@[simp] theorem State.setCore_off : (s.setCore c k).off = s.off := rfl
@[simp] theorem State.setCore_flash : (s.setCore c k).flash = s.flash := rfl
@[simp] theorem State.setCore_broken : (s.setCore c k).broken = s.broken := rfl
@[simp] theorem State.setCore_flashQuar : (s.setCore c k).flashQuar = s.flashQuar := rfl
@[simp] theorem State.setCore_supply : (s.setCore c k).supply = s.supply := rfl
@[simp] theorem State.setCore_budgets : (s.setCore c k).budgets = s.budgets := rfl
@[simp] theorem State.setCore_budgetSent : (s.setCore c k).budgetSent = s.budgetSent := rfl
@[simp] theorem State.setCore_budgetDone : (s.setCore c k).budgetDone = s.budgetDone := rfl
@[simp] theorem State.setCore_calm : (s.setCore c k).calm = s.calm := rfl
@[simp] theorem State.setCore_hot : (s.setCore c k).hot = s.hot := rfl
@[simp] theorem State.setCore_rising : (s.setCore c k).rising = s.rising := rfl
@[simp] theorem State.setCore_crossStops : (s.setCore c k).crossStops = s.crossStops := rfl
@[simp] theorem State.setCore_hostReads : (s.setCore c k).hostReads = s.hostReads := rfl
@[simp] theorem State.setCore_preemptDps : (s.setCore c k).preemptDps = s.preemptDps := rfl
@[simp] theorem State.setCore_qps : (s.setCore c k).qps = s.qps := rfl
@[simp] theorem State.setCore_ethPause : (s.setCore c k).ethPause = s.ethPause := rfl
@[simp] theorem State.setCore_ethHeld : (s.setCore c k).ethHeld = s.ethHeld := rfl
@[simp] theorem State.setCore_ptp : (s.setCore c k).ptp = s.ptp := rfl
@[simp] theorem State.setCore_lastHcrc : (s.setCore c k).lastHcrc = s.lastHcrc := rfl
@[simp] theorem State.setCore_eid : (s.setCore c k).eid = s.eid := rfl
@[simp] theorem State.setCore_spdm : (s.setCore c k).spdm = s.spdm := rfl
@[simp] theorem State.setCore_uartRx : (s.setCore c k).uartRx = s.uartRx := rfl
@[simp] theorem State.setCore_tap : (s.setCore c k).tap = s.tap := rfl
@[simp] theorem State.setCore_flashOp : (s.setCore c k).flashOp = s.flashOp := rfl
@[simp] theorem State.setCore_swapAsk : (s.setCore c k).swapAsk = s.swapAsk := rfl
@[simp] theorem State.setCore_outbox : (s.setCore c k).outbox = s.outbox := rfl

end

section
variable (s : State) (c : Nat) (p : PressState)

@[simp] theorem State.setPress_pending : (s.setPress c p).pending = s.pending := rfl
@[simp] theorem State.setPress_freeCount : (s.setPress c p).freeCount = s.freeCount := rfl
@[simp] theorem State.setPress_mem : (s.setPress c p).mem = s.mem := rfl
@[simp] theorem State.setPress_marks : (s.setPress c p).marks = s.marks := rfl
@[simp] theorem State.setPress_regs : (s.setPress c p).regs = s.regs := rfl
@[simp] theorem State.setPress_gathered : (s.setPress c p).gathered = s.gathered := rfl
@[simp] theorem State.setPress_latches : (s.setPress c p).latches = s.latches := rfl
@[simp] theorem State.setPress_holds : (s.setPress c p).holds = s.holds := rfl
@[simp] theorem State.setPress_released : (s.setPress c p).released = s.released := rfl
@[simp] theorem State.setPress_lost : (s.setPress c p).lost = s.lost := rfl
@[simp] theorem State.setPress_tide : (s.setPress c p).tide = s.tide := rfl
@[simp] theorem State.setPress_cores : (s.setPress c p).cores = s.cores := rfl
@[simp] theorem State.setPress_lighters : (s.setPress c p).lighters = s.lighters := rfl
@[simp] theorem State.setPress_unread : (s.setPress c p).unread = s.unread := rfl
@[simp] theorem State.setPress_chk : (s.setPress c p).chk = s.chk := rfl
@[simp] theorem State.setPress_units : (s.setPress c p).units = s.units := rfl
@[simp] theorem State.setPress_rehearsals : (s.setPress c p).rehearsals = s.rehearsals := rfl
@[simp] theorem State.setPress_detections : (s.setPress c p).detections = s.detections := rfl
@[simp] theorem State.setPress_standAsks : (s.setPress c p).standAsks = s.standAsks := rfl
@[simp] theorem State.setPress_teardownAsks : (s.setPress c p).teardownAsks = s.teardownAsks := rfl
@[simp] theorem State.setPress_recs : (s.setPress c p).recs = s.recs := rfl
@[simp] theorem State.setPress_journal : (s.setPress c p).journal = s.journal := rfl
@[simp] theorem State.setPress_jseq : (s.setPress c p).jseq = s.jseq := rfl
@[simp] theorem State.setPress_applied : (s.setPress c p).applied = s.applied := rfl
@[simp] theorem State.setPress_ordersNow : (s.setPress c p).ordersNow = s.ordersNow := rfl
@[simp] theorem State.setPress_pcie : (s.setPress c p).pcie = s.pcie := rfl
@[simp] theorem State.setPress_uart : (s.setPress c p).uart = s.uart := rfl
@[simp] theorem State.setPress_pilotFw : (s.setPress c p).pilotFw = s.pilotFw := rfl
@[simp] theorem State.setPress_delays : (s.setPress c p).delays = s.delays := rfl
@[simp] theorem State.setPress_replays : (s.setPress c p).replays = s.replays := rfl
@[simp] theorem State.setPress_regReads : (s.setPress c p).regReads = s.regReads := rfl
@[simp] theorem State.setPress_unitErrs : (s.setPress c p).unitErrs = s.unitErrs := rfl
@[simp] theorem State.setPress_dirBad : (s.setPress c p).dirBad = s.dirBad := rfl
@[simp] theorem State.setPress_duties : (s.setPress c p).duties = s.duties := rfl
@[simp] theorem State.setPress_otDone : (s.setPress c p).otDone = s.otDone := rfl
@[simp] theorem State.setPress_ramps : (s.setPress c p).ramps = s.ramps := rfl
@[simp] theorem State.setPress_injections : (s.setPress c p).injections = s.injections := rfl
@[simp] theorem State.setPress_engines : (s.setPress c p).engines = s.engines := rfl
@[simp] theorem State.setPress_hist : (s.setPress c p).hist = s.hist := rfl
@[simp] theorem State.setPress_histRanges : (s.setPress c p).histRanges = s.histRanges := rfl
@[simp] theorem State.setPress_galleys : (s.setPress c p).galleys = s.galleys := rfl
@[simp] theorem State.setPress_berths : (s.setPress c p).berths = s.berths := rfl
@[simp] theorem State.setPress_audits : (s.setPress c p).audits = s.audits := rfl
@[simp] theorem State.setPress_laneAsks : (s.setPress c p).laneAsks = s.laneAsks := rfl
@[simp] theorem State.setPress_quay : (s.setPress c p).quay = s.quay := rfl
@[simp] theorem State.setPress_homes : (s.setPress c p).homes = s.homes := rfl
@[simp] theorem State.setPress_dirs : (s.setPress c p).dirs = s.dirs := rfl
@[simp] theorem State.setPress_invals : (s.setPress c p).invals = s.invals := rfl
@[simp] theorem State.setPress_ctxs : (s.setPress c p).ctxs = s.ctxs := rfl
@[simp] theorem State.setPress_hbms : (s.setPress c p).hbms = s.hbms := rfl
@[simp] theorem State.setPress_links : (s.setPress c p).links = s.links := rfl
@[simp] theorem State.setPress_clockLost : (s.setPress c p).clockLost = s.clockLost := rfl
@[simp] theorem State.setPress_refLost : (s.setPress c p).refLost = s.refLost := rfl
@[simp] theorem State.setPress_routers : (s.setPress c p).routers = s.routers := rfl
@[simp] theorem State.setPress_collCtxs : (s.setPress c p).collCtxs = s.collCtxs := rfl
@[simp] theorem State.setPress_collRecs : (s.setPress c p).collRecs = s.collRecs := rfl
@[simp] theorem State.setPress_collEarly : (s.setPress c p).collEarly = s.collEarly := rfl
@[simp] theorem State.setPress_collSeen : (s.setPress c p).collSeen = s.collSeen := rfl
@[simp] theorem State.setPress_ccHeld : (s.setPress c p).ccHeld = s.ccHeld := rfl
@[simp] theorem State.setPress_votes : (s.setPress c p).votes = s.votes := rfl
@[simp] theorem State.setPress_modPg : (s.setPress c p).modPg = s.modPg := rfl
@[simp] theorem State.setPress_abortsFlooded : (s.setPress c p).abortsFlooded = s.abortsFlooded := rfl
@[simp] theorem State.setPress_teardownsSeen : (s.setPress c p).teardownsSeen = s.teardownsSeen := rfl
@[simp] theorem State.setPress_recordReady : (s.setPress c p).recordReady = s.recordReady := rfl
@[simp] theorem State.setPress_lasers : (s.setPress c p).lasers = s.lasers := rfl
@[simp] theorem State.setPress_takeovers : (s.setPress c p).takeovers = s.takeovers := rfl
@[simp] theorem State.setPress_declared : (s.setPress c p).declared = s.declared := rfl
@[simp] theorem State.setPress_waves : (s.setPress c p).waves = s.waves := rfl
@[simp] theorem State.setPress_ports : (s.setPress c p).ports = s.ports := rfl
@[simp] theorem State.setPress_lanes : (s.setPress c p).lanes = s.lanes := rfl
@[simp] theorem State.setPress_stide : (s.setPress c p).stide = s.stide := rfl
@[simp] theorem State.setPress_ctl : (s.setPress c p).ctl = s.ctl := rfl
@[simp] theorem State.setPress_servo : (s.setPress c p).servo = s.servo := rfl
@[simp] theorem State.setPress_mgr : (s.setPress c p).mgr = s.mgr := rfl
@[simp] theorem State.setPress_torn : (s.setPress c p).torn = s.torn := rfl
@[simp] theorem State.setPress_entries : (s.setPress c p).entries = s.entries := rfl
@[simp] theorem State.setPress_puts : (s.setPress c p).puts = s.puts := rfl
@[simp] theorem State.setPress_collAsks : (s.setPress c p).collAsks = s.collAsks := rfl
@[simp] theorem State.setPress_maints : (s.setPress c p).maints = s.maints := rfl
@[simp] theorem State.setPress_follow : (s.setPress c p).follow = s.follow := rfl
@[simp] theorem State.setPress_preempts : (s.setPress c p).preempts = s.preempts := rfl
@[simp] theorem State.setPress_staged : (s.setPress c p).staged = s.staged := rfl
@[simp] theorem State.setPress_boot : (s.setPress c p).boot = s.boot := rfl
@[simp] theorem State.setPress_loader : (s.setPress c p).loader = s.loader := rfl
@[simp] theorem State.setPress_claims : (s.setPress c p).claims = s.claims := rfl
@[simp] theorem State.setPress_tornOld : (s.setPress c p).tornOld = s.tornOld := rfl
@[simp] theorem State.setPress_off : (s.setPress c p).off = s.off := rfl
@[simp] theorem State.setPress_flash : (s.setPress c p).flash = s.flash := rfl
@[simp] theorem State.setPress_broken : (s.setPress c p).broken = s.broken := rfl
@[simp] theorem State.setPress_flashQuar : (s.setPress c p).flashQuar = s.flashQuar := rfl
@[simp] theorem State.setPress_supply : (s.setPress c p).supply = s.supply := rfl
@[simp] theorem State.setPress_budgets : (s.setPress c p).budgets = s.budgets := rfl
@[simp] theorem State.setPress_budgetSent : (s.setPress c p).budgetSent = s.budgetSent := rfl
@[simp] theorem State.setPress_budgetDone : (s.setPress c p).budgetDone = s.budgetDone := rfl
@[simp] theorem State.setPress_calm : (s.setPress c p).calm = s.calm := rfl
@[simp] theorem State.setPress_hot : (s.setPress c p).hot = s.hot := rfl
@[simp] theorem State.setPress_rising : (s.setPress c p).rising = s.rising := rfl
@[simp] theorem State.setPress_crossStops : (s.setPress c p).crossStops = s.crossStops := rfl
@[simp] theorem State.setPress_hostReads : (s.setPress c p).hostReads = s.hostReads := rfl
@[simp] theorem State.setPress_preemptDps : (s.setPress c p).preemptDps = s.preemptDps := rfl
@[simp] theorem State.setPress_qps : (s.setPress c p).qps = s.qps := rfl
@[simp] theorem State.setPress_ethPause : (s.setPress c p).ethPause = s.ethPause := rfl
@[simp] theorem State.setPress_ethHeld : (s.setPress c p).ethHeld = s.ethHeld := rfl
@[simp] theorem State.setPress_ptp : (s.setPress c p).ptp = s.ptp := rfl
@[simp] theorem State.setPress_lastHcrc : (s.setPress c p).lastHcrc = s.lastHcrc := rfl
@[simp] theorem State.setPress_eid : (s.setPress c p).eid = s.eid := rfl
@[simp] theorem State.setPress_spdm : (s.setPress c p).spdm = s.spdm := rfl
@[simp] theorem State.setPress_uartRx : (s.setPress c p).uartRx = s.uartRx := rfl
@[simp] theorem State.setPress_tap : (s.setPress c p).tap = s.tap := rfl
@[simp] theorem State.setPress_flashOp : (s.setPress c p).flashOp = s.flashOp := rfl
@[simp] theorem State.setPress_swapAsk : (s.setPress c p).swapAsk = s.swapAsk := rfl
@[simp] theorem State.setPress_outbox : (s.setPress c p).outbox = s.outbox := rfl

end

section
variable (s : State) (d : Nat) (k : ChkState)

@[simp] theorem State.setChk_pending : (s.setChk d k).pending = s.pending := rfl
@[simp] theorem State.setChk_freeCount : (s.setChk d k).freeCount = s.freeCount := rfl
@[simp] theorem State.setChk_mem : (s.setChk d k).mem = s.mem := rfl
@[simp] theorem State.setChk_marks : (s.setChk d k).marks = s.marks := rfl
@[simp] theorem State.setChk_regs : (s.setChk d k).regs = s.regs := rfl
@[simp] theorem State.setChk_gathered : (s.setChk d k).gathered = s.gathered := rfl
@[simp] theorem State.setChk_latches : (s.setChk d k).latches = s.latches := rfl
@[simp] theorem State.setChk_holds : (s.setChk d k).holds = s.holds := rfl
@[simp] theorem State.setChk_released : (s.setChk d k).released = s.released := rfl
@[simp] theorem State.setChk_lost : (s.setChk d k).lost = s.lost := rfl
@[simp] theorem State.setChk_tide : (s.setChk d k).tide = s.tide := rfl
@[simp] theorem State.setChk_cores : (s.setChk d k).cores = s.cores := rfl
@[simp] theorem State.setChk_presses : (s.setChk d k).presses = s.presses := rfl
@[simp] theorem State.setChk_lighters : (s.setChk d k).lighters = s.lighters := rfl
@[simp] theorem State.setChk_unread : (s.setChk d k).unread = s.unread := rfl
@[simp] theorem State.setChk_units : (s.setChk d k).units = s.units := rfl
@[simp] theorem State.setChk_rehearsals : (s.setChk d k).rehearsals = s.rehearsals := rfl
@[simp] theorem State.setChk_detections : (s.setChk d k).detections = s.detections := rfl
@[simp] theorem State.setChk_standAsks : (s.setChk d k).standAsks = s.standAsks := rfl
@[simp] theorem State.setChk_teardownAsks : (s.setChk d k).teardownAsks = s.teardownAsks := rfl
@[simp] theorem State.setChk_recs : (s.setChk d k).recs = s.recs := rfl
@[simp] theorem State.setChk_journal : (s.setChk d k).journal = s.journal := rfl
@[simp] theorem State.setChk_jseq : (s.setChk d k).jseq = s.jseq := rfl
@[simp] theorem State.setChk_applied : (s.setChk d k).applied = s.applied := rfl
@[simp] theorem State.setChk_ordersNow : (s.setChk d k).ordersNow = s.ordersNow := rfl
@[simp] theorem State.setChk_pcie : (s.setChk d k).pcie = s.pcie := rfl
@[simp] theorem State.setChk_uart : (s.setChk d k).uart = s.uart := rfl
@[simp] theorem State.setChk_pilotFw : (s.setChk d k).pilotFw = s.pilotFw := rfl
@[simp] theorem State.setChk_delays : (s.setChk d k).delays = s.delays := rfl
@[simp] theorem State.setChk_replays : (s.setChk d k).replays = s.replays := rfl
@[simp] theorem State.setChk_regReads : (s.setChk d k).regReads = s.regReads := rfl
@[simp] theorem State.setChk_unitErrs : (s.setChk d k).unitErrs = s.unitErrs := rfl
@[simp] theorem State.setChk_dirBad : (s.setChk d k).dirBad = s.dirBad := rfl
@[simp] theorem State.setChk_duties : (s.setChk d k).duties = s.duties := rfl
@[simp] theorem State.setChk_otDone : (s.setChk d k).otDone = s.otDone := rfl
@[simp] theorem State.setChk_ramps : (s.setChk d k).ramps = s.ramps := rfl
@[simp] theorem State.setChk_injections : (s.setChk d k).injections = s.injections := rfl
@[simp] theorem State.setChk_engines : (s.setChk d k).engines = s.engines := rfl
@[simp] theorem State.setChk_hist : (s.setChk d k).hist = s.hist := rfl
@[simp] theorem State.setChk_histRanges : (s.setChk d k).histRanges = s.histRanges := rfl
@[simp] theorem State.setChk_galleys : (s.setChk d k).galleys = s.galleys := rfl
@[simp] theorem State.setChk_berths : (s.setChk d k).berths = s.berths := rfl
@[simp] theorem State.setChk_audits : (s.setChk d k).audits = s.audits := rfl
@[simp] theorem State.setChk_laneAsks : (s.setChk d k).laneAsks = s.laneAsks := rfl
@[simp] theorem State.setChk_quay : (s.setChk d k).quay = s.quay := rfl
@[simp] theorem State.setChk_homes : (s.setChk d k).homes = s.homes := rfl
@[simp] theorem State.setChk_dirs : (s.setChk d k).dirs = s.dirs := rfl
@[simp] theorem State.setChk_invals : (s.setChk d k).invals = s.invals := rfl
@[simp] theorem State.setChk_ctxs : (s.setChk d k).ctxs = s.ctxs := rfl
@[simp] theorem State.setChk_hbms : (s.setChk d k).hbms = s.hbms := rfl
@[simp] theorem State.setChk_links : (s.setChk d k).links = s.links := rfl
@[simp] theorem State.setChk_clockLost : (s.setChk d k).clockLost = s.clockLost := rfl
@[simp] theorem State.setChk_refLost : (s.setChk d k).refLost = s.refLost := rfl
@[simp] theorem State.setChk_routers : (s.setChk d k).routers = s.routers := rfl
@[simp] theorem State.setChk_collCtxs : (s.setChk d k).collCtxs = s.collCtxs := rfl
@[simp] theorem State.setChk_collRecs : (s.setChk d k).collRecs = s.collRecs := rfl
@[simp] theorem State.setChk_collEarly : (s.setChk d k).collEarly = s.collEarly := rfl
@[simp] theorem State.setChk_collSeen : (s.setChk d k).collSeen = s.collSeen := rfl
@[simp] theorem State.setChk_ccHeld : (s.setChk d k).ccHeld = s.ccHeld := rfl
@[simp] theorem State.setChk_votes : (s.setChk d k).votes = s.votes := rfl
@[simp] theorem State.setChk_modPg : (s.setChk d k).modPg = s.modPg := rfl
@[simp] theorem State.setChk_abortsFlooded : (s.setChk d k).abortsFlooded = s.abortsFlooded := rfl
@[simp] theorem State.setChk_teardownsSeen : (s.setChk d k).teardownsSeen = s.teardownsSeen := rfl
@[simp] theorem State.setChk_recordReady : (s.setChk d k).recordReady = s.recordReady := rfl
@[simp] theorem State.setChk_lasers : (s.setChk d k).lasers = s.lasers := rfl
@[simp] theorem State.setChk_takeovers : (s.setChk d k).takeovers = s.takeovers := rfl
@[simp] theorem State.setChk_declared : (s.setChk d k).declared = s.declared := rfl
@[simp] theorem State.setChk_waves : (s.setChk d k).waves = s.waves := rfl
@[simp] theorem State.setChk_ports : (s.setChk d k).ports = s.ports := rfl
@[simp] theorem State.setChk_lanes : (s.setChk d k).lanes = s.lanes := rfl
@[simp] theorem State.setChk_stide : (s.setChk d k).stide = s.stide := rfl
@[simp] theorem State.setChk_ctl : (s.setChk d k).ctl = s.ctl := rfl
@[simp] theorem State.setChk_servo : (s.setChk d k).servo = s.servo := rfl
@[simp] theorem State.setChk_mgr : (s.setChk d k).mgr = s.mgr := rfl
@[simp] theorem State.setChk_torn : (s.setChk d k).torn = s.torn := rfl
@[simp] theorem State.setChk_entries : (s.setChk d k).entries = s.entries := rfl
@[simp] theorem State.setChk_puts : (s.setChk d k).puts = s.puts := rfl
@[simp] theorem State.setChk_collAsks : (s.setChk d k).collAsks = s.collAsks := rfl
@[simp] theorem State.setChk_maints : (s.setChk d k).maints = s.maints := rfl
@[simp] theorem State.setChk_follow : (s.setChk d k).follow = s.follow := rfl
@[simp] theorem State.setChk_preempts : (s.setChk d k).preempts = s.preempts := rfl
@[simp] theorem State.setChk_staged : (s.setChk d k).staged = s.staged := rfl
@[simp] theorem State.setChk_boot : (s.setChk d k).boot = s.boot := rfl
@[simp] theorem State.setChk_loader : (s.setChk d k).loader = s.loader := rfl
@[simp] theorem State.setChk_claims : (s.setChk d k).claims = s.claims := rfl
@[simp] theorem State.setChk_tornOld : (s.setChk d k).tornOld = s.tornOld := rfl
@[simp] theorem State.setChk_off : (s.setChk d k).off = s.off := rfl
@[simp] theorem State.setChk_flash : (s.setChk d k).flash = s.flash := rfl
@[simp] theorem State.setChk_broken : (s.setChk d k).broken = s.broken := rfl
@[simp] theorem State.setChk_flashQuar : (s.setChk d k).flashQuar = s.flashQuar := rfl
@[simp] theorem State.setChk_supply : (s.setChk d k).supply = s.supply := rfl
@[simp] theorem State.setChk_budgets : (s.setChk d k).budgets = s.budgets := rfl
@[simp] theorem State.setChk_budgetSent : (s.setChk d k).budgetSent = s.budgetSent := rfl
@[simp] theorem State.setChk_budgetDone : (s.setChk d k).budgetDone = s.budgetDone := rfl
@[simp] theorem State.setChk_calm : (s.setChk d k).calm = s.calm := rfl
@[simp] theorem State.setChk_hot : (s.setChk d k).hot = s.hot := rfl
@[simp] theorem State.setChk_rising : (s.setChk d k).rising = s.rising := rfl
@[simp] theorem State.setChk_crossStops : (s.setChk d k).crossStops = s.crossStops := rfl
@[simp] theorem State.setChk_hostReads : (s.setChk d k).hostReads = s.hostReads := rfl
@[simp] theorem State.setChk_preemptDps : (s.setChk d k).preemptDps = s.preemptDps := rfl
@[simp] theorem State.setChk_qps : (s.setChk d k).qps = s.qps := rfl
@[simp] theorem State.setChk_ethPause : (s.setChk d k).ethPause = s.ethPause := rfl
@[simp] theorem State.setChk_ethHeld : (s.setChk d k).ethHeld = s.ethHeld := rfl
@[simp] theorem State.setChk_ptp : (s.setChk d k).ptp = s.ptp := rfl
@[simp] theorem State.setChk_lastHcrc : (s.setChk d k).lastHcrc = s.lastHcrc := rfl
@[simp] theorem State.setChk_eid : (s.setChk d k).eid = s.eid := rfl
@[simp] theorem State.setChk_spdm : (s.setChk d k).spdm = s.spdm := rfl
@[simp] theorem State.setChk_uartRx : (s.setChk d k).uartRx = s.uartRx := rfl
@[simp] theorem State.setChk_tap : (s.setChk d k).tap = s.tap := rfl
@[simp] theorem State.setChk_flashOp : (s.setChk d k).flashOp = s.flashOp := rfl
@[simp] theorem State.setChk_swapAsk : (s.setChk d k).swapAsk = s.swapAsk := rfl
@[simp] theorem State.setChk_outbox : (s.setChk d k).outbox = s.outbox := rfl

end

section
variable (s : State) (u : Nat) (k : UnitState)

@[simp] theorem State.setUnit_pending : (s.setUnit u k).pending = s.pending := rfl
@[simp] theorem State.setUnit_freeCount : (s.setUnit u k).freeCount = s.freeCount := rfl
@[simp] theorem State.setUnit_mem : (s.setUnit u k).mem = s.mem := rfl
@[simp] theorem State.setUnit_marks : (s.setUnit u k).marks = s.marks := rfl
@[simp] theorem State.setUnit_regs : (s.setUnit u k).regs = s.regs := rfl
@[simp] theorem State.setUnit_gathered : (s.setUnit u k).gathered = s.gathered := rfl
@[simp] theorem State.setUnit_latches : (s.setUnit u k).latches = s.latches := rfl
@[simp] theorem State.setUnit_holds : (s.setUnit u k).holds = s.holds := rfl
@[simp] theorem State.setUnit_released : (s.setUnit u k).released = s.released := rfl
@[simp] theorem State.setUnit_lost : (s.setUnit u k).lost = s.lost := rfl
@[simp] theorem State.setUnit_tide : (s.setUnit u k).tide = s.tide := rfl
@[simp] theorem State.setUnit_cores : (s.setUnit u k).cores = s.cores := rfl
@[simp] theorem State.setUnit_presses : (s.setUnit u k).presses = s.presses := rfl
@[simp] theorem State.setUnit_lighters : (s.setUnit u k).lighters = s.lighters := rfl
@[simp] theorem State.setUnit_unread : (s.setUnit u k).unread = s.unread := rfl
@[simp] theorem State.setUnit_chk : (s.setUnit u k).chk = s.chk := rfl
@[simp] theorem State.setUnit_rehearsals : (s.setUnit u k).rehearsals = s.rehearsals := rfl
@[simp] theorem State.setUnit_detections : (s.setUnit u k).detections = s.detections := rfl
@[simp] theorem State.setUnit_standAsks : (s.setUnit u k).standAsks = s.standAsks := rfl
@[simp] theorem State.setUnit_teardownAsks : (s.setUnit u k).teardownAsks = s.teardownAsks := rfl
@[simp] theorem State.setUnit_recs : (s.setUnit u k).recs = s.recs := rfl
@[simp] theorem State.setUnit_journal : (s.setUnit u k).journal = s.journal := rfl
@[simp] theorem State.setUnit_jseq : (s.setUnit u k).jseq = s.jseq := rfl
@[simp] theorem State.setUnit_applied : (s.setUnit u k).applied = s.applied := rfl
@[simp] theorem State.setUnit_ordersNow : (s.setUnit u k).ordersNow = s.ordersNow := rfl
@[simp] theorem State.setUnit_pcie : (s.setUnit u k).pcie = s.pcie := rfl
@[simp] theorem State.setUnit_uart : (s.setUnit u k).uart = s.uart := rfl
@[simp] theorem State.setUnit_pilotFw : (s.setUnit u k).pilotFw = s.pilotFw := rfl
@[simp] theorem State.setUnit_delays : (s.setUnit u k).delays = s.delays := rfl
@[simp] theorem State.setUnit_replays : (s.setUnit u k).replays = s.replays := rfl
@[simp] theorem State.setUnit_regReads : (s.setUnit u k).regReads = s.regReads := rfl
@[simp] theorem State.setUnit_unitErrs : (s.setUnit u k).unitErrs = s.unitErrs := rfl
@[simp] theorem State.setUnit_dirBad : (s.setUnit u k).dirBad = s.dirBad := rfl
@[simp] theorem State.setUnit_duties : (s.setUnit u k).duties = s.duties := rfl
@[simp] theorem State.setUnit_otDone : (s.setUnit u k).otDone = s.otDone := rfl
@[simp] theorem State.setUnit_ramps : (s.setUnit u k).ramps = s.ramps := rfl
@[simp] theorem State.setUnit_injections : (s.setUnit u k).injections = s.injections := rfl
@[simp] theorem State.setUnit_engines : (s.setUnit u k).engines = s.engines := rfl
@[simp] theorem State.setUnit_hist : (s.setUnit u k).hist = s.hist := rfl
@[simp] theorem State.setUnit_histRanges : (s.setUnit u k).histRanges = s.histRanges := rfl
@[simp] theorem State.setUnit_galleys : (s.setUnit u k).galleys = s.galleys := rfl
@[simp] theorem State.setUnit_berths : (s.setUnit u k).berths = s.berths := rfl
@[simp] theorem State.setUnit_audits : (s.setUnit u k).audits = s.audits := rfl
@[simp] theorem State.setUnit_laneAsks : (s.setUnit u k).laneAsks = s.laneAsks := rfl
@[simp] theorem State.setUnit_quay : (s.setUnit u k).quay = s.quay := rfl
@[simp] theorem State.setUnit_homes : (s.setUnit u k).homes = s.homes := rfl
@[simp] theorem State.setUnit_dirs : (s.setUnit u k).dirs = s.dirs := rfl
@[simp] theorem State.setUnit_invals : (s.setUnit u k).invals = s.invals := rfl
@[simp] theorem State.setUnit_ctxs : (s.setUnit u k).ctxs = s.ctxs := rfl
@[simp] theorem State.setUnit_hbms : (s.setUnit u k).hbms = s.hbms := rfl
@[simp] theorem State.setUnit_links : (s.setUnit u k).links = s.links := rfl
@[simp] theorem State.setUnit_clockLost : (s.setUnit u k).clockLost = s.clockLost := rfl
@[simp] theorem State.setUnit_refLost : (s.setUnit u k).refLost = s.refLost := rfl
@[simp] theorem State.setUnit_routers : (s.setUnit u k).routers = s.routers := rfl
@[simp] theorem State.setUnit_collCtxs : (s.setUnit u k).collCtxs = s.collCtxs := rfl
@[simp] theorem State.setUnit_collRecs : (s.setUnit u k).collRecs = s.collRecs := rfl
@[simp] theorem State.setUnit_collEarly : (s.setUnit u k).collEarly = s.collEarly := rfl
@[simp] theorem State.setUnit_collSeen : (s.setUnit u k).collSeen = s.collSeen := rfl
@[simp] theorem State.setUnit_ccHeld : (s.setUnit u k).ccHeld = s.ccHeld := rfl
@[simp] theorem State.setUnit_votes : (s.setUnit u k).votes = s.votes := rfl
@[simp] theorem State.setUnit_modPg : (s.setUnit u k).modPg = s.modPg := rfl
@[simp] theorem State.setUnit_abortsFlooded : (s.setUnit u k).abortsFlooded = s.abortsFlooded := rfl
@[simp] theorem State.setUnit_teardownsSeen : (s.setUnit u k).teardownsSeen = s.teardownsSeen := rfl
@[simp] theorem State.setUnit_recordReady : (s.setUnit u k).recordReady = s.recordReady := rfl
@[simp] theorem State.setUnit_lasers : (s.setUnit u k).lasers = s.lasers := rfl
@[simp] theorem State.setUnit_takeovers : (s.setUnit u k).takeovers = s.takeovers := rfl
@[simp] theorem State.setUnit_declared : (s.setUnit u k).declared = s.declared := rfl
@[simp] theorem State.setUnit_waves : (s.setUnit u k).waves = s.waves := rfl
@[simp] theorem State.setUnit_ports : (s.setUnit u k).ports = s.ports := rfl
@[simp] theorem State.setUnit_lanes : (s.setUnit u k).lanes = s.lanes := rfl
@[simp] theorem State.setUnit_stide : (s.setUnit u k).stide = s.stide := rfl
@[simp] theorem State.setUnit_ctl : (s.setUnit u k).ctl = s.ctl := rfl
@[simp] theorem State.setUnit_servo : (s.setUnit u k).servo = s.servo := rfl
@[simp] theorem State.setUnit_mgr : (s.setUnit u k).mgr = s.mgr := rfl
@[simp] theorem State.setUnit_torn : (s.setUnit u k).torn = s.torn := rfl
@[simp] theorem State.setUnit_entries : (s.setUnit u k).entries = s.entries := rfl
@[simp] theorem State.setUnit_puts : (s.setUnit u k).puts = s.puts := rfl
@[simp] theorem State.setUnit_collAsks : (s.setUnit u k).collAsks = s.collAsks := rfl
@[simp] theorem State.setUnit_maints : (s.setUnit u k).maints = s.maints := rfl
@[simp] theorem State.setUnit_follow : (s.setUnit u k).follow = s.follow := rfl
@[simp] theorem State.setUnit_preempts : (s.setUnit u k).preempts = s.preempts := rfl
@[simp] theorem State.setUnit_staged : (s.setUnit u k).staged = s.staged := rfl
@[simp] theorem State.setUnit_boot : (s.setUnit u k).boot = s.boot := rfl
@[simp] theorem State.setUnit_loader : (s.setUnit u k).loader = s.loader := rfl
@[simp] theorem State.setUnit_claims : (s.setUnit u k).claims = s.claims := rfl
@[simp] theorem State.setUnit_tornOld : (s.setUnit u k).tornOld = s.tornOld := rfl
@[simp] theorem State.setUnit_off : (s.setUnit u k).off = s.off := rfl
@[simp] theorem State.setUnit_flash : (s.setUnit u k).flash = s.flash := rfl
@[simp] theorem State.setUnit_broken : (s.setUnit u k).broken = s.broken := rfl
@[simp] theorem State.setUnit_flashQuar : (s.setUnit u k).flashQuar = s.flashQuar := rfl
@[simp] theorem State.setUnit_supply : (s.setUnit u k).supply = s.supply := rfl
@[simp] theorem State.setUnit_budgets : (s.setUnit u k).budgets = s.budgets := rfl
@[simp] theorem State.setUnit_budgetSent : (s.setUnit u k).budgetSent = s.budgetSent := rfl
@[simp] theorem State.setUnit_budgetDone : (s.setUnit u k).budgetDone = s.budgetDone := rfl
@[simp] theorem State.setUnit_calm : (s.setUnit u k).calm = s.calm := rfl
@[simp] theorem State.setUnit_hot : (s.setUnit u k).hot = s.hot := rfl
@[simp] theorem State.setUnit_rising : (s.setUnit u k).rising = s.rising := rfl
@[simp] theorem State.setUnit_crossStops : (s.setUnit u k).crossStops = s.crossStops := rfl
@[simp] theorem State.setUnit_hostReads : (s.setUnit u k).hostReads = s.hostReads := rfl
@[simp] theorem State.setUnit_preemptDps : (s.setUnit u k).preemptDps = s.preemptDps := rfl
@[simp] theorem State.setUnit_qps : (s.setUnit u k).qps = s.qps := rfl
@[simp] theorem State.setUnit_ethPause : (s.setUnit u k).ethPause = s.ethPause := rfl
@[simp] theorem State.setUnit_ethHeld : (s.setUnit u k).ethHeld = s.ethHeld := rfl
@[simp] theorem State.setUnit_ptp : (s.setUnit u k).ptp = s.ptp := rfl
@[simp] theorem State.setUnit_lastHcrc : (s.setUnit u k).lastHcrc = s.lastHcrc := rfl
@[simp] theorem State.setUnit_eid : (s.setUnit u k).eid = s.eid := rfl
@[simp] theorem State.setUnit_spdm : (s.setUnit u k).spdm = s.spdm := rfl
@[simp] theorem State.setUnit_uartRx : (s.setUnit u k).uartRx = s.uartRx := rfl
@[simp] theorem State.setUnit_tap : (s.setUnit u k).tap = s.tap := rfl
@[simp] theorem State.setUnit_flashOp : (s.setUnit u k).flashOp = s.flashOp := rfl
@[simp] theorem State.setUnit_swapAsk : (s.setUnit u k).swapAsk = s.swapAsk := rfl
@[simp] theorem State.setUnit_outbox : (s.setUnit u k).outbox = s.outbox := rfl

end

section
variable (s : State) (a : Nat) (b : Byte)

@[simp] theorem State.setByte_pending : (s.setByte a b).pending = s.pending := rfl
@[simp] theorem State.setByte_freeCount : (s.setByte a b).freeCount = s.freeCount := rfl
@[simp] theorem State.setByte_marks : (s.setByte a b).marks = s.marks := rfl
@[simp] theorem State.setByte_regs : (s.setByte a b).regs = s.regs := rfl
@[simp] theorem State.setByte_gathered : (s.setByte a b).gathered = s.gathered := rfl
@[simp] theorem State.setByte_latches : (s.setByte a b).latches = s.latches := rfl
@[simp] theorem State.setByte_holds : (s.setByte a b).holds = s.holds := rfl
@[simp] theorem State.setByte_released : (s.setByte a b).released = s.released := rfl
@[simp] theorem State.setByte_lost : (s.setByte a b).lost = s.lost := rfl
@[simp] theorem State.setByte_tide : (s.setByte a b).tide = s.tide := rfl
@[simp] theorem State.setByte_cores : (s.setByte a b).cores = s.cores := rfl
@[simp] theorem State.setByte_presses : (s.setByte a b).presses = s.presses := rfl
@[simp] theorem State.setByte_lighters : (s.setByte a b).lighters = s.lighters := rfl
@[simp] theorem State.setByte_unread : (s.setByte a b).unread = s.unread := rfl
@[simp] theorem State.setByte_chk : (s.setByte a b).chk = s.chk := rfl
@[simp] theorem State.setByte_units : (s.setByte a b).units = s.units := rfl
@[simp] theorem State.setByte_rehearsals : (s.setByte a b).rehearsals = s.rehearsals := rfl
@[simp] theorem State.setByte_detections : (s.setByte a b).detections = s.detections := rfl
@[simp] theorem State.setByte_standAsks : (s.setByte a b).standAsks = s.standAsks := rfl
@[simp] theorem State.setByte_teardownAsks : (s.setByte a b).teardownAsks = s.teardownAsks := rfl
@[simp] theorem State.setByte_recs : (s.setByte a b).recs = s.recs := rfl
@[simp] theorem State.setByte_journal : (s.setByte a b).journal = s.journal := rfl
@[simp] theorem State.setByte_jseq : (s.setByte a b).jseq = s.jseq := rfl
@[simp] theorem State.setByte_applied : (s.setByte a b).applied = s.applied := rfl
@[simp] theorem State.setByte_ordersNow : (s.setByte a b).ordersNow = s.ordersNow := rfl
@[simp] theorem State.setByte_pcie : (s.setByte a b).pcie = s.pcie := rfl
@[simp] theorem State.setByte_uart : (s.setByte a b).uart = s.uart := rfl
@[simp] theorem State.setByte_pilotFw : (s.setByte a b).pilotFw = s.pilotFw := rfl
@[simp] theorem State.setByte_delays : (s.setByte a b).delays = s.delays := rfl
@[simp] theorem State.setByte_replays : (s.setByte a b).replays = s.replays := rfl
@[simp] theorem State.setByte_regReads : (s.setByte a b).regReads = s.regReads := rfl
@[simp] theorem State.setByte_unitErrs : (s.setByte a b).unitErrs = s.unitErrs := rfl
@[simp] theorem State.setByte_dirBad : (s.setByte a b).dirBad = s.dirBad := rfl
@[simp] theorem State.setByte_duties : (s.setByte a b).duties = s.duties := rfl
@[simp] theorem State.setByte_otDone : (s.setByte a b).otDone = s.otDone := rfl
@[simp] theorem State.setByte_ramps : (s.setByte a b).ramps = s.ramps := rfl
@[simp] theorem State.setByte_injections : (s.setByte a b).injections = s.injections := rfl
@[simp] theorem State.setByte_engines : (s.setByte a b).engines = s.engines := rfl
@[simp] theorem State.setByte_hist : (s.setByte a b).hist = s.hist := rfl
@[simp] theorem State.setByte_histRanges : (s.setByte a b).histRanges = s.histRanges := rfl
@[simp] theorem State.setByte_galleys : (s.setByte a b).galleys = s.galleys := rfl
@[simp] theorem State.setByte_berths : (s.setByte a b).berths = s.berths := rfl
@[simp] theorem State.setByte_audits : (s.setByte a b).audits = s.audits := rfl
@[simp] theorem State.setByte_laneAsks : (s.setByte a b).laneAsks = s.laneAsks := rfl
@[simp] theorem State.setByte_quay : (s.setByte a b).quay = s.quay := rfl
@[simp] theorem State.setByte_homes : (s.setByte a b).homes = s.homes := rfl
@[simp] theorem State.setByte_dirs : (s.setByte a b).dirs = s.dirs := rfl
@[simp] theorem State.setByte_invals : (s.setByte a b).invals = s.invals := rfl
@[simp] theorem State.setByte_ctxs : (s.setByte a b).ctxs = s.ctxs := rfl
@[simp] theorem State.setByte_hbms : (s.setByte a b).hbms = s.hbms := rfl
@[simp] theorem State.setByte_links : (s.setByte a b).links = s.links := rfl
@[simp] theorem State.setByte_clockLost : (s.setByte a b).clockLost = s.clockLost := rfl
@[simp] theorem State.setByte_refLost : (s.setByte a b).refLost = s.refLost := rfl
@[simp] theorem State.setByte_routers : (s.setByte a b).routers = s.routers := rfl
@[simp] theorem State.setByte_collCtxs : (s.setByte a b).collCtxs = s.collCtxs := rfl
@[simp] theorem State.setByte_collRecs : (s.setByte a b).collRecs = s.collRecs := rfl
@[simp] theorem State.setByte_collEarly : (s.setByte a b).collEarly = s.collEarly := rfl
@[simp] theorem State.setByte_collSeen : (s.setByte a b).collSeen = s.collSeen := rfl
@[simp] theorem State.setByte_ccHeld : (s.setByte a b).ccHeld = s.ccHeld := rfl
@[simp] theorem State.setByte_votes : (s.setByte a b).votes = s.votes := rfl
@[simp] theorem State.setByte_modPg : (s.setByte a b).modPg = s.modPg := rfl
@[simp] theorem State.setByte_abortsFlooded : (s.setByte a b).abortsFlooded = s.abortsFlooded := rfl
@[simp] theorem State.setByte_teardownsSeen : (s.setByte a b).teardownsSeen = s.teardownsSeen := rfl
@[simp] theorem State.setByte_recordReady : (s.setByte a b).recordReady = s.recordReady := rfl
@[simp] theorem State.setByte_lasers : (s.setByte a b).lasers = s.lasers := rfl
@[simp] theorem State.setByte_takeovers : (s.setByte a b).takeovers = s.takeovers := rfl
@[simp] theorem State.setByte_declared : (s.setByte a b).declared = s.declared := rfl
@[simp] theorem State.setByte_waves : (s.setByte a b).waves = s.waves := rfl
@[simp] theorem State.setByte_ports : (s.setByte a b).ports = s.ports := rfl
@[simp] theorem State.setByte_lanes : (s.setByte a b).lanes = s.lanes := rfl
@[simp] theorem State.setByte_stide : (s.setByte a b).stide = s.stide := rfl
@[simp] theorem State.setByte_ctl : (s.setByte a b).ctl = s.ctl := rfl
@[simp] theorem State.setByte_servo : (s.setByte a b).servo = s.servo := rfl
@[simp] theorem State.setByte_mgr : (s.setByte a b).mgr = s.mgr := rfl
@[simp] theorem State.setByte_torn : (s.setByte a b).torn = s.torn := rfl
@[simp] theorem State.setByte_entries : (s.setByte a b).entries = s.entries := rfl
@[simp] theorem State.setByte_puts : (s.setByte a b).puts = s.puts := rfl
@[simp] theorem State.setByte_collAsks : (s.setByte a b).collAsks = s.collAsks := rfl
@[simp] theorem State.setByte_maints : (s.setByte a b).maints = s.maints := rfl
@[simp] theorem State.setByte_follow : (s.setByte a b).follow = s.follow := rfl
@[simp] theorem State.setByte_preempts : (s.setByte a b).preempts = s.preempts := rfl
@[simp] theorem State.setByte_staged : (s.setByte a b).staged = s.staged := rfl
@[simp] theorem State.setByte_boot : (s.setByte a b).boot = s.boot := rfl
@[simp] theorem State.setByte_loader : (s.setByte a b).loader = s.loader := rfl
@[simp] theorem State.setByte_claims : (s.setByte a b).claims = s.claims := rfl
@[simp] theorem State.setByte_tornOld : (s.setByte a b).tornOld = s.tornOld := rfl
@[simp] theorem State.setByte_off : (s.setByte a b).off = s.off := rfl
@[simp] theorem State.setByte_flash : (s.setByte a b).flash = s.flash := rfl
@[simp] theorem State.setByte_broken : (s.setByte a b).broken = s.broken := rfl
@[simp] theorem State.setByte_flashQuar : (s.setByte a b).flashQuar = s.flashQuar := rfl
@[simp] theorem State.setByte_supply : (s.setByte a b).supply = s.supply := rfl
@[simp] theorem State.setByte_budgets : (s.setByte a b).budgets = s.budgets := rfl
@[simp] theorem State.setByte_budgetSent : (s.setByte a b).budgetSent = s.budgetSent := rfl
@[simp] theorem State.setByte_budgetDone : (s.setByte a b).budgetDone = s.budgetDone := rfl
@[simp] theorem State.setByte_calm : (s.setByte a b).calm = s.calm := rfl
@[simp] theorem State.setByte_hot : (s.setByte a b).hot = s.hot := rfl
@[simp] theorem State.setByte_rising : (s.setByte a b).rising = s.rising := rfl
@[simp] theorem State.setByte_crossStops : (s.setByte a b).crossStops = s.crossStops := rfl
@[simp] theorem State.setByte_hostReads : (s.setByte a b).hostReads = s.hostReads := rfl
@[simp] theorem State.setByte_preemptDps : (s.setByte a b).preemptDps = s.preemptDps := rfl
@[simp] theorem State.setByte_qps : (s.setByte a b).qps = s.qps := rfl
@[simp] theorem State.setByte_ethPause : (s.setByte a b).ethPause = s.ethPause := rfl
@[simp] theorem State.setByte_ethHeld : (s.setByte a b).ethHeld = s.ethHeld := rfl
@[simp] theorem State.setByte_ptp : (s.setByte a b).ptp = s.ptp := rfl
@[simp] theorem State.setByte_lastHcrc : (s.setByte a b).lastHcrc = s.lastHcrc := rfl
@[simp] theorem State.setByte_eid : (s.setByte a b).eid = s.eid := rfl
@[simp] theorem State.setByte_spdm : (s.setByte a b).spdm = s.spdm := rfl
@[simp] theorem State.setByte_uartRx : (s.setByte a b).uartRx = s.uartRx := rfl
@[simp] theorem State.setByte_tap : (s.setByte a b).tap = s.tap := rfl
@[simp] theorem State.setByte_flashOp : (s.setByte a b).flashOp = s.flashOp := rfl
@[simp] theorem State.setByte_swapAsk : (s.setByte a b).swapAsk = s.swapAsk := rfl
@[simp] theorem State.setByte_outbox : (s.setByte a b).outbox = s.outbox := rfl

end

section
variable (s : State) (a : Nat) (bs : List Byte)

@[simp] theorem State.writeBytes_pending : (s.writeBytes a bs).pending = s.pending := rfl
@[simp] theorem State.writeBytes_freeCount : (s.writeBytes a bs).freeCount = s.freeCount := rfl
@[simp] theorem State.writeBytes_regs : (s.writeBytes a bs).regs = s.regs := rfl
@[simp] theorem State.writeBytes_gathered : (s.writeBytes a bs).gathered = s.gathered := rfl
@[simp] theorem State.writeBytes_latches : (s.writeBytes a bs).latches = s.latches := rfl
@[simp] theorem State.writeBytes_holds : (s.writeBytes a bs).holds = s.holds := rfl
@[simp] theorem State.writeBytes_released : (s.writeBytes a bs).released = s.released := rfl
@[simp] theorem State.writeBytes_lost : (s.writeBytes a bs).lost = s.lost := rfl
@[simp] theorem State.writeBytes_tide : (s.writeBytes a bs).tide = s.tide := rfl
@[simp] theorem State.writeBytes_cores : (s.writeBytes a bs).cores = s.cores := rfl
@[simp] theorem State.writeBytes_presses : (s.writeBytes a bs).presses = s.presses := rfl
@[simp] theorem State.writeBytes_lighters : (s.writeBytes a bs).lighters = s.lighters := rfl
@[simp] theorem State.writeBytes_unread : (s.writeBytes a bs).unread = s.unread := rfl
@[simp] theorem State.writeBytes_chk : (s.writeBytes a bs).chk = s.chk := rfl
@[simp] theorem State.writeBytes_units : (s.writeBytes a bs).units = s.units := rfl
@[simp] theorem State.writeBytes_rehearsals : (s.writeBytes a bs).rehearsals = s.rehearsals := rfl
@[simp] theorem State.writeBytes_detections : (s.writeBytes a bs).detections = s.detections := rfl
@[simp] theorem State.writeBytes_standAsks : (s.writeBytes a bs).standAsks = s.standAsks := rfl
@[simp] theorem State.writeBytes_teardownAsks : (s.writeBytes a bs).teardownAsks = s.teardownAsks := rfl
@[simp] theorem State.writeBytes_recs : (s.writeBytes a bs).recs = s.recs := rfl
@[simp] theorem State.writeBytes_journal : (s.writeBytes a bs).journal = s.journal := rfl
@[simp] theorem State.writeBytes_jseq : (s.writeBytes a bs).jseq = s.jseq := rfl
@[simp] theorem State.writeBytes_applied : (s.writeBytes a bs).applied = s.applied := rfl
@[simp] theorem State.writeBytes_ordersNow : (s.writeBytes a bs).ordersNow = s.ordersNow := rfl
@[simp] theorem State.writeBytes_pcie : (s.writeBytes a bs).pcie = s.pcie := rfl
@[simp] theorem State.writeBytes_uart : (s.writeBytes a bs).uart = s.uart := rfl
@[simp] theorem State.writeBytes_pilotFw : (s.writeBytes a bs).pilotFw = s.pilotFw := rfl
@[simp] theorem State.writeBytes_delays : (s.writeBytes a bs).delays = s.delays := rfl
@[simp] theorem State.writeBytes_replays : (s.writeBytes a bs).replays = s.replays := rfl
@[simp] theorem State.writeBytes_regReads : (s.writeBytes a bs).regReads = s.regReads := rfl
@[simp] theorem State.writeBytes_unitErrs : (s.writeBytes a bs).unitErrs = s.unitErrs := rfl
@[simp] theorem State.writeBytes_dirBad : (s.writeBytes a bs).dirBad = s.dirBad := rfl
@[simp] theorem State.writeBytes_duties : (s.writeBytes a bs).duties = s.duties := rfl
@[simp] theorem State.writeBytes_otDone : (s.writeBytes a bs).otDone = s.otDone := rfl
@[simp] theorem State.writeBytes_ramps : (s.writeBytes a bs).ramps = s.ramps := rfl
@[simp] theorem State.writeBytes_injections : (s.writeBytes a bs).injections = s.injections := rfl
@[simp] theorem State.writeBytes_engines : (s.writeBytes a bs).engines = s.engines := rfl
@[simp] theorem State.writeBytes_hist : (s.writeBytes a bs).hist = s.hist := rfl
@[simp] theorem State.writeBytes_histRanges : (s.writeBytes a bs).histRanges = s.histRanges := rfl
@[simp] theorem State.writeBytes_galleys : (s.writeBytes a bs).galleys = s.galleys := rfl
@[simp] theorem State.writeBytes_berths : (s.writeBytes a bs).berths = s.berths := rfl
@[simp] theorem State.writeBytes_audits : (s.writeBytes a bs).audits = s.audits := rfl
@[simp] theorem State.writeBytes_laneAsks : (s.writeBytes a bs).laneAsks = s.laneAsks := rfl
@[simp] theorem State.writeBytes_quay : (s.writeBytes a bs).quay = s.quay := rfl
@[simp] theorem State.writeBytes_homes : (s.writeBytes a bs).homes = s.homes := rfl
@[simp] theorem State.writeBytes_dirs : (s.writeBytes a bs).dirs = s.dirs := rfl
@[simp] theorem State.writeBytes_invals : (s.writeBytes a bs).invals = s.invals := rfl
@[simp] theorem State.writeBytes_ctxs : (s.writeBytes a bs).ctxs = s.ctxs := rfl
@[simp] theorem State.writeBytes_hbms : (s.writeBytes a bs).hbms = s.hbms := rfl
@[simp] theorem State.writeBytes_links : (s.writeBytes a bs).links = s.links := rfl
@[simp] theorem State.writeBytes_clockLost : (s.writeBytes a bs).clockLost = s.clockLost := rfl
@[simp] theorem State.writeBytes_refLost : (s.writeBytes a bs).refLost = s.refLost := rfl
@[simp] theorem State.writeBytes_routers : (s.writeBytes a bs).routers = s.routers := rfl
@[simp] theorem State.writeBytes_collCtxs : (s.writeBytes a bs).collCtxs = s.collCtxs := rfl
@[simp] theorem State.writeBytes_collRecs : (s.writeBytes a bs).collRecs = s.collRecs := rfl
@[simp] theorem State.writeBytes_collEarly : (s.writeBytes a bs).collEarly = s.collEarly := rfl
@[simp] theorem State.writeBytes_collSeen : (s.writeBytes a bs).collSeen = s.collSeen := rfl
@[simp] theorem State.writeBytes_ccHeld : (s.writeBytes a bs).ccHeld = s.ccHeld := rfl
@[simp] theorem State.writeBytes_votes : (s.writeBytes a bs).votes = s.votes := rfl
@[simp] theorem State.writeBytes_modPg : (s.writeBytes a bs).modPg = s.modPg := rfl
@[simp] theorem State.writeBytes_abortsFlooded : (s.writeBytes a bs).abortsFlooded = s.abortsFlooded := rfl
@[simp] theorem State.writeBytes_teardownsSeen : (s.writeBytes a bs).teardownsSeen = s.teardownsSeen := rfl
@[simp] theorem State.writeBytes_recordReady : (s.writeBytes a bs).recordReady = s.recordReady := rfl
@[simp] theorem State.writeBytes_lasers : (s.writeBytes a bs).lasers = s.lasers := rfl
@[simp] theorem State.writeBytes_takeovers : (s.writeBytes a bs).takeovers = s.takeovers := rfl
@[simp] theorem State.writeBytes_declared : (s.writeBytes a bs).declared = s.declared := rfl
@[simp] theorem State.writeBytes_waves : (s.writeBytes a bs).waves = s.waves := rfl
@[simp] theorem State.writeBytes_ports : (s.writeBytes a bs).ports = s.ports := rfl
@[simp] theorem State.writeBytes_lanes : (s.writeBytes a bs).lanes = s.lanes := rfl
@[simp] theorem State.writeBytes_stide : (s.writeBytes a bs).stide = s.stide := rfl
@[simp] theorem State.writeBytes_ctl : (s.writeBytes a bs).ctl = s.ctl := rfl
@[simp] theorem State.writeBytes_servo : (s.writeBytes a bs).servo = s.servo := rfl
@[simp] theorem State.writeBytes_mgr : (s.writeBytes a bs).mgr = s.mgr := rfl
@[simp] theorem State.writeBytes_torn : (s.writeBytes a bs).torn = s.torn := rfl
@[simp] theorem State.writeBytes_entries : (s.writeBytes a bs).entries = s.entries := rfl
@[simp] theorem State.writeBytes_puts : (s.writeBytes a bs).puts = s.puts := rfl
@[simp] theorem State.writeBytes_collAsks : (s.writeBytes a bs).collAsks = s.collAsks := rfl
@[simp] theorem State.writeBytes_maints : (s.writeBytes a bs).maints = s.maints := rfl
@[simp] theorem State.writeBytes_follow : (s.writeBytes a bs).follow = s.follow := rfl
@[simp] theorem State.writeBytes_preempts : (s.writeBytes a bs).preempts = s.preempts := rfl
@[simp] theorem State.writeBytes_staged : (s.writeBytes a bs).staged = s.staged := rfl
@[simp] theorem State.writeBytes_boot : (s.writeBytes a bs).boot = s.boot := rfl
@[simp] theorem State.writeBytes_loader : (s.writeBytes a bs).loader = s.loader := rfl
@[simp] theorem State.writeBytes_claims : (s.writeBytes a bs).claims = s.claims := rfl
@[simp] theorem State.writeBytes_tornOld : (s.writeBytes a bs).tornOld = s.tornOld := rfl
@[simp] theorem State.writeBytes_off : (s.writeBytes a bs).off = s.off := rfl
@[simp] theorem State.writeBytes_flash : (s.writeBytes a bs).flash = s.flash := rfl
@[simp] theorem State.writeBytes_broken : (s.writeBytes a bs).broken = s.broken := rfl
@[simp] theorem State.writeBytes_flashQuar : (s.writeBytes a bs).flashQuar = s.flashQuar := rfl
@[simp] theorem State.writeBytes_supply : (s.writeBytes a bs).supply = s.supply := rfl
@[simp] theorem State.writeBytes_budgets : (s.writeBytes a bs).budgets = s.budgets := rfl
@[simp] theorem State.writeBytes_budgetSent : (s.writeBytes a bs).budgetSent = s.budgetSent := rfl
@[simp] theorem State.writeBytes_budgetDone : (s.writeBytes a bs).budgetDone = s.budgetDone := rfl
@[simp] theorem State.writeBytes_calm : (s.writeBytes a bs).calm = s.calm := rfl
@[simp] theorem State.writeBytes_hot : (s.writeBytes a bs).hot = s.hot := rfl
@[simp] theorem State.writeBytes_rising : (s.writeBytes a bs).rising = s.rising := rfl
@[simp] theorem State.writeBytes_crossStops : (s.writeBytes a bs).crossStops = s.crossStops := rfl
@[simp] theorem State.writeBytes_hostReads : (s.writeBytes a bs).hostReads = s.hostReads := rfl
@[simp] theorem State.writeBytes_preemptDps : (s.writeBytes a bs).preemptDps = s.preemptDps := rfl
@[simp] theorem State.writeBytes_qps : (s.writeBytes a bs).qps = s.qps := rfl
@[simp] theorem State.writeBytes_ethPause : (s.writeBytes a bs).ethPause = s.ethPause := rfl
@[simp] theorem State.writeBytes_ethHeld : (s.writeBytes a bs).ethHeld = s.ethHeld := rfl
@[simp] theorem State.writeBytes_ptp : (s.writeBytes a bs).ptp = s.ptp := rfl
@[simp] theorem State.writeBytes_lastHcrc : (s.writeBytes a bs).lastHcrc = s.lastHcrc := rfl
@[simp] theorem State.writeBytes_eid : (s.writeBytes a bs).eid = s.eid := rfl
@[simp] theorem State.writeBytes_spdm : (s.writeBytes a bs).spdm = s.spdm := rfl
@[simp] theorem State.writeBytes_uartRx : (s.writeBytes a bs).uartRx = s.uartRx := rfl
@[simp] theorem State.writeBytes_tap : (s.writeBytes a bs).tap = s.tap := rfl
@[simp] theorem State.writeBytes_flashOp : (s.writeBytes a bs).flashOp = s.flashOp := rfl
@[simp] theorem State.writeBytes_swapAsk : (s.writeBytes a bs).swapAsk = s.swapAsk := rfl
@[simp] theorem State.writeBytes_outbox : (s.writeBytes a bs).outbox = s.outbox := rfl

end

section
variable (s : State) (a n : Nat)

@[simp] theorem State.setMark_pending : (s.setMark a n).pending = s.pending := rfl
@[simp] theorem State.setMark_freeCount : (s.setMark a n).freeCount = s.freeCount := rfl
@[simp] theorem State.setMark_mem : (s.setMark a n).mem = s.mem := rfl
@[simp] theorem State.setMark_regs : (s.setMark a n).regs = s.regs := rfl
@[simp] theorem State.setMark_gathered : (s.setMark a n).gathered = s.gathered := rfl
@[simp] theorem State.setMark_latches : (s.setMark a n).latches = s.latches := rfl
@[simp] theorem State.setMark_holds : (s.setMark a n).holds = s.holds := rfl
@[simp] theorem State.setMark_released : (s.setMark a n).released = s.released := rfl
@[simp] theorem State.setMark_lost : (s.setMark a n).lost = s.lost := rfl
@[simp] theorem State.setMark_tide : (s.setMark a n).tide = s.tide := rfl
@[simp] theorem State.setMark_cores : (s.setMark a n).cores = s.cores := rfl
@[simp] theorem State.setMark_presses : (s.setMark a n).presses = s.presses := rfl
@[simp] theorem State.setMark_lighters : (s.setMark a n).lighters = s.lighters := rfl
@[simp] theorem State.setMark_unread : (s.setMark a n).unread = s.unread := rfl
@[simp] theorem State.setMark_chk : (s.setMark a n).chk = s.chk := rfl
@[simp] theorem State.setMark_units : (s.setMark a n).units = s.units := rfl
@[simp] theorem State.setMark_rehearsals : (s.setMark a n).rehearsals = s.rehearsals := rfl
@[simp] theorem State.setMark_detections : (s.setMark a n).detections = s.detections := rfl
@[simp] theorem State.setMark_standAsks : (s.setMark a n).standAsks = s.standAsks := rfl
@[simp] theorem State.setMark_teardownAsks : (s.setMark a n).teardownAsks = s.teardownAsks := rfl
@[simp] theorem State.setMark_recs : (s.setMark a n).recs = s.recs := rfl
@[simp] theorem State.setMark_journal : (s.setMark a n).journal = s.journal := rfl
@[simp] theorem State.setMark_jseq : (s.setMark a n).jseq = s.jseq := rfl
@[simp] theorem State.setMark_applied : (s.setMark a n).applied = s.applied := rfl
@[simp] theorem State.setMark_ordersNow : (s.setMark a n).ordersNow = s.ordersNow := rfl
@[simp] theorem State.setMark_pcie : (s.setMark a n).pcie = s.pcie := rfl
@[simp] theorem State.setMark_uart : (s.setMark a n).uart = s.uart := rfl
@[simp] theorem State.setMark_pilotFw : (s.setMark a n).pilotFw = s.pilotFw := rfl
@[simp] theorem State.setMark_delays : (s.setMark a n).delays = s.delays := rfl
@[simp] theorem State.setMark_replays : (s.setMark a n).replays = s.replays := rfl
@[simp] theorem State.setMark_regReads : (s.setMark a n).regReads = s.regReads := rfl
@[simp] theorem State.setMark_unitErrs : (s.setMark a n).unitErrs = s.unitErrs := rfl
@[simp] theorem State.setMark_dirBad : (s.setMark a n).dirBad = s.dirBad := rfl
@[simp] theorem State.setMark_duties : (s.setMark a n).duties = s.duties := rfl
@[simp] theorem State.setMark_otDone : (s.setMark a n).otDone = s.otDone := rfl
@[simp] theorem State.setMark_ramps : (s.setMark a n).ramps = s.ramps := rfl
@[simp] theorem State.setMark_injections : (s.setMark a n).injections = s.injections := rfl
@[simp] theorem State.setMark_engines : (s.setMark a n).engines = s.engines := rfl
@[simp] theorem State.setMark_hist : (s.setMark a n).hist = s.hist := rfl
@[simp] theorem State.setMark_histRanges : (s.setMark a n).histRanges = s.histRanges := rfl
@[simp] theorem State.setMark_galleys : (s.setMark a n).galleys = s.galleys := rfl
@[simp] theorem State.setMark_berths : (s.setMark a n).berths = s.berths := rfl
@[simp] theorem State.setMark_audits : (s.setMark a n).audits = s.audits := rfl
@[simp] theorem State.setMark_laneAsks : (s.setMark a n).laneAsks = s.laneAsks := rfl
@[simp] theorem State.setMark_quay : (s.setMark a n).quay = s.quay := rfl
@[simp] theorem State.setMark_homes : (s.setMark a n).homes = s.homes := rfl
@[simp] theorem State.setMark_dirs : (s.setMark a n).dirs = s.dirs := rfl
@[simp] theorem State.setMark_invals : (s.setMark a n).invals = s.invals := rfl
@[simp] theorem State.setMark_ctxs : (s.setMark a n).ctxs = s.ctxs := rfl
@[simp] theorem State.setMark_hbms : (s.setMark a n).hbms = s.hbms := rfl
@[simp] theorem State.setMark_links : (s.setMark a n).links = s.links := rfl
@[simp] theorem State.setMark_clockLost : (s.setMark a n).clockLost = s.clockLost := rfl
@[simp] theorem State.setMark_refLost : (s.setMark a n).refLost = s.refLost := rfl
@[simp] theorem State.setMark_routers : (s.setMark a n).routers = s.routers := rfl
@[simp] theorem State.setMark_collCtxs : (s.setMark a n).collCtxs = s.collCtxs := rfl
@[simp] theorem State.setMark_collRecs : (s.setMark a n).collRecs = s.collRecs := rfl
@[simp] theorem State.setMark_collEarly : (s.setMark a n).collEarly = s.collEarly := rfl
@[simp] theorem State.setMark_collSeen : (s.setMark a n).collSeen = s.collSeen := rfl
@[simp] theorem State.setMark_ccHeld : (s.setMark a n).ccHeld = s.ccHeld := rfl
@[simp] theorem State.setMark_votes : (s.setMark a n).votes = s.votes := rfl
@[simp] theorem State.setMark_modPg : (s.setMark a n).modPg = s.modPg := rfl
@[simp] theorem State.setMark_abortsFlooded : (s.setMark a n).abortsFlooded = s.abortsFlooded := rfl
@[simp] theorem State.setMark_teardownsSeen : (s.setMark a n).teardownsSeen = s.teardownsSeen := rfl
@[simp] theorem State.setMark_recordReady : (s.setMark a n).recordReady = s.recordReady := rfl
@[simp] theorem State.setMark_lasers : (s.setMark a n).lasers = s.lasers := rfl
@[simp] theorem State.setMark_takeovers : (s.setMark a n).takeovers = s.takeovers := rfl
@[simp] theorem State.setMark_declared : (s.setMark a n).declared = s.declared := rfl
@[simp] theorem State.setMark_waves : (s.setMark a n).waves = s.waves := rfl
@[simp] theorem State.setMark_ports : (s.setMark a n).ports = s.ports := rfl
@[simp] theorem State.setMark_lanes : (s.setMark a n).lanes = s.lanes := rfl
@[simp] theorem State.setMark_stide : (s.setMark a n).stide = s.stide := rfl
@[simp] theorem State.setMark_ctl : (s.setMark a n).ctl = s.ctl := rfl
@[simp] theorem State.setMark_servo : (s.setMark a n).servo = s.servo := rfl
@[simp] theorem State.setMark_mgr : (s.setMark a n).mgr = s.mgr := rfl
@[simp] theorem State.setMark_torn : (s.setMark a n).torn = s.torn := rfl
@[simp] theorem State.setMark_entries : (s.setMark a n).entries = s.entries := rfl
@[simp] theorem State.setMark_puts : (s.setMark a n).puts = s.puts := rfl
@[simp] theorem State.setMark_collAsks : (s.setMark a n).collAsks = s.collAsks := rfl
@[simp] theorem State.setMark_maints : (s.setMark a n).maints = s.maints := rfl
@[simp] theorem State.setMark_follow : (s.setMark a n).follow = s.follow := rfl
@[simp] theorem State.setMark_preempts : (s.setMark a n).preempts = s.preempts := rfl
@[simp] theorem State.setMark_staged : (s.setMark a n).staged = s.staged := rfl
@[simp] theorem State.setMark_boot : (s.setMark a n).boot = s.boot := rfl
@[simp] theorem State.setMark_loader : (s.setMark a n).loader = s.loader := rfl
@[simp] theorem State.setMark_claims : (s.setMark a n).claims = s.claims := rfl
@[simp] theorem State.setMark_tornOld : (s.setMark a n).tornOld = s.tornOld := rfl
@[simp] theorem State.setMark_off : (s.setMark a n).off = s.off := rfl
@[simp] theorem State.setMark_flash : (s.setMark a n).flash = s.flash := rfl
@[simp] theorem State.setMark_broken : (s.setMark a n).broken = s.broken := rfl
@[simp] theorem State.setMark_flashQuar : (s.setMark a n).flashQuar = s.flashQuar := rfl
@[simp] theorem State.setMark_supply : (s.setMark a n).supply = s.supply := rfl
@[simp] theorem State.setMark_budgets : (s.setMark a n).budgets = s.budgets := rfl
@[simp] theorem State.setMark_budgetSent : (s.setMark a n).budgetSent = s.budgetSent := rfl
@[simp] theorem State.setMark_budgetDone : (s.setMark a n).budgetDone = s.budgetDone := rfl
@[simp] theorem State.setMark_calm : (s.setMark a n).calm = s.calm := rfl
@[simp] theorem State.setMark_hot : (s.setMark a n).hot = s.hot := rfl
@[simp] theorem State.setMark_rising : (s.setMark a n).rising = s.rising := rfl
@[simp] theorem State.setMark_crossStops : (s.setMark a n).crossStops = s.crossStops := rfl
@[simp] theorem State.setMark_hostReads : (s.setMark a n).hostReads = s.hostReads := rfl
@[simp] theorem State.setMark_preemptDps : (s.setMark a n).preemptDps = s.preemptDps := rfl
@[simp] theorem State.setMark_qps : (s.setMark a n).qps = s.qps := rfl
@[simp] theorem State.setMark_ethPause : (s.setMark a n).ethPause = s.ethPause := rfl
@[simp] theorem State.setMark_ethHeld : (s.setMark a n).ethHeld = s.ethHeld := rfl
@[simp] theorem State.setMark_ptp : (s.setMark a n).ptp = s.ptp := rfl
@[simp] theorem State.setMark_lastHcrc : (s.setMark a n).lastHcrc = s.lastHcrc := rfl
@[simp] theorem State.setMark_eid : (s.setMark a n).eid = s.eid := rfl
@[simp] theorem State.setMark_spdm : (s.setMark a n).spdm = s.spdm := rfl
@[simp] theorem State.setMark_uartRx : (s.setMark a n).uartRx = s.uartRx := rfl
@[simp] theorem State.setMark_tap : (s.setMark a n).tap = s.tap := rfl
@[simp] theorem State.setMark_flashOp : (s.setMark a n).flashOp = s.flashOp := rfl
@[simp] theorem State.setMark_swapAsk : (s.setMark a n).swapAsk = s.swapAsk := rfl
@[simp] theorem State.setMark_outbox : (s.setMark a n).outbox = s.outbox := rfl

end

section
variable (s : State) (k : OutKind) (dest : Nat) (data : List Nat)

@[simp] theorem State.send_pending : (s.send k dest data).pending = s.pending := rfl
@[simp] theorem State.send_freeCount : (s.send k dest data).freeCount = s.freeCount := rfl
@[simp] theorem State.send_mem : (s.send k dest data).mem = s.mem := rfl
@[simp] theorem State.send_marks : (s.send k dest data).marks = s.marks := rfl
@[simp] theorem State.send_regs : (s.send k dest data).regs = s.regs := rfl
@[simp] theorem State.send_gathered : (s.send k dest data).gathered = s.gathered := rfl
@[simp] theorem State.send_latches : (s.send k dest data).latches = s.latches := rfl
@[simp] theorem State.send_holds : (s.send k dest data).holds = s.holds := rfl
@[simp] theorem State.send_released : (s.send k dest data).released = s.released := rfl
@[simp] theorem State.send_lost : (s.send k dest data).lost = s.lost := rfl
@[simp] theorem State.send_tide : (s.send k dest data).tide = s.tide := rfl
@[simp] theorem State.send_cores : (s.send k dest data).cores = s.cores := rfl
@[simp] theorem State.send_presses : (s.send k dest data).presses = s.presses := rfl
@[simp] theorem State.send_lighters : (s.send k dest data).lighters = s.lighters := rfl
@[simp] theorem State.send_unread : (s.send k dest data).unread = s.unread := rfl
@[simp] theorem State.send_chk : (s.send k dest data).chk = s.chk := rfl
@[simp] theorem State.send_units : (s.send k dest data).units = s.units := rfl
@[simp] theorem State.send_rehearsals : (s.send k dest data).rehearsals = s.rehearsals := rfl
@[simp] theorem State.send_detections : (s.send k dest data).detections = s.detections := rfl
@[simp] theorem State.send_standAsks : (s.send k dest data).standAsks = s.standAsks := rfl
@[simp] theorem State.send_teardownAsks : (s.send k dest data).teardownAsks = s.teardownAsks := rfl
@[simp] theorem State.send_recs : (s.send k dest data).recs = s.recs := rfl
@[simp] theorem State.send_journal : (s.send k dest data).journal = s.journal := rfl
@[simp] theorem State.send_jseq : (s.send k dest data).jseq = s.jseq := rfl
@[simp] theorem State.send_applied : (s.send k dest data).applied = s.applied := rfl
@[simp] theorem State.send_ordersNow : (s.send k dest data).ordersNow = s.ordersNow := rfl
@[simp] theorem State.send_pcie : (s.send k dest data).pcie = s.pcie := rfl
@[simp] theorem State.send_uart : (s.send k dest data).uart = s.uart := rfl
@[simp] theorem State.send_pilotFw : (s.send k dest data).pilotFw = s.pilotFw := rfl
@[simp] theorem State.send_delays : (s.send k dest data).delays = s.delays := rfl
@[simp] theorem State.send_replays : (s.send k dest data).replays = s.replays := rfl
@[simp] theorem State.send_regReads : (s.send k dest data).regReads = s.regReads := rfl
@[simp] theorem State.send_unitErrs : (s.send k dest data).unitErrs = s.unitErrs := rfl
@[simp] theorem State.send_dirBad : (s.send k dest data).dirBad = s.dirBad := rfl
@[simp] theorem State.send_duties : (s.send k dest data).duties = s.duties := rfl
@[simp] theorem State.send_otDone : (s.send k dest data).otDone = s.otDone := rfl
@[simp] theorem State.send_ramps : (s.send k dest data).ramps = s.ramps := rfl
@[simp] theorem State.send_injections : (s.send k dest data).injections = s.injections := rfl
@[simp] theorem State.send_engines : (s.send k dest data).engines = s.engines := rfl
@[simp] theorem State.send_hist : (s.send k dest data).hist = s.hist := rfl
@[simp] theorem State.send_histRanges : (s.send k dest data).histRanges = s.histRanges := rfl
@[simp] theorem State.send_galleys : (s.send k dest data).galleys = s.galleys := rfl
@[simp] theorem State.send_berths : (s.send k dest data).berths = s.berths := rfl
@[simp] theorem State.send_audits : (s.send k dest data).audits = s.audits := rfl
@[simp] theorem State.send_laneAsks : (s.send k dest data).laneAsks = s.laneAsks := rfl
@[simp] theorem State.send_quay : (s.send k dest data).quay = s.quay := rfl
@[simp] theorem State.send_homes : (s.send k dest data).homes = s.homes := rfl
@[simp] theorem State.send_dirs : (s.send k dest data).dirs = s.dirs := rfl
@[simp] theorem State.send_invals : (s.send k dest data).invals = s.invals := rfl
@[simp] theorem State.send_ctxs : (s.send k dest data).ctxs = s.ctxs := rfl
@[simp] theorem State.send_hbms : (s.send k dest data).hbms = s.hbms := rfl
@[simp] theorem State.send_links : (s.send k dest data).links = s.links := rfl
@[simp] theorem State.send_clockLost : (s.send k dest data).clockLost = s.clockLost := rfl
@[simp] theorem State.send_refLost : (s.send k dest data).refLost = s.refLost := rfl
@[simp] theorem State.send_routers : (s.send k dest data).routers = s.routers := rfl
@[simp] theorem State.send_collCtxs : (s.send k dest data).collCtxs = s.collCtxs := rfl
@[simp] theorem State.send_collRecs : (s.send k dest data).collRecs = s.collRecs := rfl
@[simp] theorem State.send_collEarly : (s.send k dest data).collEarly = s.collEarly := rfl
@[simp] theorem State.send_collSeen : (s.send k dest data).collSeen = s.collSeen := rfl
@[simp] theorem State.send_ccHeld : (s.send k dest data).ccHeld = s.ccHeld := rfl
@[simp] theorem State.send_votes : (s.send k dest data).votes = s.votes := rfl
@[simp] theorem State.send_modPg : (s.send k dest data).modPg = s.modPg := rfl
@[simp] theorem State.send_abortsFlooded : (s.send k dest data).abortsFlooded = s.abortsFlooded := rfl
@[simp] theorem State.send_teardownsSeen : (s.send k dest data).teardownsSeen = s.teardownsSeen := rfl
@[simp] theorem State.send_recordReady : (s.send k dest data).recordReady = s.recordReady := rfl
@[simp] theorem State.send_lasers : (s.send k dest data).lasers = s.lasers := rfl
@[simp] theorem State.send_takeovers : (s.send k dest data).takeovers = s.takeovers := rfl
@[simp] theorem State.send_declared : (s.send k dest data).declared = s.declared := rfl
@[simp] theorem State.send_waves : (s.send k dest data).waves = s.waves := rfl
@[simp] theorem State.send_ports : (s.send k dest data).ports = s.ports := rfl
@[simp] theorem State.send_lanes : (s.send k dest data).lanes = s.lanes := rfl
@[simp] theorem State.send_stide : (s.send k dest data).stide = s.stide := rfl
@[simp] theorem State.send_ctl : (s.send k dest data).ctl = s.ctl := rfl
@[simp] theorem State.send_servo : (s.send k dest data).servo = s.servo := rfl
@[simp] theorem State.send_mgr : (s.send k dest data).mgr = s.mgr := rfl
@[simp] theorem State.send_torn : (s.send k dest data).torn = s.torn := rfl
@[simp] theorem State.send_entries : (s.send k dest data).entries = s.entries := rfl
@[simp] theorem State.send_puts : (s.send k dest data).puts = s.puts := rfl
@[simp] theorem State.send_collAsks : (s.send k dest data).collAsks = s.collAsks := rfl
@[simp] theorem State.send_maints : (s.send k dest data).maints = s.maints := rfl
@[simp] theorem State.send_follow : (s.send k dest data).follow = s.follow := rfl
@[simp] theorem State.send_preempts : (s.send k dest data).preempts = s.preempts := rfl
@[simp] theorem State.send_staged : (s.send k dest data).staged = s.staged := rfl
@[simp] theorem State.send_boot : (s.send k dest data).boot = s.boot := rfl
@[simp] theorem State.send_loader : (s.send k dest data).loader = s.loader := rfl
@[simp] theorem State.send_claims : (s.send k dest data).claims = s.claims := rfl
@[simp] theorem State.send_tornOld : (s.send k dest data).tornOld = s.tornOld := rfl
@[simp] theorem State.send_off : (s.send k dest data).off = s.off := rfl
@[simp] theorem State.send_flash : (s.send k dest data).flash = s.flash := rfl
@[simp] theorem State.send_broken : (s.send k dest data).broken = s.broken := rfl
@[simp] theorem State.send_flashQuar : (s.send k dest data).flashQuar = s.flashQuar := rfl
@[simp] theorem State.send_supply : (s.send k dest data).supply = s.supply := rfl
@[simp] theorem State.send_budgets : (s.send k dest data).budgets = s.budgets := rfl
@[simp] theorem State.send_budgetSent : (s.send k dest data).budgetSent = s.budgetSent := rfl
@[simp] theorem State.send_budgetDone : (s.send k dest data).budgetDone = s.budgetDone := rfl
@[simp] theorem State.send_calm : (s.send k dest data).calm = s.calm := rfl
@[simp] theorem State.send_hot : (s.send k dest data).hot = s.hot := rfl
@[simp] theorem State.send_rising : (s.send k dest data).rising = s.rising := rfl
@[simp] theorem State.send_crossStops : (s.send k dest data).crossStops = s.crossStops := rfl
@[simp] theorem State.send_hostReads : (s.send k dest data).hostReads = s.hostReads := rfl
@[simp] theorem State.send_preemptDps : (s.send k dest data).preemptDps = s.preemptDps := rfl
@[simp] theorem State.send_qps : (s.send k dest data).qps = s.qps := rfl
@[simp] theorem State.send_ethPause : (s.send k dest data).ethPause = s.ethPause := rfl
@[simp] theorem State.send_ethHeld : (s.send k dest data).ethHeld = s.ethHeld := rfl
@[simp] theorem State.send_ptp : (s.send k dest data).ptp = s.ptp := rfl
@[simp] theorem State.send_lastHcrc : (s.send k dest data).lastHcrc = s.lastHcrc := rfl
@[simp] theorem State.send_eid : (s.send k dest data).eid = s.eid := rfl
@[simp] theorem State.send_spdm : (s.send k dest data).spdm = s.spdm := rfl
@[simp] theorem State.send_uartRx : (s.send k dest data).uartRx = s.uartRx := rfl
@[simp] theorem State.send_tap : (s.send k dest data).tap = s.tap := rfl
@[simp] theorem State.send_flashOp : (s.send k dest data).flashOp = s.flashOp := rfl
@[simp] theorem State.send_swapAsk : (s.send k dest data).swapAsk = s.swapAsk := rfl

end

section
variable (s : State)

/-- A register read after a register write. -/
theorem State.reg_setReg (a b : Nat) (v : Word) : (s.setReg a v).reg b = if b = a then v else s.reg b := by
  by_cases h : b = a
  · subst h; simp [State.reg, State.setReg]
  · simp [State.reg, State.setReg, h, Tbl.get_set_ne]

@[simp] theorem State.reg_setReg_same (a : Nat) (v : Word) : (s.setReg a v).reg a = v := by simp [State.reg_setReg]
theorem State.reg_setReg_ne {a b : Nat} (v : Word) (h : b ≠ a) : (s.setReg a v).reg b = s.reg b := by
  simp [State.reg_setReg, h]

/-- A field read after its write, in a register of 64 bits. -/
theorem State.fld_setFld (a : Nat) (f : Fld) (v : Nat) (h1 : f.lo ≤ f.hi) (h2 : f.hi < 64) :
    (s.setFld a f v).fld a f = v % 2 ^ f.width := by
  simp [State.fld, State.setFld, Fld.get_set f _ v h1 h2]

/-- A write of a field leaves a disjoint field of the same register alone. -/
theorem State.fld_setFld_disjoint (a : Nat) (f g : Fld) (v : Nat) (h1 : f.lo ≤ f.hi) (h2 : f.hi < 64)
    (h3 : g.hi < 64) (h : g.hi < f.lo ∨ f.hi < g.lo) : (s.setFld a f v).fld a g = s.fld a g := by
  simp [State.fld, State.setFld, Fld.get_set_disjoint f g _ v h1 h2 h3 h]

/-- A write of a field leaves every other register alone. -/
theorem State.reg_setFld_ne {a b : Nat} (f : Fld) (v : Nat) (h : b ≠ a) : (s.setFld a f v).reg b = s.reg b :=
  s.reg_setReg_ne _ h

theorem State.fld_setFld_ne {a b : Nat} (f g : Fld) (v : Nat) (h : b ≠ a) : (s.setFld a f v).fld b g = s.fld b g := by
  simp [State.fld, State.reg_setFld_ne s f v h]

@[simp] theorem State.reg_setCore (c : Nat) (k : CoreState) (a : Nat) : (s.setCore c k).reg a = s.reg a := rfl
@[simp] theorem State.reg_setPress (c : Nat) (p : PressState) (a : Nat) : (s.setPress c p).reg a = s.reg a := rfl
@[simp] theorem State.reg_send (k : OutKind) (d : Nat) (l : List Nat) (a : Nat) : (s.send k d l).reg a = s.reg a := rfl
@[simp] theorem State.reg_writeBytes (b : Nat) (bs : List Byte) (a : Nat) : (s.writeBytes b bs).reg a = s.reg a := rfl

/-- A core read after a core is written. -/
theorem State.core_setCore (c d : Nat) (k : CoreState) : (s.setCore c k).core d = if d = c then k else s.core d := by
  by_cases h : d = c
  · subst h; simp [State.core, State.setCore]
  · simp [State.core, State.setCore, h, Tbl.get_set_ne]

@[simp] theorem State.core_setCore_same (c : Nat) (k : CoreState) : (s.setCore c k).core c = k := by
  simp [State.core_setCore]
theorem State.core_setCore_ne {c d : Nat} (k : CoreState) (h : d ≠ c) : (s.setCore c k).core d = s.core d := by
  simp [State.core_setCore, h]
@[simp] theorem State.core_setReg (a : Nat) (v : Word) (c : Nat) : (s.setReg a v).core c = s.core c := rfl
@[simp] theorem State.core_setFld (a : Nat) (f : Fld) (v : Nat) (c : Nat) : (s.setFld a f v).core c = s.core c := rfl
@[simp] theorem State.core_setPress (c : Nat) (p : PressState) (d : Nat) : (s.setPress c p).core d = s.core d := rfl
@[simp] theorem State.core_writeBytes (b : Nat) (bs : List Byte) (c : Nat) : (s.writeBytes b bs).core c = s.core c := rfl

/-- A press read after a press is written. -/
theorem State.press_setPress (c d : Nat) (p : PressState) : (s.setPress c p).press d = if d = c then p else s.press d := by
  by_cases h : d = c
  · subst h; simp [State.press, State.setPress]
  · simp [State.press, State.setPress, h, Tbl.get_set_ne]

@[simp] theorem State.press_setPress_same (c : Nat) (p : PressState) : (s.setPress c p).press c = p := by
  simp [State.press_setPress]
@[simp] theorem State.press_setCore (c : Nat) (k : CoreState) (d : Nat) : (s.setCore c k).press d = s.press d := rfl
@[simp] theorem State.press_setReg (a : Nat) (v : Word) (d : Nat) : (s.setReg a v).press d = s.press d := rfl

@[simp] theorem State.byte_setReg (a : Nat) (v : Word) (b : Nat) : (s.setReg a v).byte b = s.byte b := rfl
@[simp] theorem State.byte_setFld (a : Nat) (f : Fld) (v : Nat) (b : Nat) : (s.setFld a f v).byte b = s.byte b := rfl
@[simp] theorem State.byte_setCore (c : Nat) (k : CoreState) (b : Nat) : (s.setCore c k).byte b = s.byte b := rfl
@[simp] theorem State.byte_setPress (c : Nat) (p : PressState) (b : Nat) : (s.setPress c p).byte b = s.byte b := rfl
@[simp] theorem State.byte_send (k : OutKind) (d : Nat) (l : List Nat) (b : Nat) : (s.send k d l).byte b = s.byte b := rfl
@[simp] theorem State.byte_setMark (a n b : Nat) : (s.setMark a n).byte b = s.byte b := rfl

end


end Sys2Proof.Machine
end

