-- ==== Sys2Proof/Laws/Memory.lean ====
section
/-! SUPPORT. Memory after a write: the bytes written, every other byte, and the canonical form. -/

namespace Sys2Proof.Machine
open Sys2Proof

/-- Bytes outside those written read as before. -/
theorem memWrite_get_out (m : Tbl Byte) (a : Nat) (bs : List Byte) (x : Nat) (h : x < a ∨ a + bs.length ≤ x) :
    Tbl.get 0 (memWrite m a bs) x = Tbl.get 0 m x := by
  induction bs generalizing m a with
  | nil => rfl
  | cons b r ih =>
    simp only [List.length_cons] at h
    rw [memWrite, ih _ _ (by omega)]
    exact Tbl.get_set_ne _ _ _ (by omega)

/-- The bytes written read as written. -/
theorem memWrite_get_in (m : Tbl Byte) (a : Nat) (bs : List Byte) (i : Nat) (h : i < bs.length) :
    Tbl.get 0 (memWrite m a bs) (a + i) = bs[i] := by
  induction bs generalizing m a i with
  | nil => simp at h
  | cons b r ih =>
    cases i with
    | zero => rw [memWrite, memWrite_get_out _ _ _ _ (by omega)]; simp
    | succ i =>
      have := ih (Tbl.set 0 m a b) (a + 1) i (by simpa using h)
      rw [memWrite, show a + (i + 1) = a + 1 + i by omega, this]
      rfl

/-- Writing bytes keeps the canonical form. -/
theorem memWrite_wf (m : Tbl Byte) (a : Nat) (bs : List Byte) (h : Tbl.wf 0 m = true) : Tbl.wf 0 (memWrite m a bs) = true := by
  induction bs generalizing m a with
  | nil => exact h
  | cons b r ih => exact ih _ _ (Tbl.wf_set a b h)

section
variable (s : State)

/-- What a byte reads after a byte is written. -/
theorem State.byte_setByte (a x : Nat) (b : Byte) : (s.setByte a b).byte x = if x = a then b else s.byte x := by
  simp [State.byte, State.setByte, Tbl.get_set_if]

/-- `writeBytes` leaves every byte outside those written alone. -/
theorem State.byte_writeBytes_out (a : Nat) (bs : List Byte) (x : Nat) (h : x < a ∨ a + bs.length ≤ x) :
    (s.writeBytes a bs).byte x = s.byte x := memWrite_get_out _ _ _ _ h

/-- `writeBytes` writes its bytes. -/
theorem State.byte_writeBytes_in (a : Nat) (bs : List Byte) (i : Nat) (h : i < bs.length) :
    (s.writeBytes a bs).byte (a + i) = bs[i] := memWrite_get_in _ _ _ _ h

theorem State.memWf_setByte (a : Nat) (b : Byte) (h : s.memWf = true) : (s.setByte a b).memWf = true := Tbl.wf_set a b h

theorem State.memWf_writeBytes (a : Nat) (bs : List Byte) (h : s.memWf = true) : (s.writeBytes a bs).memWf = true :=
  memWrite_wf _ _ _ h

/-- Writing bytes keeps the form of the error marks. -/
theorem State.marksWf_writeBytes (a : Nat) (bs : List Byte) (h : s.marksWf = true) : (s.writeBytes a bs).marksWf = true :=
  Tbl.wf_filter _ h

theorem State.marksWf_setMark (a n : Nat) (h : s.marksWf = true) : (s.setMark a n).marksWf = true := Tbl.wf_set _ n h

end

end Sys2Proof.Machine
end

