-- ==== Sys2Proof/Laws/Canonical.lean ====
section
/-! SUPPORT. Every operation that writes memory keeps its canonical form, and reset has it. -/

namespace Sys2Proof.Machine
open Sys2Proof

/-- What one of a row of updates leaves alone, the whole row leaves alone: a view of the state seen through them is seen through none. -/
theorem State.foldl_view {α γ : Type} (view : State → γ) (update : State → α → State) (row : List α) (s : State)
    (same : ∀ t x, view (update t x) = view t) : view (row.foldl update s) = view s :=
  List.foldlRecOn row update (motive := fun t => view t = view s) rfl fun t kept x _ => (same t x).trans kept

/-- A table whose values change but not its keys still rises. -/
theorem Tbl.rising_mapIdx {α β : Type} (f : Nat → Nat × α → β) (t : Tbl α) (lo : Option Nat) (n : Nat) (h : Tbl.rising lo t = true) :
    Tbl.rising lo (t.mapIdx fun i e => (e.1, f (n + i) e)) = true := by
  induction t generalizing lo n with
  | nil => cases lo <;> rfl
  | cons e r ih =>
    obtain ⟨k, v⟩ := e
    have hr : Tbl.rising (some k) r = true := by
      cases lo with
      | none => exact h
      | some l => simp only [Tbl.rising, Bool.and_eq_true] at h; exact h.2
    have := ih (some k) (n + 1) hr
    have e1 : (fun (i : Nat) (e : Nat × α) => (e.1, f (n + (i + 1)) e)) = fun i e => (e.1, f (n + 1 + i) e) := by
      funext i e; rw [show n + (i + 1) = n + 1 + i by omega]
    cases lo with
    | none => simpa [Tbl.rising, e1, List.mapIdx_cons] using this
    | some l =>
      simp only [Tbl.rising, Bool.and_eq_true] at h
      simpa [Tbl.rising, e1, List.mapIdx_cons] using ⟨by simpa using h.1, this⟩

/-- A part of a table that rises rises. -/
theorem Tbl.rising_none_filter {α : Type} (t : Tbl α) (p : Nat × α → Bool) (h : Tbl.rising none t = true) :
    Tbl.rising none (t.filter p) = true := by
  cases t with
  | nil => rfl
  | cons e r =>
    have hr : Tbl.rising (some e.1) r = true := h
    rw [List.filter_cons]
    split
    · exact Tbl.rising_filter p hr
    · exact Tbl.rising_none_of (Tbl.rising_filter p hr)

/-- What is undefined of HBM after a cold reset has the canonical form (R528). -/
theorem freshHbm_wf (n : Nat) (m : Tbl Byte) (h : Tbl.wf 0 m = true) : Tbl.wf 0 (freshHbm n m) = true := by
  rw [Tbl.wf_iff] at h ⊢
  refine ⟨?_, fun e he => ?_⟩
  · have h1 := Tbl.rising_none_filter _ (fun e : Nat × Byte => isHbm e.1) h.1
    have h2 := Tbl.rising_mapIdx (fun i _ => BitVec.ofNat 8 (Config.freeWord (n + i)).toNat) _ none 0 h1
    simp only [Nat.zero_add] at h2
    exact Tbl.rising_none_filter _ _ h2
  · have := (List.mem_filter.mp he).2
    simpa using this

section
variable (s : State)

@[simp] theorem State.mem_setFlds (a : Nat) (l : List (Fld × Nat)) : (s.setFlds a l).mem = s.mem := State.setReg_mem ..
@[simp] theorem State.mem_bump (a : Nat) (f : Fld) : (s.bump a f).mem = s.mem := State.setFld_mem ..
@[simp] theorem State.mem_setHbm (st : Nat) (k : HbmState) : (s.setHbm st k).mem = s.mem := rfl
@[simp] theorem State.mem_modHbm (st : Nat) (f : HbmState → HbmState) : (s.modHbm st f).mem = s.mem := State.mem_setHbm ..
@[simp] theorem State.mem_modCore (c : Nat) (f : CoreState → CoreState) : (s.modCore c f).mem = s.mem := State.setCore_mem ..
@[simp] theorem State.mem_dropDir (l : Nat) : (s.dropDir l).mem = s.mem := rfl

theorem State.mem_ite (p : Prop) [Decidable p] (a b : State) : (if p then a else b).mem = if p then a.mem else b.mem := by split <;> rfl

/-- Dropping a die's instruction copies of a line leaves memory alone. -/
@[simp] theorem State.mem_dropLine (die line : Nat) : (s.dropLine die line).mem = s.mem :=
  State.foldl_view State.mem _ _ _ fun t n => by
    show (if _ then State.modCore t _ _ else t).mem = t.mem
    rw [State.mem_ite, State.mem_modCore, ite_self]

/-- Lines put to their schedulers leave memory alone. -/
@[simp] theorem State.mem_schedule (w : Bool) (ls : List Nat) : (s.schedule w ls).mem = s.mem :=
  State.foldl_view State.mem _ _ _ fun t _ => t.mem_modHbm ..

/-- Flits counted on a route, and those of an access by a unit of a die, leave memory alone. -/
@[simp] theorem State.mem_carry (src dst v n : Nat) : (s.carry src dst v n).mem = s.mem :=
  State.foldl_view State.mem _ _ _ fun _ _ => State.setReg_mem ..

@[simp] theorem State.mem_unitFlits (src : Nat) (w : Bool) (a n : Nat) : (s.unitFlits src w a n).mem = s.mem :=
  State.foldl_view State.mem _ _ _ fun t h => (State.mem_carry _ _ _ _ _).trans (t.mem_carry ..)

/-- A block of an add cache used leaves memory alone. -/
@[simp] theorem State.mem_useBlock (a : Nat) (f : CacheBlk → CacheBlk) : (s.useBlock a f).mem = s.mem := by
  unfold State.useBlock
  split
  · rfl
  · unfold State.setAddCache
    split <;> rfl

/-- A request put on its way leaves memory alone. -/
@[simp] theorem State.mem_quayPush (die : Nat) (r : MemReq) : (s.quayPush die r).mem = s.mem := rfl

/-- An entry of an HBM log leaves memory alone. -/
@[simp] theorem State.mem_hbmLog (st e : Nat) : (s.hbmLog st e).mem = s.mem := by
  unfold State.hbmLog
  extract_lets b j ptr n s1 old s2 pend
  have h1 : s1.mem = s.mem := State.foldl_view State.mem _ _ _ fun t w => State.setReg_mem ..
  have h2 : s2.mem = s1.mem := by
    show (if _ then _ else _ : State).mem = _
    rw [State.mem_ite, State.mem_bump, ite_self]
  rw [State.mem_setFlds, State.mem_modHbm, h2, h1]

theorem State.mem_captured (p : Prop) [Decidable p] (a : Nat) (l : List (Fld × Nat)) :
    (if p then s else s.setFlds a l).mem = s.mem := by rw [State.mem_ite, State.mem_setFlds, ite_self]

@[simp] theorem State.mem_galleyCapture (die off : Nat) : (s.galleyCapture die off).mem = s.mem := by
  unfold State.galleyCapture
  rw [State.mem_ite, State.mem_setFlds, ite_self]

@[simp] theorem State.cores_setFlds (a : Nat) (l : List (Fld × Nat)) : (s.setFlds a l).cores = s.cores := rfl

@[simp] theorem State.cores_bump (a : Nat) (f : Fld) : (s.bump a f).cores = s.cores := rfl

@[simp] theorem State.cores_galleyCapture (die off : Nat) : (s.galleyCapture die off).cores = s.cores := by
  unfold State.galleyCapture
  rw [apply_ite State.cores, State.cores_setFlds, ite_self]

@[simp] theorem State.mem_detect8 (die code core seq d0 d1 : Nat) : (s.detect8 die code core seq d0 d1).mem = s.mem := rfl

@[simp] theorem State.cores_detect8 (die code core seq d0 d1 : Nat) : (s.detect8 die code core seq d0 d1).cores = s.cores := rfl

/-- An uncorrectable galley word counted and recorded leaves memory alone. -/
@[simp] theorem State.mem_galleyUncorr (die core kind w : Nat) : (s.galleyUncorr die core kind w).mem = s.mem := by
  unfold State.galleyUncorr
  rw [State.mem_detect8, State.mem_galleyCapture, State.mem_bump]

/-- So it does the cores. -/
@[simp] theorem State.cores_galleyUncorr (die core kind w : Nat) : (s.galleyUncorr die core kind w).cores = s.cores := by
  unfold State.galleyUncorr
  rw [State.cores_detect8, State.cores_galleyCapture, State.cores_bump]

/-- A galley write leaves every byte outside those written alone (R137). -/
theorem State.byte_galleyWrite_out (die core kind a : Nat) (bs : List Byte) (x : Nat) (h : x < a ∨ a + bs.length ≤ x) :
    (s.galleyWrite die core kind a bs).byte x = s.byte x := by
  unfold State.galleyWrite
  split
  · rfl
  · dsimp only
    rw [State.byte_writeBytes_out _ _ _ _ (by simpa using h)]
    exact congrArg (fun m => Tbl.get 0 m x) ((State.foldl_view State.mem _ _ _ fun t w => t.mem_galleyUncorr ..).trans
      (State.foldl_view State.mem _ _ _ fun t w => rfl))

/-- A galley write leaves the cores alone. -/
theorem State.core_galleyWrite (die core kind a : Nat) (bs : List Byte) (c : Nat) : (s.galleyWrite die core kind a bs).core c = s.core c := by
  unfold State.galleyWrite
  split
  · rfl
  · exact congrArg (fun m => Tbl.get CoreState.init m c) ((State.foldl_view State.cores _ _ _ fun t w => t.cores_galleyUncorr ..).trans
      (State.foldl_view State.cores _ _ _ fun t w => rfl))

theorem State.memWf_of_mem {s t : State} (h : t.mem = s.mem) (hs : s.memWf = true) : t.memWf = true := by
  simpa [State.memWf, h] using hs

/-- A galley write keeps the canonical form (R137). -/
theorem State.memWf_galleyWrite (die core kind a : Nat) (bs : List Byte) (h : s.memWf = true) : (s.galleyWrite die core kind a bs).memWf = true := by
  unfold State.galleyWrite
  split
  · exact h
  · exact State.memWf_writeBytes _ _ _ (State.memWf_of_mem ((State.foldl_view State.mem _ _ _ fun t w => t.mem_galleyUncorr ..).trans
      (State.foldl_view State.mem _ _ _ fun t w => rfl)) h)

theorem State.memWf_writeNum (a n v : Nat) (h : s.memWf = true) : (s.writeNum a n v).memWf = true := s.memWf_writeBytes _ _ h

@[simp] theorem State.mem_rowRepair (line : Nat) : (s.rowRepair line).mem = s.mem := by
  unfold State.rowRepair
  extract_lets st s1
  split
  · rfl
  · split
    · exact State.mem_hbmLog ..
    · rw [State.mem_setFlds]
      exact State.mem_hbmLog ..

theorem State.mem_hbmDataLog (line : Nat) : (s.hbmDataLog line).mem = s.mem := by
  unfold State.hbmDataLog
  exact State.mem_hbmLog ..

/-- An uncorrectable read leaves memory alone. -/
@[simp] theorem State.mem_hbmUncorr (line : Nat) : (s.hbmUncorr line).mem = s.mem := by
  rw [State.hbmUncorr]
  refine (State.mem_rowRepair _ _).trans ((State.mem_hbmDataLog _ _).trans ?_)
  exact (State.mem_captured _ _ _ _).trans ((State.mem_bump _ _ _).trans (State.setMark_mem ..))

/-- A corrected symbol's counts and log leave memory alone. -/
@[simp] theorem State.mem_hbmCorrected (line pos err : Nat) : (s.hbmCorrected line pos err).mem = s.mem := by
  unfold State.hbmCorrected
  dsimp only
  rw [State.mem_ite, State.mem_rowRepair, ite_self, State.mem_hbmLog, State.mem_modHbm, State.mem_bump]

/-- A line decoded keeps the canonical form (R266). -/
theorem State.memWf_decodeLine (line : Nat) (errs : List SymErr) (b : Bool) (h : s.memWf = true) :
    (s.decodeLine line errs b).memWf = true := by
  unfold State.decodeLine
  split
  · split
    · exact State.memWf_of_mem (State.mem_hbmLog ..) h
    · exact State.memWf_of_mem (State.mem_hbmUncorr ..) h
  · split
    · exact h
    · exact State.memWf_of_mem (State.mem_hbmCorrected ..) (memWrite_wf _ _ _ h)
    · exact State.memWf_of_mem (State.mem_hbmUncorr ..) h

/-- A write of HBM or a galley keeps the canonical form. -/
theorem State.memWf_writeMem (a : Nat) (bs : List Byte) (core kind : Nat) (h : s.memWf = true) : (s.writeMem a bs core kind).st.memWf = true := by
  unfold State.writeMem
  split
  · exact s.memWf_galleyWrite _ _ _ _ _ h
  · split
    · exact h
    · split
      · exact State.memWf_of_mem (s.mem_hbmUncorr _) h
      · exact s.memWf_writeBytes _ _ h

/-- A write by a unit of the device keeps the canonical form. -/
theorem State.memWf_unitWrite (a : Nat) (bs : List Byte) (h : s.memWf = true) : (s.unitWrite a bs).st.memWf = true := by
  have hw := s.memWf_writeMem a bs 0xF 5 h
  unfold State.unitWrite
  dsimp only
  split
  · exact State.memWf_of_mem (State.foldl_view State.mem _ _ _ fun t l => (State.mem_dropDir _ _).trans (State.mem_useBlock _ _ _)) hw
  · exact hw

theorem State.memWf_openWrite (src a : Nat) (bs : List Byte) (h : s.memWf = true) : (s.openWrite src a bs).st.memWf = true := by
  unfold State.openWrite
  refine State.memWf_unitWrite _ _ _ (State.memWf_of_mem ?_ h)
  split
  · exact (State.mem_schedule ..).trans (State.mem_unitFlits ..)
  · rfl

/-- So does one that may have to wait at its homes. -/
theorem State.memWf_writeThrough (src : Nat) (qp : Option (Nat × Nat)) (a : Nat) (bs : List Byte) (h : s.memWf = true) :
    (s.writeThrough src qp a bs).st.memWf = true := by
  unfold State.writeThrough
  dsimp only
  split
  · exact s.memWf_openWrite _ _ _ h
  · exact State.memWf_of_mem (State.foldl_view State.mem _ _ _ fun t l => State.mem_quayPush ..) h

/-- An adder's write keeps the canonical form. -/
theorem State.memWf_adderPut (a : Nat) (bs : List Byte) (h : s.memWf = true) : (s.adderPut a bs).memWf = true := by
  unfold State.adderPut
  split
  · exact s.memWf_galleyWrite _ _ _ _ _ h
  · exact memWrite_wf _ _ _ h

/-- What the self-test zeroes keeps the canonical form (R528). -/
theorem State.memWf_zeroed (h : s.memWf = true) : s.zeroed.memWf = true := Tbl.wf_filter _ h

/-- Memory has its canonical form after a cold reset (R528). -/
theorem State.memWf_cold (h : s.memWf = true) : s.cold.memWf = true := by
  refine State.memWf_of_mem (s := { s with mem := freshHbm s.freeCount s.mem }) ?_ (freshHbm_wf _ _ h)
  simp only [State.cold, State.setFld_mem]
  exact State.foldl_view State.mem _ _ _ fun t a => rfl

/-- A byte that does not read as an unlisted one, listed. -/
theorem Tbl.wf_insert (m : Tbl Byte) (k : Nat) (v : Byte) (hv : v ≠ 0) (h : Tbl.wf 0 m = true) : Tbl.wf 0 (Tbl.insert m k v) = true := by
  rw [Tbl.wf_iff] at h ⊢
  refine ⟨Tbl.rising_none_insert k v h.1, fun e he => ?_⟩
  rcases Tbl.mem_insert he with rfl | he
  · exact hv
  · exact h.2 e he

/-- The private memory of a proof core that takes over a core's keeps the canonical form (R129). -/
theorem CoreState.pmemWf_takeOver (p k : CoreState) (c : Nat) (entry : Word) (hp : Tbl.wf 0 p.pmem = true) (hk : Tbl.wf 0 k.pmem = true) :
    Tbl.wf 0 (p.takeOver k c entry).pmem = true := by
  have key : ∀ l m : Tbl Byte, (∀ e ∈ l, e.2 ≠ 0) → Tbl.wf 0 m = true →
      Tbl.wf 0 (l.foldl (fun m e => Tbl.insert m e.1 e.2) m) = true := by
    intro l
    induction l with
    | nil => exact fun m _ h => h
    | cons e r ih => exact fun m hl h => ih _ (fun x hx => hl x (.tail _ hx)) (Tbl.wf_insert _ _ _ (hl e (.head _)) h)
  have hm := key (p.pmem.filter fun e => !decide (e.1 < k.wusave.toNat)) (k.pmem.filter fun e => decide (e.1 < k.wusave.toNat))
    (fun e he => (Tbl.wf_iff.mp hp).2 e (List.mem_filter.mp he).1) (Tbl.wf_filter _ hk)
  unfold CoreState.takeOver
  dsimp only
  split <;> exact hm

/-- Private memory keeps its canonical form as a buffered store becomes visible (R554). -/
theorem State.pmemWf_storeOut (c d : Nat) (h : Tbl.wf 0 (s.core c).pmem = true) (hd : Tbl.wf 0 (s.core d).pmem = true) :
    Tbl.wf 0 ((s.storeOut c).core d).pmem = true := by
  unfold State.storeOut
  dsimp only
  split
  · exact hd
  · split
    · rw [State.core_setCore]
      split
      · exact memWrite_wf _ _ _ h
      · exact hd
    · rw [State.core_setCore]
      split
      · exact h
      · rwa [State.core_galleyWrite]

/-- Bytes programmed into boot flash keep its canonical form (R548). -/
theorem State.flashWf_flashWrite (a : Nat) (bs : List Byte) (h : s.flashWf = true) : (s.flashWrite a bs).flashWf = true :=
  List.foldlRecOn bs _ (motive := fun p : Tbl Byte × Nat => Tbl.wf 0xFF p.1 = true) h fun p hp b _ => Tbl.wf_set p.2 b hp

/-- Memory has its canonical form at reset. -/
theorem State.memWf_reset : State.reset.memWf = true := rfl
theorem State.marksWf_reset : State.reset.marksWf = true := rfl
theorem State.flashWf_reset : State.reset.flashWf = true := rfl

end

end Sys2Proof.Machine
end

