-- ==== Sys2Proof/Laws/Issue.lean ====
section
/-! SUPPORT. What issuing an instruction does, case by case, and what a retired instruction leaves. -/

namespace Sys2Proof.Machine
open Sys2Proof

/-- What a general register reads after one is written. -/
theorem CoreState.rg_setRg (k : CoreState) (rd r : Fin 32) (v : Word) :
    (k.setRg rd v).rg r = if r = rd ∧ r ≠ 0 then v else k.rg r := by
  by_cases h0 : rd.val = 0
  · have : ¬ (r = rd ∧ r ≠ 0) := by
      rintro ⟨rfl, h⟩; exact h (Fin.ext (by simpa using h0))
    simp [CoreState.setRg, h0, this]
  · by_cases hr : r = rd
    · subst hr
      have : r ≠ 0 := fun h => h0 (by simp [h])
      simp [CoreState.setRg, CoreState.rg, h0, this]
    · have hv : r.val ≠ rd.val := fun h => hr (Fin.ext h)
      simp only [CoreState.setRg, CoreState.rg, h0, hr, if_false, false_and]
      split
      · rfl
      · exact Tbl.get_set_ne _ _ _ hv

/-- A write of a general register changes the general registers alone. -/
theorem CoreState.setRg_eq (k : CoreState) (rd : Fin 32) (v : Word) : k.setRg rd v = { k with g := (k.setRg rd v).g } := by
  unfold CoreState.setRg
  split <;> rfl

section
variable {s : State} {c : Nat}

theorem State.ready_iff : s.ready c = true ↔ (s.core c).run = .running ∧ (s.core c).halting = false ∧
    s.stopped (coreDie c) = false ∧ (s.core c).takeable = false ∧ (s.core c).loads = [] ∧ (s.core c).stores.length < 8 := by
  simp [State.ready, and_assoc]

/-- At a ready core an instruction acts at once. -/
theorem State.issueW_ready (h : s.ready c = true) (w : RunState) (i : Instr) (f : CoreState → Act) :
    s.issueW c w i f = (f (s.core c)).run c (wordClass (pilotWord i)) := by
  obtain ⟨h1, h2, h3, h4, h5, h6⟩ := State.ready_iff.mp h
  simp [State.issueW, CoreState.canIssue, CoreState.loadBlocks, CoreState.loadWait, h1, h2, h3, h4, h5, Nat.not_le.mpr h6]

/-- The same for an instruction that never waits in a state of its own. -/
theorem State.issue_ready (h : s.ready c = true) (i : Instr) (f : CoreState → Act) :
    s.issue c i f = (f (s.core c)).run c (wordClass (pilotWord i)) := State.issueW_ready h ..

/-- A core that is halted, stopped or retired issues nothing. -/
theorem State.issue_idle (h : (s.core c).run ≠ .running) (i : Instr) (f : CoreState → Act) : s.issue c i f = s := by
  simp [State.issue, State.issueW, CoreState.canIssue, h]

/-- A core without clocks issues nothing. -/
theorem State.issue_stopped (h : s.stopped (coreDie c) = true) (i : Instr) (f : CoreState → Act) : s.issue c i f = s := by
  simp [State.issue, State.issueW, h]

/-- A core whose store buffer is full issues nothing (R554), unless it takes an event. -/
theorem State.issue_full (h : 8 ≤ (s.core c).stores.length) (ht : (s.core c).takeable = false) (i : Instr) (f : CoreState → Act) :
    s.issue c i f = s := by
  simp [State.issue, State.issueW, h, ht]

theorem CoreState.retire_running {k : CoreState} (h1 : k.run = .running) (h2 : k.halting = false) (cls : Nat) (pc : Word) :
    k.retire cls pc = k.moved pc k.fetched.tail ((cls :: k.mix).take 4096) := by
  cases k; simp_all [CoreState.retire, CoreState.moved]

theorem State.onlyCore_setCore (s : State) (c : Nat) (k : CoreState) : s.onlyCore (s.setCore c k) c :=
  ⟨rfl, fun _ h => State.core_setCore_ne s k h⟩

theorem State.onlyCore_trans {s t u : State} {c : Nat} (h1 : s.onlyCore t c) (h2 : t.onlyCore u c) : s.onlyCore u c := by
  refine ⟨?_, fun d h => (h2.2 d h).trans (h1.2 d h)⟩
  have a := h1.1; have b := h2.1
  rw [b, a]

/-- An act that changes its own core alone and retires. -/
theorem State.run_go_setCore (s : State) (c cls : Nat) (k : CoreState) :
    s.onlyCore ((Act.go (s.setCore c k)).run c cls) c ∧ ((Act.go (s.setCore c k)).run c cls).core c = k.retire cls (k.pc + 4) := by
  refine ⟨State.onlyCore_trans (State.onlyCore_setCore s c k) (State.onlyCore_setCore _ c _), ?_⟩
  simp [Act.run, State.modCore]

/-- A scalar instruction at a ready core that writes one general register. -/
theorem writesReg_scalar (h : s.ready c = true) (i : Instr) (rd : Fin 32) (f : CoreState → Word) :
    WritesReg s c rd (f (s.core c)) (.next (s.scalar c i fun k => k.setRg rd (f k))) := by
  obtain ⟨h1, h2, -, -, -, -⟩ := State.ready_iff.mp h
  refine ⟨_, rfl, ?_⟩
  rw [State.scalar, State.issue_ready h]
  obtain ⟨ho, hc⟩ := State.run_go_setCore s c (wordClass (pilotWord i)) ((s.core c).setRg rd (f (s.core c)))
  refine ⟨ho, ⟨wordClass (pilotWord i), ?_⟩, ?_, ?_⟩
  · rw [hc, CoreState.setRg_eq]
    rfl
  · rw [hc, CoreState.setRg_eq]
    simp [CoreState.retire, CoreState.moved, h1, h2]
  · intro r
    rw [hc, ← CoreState.rg_setRg]
    rfl

/-- The bits of a word as `bit` reads them. -/
theorem bit_toNat (w : Word) (i : Nat) : bit w.toNat i = w.getLsbD i := by
  simp [bit, BitVec.getLsbD, Nat.testBit, Nat.shiftRight_eq_div_pow, Nat.and_comm, Nat.and_one_is_mod]

/-- A trap that a ready core takes with INTRAP 0. -/
theorem traps_of_ready (h : s.ready c = true) (code : Nat) (v at_ epc : Word) :
    Traps s c code v epc (.next (s.trapAs c 0 code v at_ epc)) := by
  intro hi
  obtain ⟨h1, h2, -, -, h5, -⟩ := State.ready_iff.mp h
  refine ⟨_, rfl, ?_⟩
  rw [State.trapAs, bit_toNat, hi]
  refine ⟨State.onlyCore_setCore _ _ _, ?_⟩
  simp [CoreState.takeTrap, trapStatus, CoreState.trapped, tsINTRAP, tsPMODE, tsPEVEN, bit_toNat, h2, h1, h5]

/-- A jump at a ready core that writes one general register. -/
theorem jumps_issue (h : s.ready c = true) (cls : Nat) (rd : Fin 32) (v pc : Word) :
    Jumps s c pc rd v (.next ((Act.jump (s.setCore c ((s.core c).setRg rd v)) pc).run c cls)) := by
  obtain ⟨h1, h2, -, -, -, -⟩ := State.ready_iff.mp h
  have hc : ((Act.jump (s.setCore c ((s.core c).setRg rd v)) pc).run c cls).core c = ((s.core c).setRg rd v).retireJump cls pc := by
    simp [Act.run, State.modCore]
  refine ⟨_, rfl, State.onlyCore_trans (State.onlyCore_setCore s c _) (State.onlyCore_setCore _ c _), ⟨cls, ?_⟩, ?_, ?_⟩
  · rw [hc, CoreState.setRg_eq]
    rfl
  · rw [hc, CoreState.setRg_eq]
    simp [CoreState.retireJump, CoreState.retire, CoreState.moved, h1, h2]
  · intro r
    rw [hc, ← CoreState.rg_setRg]
    rfl

/-- A write of g0 writes nothing. -/
theorem CoreState.setRg_zero (k : CoreState) (v : Word) : k.setRg 0 v = k := rfl

end

end Sys2Proof.Machine
end

