-- ==== Sys2Proof/Laws/PerInstr.lean ====
section
/-! SUPPORT. One lemma per command about its syntax: the word of a pilot instruction (R110) has 32 bits, and any other command has none. -/

namespace Sys2Proof.Laws.Words
open Sys2Proof Sys2Proof.Machine

/-- The word fits 32 bits. -/
def Statement (i : Instr) : Prop := pilotWord i < 2 ^ 32

/-- Of every command. -/
theorem all (i : Instr) : Statement i := by
  unfold Statement pilotWord
  split <;> (try simp only [wRR, wRI, wW, wS, wV, wT]) <;> (try omega)
  · rename_i op _ _; cases op <;> simp only [csrFn5] <;> omega
  · rename_i i m; cases i <;> cases m <;> decide

theorem registerWrite (src : Source) (addr size : Nat) (value : Word) : Statement (.registerWrite src addr size value) := all _
theorem registerHalfRead (src : Source) (addr tag : Nat) : Statement (.registerHalfRead src addr tag) := all _
theorem add (c : Nat) (rd ra rb : Fin 32) : Statement (.add c rd ra rb) := all _
theorem sub (c : Nat) (rd ra rb : Fin 32) : Statement (.sub c rd ra rb) := all _
theorem and (c : Nat) (rd ra rb : Fin 32) : Statement (.and c rd ra rb) := all _
theorem or (c : Nat) (rd ra rb : Fin 32) : Statement (.or c rd ra rb) := all _
theorem xor (c : Nat) (rd ra rb : Fin 32) : Statement (.xor c rd ra rb) := all _
theorem andn (c : Nat) (rd ra rb : Fin 32) : Statement (.andn c rd ra rb) := all _
theorem shl (c : Nat) (rd ra rb : Fin 32) : Statement (.shl c rd ra rb) := all _
theorem shr (c : Nat) (rd ra rb : Fin 32) : Statement (.shr c rd ra rb) := all _
theorem sra (c : Nat) (rd ra rb : Fin 32) : Statement (.sra c rd ra rb) := all _
theorem ror (c : Nat) (rd ra rb : Fin 32) : Statement (.ror c rd ra rb) := all _
theorem slt (c : Nat) (rd ra rb : Fin 32) : Statement (.slt c rd ra rb) := all _
theorem sltu (c : Nat) (rd ra rb : Fin 32) : Statement (.sltu c rd ra rb) := all _
theorem min (c : Nat) (rd ra rb : Fin 32) : Statement (.min c rd ra rb) := all _
theorem max (c : Nat) (rd ra rb : Fin 32) : Statement (.max c rd ra rb) := all _
theorem minu (c : Nat) (rd ra rb : Fin 32) : Statement (.minu c rd ra rb) := all _
theorem maxu (c : Nat) (rd ra rb : Fin 32) : Statement (.maxu c rd ra rb) := all _
theorem clz (c : Nat) (rd ra : Fin 32) : Statement (.clz c rd ra) := all _
theorem ctz (c : Nat) (rd ra : Fin 32) : Statement (.ctz c rd ra) := all _
theorem popc (c : Nat) (rd ra : Fin 32) : Statement (.popc c rd ra) := all _
theorem sel (c : Nat) (rd ra rb rc : Fin 32) : Statement (.sel c rd ra rb rc) := all _
theorem addw (c : Nat) (rd ra rb : Fin 32) : Statement (.addw c rd ra rb) := all _
theorem subw (c : Nat) (rd ra rb : Fin 32) : Statement (.subw c rd ra rb) := all _
theorem mul (c : Nat) (rd ra rb : Fin 32) : Statement (.mul c rd ra rb) := all _
theorem mulh (c : Nat) (rd ra rb : Fin 32) : Statement (.mulh c rd ra rb) := all _
theorem mulhu (c : Nat) (rd ra rb : Fin 32) : Statement (.mulhu c rd ra rb) := all _
theorem madd (c : Nat) (rd ra rb rc : Fin 32) : Statement (.madd c rd ra rb rc) := all _
theorem div (c : Nat) (rd ra rb : Fin 32) : Statement (.div c rd ra rb) := all _
theorem divu (c : Nat) (rd ra rb : Fin 32) : Statement (.divu c rd ra rb) := all _
theorem rem (c : Nat) (rd ra rb : Fin 32) : Statement (.rem c rd ra rb) := all _
theorem remu (c : Nat) (rd ra rb : Fin 32) : Statement (.remu c rd ra rb) := all _
theorem addi (c : Nat) (rd ra : Fin 32) (imm : BitVec 14) : Statement (.addi c rd ra imm) := all _
theorem andi (c : Nat) (rd ra : Fin 32) (imm : BitVec 14) : Statement (.andi c rd ra imm) := all _
theorem ori (c : Nat) (rd ra : Fin 32) (imm : BitVec 14) : Statement (.ori c rd ra imm) := all _
theorem xori (c : Nat) (rd ra : Fin 32) (imm : BitVec 14) : Statement (.xori c rd ra imm) := all _
theorem slti (c : Nat) (rd ra : Fin 32) (imm : BitVec 14) : Statement (.slti c rd ra imm) := all _
theorem sltiu (c : Nat) (rd ra : Fin 32) (imm : BitVec 14) : Statement (.sltiu c rd ra imm) := all _
theorem shi (c : Nat) (rd ra : Fin 32) (kind : Fin 4) (sh : Fin 64) : Statement (.shi c rd ra kind sh) := all _
theorem movz (c : Nat) (rd : Fin 32) (hw : Fin 4) (imm : BitVec 16) : Statement (.movz c rd hw imm) := all _
theorem movk (c : Nat) (rd : Fin 32) (hw : Fin 4) (imm : BitVec 16) : Statement (.movk c rd hw imm) := all _
theorem movn (c : Nat) (rd : Fin 32) (hw : Fin 4) (imm : BitVec 16) : Statement (.movn c rd hw imm) := all _
theorem lb (c : Nat) (rd ra : Fin 32) (imm : BitVec 14) : Statement (.lb c rd ra imm) := all _
theorem lh (c : Nat) (rd ra : Fin 32) (imm : BitVec 14) : Statement (.lh c rd ra imm) := all _
theorem lw (c : Nat) (rd ra : Fin 32) (imm : BitVec 14) : Statement (.lw c rd ra imm) := all _
theorem ld (c : Nat) (rd ra : Fin 32) (imm : BitVec 14) : Statement (.ld c rd ra imm) := all _
theorem lbu (c : Nat) (rd ra : Fin 32) (imm : BitVec 14) : Statement (.lbu c rd ra imm) := all _
theorem lhu (c : Nat) (rd ra : Fin 32) (imm : BitVec 14) : Statement (.lhu c rd ra imm) := all _
theorem lwu (c : Nat) (rd ra : Fin 32) (imm : BitVec 14) : Statement (.lwu c rd ra imm) := all _
theorem sb (c : Nat) (rs ra : Fin 32) (imm : BitVec 14) : Statement (.sb c rs ra imm) := all _
theorem sh (c : Nat) (rs ra : Fin 32) (imm : BitVec 14) : Statement (.sh c rs ra imm) := all _
theorem sw (c : Nat) (rs ra : Fin 32) (imm : BitVec 14) : Statement (.sw c rs ra imm) := all _
theorem sd (c : Nat) (rs ra : Fin 32) (imm : BitVec 14) : Statement (.sd c rs ra imm) := all _
theorem beq (c : Nat) (ra rb : Fin 32) (off : BitVec 14) : Statement (.beq c ra rb off) := all _
theorem bne (c : Nat) (ra rb : Fin 32) (off : BitVec 14) : Statement (.bne c ra rb off) := all _
theorem blt (c : Nat) (ra rb : Fin 32) (off : BitVec 14) : Statement (.blt c ra rb off) := all _
theorem bge (c : Nat) (ra rb : Fin 32) (off : BitVec 14) : Statement (.bge c ra rb off) := all _
theorem bltu (c : Nat) (ra rb : Fin 32) (off : BitVec 14) : Statement (.bltu c ra rb off) := all _
theorem bgeu (c : Nat) (ra rb : Fin 32) (off : BitVec 14) : Statement (.bgeu c ra rb off) := all _
theorem j (c : Nat) (off : BitVec 26) : Statement (.j c off) := all _
theorem jl (c : Nat) (off : BitVec 26) : Statement (.jl c off) := all _
theorem csrr (c : Nat) (rd : Fin 32) (idx : BitVec 12) : Statement (.csrr c rd idx) := all _
theorem csrw (c : Nat) (rd ra : Fin 32) (idx : BitVec 12) : Statement (.csrw c rd ra idx) := all _
theorem csrs (c : Nat) (rd ra : Fin 32) (idx : BitVec 12) : Statement (.csrs c rd ra idx) := all _
theorem csrc (c : Nat) (rd ra : Fin 32) (idx : BitVec 12) : Statement (.csrc c rd ra idx) := all _
theorem wumark (c : Nat) (op : CsrOp) (rd ra : Fin 32) : Statement (.wumark c op rd ra) := all _
theorem jr (c : Nat) (ra : Fin 32) : Statement (.jr c ra) := all _
theorem jlr (c : Nat) (rd ra : Fin 32) : Statement (.jlr c rd ra) := all _
theorem fence (c : Nat) (fi fm : Bool) : Statement (.fence c fi fm) := all _
theorem waitev (c : Nat) (rd : Fin 32) : Statement (.waitev c rd) := all _
theorem trap (c : Nat) (code : BitVec 12) : Statement (.trap c code) := all _
theorem eret (c : Nat) : Statement (.eret c) := all _
theorem illegalInstruction (c : Nat) (word : BitVec 32) : Statement (.illegalInstruction c word) := all _
theorem eventTrap (c : Nat) : Statement (.eventTrap c) := all _
theorem timerEvent (c : Nat) : Statement (.timerEvent c) := all _
theorem instructionFetch (c : Nat) (addr : Word) : Statement (.instructionFetch c addr) := all _
theorem pilotLoadReturn (c : Nat) : Statement (.pilotLoadReturn c) := all _
theorem storeVisible (c : Nat) : Statement (.storeVisible c) := all _
theorem vadd (c : Nat) (ty mask : Fin 8) (vd va vb : Fin 32) (upset : BitVec 64) : Statement (.vadd c ty mask vd va vb upset) := all _
theorem vsub (c : Nat) (ty mask : Fin 8) (vd va vb : Fin 32) (upset : BitVec 64) : Statement (.vsub c ty mask vd va vb upset) := all _
theorem vmul (c : Nat) (ty mask : Fin 8) (vd va vb : Fin 32) (upset : BitVec 64) : Statement (.vmul c ty mask vd va vb upset) := all _
theorem vfma (c : Nat) (ty mask : Fin 8) (vd va vb : Fin 32) (upset : BitVec 64) : Statement (.vfma c ty mask vd va vb upset) := all _
theorem vfnma (c : Nat) (ty mask : Fin 8) (vd va vb : Fin 32) (upset : BitVec 64) : Statement (.vfnma c ty mask vd va vb upset) := all _
theorem vdiv (c : Nat) (ty mask : Fin 8) (vd va vb : Fin 32) : Statement (.vdiv c ty mask vd va vb) := all _
theorem vsqrt (c : Nat) (ty mask : Fin 8) (vd va : Fin 32) : Statement (.vsqrt c ty mask vd va) := all _
theorem vmin (c : Nat) (ty mask : Fin 8) (vd va vb : Fin 32) : Statement (.vmin c ty mask vd va vb) := all _
theorem vmax (c : Nat) (ty mask : Fin 8) (vd va vb : Fin 32) : Statement (.vmax c ty mask vd va vb) := all _
theorem vabs (c : Nat) (ty mask : Fin 8) (vd va : Fin 32) : Statement (.vabs c ty mask vd va) := all _
theorem vneg (c : Nat) (ty mask : Fin 8) (vd va : Fin 32) (upset : BitVec 64) : Statement (.vneg c ty mask vd va upset) := all _
theorem vrcp (c : Nat) (ty mask : Fin 8) (vd va : Fin 32) : Statement (.vrcp c ty mask vd va) := all _
theorem vrsqrt (c : Nat) (ty mask : Fin 8) (vd va : Fin 32) : Statement (.vrsqrt c ty mask vd va) := all _
theorem vexp (c : Nat) (ty mask : Fin 8) (vd va : Fin 32) : Statement (.vexp c ty mask vd va) := all _
theorem vlog (c : Nat) (ty mask : Fin 8) (vd va : Fin 32) : Statement (.vlog c ty mask vd va) := all _
theorem vsig (c : Nat) (ty mask : Fin 8) (vd va : Fin 32) : Statement (.vsig c ty mask vd va) := all _
theorem vtanh (c : Nat) (ty mask : Fin 8) (vd va : Fin 32) : Statement (.vtanh c ty mask vd va) := all _
theorem vand (c : Nat) (ty mask : Fin 8) (vd va vb : Fin 32) : Statement (.vand c ty mask vd va vb) := all _
theorem vor (c : Nat) (ty mask : Fin 8) (vd va vb : Fin 32) : Statement (.vor c ty mask vd va vb) := all _
theorem vxor (c : Nat) (ty mask : Fin 8) (vd va vb : Fin 32) : Statement (.vxor c ty mask vd va vb) := all _
theorem vshl (c : Nat) (ty mask : Fin 8) (vd va vb : Fin 32) : Statement (.vshl c ty mask vd va vb) := all _
theorem vshr (c : Nat) (ty mask : Fin 8) (vd va vb : Fin 32) : Statement (.vshr c ty mask vd va vb) := all _
theorem vsra (c : Nat) (ty mask : Fin 8) (vd va vb : Fin 32) : Statement (.vsra c ty mask vd va vb) := all _
theorem vld (c : Nat) (vd ra : Fin 32) (imm : BitVec 14) : Statement (.vld c vd ra imm) := all _
theorem vst (c : Nat) (vd ra : Fin 32) (imm : BitVec 14) : Statement (.vst c vd ra imm) := all _
theorem vldm (c : Nat) (md : Fin 8) (ra : Fin 32) (imm : BitVec 14) : Statement (.vldm c md ra imm) := all _
theorem vstm (c : Nat) (md : Fin 8) (ra : Fin 32) (imm : BitVec 14) : Statement (.vstm c md ra imm) := all _
theorem vmov (c : Nat) (ty mask : Fin 8) (vd va : Fin 32) : Statement (.vmov c ty mask vd va) := all _
theorem vcvt (c : Nat) (ty mask : Fin 8) (vd va : Fin 32) (part : Fin 4) (dty : Fin 8) : Statement (.vcvt c ty mask vd va part dty) := all _
theorem vbcast (c : Nat) (ty mask : Fin 8) (vd ra : Fin 32) : Statement (.vbcast c ty mask vd ra) := all _
theorem vextr (c : Nat) (ty : Fin 8) (rd va rb : Fin 32) : Statement (.vextr c ty rd va rb) := all _
theorem vins (c : Nat) (ty : Fin 8) (vd ra rb : Fin 32) : Statement (.vins c ty vd ra rb) := all _
theorem vperm (c : Nat) (ty mask : Fin 8) (vd va vb : Fin 32) : Statement (.vperm c ty mask vd va vb) := all _
theorem vsel (c : Nat) (ty mask : Fin 8) (vd va vb : Fin 32) : Statement (.vsel c ty mask vd va vb) := all _
theorem viota (c : Nat) (ty mask : Fin 8) (vd : Fin 32) : Statement (.viota c ty mask vd) := all _
theorem vrmax (c : Nat) (ty mask : Fin 8) (vd va : Fin 32) : Statement (.vrmax c ty mask vd va) := all _
theorem vrmin (c : Nat) (ty mask : Fin 8) (vd va : Fin 32) : Statement (.vrmin c ty mask vd va) := all _
theorem vsclr (c : Nat) (vsd : Fin 8) (ra : Fin 32) : Statement (.vsclr c vsd ra) := all _
theorem vsadd (c : Nat) (ty mask vsd : Fin 8) (va : Fin 32) (upset : BitVec 64) : Statement (.vsadd c ty mask vsd va upset) := all _
theorem vsdot (c : Nat) (ty mask vsd : Fin 8) (va vb : Fin 32) (upset : BitVec 64) : Statement (.vsdot c ty mask vsd va vb upset) := all _
theorem vsacc (c : Nat) (vsd vsa : Fin 8) (upset : BitVec 64) : Statement (.vsacc c vsd vsa upset) := all _
theorem vsrd (c : Nat) (ty : Fin 8) (rd : Fin 32) (vsa : Fin 8) (rb : Fin 32) : Statement (.vsrd c ty rd vsa rb) := all _
theorem vsraw (c : Nat) (rd : Fin 32) (vsa : Fin 8) (part : Fin 3) : Statement (.vsraw c rd vsa part) := all _
theorem vswraw (c : Nat) (vsd : Fin 8) (ra : Fin 32) (part : Fin 3) : Statement (.vswraw c vsd ra part) := all _
theorem vcmpeq (c : Nat) (ty mask md : Fin 8) (va vb : Fin 32) : Statement (.vcmpeq c ty mask md va vb) := all _
theorem vcmplt (c : Nat) (ty mask md : Fin 8) (va vb : Fin 32) : Statement (.vcmplt c ty mask md va vb) := all _
theorem vcmple (c : Nat) (ty mask md : Fin 8) (va vb : Fin 32) : Statement (.vcmple c ty mask md va vb) := all _
theorem vcmpun (c : Nat) (ty mask md : Fin 8) (va vb : Fin 32) : Statement (.vcmpun c ty mask md va vb) := all _
theorem mand (c : Nat) (md ma mb : Fin 8) : Statement (.mand c md ma mb) := all _
theorem mor (c : Nat) (md ma mb : Fin 8) : Statement (.mor c md ma mb) := all _
theorem mxor (c : Nat) (md ma mb : Fin 8) : Statement (.mxor c md ma mb) := all _
theorem mnot (c : Nat) (md ma : Fin 8) : Statement (.mnot c md ma) := all _
theorem mpopc (c : Nat) (ty : Fin 8) (rd : Fin 32) (ma : Fin 8) : Statement (.mpopc c ty rd ma) := all _
theorem forme (c : Nat) (wait raise : Fin 64) (ra : Fin 32) : Statement (.forme c wait raise ra) := all _
theorem formeTileStaged (c : Nat) : Statement (.formeTileStaged c) := all _
theorem formeRowSums (c : Nat) : Statement (.formeRowSums c) := all _
theorem press (c : Nat) (m : Fin 16) (f a : Fin 2) (raise : Fin 64) : Statement (.press c m f a raise) := all _
theorem pressIssue (c : Nat) : Statement (.pressIssue c) := all _
theorem pressComplete (c : Nat) (flips : List StickFlip) : Statement (.pressComplete c flips) := all _
theorem checksumComparison (c : Nat) : Statement (.checksumComparison c) := all _
theorem stickclr (c : Nat) (m : Fin 16) (ra : Fin 32) : Statement (.stickclr c m ra) := all _
theorem stickclrExecute (c : Nat) : Statement (.stickclrExecute c) := all _
theorem stickrd (c : Nat) (wait raise : Fin 64) (ra : Fin 32) : Statement (.stickrd c wait raise ra) := all _
theorem drainHold (c : Nat) : Statement (.drainHold c) := all _
theorem drainRelease (c : Nat) (flips : List StickFlip) : Statement (.drainRelease c flips) := all _
theorem pressHalt (src : Source) (c : Nat) : Statement (.pressHalt src c) := all _
theorem pressResume (src : Source) (c : Nat) : Statement (.pressResume src c) := all _
theorem enq (c : Nat) (queue : BitVec 8) (ra : Fin 32) : Statement (.enq c queue ra) := all _
theorem tkwait (c : Nat) (tk : Fin 64) : Statement (.tkwait c tk) := all _
theorem tktry (c : Nat) (rd : Fin 32) (tk : Fin 64) : Statement (.tktry c rd tk) := all _
theorem tkread (c : Nat) (rd : Fin 32) (tk : Fin 64) : Statement (.tkread c rd tk) := all _
theorem tkraise (c : Nat) (tk : Fin 64) : Statement (.tkraise c tk) := all _
theorem tkset (c : Nat) (tk : Fin 64) (ra : Fin 32) : Statement (.tkset c tk ra) := all _
theorem pilotReset (src : Source) (c : Nat) : Statement (.pilotReset src c) := all _
theorem pilotRun (src : Source) (c : Nat) : Statement (.pilotRun src c) := all _
theorem pilotHalt (src : Source) (c : Nat) : Statement (.pilotHalt src c) := all _
theorem pilotMailboxWrite (src : Source) (c : Nat) (value : Word) : Statement (.pilotMailboxWrite src c value) := all _
theorem standIn (core : Nat) : Statement (.standIn core) := all _
theorem galleyBankServe (die bank : Nat) (reqs : List GalleyReq) : Statement (.galleyBankServe die bank reqs) := all _
theorem galleyScrub (die : Nat) : Statement (.galleyScrub die) := all _
theorem transpose (c : Nat) : Statement (.transpose c) := all _
theorem gather (c : Nat) : Statement (.gather c) := all _
theorem scatter (c : Nat) : Statement (.scatter c) := all _
theorem scatterAdd (c : Nat) : Statement (.scatterAdd c) := all _
theorem engineExp (c : Nat) : Statement (.engineExp c) := all _
theorem engineLog (c : Nat) : Statement (.engineLog c) := all _
theorem engineRcp (c : Nat) : Statement (.engineRcp c) := all _
theorem engineRsqrt (c : Nat) : Statement (.engineRsqrt c) := all _
theorem engineSig (c : Nat) : Statement (.engineSig c) := all _
theorem engineTanh (c : Nat) : Statement (.engineTanh c) := all _
theorem sort (c : Nat) : Statement (.sort c) := all _
theorem topk (c : Nat) : Statement (.topk c) := all _
theorem reducerSum (c : Nat) : Statement (.reducerSum c) := all _
theorem reducerSumsq (c : Nat) : Statement (.reducerSumsq c) := all _
theorem reducerDot (c : Nat) : Statement (.reducerDot c) := all _
theorem reducerMax (c : Nat) : Statement (.reducerMax c) := all _
theorem reducerMin (c : Nat) : Statement (.reducerMin c) := all _
theorem reducerAmax (c : Nat) : Statement (.reducerAmax c) := all _
theorem stickadd (c : Nat) : Statement (.stickadd c) := all _
theorem tallysum (c : Nat) : Statement (.tallysum c) := all _
theorem convert (c : Nat) : Statement (.convert c) := all _
theorem scaleAmax (c : Nat) : Statement (.scaleAmax c) := all _
theorem record (c : Nat) : Statement (.record c) := all _
theorem select (c : Nat) : Statement (.select c) := all _
theorem hsave (c : Nat) : Statement (.hsave c) := all _
theorem hload (c : Nat) : Statement (.hload c) := all _
theorem hinit (c : Nat) : Statement (.hinit c) := all _
theorem rngRaw (c : Nat) : Statement (.rngRaw c) := all _
theorem uniform (c : Nat) : Statement (.uniform c) := all _
theorem bernoulli (c : Nat) : Statement (.bernoulli c) := all _
theorem intrange (c : Nat) : Statement (.intrange c) := all _
theorem compress (c : Nat) : Statement (.compress c) := all _
theorem decompress (c : Nat) : Statement (.decompress c) := all _
theorem tally (c : Nat) : Statement (.tally c) := all _
theorem microcodeUpdate (die engine : Nat) : Statement (.microcodeUpdate die engine) := all _
theorem berthGet (c : Nat) : Statement (.berthGet c) := all _
theorem berthPut (c : Nat) : Statement (.berthPut c) := all _
theorem berthAudit (die : Nat) : Statement (.berthAudit die) := all _
theorem proofCompare (die : Nat) (first second : ProofFault) : Statement (.proofCompare die first second) := all _
theorem vectorProofCompare (die : Nat) (orig first second : VecFault) : Statement (.vectorProofCompare die orig first second) := all _
theorem chkRecord (die : Nat) : Statement (.chkRecord die) := all _
theorem chkLogCollect (die : Nat) : Statement (.chkLogCollect die) := all _
theorem chkConditionSample (die : Nat) (patterns : List Word) : Statement (.chkConditionSample die patterns) := all _
theorem quarantineRangeSample (die : Nat) : Statement (.quarantineRangeSample die) := all _
theorem quarantineClearEntry (src : Source) (entry : Nat) : Statement (.quarantineClearEntry src entry) := all _
theorem quarantineClearAll (src : Source) : Statement (.quarantineClearAll src) := all _
theorem quayMemRequest (die : Nat) : Statement (.quayMemRequest die) := all _
theorem budget (msg : EvtMsg) : Statement (.budget msg) := all _
theorem tideNote (msg : EvtMsg) : Statement (.tideNote msg) := all _
theorem eventPost (msg : EvtMsg) : Statement (.eventPost msg) := all _
theorem recordReady (msg : EvtMsg) : Statement (.recordReady msg) := all _
theorem halt (msg : EvtMsg) : Statement (.halt msg) := all _
theorem linkNote (msg : EvtMsg) : Statement (.linkNote msg) := all _
theorem flitCrcReplay (die link flits : Nat) (again : Bool) : Statement (.flitCrcReplay die link flits again) := all _
theorem linkRetrainDone (die link : Nat) (good : Bool) : Statement (.linkRetrainDone die link good) := all _
theorem quayLinkDisable (src : Source) (die link : Nat) : Statement (.quayLinkDisable src die link) := all _
theorem quayLinkRetrain (src : Source) (die link : Nat) : Statement (.quayLinkRetrain src die link) := all _
theorem pllLossOfLock (die pll : Nat) : Statement (.pllLossOfLock die pll) := all _
theorem referenceLoss : Statement (.referenceLoss) := all _
theorem homeWrite (die : Nat) (found : DirErr) : Statement (.homeWrite die found) := all _
theorem homeWriteApply (die : Nat) : Statement (.homeWriteApply die) := all _
theorem invalidation (die : Nat) : Statement (.invalidation die) := all _
theorem recallLine (die : Nat) (data : Option (List Byte)) : Statement (.recallLine die data) := all _
theorem homeRead (die : Nat) (found : DirErr) : Statement (.homeRead die found) := all _
theorem hbmSchedulerIssue (stack pchan : Nat) : Statement (.hbmSchedulerIssue stack pchan) := all _
theorem hbmReadDecode (line : Nat) (errs : List SymErr) (fixed : Nat) : Statement (.hbmReadDecode line errs fixed) := all _
theorem hbmRefresh (stack bank : Nat) : Statement (.hbmRefresh stack bank) := all _
theorem hbmTempRead (stack : Nat) (temp : Int) : Statement (.hbmTempRead stack temp) := all _
theorem hbmRowScrub (stack : Nat) (errs : List (List SymErr)) : Statement (.hbmRowScrub stack errs) := all _
theorem hbmPatrolScrub (stack : Nat) (errs : List SymErr) : Statement (.hbmPatrolScrub stack errs) := all _
theorem hbmLogCollect (stack : Nat) : Statement (.hbmLogCollect stack) := all _
theorem adderRlAdd (die : Nat) (found cache : DirErr) : Statement (.adderRlAdd die found cache) := all _
theorem atomicAdd (die : Nat) (found : DirErr) : Statement (.atomicAdd die found) := all _
theorem atomicMax (die : Nat) (found : DirErr) : Statement (.atomicMax die found) := all _
theorem atomicMin (die : Nat) (found : DirErr) : Statement (.atomicMin die found) := all _
theorem atomicMaxu (die : Nat) (found : DirErr) : Statement (.atomicMaxu die found) := all _
theorem atomicMinu (die : Nat) (found : DirErr) : Statement (.atomicMinu die found) := all _
theorem atomicAnd (die : Nat) (found : DirErr) : Statement (.atomicAnd die found) := all _
theorem atomicOr (die : Nat) (found : DirErr) : Statement (.atomicOr die found) := all _
theorem atomicXor (die : Nat) (found : DirErr) : Statement (.atomicXor die found) := all _
theorem atomicSwap (die : Nat) (found : DirErr) : Statement (.atomicSwap die found) := all _
theorem atomicCas (die : Nat) (found : DirErr) : Statement (.atomicCas die found) := all _
theorem atomicFadd32 (die : Nat) (found : DirErr) : Statement (.atomicFadd32 die found) := all _
theorem hbmChannelRetrain (stack chan errors : Nat) : Statement (.hbmChannelRetrain stack chan errors) := all _
theorem hbmRetrainCmd (src : Source) (stack chan : Nat) : Statement (.hbmRetrainCmd src stack chan) := all _
theorem hbmOffline (src : Source) (stack chan : Nat) : Statement (.hbmOffline src stack chan) := all _
theorem hbmOnline (src : Source) (stack chan : Nat) : Statement (.hbmOnline src stack chan) := all _
theorem hbmRetrainDone (stack chan : Nat) (good : Bool) : Statement (.hbmRetrainDone stack chan good) := all _
theorem hbmHeldTimeout (die : Nat) : Statement (.hbmHeldTimeout die) := all _
theorem hbmMarginStart (src : Source) (stack : Nat) (pc chan pin mode : Nat) : Statement (.hbmMarginStart src stack pc chan pin mode) := all _
theorem hbmMarginDone (stack : Nat) (eye : List Word) : Statement (.hbmMarginDone stack eye) := all _
theorem laserMonitorSample (die bank wave power bias : Nat) (offset : Int) : Statement (.laserMonitorSample die bank wave power bias offset) := all _
theorem laserTakeover (die wave : Nat) : Statement (.laserTakeover die wave) := all _
theorem laserRetire (src : Source) (die bank wave : Nat) : Statement (.laserRetire src die bank wave) := all _
theorem ringLockUpdate (port slot : Nat) (tx : Bool) (heat : Int) (power : Nat) : Statement (.ringLockUpdate port slot tx heat power) := all _
theorem darkMaskApply (port : Nat) : Statement (.darkMaskApply port) := all _
theorem laneCodewordReceive (lane : Nat) (raw : List Byte) : Statement (.laneCodewordReceive lane raw) := all _
theorem controlCodewordReceive (port : Nat) (lane : Option Nat) (raw : List Byte) : Statement (.controlCodewordReceive port lane raw) := all _
theorem portTrainStep (port : Nat) (light : Bool) (failed : Nat) (eyes : List Nat) : Statement (.portTrainStep port light failed eyes) := all _
theorem phxPortRetrain (src : Source) (port : Nat) : Statement (.phxPortRetrain src port) := all _
theorem portDisable (src : Source) (port : Nat) : Statement (.portDisable src port) := all _
theorem calibrationStepBoundary (port eye : Nat) : Statement (.calibrationStepBoundary port eye) := all _
theorem laneMoveReturn (lane : Nat) : Statement (.laneMoveReturn lane) := all _
theorem laneFault (lane cause : Nat) (dark : Bool) : Statement (.laneFault lane cause dark) := all _
theorem laneRecoveryDone (lane : Nat) : Statement (.laneRecoveryDone lane) := all _
theorem laneRecoveryTimeout (lane : Nat) : Statement (.laneRecoveryTimeout lane) := all _
theorem laneOffline (src : Source) (lane : Nat) : Statement (.laneOffline src lane) := all _
theorem laneOnline (src : Source) (lane : Nat) : Statement (.laneOnline src lane) := all _
theorem laneRetrain (src : Source) (lane : Nat) : Statement (.laneRetrain src lane) := all _
theorem opticalLowPower (port slot power : Nat) : Statement (.opticalLowPower port slot power) := all _
theorem routerSlot (base bad : Nat) : Statement (.routerSlot base bad) := all _
theorem ejectionHandoff (base : Nat) : Statement (.ejectionHandoff base) := all _
theorem combiningRelease (base : Nat) : Statement (.combiningRelease base) := all _
theorem combinedResponseFanout (die : Nat) : Statement (.combinedResponseFanout die) := all _
theorem linkEntryExpire (port : Nat) : Statement (.linkEntryExpire port) := all _
theorem replayHoldExpire (base : Nat) : Statement (.replayHoldExpire base) := all _
theorem cellRead (die : Nat) (found : DirErr) : Statement (.cellRead die found) := all _
theorem cellReadRsp (die : Nat) : Statement (.cellReadRsp die) := all _
theorem cellWrite (die : Nat) (found : DirErr) : Statement (.cellWrite die found) := all _
theorem cellTwrite (die : Nat) (found : DirErr) : Statement (.cellTwrite die found) := all _
theorem cellTclose (die : Nat) (found : DirErr) : Statement (.cellTclose die found) := all _
theorem cellAtomicRsp (die : Nat) : Statement (.cellAtomicRsp die) := all _
theorem cellAck (die : Nat) : Statement (.cellAck die) := all _
theorem cellSignal (die : Nat) (found : DirErr) : Statement (.cellSignal die found) := all _
theorem teardown : Statement (.teardown) := all _
theorem abort : Statement (.abort) := all _
theorem lighterLoad (c : Nat) : Statement (.lighterLoad c) := all _
theorem lighterPut (c : Nat) : Statement (.lighterPut c) := all _
theorem lighterStore (c : Nat) : Statement (.lighterStore c) := all _
theorem lighterRladd32 (c : Nat) : Statement (.lighterRladd32 c) := all _
theorem lighterRladd64 (c : Nat) : Statement (.lighterRladd64 c) := all _
theorem lighterAtomic (c : Nat) : Statement (.lighterAtomic c) := all _
theorem lighterSignal (c : Nat) : Statement (.lighterSignal c) := all _
theorem ccset (c : Nat) : Statement (.ccset c) := all _
theorem xverifySet (c : Nat) : Statement (.xverifySet c) := all _
theorem xverifyVerify (c : Nat) : Statement (.xverifyVerify c) := all _
theorem stream (c : Nat) : Statement (.stream c) := all _
theorem streamReadEnd (c : Nat) (flips : List StickFlip) : Statement (.streamReadEnd c flips) := all _
theorem streamSend (c : Nat) : Statement (.streamSend c) := all _
theorem collectiveOpen (die : Nat) : Statement (.collectiveOpen die) := all _
theorem collectiveDeadline (die : Nat) : Statement (.collectiveDeadline die) := all _
theorem collectiveFinal (die : Nat) : Statement (.collectiveFinal die) := all _
theorem tideProbeSend (die : Nat) : Statement (.tideProbeSend die) := all _
theorem tideAlignProbe (msg : EvtMsg) : Statement (.tideAlignProbe msg) := all _
theorem tideAlignReply (msg : EvtMsg) : Statement (.tideAlignReply msg) := all _
theorem tideAlignRate (msg : EvtMsg) : Statement (.tideAlignRate msg) := all _
theorem rateApply (die : Nat) : Statement (.rateApply die) := all _
theorem syncReqSend : Statement (.syncReqSend) := all _
theorem syncReq (arrival : Nat) : Statement (.syncReq arrival) := all _
theorem syncRsp (arrival : Nat) : Statement (.syncRsp arrival) := all _
theorem tideServoTimeout : Statement (.tideServoTimeout) := all _
theorem tidePutSubmit (src : Source) (die : Nat) (value : Word) : Statement (.tidePutSubmit src die value) := all _
theorem tideRingPoll (c : Nat) : Statement (.tideRingPoll c) := all _
theorem schedMark (die : Nat) (job : Option MemberMark) : Statement (.schedMark die job) := all _
theorem schedPrefetch (die : Nat) : Statement (.schedPrefetch die) := all _
theorem prefetchEnqueue (die : Nat) : Statement (.prefetchEnqueue die) := all _
theorem schedPrewarm (die : Nat) : Statement (.schedPrewarm die) := all _
theorem schedCommit (die : Nat) : Statement (.schedCommit die) := all _
theorem schedLane (die : Nat) : Statement (.schedLane die) := all _
theorem schedCalhold (die : Nat) : Statement (.schedCalhold die) := all _
theorem calholdEnd (port : Nat) : Statement (.calholdEnd port) := all _
theorem schedHbmMaint (die : Nat) : Statement (.schedHbmMaint die) := all _
theorem hbmMaintEnd (stack chan : Nat) : Statement (.hbmMaintEnd stack chan) := all _
theorem schedRehearse (die : Nat) : Statement (.schedRehearse die) := all _
theorem injectionEnd (die index : Nat) : Statement (.injectionEnd die index) := all _
theorem schedApply (die : Nat) : Statement (.schedApply die) := all _
theorem impoLoad (src : Source) : Statement (.impoLoad src) := all _
theorem impoReadComplete : Statement (.impoReadComplete) := all _
theorem impoApplyComplete : Statement (.impoApplyComplete) := all _
theorem impoStagingComplete : Statement (.impoStagingComplete) := all _
theorem impoRelease (src : Source) (parts : Nat) : Statement (.impoRelease src parts) := all _
theorem impoDiscard (src : Source) (parts : Nat) : Statement (.impoDiscard src parts) := all _
theorem teardownRecord (part : Nat) : Statement (.teardownRecord part) := all _
theorem heartbeatSend : Statement (.heartbeatSend) := all _
theorem heartbeat : Statement (.heartbeat) := all _
theorem moduleLost (node parts : Nat) : Statement (.moduleLost node parts) := all _
theorem mailboxPoll : Statement (.mailboxPoll) := all _
theorem fiRetire (src : Source) (die core : Nat) : Statement (.fiRetire src die core) := all _
theorem restartDecide (part : Nat) (records : List (List Byte)) (shards : Nat) : Statement (.restartDecide part records shards) := all _
theorem preemptDeadline : Statement (.preemptDeadline) := all _
theorem checkpointManifest (part job step addr : Nat) (tallies : List (Option Nat)) : Statement (.checkpointManifest part job step addr tallies) := all _
theorem supplySample (vin current power : Nat) (rails : Bool) : Statement (.supplySample vin current power rails) := all _
theorem brownoutTimeout : Statement (.brownoutTimeout) := all _
theorem budgetSend (die draw : Nat) : Statement (.budgetSend die draw) := all _
theorem budgetAllocate (die : Nat) : Statement (.budgetAllocate die) := all _
theorem waveBoundary (die draw : Nat) : Statement (.waveBoundary die draw) := all _
theorem tempSample (die : Nat) (temp rise : Int) (volt : Nat) : Statement (.tempSample die temp rise volt) := all _
theorem crossingClockStop (die group : Nat) : Statement (.crossingClockStop die group) := all _
theorem crossingTimeout (die group : Nat) : Statement (.crossingTimeout die group) := all _
theorem crossingClockReturn (die group : Nat) : Statement (.crossingClockReturn die group) := all _
theorem coldReset (power : Bool) : Statement (.coldReset power) := all _
theorem strapSample (straps : Nat) : Statement (.strapSample straps) := all _
theorem strapResample (first second : Nat) : Statement (.strapResample first second) := all _
theorem bootVerify (slotA slotB : Option Nat) (key : Bool) : Statement (.bootVerify slotA slotB key) := all _
theorem mgmtFirmwareStart (pilot micro : Bool) (stacksDown bridgesDown : Nat) : Statement (.mgmtFirmwareStart pilot micro stacksDown bridgesDown) := all _
theorem selfTest (fails : List SelfFail) : Statement (.selfTest fails) := all _
theorem startupHbm (sts : List StackBoot) : Statement (.startupHbm sts) := all _
theorem harbourmasterClaim : Statement (.harbourmasterClaim) := all _
theorem candidateClaim : Statement (.candidateClaim) := all _
theorem autostart : Statement (.autostart) := all _
theorem functionLevelReset : Statement (.functionLevelReset) := all _
theorem hostMemoryRead (bar off len tag : Nat) : Statement (.hostMemoryRead bar off len tag) := all _
theorem hostMemoryWrite (bar off : Nat) (data : List Byte) : Statement (.hostMemoryWrite bar off data) := all _
theorem hostWindowCompletion (tag off : Nat) (data : List Byte) (good : Bool) : Statement (.hostWindowCompletion tag off data good) := all _
theorem hostCompletionTimeout (tag : Nat) : Statement (.hostCompletionTimeout tag) := all _
theorem statusRecordWrite : Statement (.statusRecordWrite) := all _
theorem pcieRingHead (head : Nat) : Statement (.pcieRingHead head) := all _
theorem pciePreempt (dp : Option Nat) (leaders : List Nat) (jobs : List JobMark) : Statement (.pciePreempt dp leaders jobs) := all _
theorem ringEnable (src : Source) (log : Nat) : Statement (.ringEnable src log) := all _
theorem ethLinkDown (port : Nat) : Statement (.ethLinkDown port) := all _
theorem ethSendPoll : Statement (.ethSendPoll) := all _
theorem roceAck (qp psn : Nat) : Statement (.roceAck qp psn) := all _
theorem roceWriteReceive (qp psn pos raddr rkey dlen : Nat) (data : List Byte) (ecn : Bool) : Statement (.roceWriteReceive qp psn pos raddr rkey dlen data ecn) := all _
theorem roceSendReceive (qp psn pos : Nat) (data : List Byte) (ecn : Bool) : Statement (.roceSendReceive qp psn pos data ecn) := all _
theorem roceNak (qp psn kind : Nat) : Statement (.roceNak qp psn kind) := all _
theorem roceRetryTimeout (qp : Nat) : Statement (.roceRetryTimeout qp) := all _
theorem roceCnp (qp : Nat) : Statement (.roceCnp qp) := all _
theorem roceRateRestore (qp : Nat) : Statement (.roceRateRestore qp) := all _
theorem qpEnable (src : Source) (qp : Nat) : Statement (.qpEnable src qp) := all _
theorem ptpSync (port : Nat) (domain : PtpFrom) (offset : PtpTimes) (time : Nat) : Statement (.ptpSync port domain offset time) := all _
theorem ptpSyncTimeout : Statement (.ptpSyncTimeout) := all _
theorem orderWrite (tcp : Option (List Byte)) : Statement (.orderWrite tcp) := all _
theorem orderRead (tcp : Option (List Byte)) : Statement (.orderRead tcp) := all _
theorem orderTeardownReq (tcp : Option (List Byte)) (parts : Nat) : Statement (.orderTeardownReq tcp parts) := all _
theorem orderMemread (tcp : Option (List Byte)) : Statement (.orderMemread tcp) := all _
theorem orderPreempt (tcp : Option (List Byte)) (jobs : List JobMark) : Statement (.orderPreempt tcp jobs) := all _
theorem orderPause (tcp : Option (List Byte)) : Statement (.orderPause tcp) := all _
theorem orderHandover (tcp : Option (List Byte)) : Statement (.orderHandover tcp) := all _
theorem mgmtReply : Statement (.mgmtReply) := all _
theorem mgmtRecord (parts : Nat) : Statement (.mgmtRecord parts) := all _
theorem mgmtAck : Statement (.mgmtAck) := all _
theorem mgmtRetransmit : Statement (.mgmtRetransmit) := all _
theorem mctpSetEndpointId (tag : Nat) (eid : MctpControl) : Statement (.mctpSetEndpointId tag eid) := all _
theorem mctpRegRead (tag addr : Nat) : Statement (.mctpRegRead tag addr) := all _
theorem mctpRegWrite (tag addr : Nat) (value : Word) : Statement (.mctpRegWrite tag addr value) := all _
theorem mctpHbmWrite (tag addr : Nat) (data : List Byte) : Statement (.mctpHbmWrite tag addr data) := all _
theorem mctpHbmRead (tag addr len : Nat) : Statement (.mctpHbmRead tag addr len) := all _
theorem mctpRecordGet (tag first : Nat) : Statement (.mctpRecordGet tag first) := all _
theorem mctpPreempt (tag dp : Nat) (leaders : List Nat) (jobs : List JobMark) : Statement (.mctpPreempt tag dp leaders jobs) := all _
theorem pldmGetTid (tag : Nat) : Statement (.pldmGetTid tag) := all _
theorem pldmGetVersion (tag type : Nat) : Statement (.pldmGetVersion tag type) := all _
theorem pldmGetTypes (tag : Nat) : Statement (.pldmGetTypes tag) := all _
theorem pldmGetCommands (tag type : Nat) : Statement (.pldmGetCommands tag type) := all _
theorem pldmGetPdrRepositoryInfo (tag : Nat) : Statement (.pldmGetPdrRepositoryInfo tag) := all _
theorem pldmGetPdr (tag handle : Nat) : Statement (.pldmGetPdr tag handle) := all _
theorem pldmGetSensorReading (tag id : Nat) : Statement (.pldmGetSensorReading tag id) := all _
theorem pldmGetStateSensorReadings (tag id : Nat) : Statement (.pldmGetStateSensorReadings tag id) := all _
theorem spdmGetVersion (doe : Bool) (tag : Nat) : Statement (.spdmGetVersion doe tag) := all _
theorem spdmGetCapabilities (doe : Bool) (tag version : Nat) : Statement (.spdmGetCapabilities doe tag version) := all _
theorem spdmNegotiateAlgorithms (doe : Bool) (tag : Nat) (p384 sha384 : Bool) : Statement (.spdmNegotiateAlgorithms doe tag p384 sha384) := all _
theorem spdmGetDigests (doe : Bool) (tag : Nat) : Statement (.spdmGetDigests doe tag) := all _
theorem spdmGetCertificate (doe : Bool) (tag slot off len : Nat) : Statement (.spdmGetCertificate doe tag slot off len) := all _
theorem spdmChallenge (doe : Bool) (tag slot nonce : Nat) : Statement (.spdmChallenge doe tag slot nonce) := all _
theorem spdmGetMeasurements (doe : Bool) (tag index : Nat) (sign : Bool) (nonce : Nat) : Statement (.spdmGetMeasurements doe tag index sign nonce) := all _
theorem uartCharacterReceive (read : UartMove) (char : List (Nat × Bool)) : Statement (.uartCharacterReceive read char) := all _
theorem uartBreak : Statement (.uartBreak) := all _
theorem uartDivWrite (src : Source) (div : Nat) : Statement (.uartDivWrite src div) := all _
theorem jtagBypass : Statement (.jtagBypass) := all _
theorem jtagIdcode : Statement (.jtagIdcode) := all _
theorem jtagSamplePreload (pins preload : Nat) : Statement (.jtagSamplePreload pins preload) := all _
theorem jtagExtest (perst : Bool) : Statement (.jtagExtest perst) := all _
theorem jtagClamp (perst : Bool) : Statement (.jtagClamp perst) := all _
theorem jtagDebugAccess (addr : Nat) (value : Option Word) : Statement (.jtagDebugAccess addr value) := all _
theorem jtagTapReset : Statement (.jtagTapReset) := all _
theorem flashRead (src : Source) (addr : Nat) : Statement (.flashRead src addr) := all _
theorem flashProgram (src : Source) (addr : Nat) : Statement (.flashProgram src addr) := all _
theorem flashErase (src : Source) (addr : Nat) : Statement (.flashErase src addr) := all _
theorem flashCommandDone (held : Option (List Byte)) : Statement (.flashCommandDone held) := all _
theorem mgmtSwap (src : Option Source) (svn : Option Nat) : Statement (.mgmtSwap src svn) := all _
theorem svnWrite (src : Source) (value : Nat) : Statement (.svnWrite src value) := all _
theorem fuseBurnDone : Statement (.fuseBurnDone) := all _
theorem caseEngineCompletion (die engine : Nat) : Statement (.caseEngineCompletion die engine) := all _
theorem prewarmStart (die : Nat) : Statement (.prewarmStart die) := all _
theorem heartbeatWindowEnd : Statement (.heartbeatWindowEnd) := all _
theorem ethLinkUp (port : Nat) : Statement (.ethLinkUp port) := all _
theorem pcieLinkReset (state width speed mps : Nat) (flit : Bool) : Statement (.pcieLinkReset state width speed mps flit) := all _
theorem arpRequest (port : Nat) (v6 : Bool) (target asker : Nat) : Statement (.arpRequest port v6 target asker) := all _
theorem icmpEchoRequest (port : Nat) (v6 : Bool) (target asker : Nat) (data : List Byte) : Statement (.icmpEchoRequest port v6 target asker data) := all _
theorem priorityFlowControl (port prio quanta : Nat) : Statement (.priorityFlowControl port prio quanta) := all _
theorem errorLogRead (addr : Nat) : Statement (.errorLogRead addr) := all _

end Sys2Proof.Laws.Words
end

