-- ==== Sys2Proof/Tests/Slice0.lean ====
section
/-! SUPPORT. Tests. Every expected value is from the spec's words, worked by hand; a witness is a state and operands that meet the premises
of the statement it is named after, clause by clause. -/

namespace Sys2Proof.Tests
open Sys2Proof Sys2Proof.Machine

/- Every test evaluates in the kernel, which waits for all declarations before it: elaborated at once, each test would hold a thread of
its own. One after the other they hold one. The option ends with the namespace. -/
set_option Elab.async false

/-! ### Small states -/

/-- A core that runs, with words to compute with: g1 = -2^63, g2 = -1, g3 = 7, g4 and g5 the last word of private memory and the first of
galley 0, g6 the first address past private memory, g7 = 1. -/
def exCore : CoreState := { CoreState.init with
  run := .running
  g := [(1, 0x8000000000000000), (2, 0xFFFFFFFFFFFFFFFF), (3, 7), (4, 0x3FFF8), (5, 0xE000000000), (6, 0x40000), (7, 1)] }

/-- The module with one such core, the first, and a galley window of 1 MiB for its cluster. -/
def exState (k : CoreState) : State :=
  { State.reset with cores := [(0, k)] }.setFld (a_GALLEY_WIN 0 0) f_GALLEY_WIN_SIZE 1

/-- A state with fields of registers set. -/
def withFlds (l : List (Nat × Fld × Nat)) (s : State) : State := l.foldl (fun t p => t.setFld p.1 p.2.1 p.2.2) s

/-! ### Witnesses: pilots -/

theorem witness_ScalarResults : (exState exCore).ready 0 = true := by decide +kernel

theorem witness_BitCounts : (exState exCore).ready 0 = true ∧ ((exState exCore).core 0).rg 1 ≠ 0 ∧ ((exState exCore).core 0).rg 0 = 0 := by
  decide +kernel

theorem witness_Divisions : (exState exCore).ready 0 = true ∧ exCore.rg 0 = 0 ∧ exCore.rg 1 = BitVec.ofNat 64 (2 ^ 63) ∧
    exCore.rg 2 = BitVec.allOnes 64 ∧ exCore.rg 3 ≠ 0 ∧ exCore.rg 3 ≠ BitVec.allOnes 64 := by decide +kernel

theorem witness_BranchesAndJumps : (exState exCore).ready 0 = true ∧ exCore.rg 4 ≠ exCore.rg 3 ∧
    (exCore.rg 1).toInt < (exCore.rg 3).toInt ∧ (exCore.rg 3).toNat < (exCore.rg 1).toNat ∧
    (exCore.rg 4).toNat % 4 = 0 ∧ (exCore.rg 3).toNat % 4 ≠ 0 ∧ exCore.tstatus.getLsbD 3 = false := by decide +kernel

/-- A core with a load of its galley outstanding, and one with a load of a register. -/
def exLoading : CoreState := { exCore with loads := [⟨0xE000000000, .g 1 8 false, some [1, 2, 3, 4, 5, 6, 7, 8]⟩] }
def exAsking : CoreState := { exCore with loads := [⟨a_GALLEY_WIN 0 0, .g 1 8 false, none⟩] }

theorem witness_ScalarLoads : (exState exCore).ready 0 = true ∧ exCore.stores = [] ∧ 0x3FFF8 + 8 ≤ 0x4_0000 ∧
    (∀ e ∈ exCore.pmarks, e.1 + 8 ≤ 0x3FFF8 ∨ 0x3FFF8 + 8 ≤ e.1) ∧
    isGalley 0xE000000000 = true ∧ (exState exCore).galleyOk 0 0xE000000000 8 = true ∧
    (exState exCore).reach 0 0x40000 8 false = .nothing ∧ (exState exCore).reach 0 1 8 false = .own ∧ (1 : Nat) % 8 ≠ 0 ∧
    (exState exCore).crossStopped 0 0 = false ∧ (exState exCore).marks = [] ∧ { exState exCore with released := true }.reach 0 (a_GALLEY_WIN 0 0) 8 false = .regs ∧
    (exState exLoading).stopped 0 = false ∧
    ((exState exLoading).core 0).loads = [⟨0xE000000000, .g 1 8 false, some [1, 2, 3, 4, 5, 6, 7, 8]⟩] ∧
    ((exState exAsking).core 0).loads = [⟨a_GALLEY_WIN 0 0, .g 1 8 false, none⟩] ∧ inRegs (a_GALLEY_WIN 0 0) = true ∧
    { exState exAsking with released := true }.dieUp (regDie (a_GALLEY_WIN 0 0)) = true ∧
    { exState exAsking with released := true }.wayOpen (.pilot 0) (a_GALLEY_WIN 0 0) = true := by decide +kernel

/-- A core in a work unit that protects the first 16 bytes, with a store to private memory, or to its galley, buffered. -/
def exStoring (a : Nat) : CoreState :=
  { exCore with wu := some ⟨1, 0, [], [], 0⟩, wusave := 16, stores := [⟨a, [1, 2]⟩] }

theorem witness_ScalarStores : (exState exCore).reach 0 0x3FFF8 8 false = .own ∧ (exState exCore).reach 0 0xE000000000 8 false = .galley ∧
    exCore.stores.length < 8 ∧ (exState (exStoring 8)).ready 0 = true ∧ (exStoring 8).wu ≠ none ∧ 8 < (exStoring 8).wusave.toNat ∧
    (exStoring 8).wusave.toNat ≤ 16 ∧ (exState (exStoring 8)).reach 0 8 8 false = .own ∧ (exState exCore).reach 0 0x40000 1 false = .nothing ∧
    ((exState (exStoring 8)).core 0).stores = [⟨8, [1, 2]⟩] ∧ { exState exCore with released := true }.reach 0 (a_PILOT_MAILBOX 0 0) 8 false = .regs ∧
    pilotMayWrite 0 (a_PILOT_MAILBOX 0 0) = true ∧ (exState (exStoring 0xE000000000)).crossStopped 0 0 = false ∧
    (exState (exStoring 0xE000000000)).stopped 0 = false := by decide +kernel

theorem witness_ScalarStores_marks (w : Nat) : (exState (exStoring 0xE000000000)).markAt w = 0 := rfl

theorem witness_ControlWords : (exState exCore).ready 0 = true ∧ exCore.prog = false ∧ exCore.tstatus.getLsbD 3 = false ∧
    -1024 ≤ (exCore.rg 2).toInt ∧ (exCore.rg 3).toInt ≤ 1023 ∧ (exState { exCore with prog := true }).ready 0 = true ∧
    cwRights 0x010 = some .firmware ∧ cwRights 0xFFF = none := by decide +kernel

/-- A core with event 4 pending and not masked, its timer armed. -/
def exEvent : CoreState := { exCore with evpend := 16, evmask := 16, timerArmed := true, icache := [0] }

theorem witness_WorkUnitsFencesAndFetch : (exState exEvent).ready 0 = true ∧ (exState exEvent).pilotFw.staged = none ∧ exEvent.stores = [] ∧
    (exState (exStoring 8)).ready 0 = true ∧ (exStoring 8).stores ≠ [] ∧
    (exEvent.evpend &&& exEvent.evmask).getLsbD 4 = true ∧ (∀ m, m < 4 → (exEvent.evpend &&& exEvent.evmask).getLsbD m = false) ∧
    exCore.evpend &&& exCore.evmask = 0 ∧ exEvent.tcmp.toNat ≤ (exState exEvent).tideOf 0 ∧
    exEvent.nextFetch = some 0 ∧ inHbm 0 4 = true ∧ exEvent.icache.contains (lineOf 0) = true := by decide +kernel

theorem witness_TrapsAndReturns : (exState exCore).ready 0 = true ∧ exCore.tstatus.getLsbD 3 = false ∧ decodePilot 0 0 = none ∧
    (exState { exCore with prog := true }).ready 0 = true ∧ ({ exEvent with tstatus := 1 } : CoreState).tstatus.getLsbD 0 = true ∧
    ({ exEvent with tstatus := 1 } : CoreState).tstatus.getLsbD 3 = false ∧ exEvent.loadBlocks = false ∧ exEvent.halting = false ∧
    (exEvent.evpend &&& exEvent.evmask).getLsbD 4 = true := by decide +kernel

theorem witness_DoubleTraps : (exState { exCore with tstatus := 8 }).ready 0 = true ∧ (8 : Word).getLsbD 3 = true ∧ decodePilot 0 0 = none ∧
    (exCore.rg 3).toNat % 4 ≠ 0 ∧ ((exState { exCore with run := .doubleTrap }).core 0).run = .doubleTrap := by decide +kernel
/-! ### Witnesses: vector units -/

/-- The module with one core, whose cluster's level is `l` and whose vector unit is stopped or not. -/
def exVec (k : CoreState) (l stop : Nat) : State :=
  ((exState k).setFld (a_CHK_CFG 0 0) f_CHK_CFG_LEVEL l).setFld (a_VEC_STATUS 0 0) f_VEC_STATUS_STOPPED stop

theorem witness_VectorIntegerLanes : (exVec exCore 0 0).vecReady 0 = true ∧ (exVec exCore 0 0).levelOf 0 ≠ 2 ∧
    (exVec exCore 2 0).vecReady 0 = true := by decide +kernel

theorem witness_VectorFloatLanes : (exVec exCore 2 0).vecReady 0 = true ∧ (exVec exCore 1 0).vecReady 0 = true ∧
    (exVec exCore 1 0).levelOf 0 ≠ 2 ∧ exCore.tstatus.getLsbD 3 = false := by decide +kernel

theorem witness_VectorMoves : (exVec exCore 0 0).vecReady 0 = true ∧ laneOf 0 = some (.fl .b32) ∧ laneOf 5 = some (.int 8) ∧
    (exCore.rg 3).toNat < (Lane.fl .b32).count ∧ (Lane.int 8).count ≤ (exCore.rg 2).toNat ∧ (Lane.fl .b32).count < (Lane.int 8).count ∧
    3 * (Lane.fl .b32).count < (Lane.int 8).count ∧ max (Lane.fl .b32).count (Lane.fl .b32).count ≤ 1 * min (Lane.fl .b32).count (Lane.fl .b32).count ∧
    (∀ i, i < (Lane.int 8).count → exCore.active 0 i = true) ∧ (∀ i, i < (Lane.int 8).count → exCore.active 1 i = false) := by decide +kernel

/-- A core whose sticks 0 and 1 have different scales. -/
def exSticks : CoreState := { exCore with vsqe := [(0, -2048)] }

theorem witness_VectorSticks : (exVec exSticks 2 0).vecReady 0 = true ∧ laneOf 2 = some (.fl .e4m3) ∧ -2048 ≤ (exSticks.rg 2).toInt ∧
    (exSticks.rg 3).toInt ≤ 2047 ∧ (exSticks.rg 1).toInt < -2048 ∧ 2047 < (exSticks.rg 4).toInt ∧ exSticks.tstatus.getLsbD 3 = false ∧
    exSticks.stickQe 0 ≠ exSticks.stickQe 1 ∧ exSticks.stickQe 1 = exSticks.stickQe 2 ∧ 1023 < (exSticks.rg 4).toInt ∧
    (exSticks.rg 7).toInt ≤ 1023 ∧ -1024 ≤ (exSticks.rg 7).toInt ∧ (exSticks.rg 1).toInt < -1024 := by decide +kernel

theorem witness_VectorMasksAndMemory : (exVec exCore 0 0).vecReady 0 = true ∧ laneOf 4 = some (.int 32) ∧ exCore.stores = [] ∧
    0x3FF00 + 256 ≤ 0x4_0000 ∧ (exCore.rg 6 + (-4 : BitVec 14).signExtend 64 * 64).toNat = 0x3FF00 ∧
    (exVec exCore 0 0).galleyOk 0 0xE000000000 256 = true ∧ (exVec exCore 0 0).reach 0 0xE000000000 256 true = .galley ∧
    (exVec exCore 0 0).crossStopped 0 0 = false ∧ (exVec exCore 0 0).marks = [] ∧
    (exVec exCore 0 0).reach 0 0x3FF00 256 true = .own ∧ (exVec exCore 0 0).reach 0 0x40000 32 true = .nothing ∧
    (exVec exCore 0 0).reach 0 1 32 true = .own ∧ (exVec (exStoring 8) 0 0).vecReady 0 = true ∧
    (exStoring 8).wusave.toNat ≤ 0x3FF00 := by decide +kernel

theorem witness_ResidueMismatch : (exVec exCore 2 0).vecReady 0 = true ∧ (exVec exCore 2 0).levelOf 0 = 2 ∧
    (exVec exCore 2 1).ready 0 = true ∧ (exVec exCore 2 1).vecStopped 0 = true := by decide +kernel

theorem witness_StickOrderFree : [ElemVal.nan true, .fin true 5 0].Perm [.fin true 5 0, .nan true] ∧ (mkStick 5 0).extractLsb' 126 2 = 0 ∧
    [((1 : Int), 0), (2, 1)].Perm [(2, 1), (1, 0)] := by decide +kernel
/-! ### Witnesses: presses -/

/-- The module with one core, its press, and 16 ballast slots of the ramp. -/
def exPress (k : CoreState) (p : PressState) : State :=
  { exState k with presses := [(0, p)], ramps := [(0, { RampState.init with slots := (List.range 16).map fun n => ⟨n, none, 0⟩ })] }

/-- A core whose g8 names a descriptor at the end of private memory. -/
def exDesc (d : Nat) : CoreState :=
  { exCore with g := exCore.g ++ [(8, 0x3FFE0)], pmem := memWrite [] 0x3FFE0 (bytesLE 32 d) }

/-- A FORME of one INT8 element at the start of the galley, window 0 of 8 bits, to forme slot 0; a STICKRD of set 0, raw, rows of 2,048 bytes. -/
def exForme : Nat := 0xE000000000 + 8 * 2 ^ 144 + 2 ^ 176 + 6 * 2 ^ 224
def exDrain : Nat := 0xE000000000 + 32 * 2 ^ 144 + 2 ^ 181

/-- A tile of zeros. -/
def exTile : Tile := ⟨6, ⟨0, 8⟩, []⟩

/-- A press with a forme and an activation tile of platen 0 in place. -/
def exLoaded : PressState := { PressState.init with slots := [(0, ⟨some exTile, none, false, none⟩), (2, ⟨some exTile, none, false, none⟩)] }

theorem witness_PressInstructions : (exPress (exDesc exForme) .init).ready 0 = true ∧ (exDesc exForme).stores = [] ∧
    ((exDesc exForme).rg 8).toNat % 32 = 0 ∧ ((exDesc exForme).rg 8).toNat + 32 ≤ 0x4_0000 ∧
    natLE ((exDesc exForme).pbytes 0x3FFE0 32) = exForme ∧ (exPress (exDesc exForme) .init).formeCheck 0 exForme = none ∧
    natLE ((exDesc exDrain).pbytes 0x3FFE0 32) = exDrain ∧ (exPress (exDesc exDrain) .init).drainCheck 0 exDrain = none ∧
    ((exPress exCore { PressState.init with halted := true }).press 0).halted = true ∧ exCore.tstatus.getLsbD 3 = false := by
  decide +kernel

theorem witness_PressInstructions_press : (exPress exCore exLoaded).ready 0 = true ∧ exLoaded.pressCheck ⟨1, 0, 0, 1⟩ = none ∧
    (exPress exCore exLoaded).pressUnmet 0 ⟨1, 0, 0, 1⟩ = none ∧
    ({ exPress exCore exLoaded with ramps := [] }).pressUnmet 0 ⟨1, 0, 0, 1⟩ = some 5 ∧
    ({ exPress exCore exLoaded with ramps := [] }).ready 0 = true ∧ exCore.takeable = false ∧
    { exLoaded with pending := some ⟨1, 0, 0, 1⟩ }.pressCheck ⟨1, 0, 0, 1⟩ = none ∧
    (exPress { exCore with run := .pressStall } { exLoaded with pending := some ⟨1, 0, 0, 1⟩ }).pressUnmet 0 ⟨1, 0, 0, 1⟩ = none := by
  decide +kernel

/-- A PRESS into set 0 that runs on those tiles. -/
def exRun : PressRun := ⟨⟨1, 0, 0, 1⟩, 1, ⟨some exTile, none, false, none⟩, [(0, ⟨some exTile, none, false, none⟩)]⟩

theorem witness_PressComputesProduct : (exPress exCore { exLoaded with running := some exRun }).stopped 0 = false ∧
    exLoaded.compare = none ∧ (∃ q ∈ platens exRun.op.mask, Tbl.get false { exLoaded with ckv := [(0, true)] }.ckv q = true) ∧
    exRun.forme.tile = some exTile ∧ exRun.acts = (platens exRun.op.mask).map (fun q => (q, ⟨some exTile, none, false, none⟩)) ∧
    coreNo 0 ≠ 12 := by decide +kernel

theorem witness_PressComputesProduct_all (q j k : Nat) : (exPress exCore { exLoaded with running := some exRun }).stuck 0 q = [] ∧
    Tbl.get false exLoaded.ckv q = false ∧ (exTile.factor j k).nan = false ∧ (exTile.factor j k).inf = false :=
  ⟨rfl, rfl, rfl, rfl⟩

/-- A press with a FORME staged, its tokens taken or not, and one whose row sums are due. -/
def exStaging (taken : Bool) : PressState := { PressState.init with staging := [⟨exForme, 0, 1, 0, taken⟩] }
def exSums : State :=
  { exPress exCore { exLoaded with sumsDue := [(0, 1)] } with galleys := [(0, { GalleyState.init with formes := [0] })] }

theorem witness_PressStaging : (exPress exCore (exStaging false)).stopped 0 = false ∧
    (exPress exCore (exStaging false)).crossStopped 0 0 = false ∧ exSums.crossStopped 0 0 = false ∧
    (exPress exCore (exStaging false)).mayTake 0 1 0 0 = true ∧ (exStaging false).usesSlot (formeSlot exForme) = false ∧
    { exStaging true with running := some exRun }.usesSlot (formeSlot exForme) = true ∧ (exPress exCore .init).marks = [] ∧
    ({ exPress exCore (exStaging true) with marks := [(0xE000000000, 2)] }.stageRows 0 exForme (exForme / 2 ^ 208 % 256 + 1) 0).2 = none ∧
    (exSums.press 0).sumsDue = [(0, 1)] ∧ exSums.formeTurn 0 = true ∧ exSums.stopped 0 = false ∧
    (exLoaded.slot 0).tile = some exTile ∧ (exPress exCore .init).press 0 = .init := by decide +kernel

/-- A comparison that found row 3 of platen 0 wrong by 1. -/
def exFailed : Compare := ⟨exRun, [(0, 3, 1)]⟩

theorem witness_PressChecking : ((exPress exCore { exLoaded with compare := some ⟨exRun, []⟩ }).press 0).compare = some ⟨exRun, []⟩ ∧
    exFailed.fails = (0, 3, 1) :: [] ∧ ((exPress exCore { exLoaded with compare := some exFailed }).chkOf 0).tproof = none ∧
    (exPress exCore { exLoaded with compare := some exFailed }).stopped 0 = false ∧
    (exPress exCore .init).fld (a_CK_LOC 0 0) f_CK_LOC_VALID = 0 ∧ (Source.order .pcie).2 = 0 ∧
    ({ exPress exCore .init with released := true }).commandCode .pcie (cmdPressHalt 0) = 0 ∧
    ({ exPress exCore .init with released := true }).commandCode .pcie (cmdPressResume 0) = 0 := by decide +kernel

/-- A press with a STICKCLR of set 1 waiting and a drain of set 0, as far as `ph`; and one with set 0 cleared but not drained. -/
def exDraining (ph : DrainPhase) : PressState :=
  { PressState.init with clears := [⟨1, 5, 0⟩], drains := [⟨exDrain, 0, 1, 1, ph⟩] }

theorem witness_PressClearsAndDrains :
    (exDraining .queued).clears.find? (exDraining .queued).clearReady = some ⟨1, 5, 0⟩ ∧
    (exPress exCore (exDraining .queued)).stopped 0 = false ∧ ((exPress exCore (exDraining .queued)).chkOf 0).tproof = none ∧
    (exPress exCore (exDraining .queued)).levelOf 0 < 2 ∧
    (exDraining .queued).drains.find? (fun e => e.phase != .proving) = some ⟨exDrain, 0, 1, 1, .queued⟩ ∧
    (exPress exCore (exDraining .queued)).mayTake 0 2 0 0 = true ∧ (exDraining .queued).before (exDrain / 2 ^ 182 % 4) 1 = false ∧
    (exDraining .queued).incomplete 0 = false ∧
    (exDraining .held).drains.find? (fun e => e.phase == .held) = some ⟨exDrain, 0, 1, 1, .held⟩ ∧
    (exPress exCore (exDraining .held)).marks = [] ∧ (exPress exCore (exDraining .held)).crossStopped 0 0 = false ∧ Tbl.get false (exDraining .held).ckv 0 = false ∧
    (exPress exCore (exDraining .held)).proving 0 0 = false ∧ (exPress exCore (exDraining .held)).provesNext 0 0 = false ∧ exDrain.testBit 181 = true ∧ exDrain.testBit 180 = false ∧
    2048 ≤ 64 * (exDrain / 2 ^ 144 % 2 ^ 16) := by decide +kernel
/-! ### Witnesses: registers, queues, commands -/

/-- A module whose dies answer. -/
def exUp : State := { State.reset with released := true }

theorem witness_RegisterAccesses : inRegs (a_PCIE_RING_HEAD) = true ∧ a_PCIE_RING_HEAD % 8 = 0 ∧ exUp.dieUp (regDie a_PCIE_RING_HEAD) = true ∧
    Source.pcie ≠ .device ∧ inRegs (a_GALLEY_WIN 11 1) = true ∧ exUp.dieUp 11 = true ∧ exUp.wayOpen .pcie a_PCIE_RING_HEAD = true ∧
    exUp.regReads = [] := by decide +kernel

/-- A core whose g8 names a descriptor of five words with opcode 28H, and queue 0 with room for one, empty or full. -/
def exQueue (l : List Desc) : CoreState :=
  { exDesc 0x528 with queues := [(0, l)], qcap := [(0, 1)], tokens := [(1, 65535), (2, 1)], g := exCore.g ++ [(8, 0x3FFA0)],
                      pmem := memWrite [] 0x3FFA0 (bytesLE 80 0x528) }

theorem witness_QueuesAndTokens : (exState (exQueue [])).ready 0 = true ∧ (exQueue []).stores = [] ∧ isQueue 0 = true ∧
    ((exQueue []).rg 8).toNat % 16 = 0 ∧ natLE ((exQueue []).pbytes 0x3FFA0 16) = 0x528 ∧ hdReserved 0x528 = false ∧
    hdLen 0x528 = 5 ∧ 0x3FFA0 + 16 * 5 ≤ 0x4_0000 ∧ (exQueue []).pmarked 0x3FFA0 80 2 = [] ∧ (exQueue []).pmarked 0x3FFA0 80 1 = [] ∧
    ((exQueue []).queue 0).length < (exQueue []).cap 0 ∧ hdOp 0x528 = 0x28 ∧
    (exQueue [⟨[]⟩]).cap 0 ≤ ((exQueue [⟨[]⟩]).queue 0).length ∧ (exQueue []).token 2 ≠ 0 ∧ (exQueue []).token 2 < 65535 ∧
    (exQueue []).token 3 = 0 ∧ 65535 ≤ (exQueue []).token 1 := by decide +kernel

/-- A core whose work unit is to be taken over. -/
def exAsk : State := { exState (exStoring 8) with standAsks := [(0, true)] }

theorem witness_PilotCommands : (Source.order .pcie).2 = 0 ∧ exUp.commandCode .pcie (cmdPilotRun 0) = 0 ∧
    exUp.commandCode .pcie (cmdPilotHalt 155) = 0 ∧ exUp.commandCode .pcie (cmdMailbox 155 7) = 0 ∧
    exUp.commandCode .pcie (cmdPilotReset 12) = 0 ∧ exAsk.standAsks.find? (fun a => a.1 == 0) = some (0, true) ∧
    (exAsk.core 0).run ≠ .retired ∧ coreNo 0 ≠ 12 ∧ exAsk.proofOff 0 = false ∧ (exAsk.core 0).saveBad = false ∧
    (exAsk.proofOff 0 = false) ∧ (exAsk.core 0).wu = some ⟨1, 0, [], [], 0⟩ ∧ (exAsk.chkOf 0).tproof = none ∧ ∀ e, e < 9 → (exAsk.engine 0 e).run = none := by decide +kernel
/-! ### Witnesses: galley, engines, berths, result checking -/

theorem witness_GalleyBanksAndScrub : bankOk 11 31 ⟨71, 0xE0BFFFFC00, 1024, none⟩ = true ∧
    bankOk 0 0 ⟨0, 0xE000000000, 8, some [1, 2, 3, 4, 5, 6, 7, 8]⟩ = true ∧ 0xE000000000 % 8 = 0 ∧
    Tbl.get 0 (State.reset.galley 0).ptrs 0 ≤ 0 ∧ bankOk 0 0 ⟨1, 0xE000000000, 8, none⟩ = true ∧ State.reset.stopped 0 = false ∧
    (State.reset.galley 0).scrub < 0x4_0000 ∧ State.reset.markAt (galleyBase 0) ≤ 1 := by decide +kernel

/-- A TREF: address, rows, columns and element type. -/
def exTref (a rows cols et : Nat) : Nat := a + et * 2 ^ 64 + (rows - 1) * 2 ^ 80 + (cols - 1) * 2 ^ 96

/-- Core 0 with descriptor `d` at the head of the queue of engine `e`; and the same once the engine has taken it. -/
def exEngine (e d : Nat) : State := exState { exCore with queues := [(0x10 + e, [⟨bytesLE 64 d⟩])] }
def exTaken (e d : Nat) : State :=
  { exEngine e d with cores := Tbl.set CoreState.init (exEngine e d).cores 0 (((exEngine e d).core 0).headTaken (0x10 + e) d) }.setEngine 0 e
    ⟨none, 1⟩

/-- TRANSPOSE of one byte, one of two types, and an undefined OP. -/
def exTranspose : Nat := 0x301 + exTref 0xE000000000 1 1 6 * 2 ^ 128 + exTref 0xE000000100 1 1 6 * 2 ^ 256
def exTwoTypes : Nat := 0x301 + exTref 0xE000000000 1 1 6 * 2 ^ 128 + exTref 0xE000000100 1 1 7 * 2 ^ 256

theorem witness_EngineStarts : (0, 1, .transpose 0) ∈ engineRows 0 ∧ (exEngine 0 exTranspose).stopped 0 = false ∧
    ((exEngine 0 exTranspose).engine 0 0).run = none ∧ (exEngine 0 exTranspose).engPick 0 0 = some 0 ∧
    (((exEngine 0 exTranspose).core 0).queue 0x10).head? = some ⟨bytesLE 64 exTranspose⟩ ∧
    (⟨bytesLE 64 exTranspose⟩ : Desc).num = exTranspose ∧ hdOp exTranspose = 1 ∧
    (jobOf 0 0 (exTaken 0 exTranspose) exTranspose).check = none ∧
    (jobOf 0 0 (exTaken 0 exTranspose) exTranspose).left ⟨0, 0, 0, 0⟩ (exTaken 0 exTranspose) ≤ 1 ∧
    (jobOf 0 0 (exTaken 0 exTwoTypes) exTwoTypes).check = some (Code.ENGINE_BAD_FORMAT, 0) ∧ engOpOk 0 (hdOp 0x309) = false := by
  decide +kernel

/-- Die 0 with engine `e` at the last unit of descriptor `d` of core 0. -/
def exWorking (e d : Nat) : State := (exState exCore).setEngine 0 e ⟨some ⟨0, d, ⟨0, 0, 0, 0⟩⟩, 1⟩

theorem witness_EngineResults : ((exWorking 0 exTranspose).engine 0 0).run = some ⟨0, exTranspose, ⟨0, 0, 0, 0⟩⟩ ∧
    (exWorking 0 exTranspose).stopped 0 = false ∧ (exWorking 0 exTranspose).marks = [] ∧ hdOp exTranspose = 1 ∧
    (trefOf (bits exTranspose 383 256)).rowBytes ≤ (trefOf (bits exTranspose 383 256)).pitch ∧
    etPlain (trefOf (bits exTranspose 255 128)).et = true ∧
    (trefOf (bits exTranspose 255 128)).et = (trefOf (bits exTranspose 383 256)).et ∧
    (trefOf (bits exTranspose 383 256)).cols = (trefOf (bits exTranspose 255 128)).rows ∧
    (trefOf (bits exTranspose 383 256)).rows = (trefOf (bits exTranspose 255 128)).cols ∧
    (trefOf (bits exTranspose 255 128)).rows ≤ 64 ∧ (trefOf (bits exTranspose 255 128)).cols ≤ 64 ∧
    (trefOf (bits exTranspose 383 256)).rows * (trefOf (bits exTranspose 383 256)).rowBytes ≤ 65536 ∧
    (∀ i, i < 1 → (exWorking 1 exTranspose).num (bits exTranspose 431 384 + 4 * i) 4 < (trefOf (bits exTranspose 255 128)).rows) ∧
    hdOp (0x401 + exTref 0xE000000000 1 64 0xE * 2 ^ 128) = 1 ∧ (trefOf (exTref 0xE000000000 1 64 0xE)).et = 0xE ∧
    (trefOf (exTref 0xE000000000 1 64 0xE)).rowBytes ≤ (trefOf (exTref 0xE000000000 1 64 0xE)).pitch ∧
    (trefOf (exTref 0xE000000000 1 64 0xE)).size ≤ 512 ∧ hdOp 0x503 = 3 ∧ hdOp 0x507 = 7 := by decide +kernel

/-- Core 0 with descriptor `d` at the head of lighter queue 0, `count` berths of pool 0 in its slot at an address, and berths granted on die
0. -/
def exBerthsAt (base d count : Nat) (held : Tbl (Option BerthEnt)) : State :=
  withFlds [(a_BERTH_POOL 0 0 0, f_BERTH_POOL_COUNT, count), (a_BERTH_POOL 0 0 0, f_BERTH_POOL_BASE, base / 4096)]
    { exState { exCore with queues := [(0, [⟨bytesLE 32 d⟩])] } with berths := held }
def exBerths (d count : Nat) (held : Tbl (Option BerthEnt)) : State := exBerthsAt 0xE000000000 d count held

/-- BERTH_GET of 4,096 bytes with its result at 100H of private memory, of 2^28 + 1 bytes, and BERTH_PUT of handle 0. -/
def exGet : Nat := 0x230 + 0x100 * 2 ^ 128 + 4096 * 2 ^ 176
def exGetBig : Nat := 0x230 + 0x100 * 2 ^ 128 + (2 ^ 28 + 1) * 2 ^ 176

theorem witness_BerthPool_heads : (exBerths exGet 1 []).ltrAt 0 0 0 ⟨bytesLE 32 exGet⟩ ∧
    (exBerths exGetBig 1 []).ltrAt 0 0 0 ⟨bytesLE 32 exGetBig⟩ ∧
    (exBerths 0x231 1 [(0, some ⟨0, 0, 0⟩)]).ltrAt 0 0 0 ⟨bytesLE 32 0x231⟩ ∧
    (exBerths 0x231 1 []).ltrAt 0 0 0 ⟨bytesLE 32 0x231⟩ ∧ (exBerths exGet 1 []).berthQueue 0 0x30 = some 0 ∧
    (exBerths 0x231 1 []).berthQueue 0 0x31 = some 0 := by
  and_intros <;> (try unfold State.ltrFree) <;> decide +kernel

theorem witness_BerthPool : (⟨bytesLE 32 exGet⟩ : Desc).num = exGet ∧ hdLen exGet = 2 ∧ hdReserved exGet = false ∧ hdOp exGet = 0x30 ∧
    bits exGet 255 217 = 0 ∧ (exBerths exGet 1 []).berthTurn 0 0x30 = true ∧ (exBerths 0x231 1 []).berthTurn 0 0x31 = true ∧
    (exBerths exGet 1 []).berthOk 0 0 0 0 = true ∧ (exBerths (exGet + 2 ^ 216) 0 []).freeBerth 0 0 0 = none ∧
    bit (exGet + 2 ^ 216) 216 = true ∧ (exBerthsAt 0 exGet 1 []).berthOk 0 0 0 0 = false ∧
    (exBerthsAt 0 exGet 1 []).freeBerth 0 0 0 = some 0 ∧ (exBerthsAt 0 exGet 1 []).berthTurn 0 0x30 = true ∧
    bits exGet 211 208 = 0 ∧ 0 < bits exGet 207 176 ∧ bits exGet 175 128 % 16 = 0 ∧
    bits exGet 175 128 + 16 ≤ 0x4_0000 ∧ poolFor 4096 = some 0 ∧ (exBerths exGet 1 []).freeBerth 0 0 0 = some 0 ∧
    poolFor (bits exGetBig 207 176) = none ∧ (exBerths exGet 0 []).freeBerth 0 0 0 = none ∧ hdOp 0x231 = 0x31 ∧
    bits 0x231 159 128 / 2 ^ 27 = (exBerths 0x231 1 []).partOf 0 ∧
    (Tbl.get none (exBerths 0x231 1 [(0, some ⟨0, 0, 0⟩)]).berths 0).isSome = true ∧
    (Tbl.get none (exBerths 0x231 1 []).berths 0).isSome = false ∧ (State.reset.engine 11 8).run = none := by decide +kernel

/-- Any tally can be what a proof gives, by some fault of the hardware, where its own checksum column passes. -/
theorem exProof (s : State) (die p : Nat) (x : TProof) (h : ((s.modPress (proofCore die) fun y => y.flip []).proofOut die p x).isSome = true)
    (w : Word) : ∃ f, s.proofTally die p x f = some w.toNat := by
  obtain ⟨bs, hb⟩ := Option.isSome_iff_exists.mp h
  exact ⟨⟨[], bytesTally (s.reg (a_CHK_KEY die (s.clusterOf x.core))) bs ^^^ w⟩, by simp [State.proofTally, hb, ← BitVec.xor_assoc]⟩

/-- A tile whose output tally is 5, with no PRESS, of set 0; die 0 with its proof, one of a vector instruction that is all zeros, and a
detection in core 0's vector unit. -/
def exTproof : TProof := ⟨0, 0, 0, 0, [], some 5, false, 0, 0⟩
def exRegs : VecRegs := ⟨[], [], [], [], [], 0, 0⟩
def exVproof : VProof := ⟨0, 0, 0, exRegs, exRegs, exRegs⟩
def exDetection : Detection := ⟨0, 0, Code.RESIDUE_MISMATCH, 2, 2, 0, 0, 0xF, 0, 0, 0, 0, false, false⟩
def exProving : State :=
  { State.reset with
    chk := [(0, { ChkState.init with tproof := some exTproof, vproofs := [exVproof] })]
    detections := [exDetection] }.setFld (a_CHK_QUNIT 12 63) f_CHK_QUNIT_VALID 1

theorem witness_ResultChecking_tile : (exProving.chkOf 0).tproof = some exTproof ∧ exTproof.tally = some 5 ∧
    (∃ f, exProving.proofTally 0 exTproof.set exTproof f = some 5) ∧ (∃ f, exProving.proofTally 0 exTproof.set exTproof f = some 6) ∧
    (∃ f, (exProving.proveAgain 0 1 exTproof).proofTally 0 1 exTproof f = some 5) ∧
    (∃ f, (exProving.proveAgain 0 1 exTproof).proofTally 0 1 exTproof f = some 6) ∧
    (∃ f, (exProving.proveAgain 0 1 exTproof).proofTally 0 1 exTproof f = some 7) ∧
    (exProving.proveAgain 0 1 exTproof).proofTally 0 1 exTproof ⟨[⟨1, 0, 0, 0⟩], 0⟩ = none ∧
    (exProving.modPress 12 fun x => { x with ckv := [(0, true)] }).proofTally 0 0 exTproof ⟨[⟨0, 0, 0, 0⟩], 0⟩ = none := by
  have h0 : ((exProving.modPress (proofCore 0) fun y => y.flip []).proofOut 0 0 exTproof).isSome = true := by decide +kernel
  have h1 : (((exProving.proveAgain 0 1 exTproof).modPress (proofCore 0) fun y => y.flip []).proofOut 0 1 exTproof).isSome = true := by
    decide +kernel
  exact ⟨rfl, rfl, exProof _ 0 0 _ h0 5, exProof _ 0 0 _ h0 6, exProof _ 0 1 _ h1 5, exProof _ 0 1 _ h1 6, exProof _ 0 1 _ h1 7,
    by decide +kernel, by decide +kernel⟩

theorem witness_ResultChecking : exProving.stopped 0 = false ∧ exTproof.core ≠ 13 * 0 + 12 ∧ (exProving.chkOf 0).vproofs = exVproof :: [] ∧
    exVproof.differ ⟨0, 0⟩ ⟨0, 0⟩ = (0, 0) ∧ exVproof.differ ⟨0, 0⟩ ⟨0, 1⟩ ≠ (0, 0) ∧ exVproof.differ ⟨0, 0⟩ ⟨0, 2⟩ ≠ (0, 0) ∧
    exDetection ∈ exProving.detections ∧ exDetection.die = 0 ∧ exDetection.tide ≤ exProving.tideOf 0 ∧
    firstDetection 0 exProving.detections = some exDetection ∧ exProving.rehearsed exDetection = false ∧
    (exProving.setFld (a_CHK_QPOLICY 12) f_CHK_QPOLICY_N 0).fld (a_CHK_QPOLICY 12) f_CHK_QPOLICY_N = 0 ∧
    (exProving.setFld (a_CHK_QPOLICY 12) f_CHK_QPOLICY_N 1).fld (a_CHK_QPOLICY 12) f_CHK_QPOLICY_N = 1 ∧
    exDetection.units = [0x200F] ∧ (exProving.unit 0x200F).quarantined = false ∧
    (List.range 64).find? (fun n => !exProving.quarUsed n) = some 0 ∧ exProving.quarUsed 63 = true ∧
    (Source.order .jtag).2 = 0 ∧ exProving.commandCode .jtag (cmdClearEntry 63) = 0 ∧ exProving.commandCode .jtag cmdClearAll = 0 ∧
    ∀ n, n < 64 → (⟨0x31_0000 + n, 1⟩ : Applied) ∉ exProving.applied := by decide +kernel
/-! ### Witnesses: Quay link, home directory, cells, adders -/

/-- The module with the link between die 0 and its base die in state `st`, after `n` replays in a row. -/
def exLink (st n : Nat) : State :=
  withFlds [(a_QUAY_LSTATUS 12 0, f_QUAY_LSTATUS_STATE, st), (a_QUAY_LSTATUS 0 0, f_QUAY_LSTATUS_STATE, st)]
    { exUp with links := [(96, ⟨n, [], false⟩)] }

/-- A read of 8 bytes of PCIe's at an address. -/
def exRead (a : Nat) : MemReq := ⟨12, 31, .pcie 0, a, 8, none⟩

/-- An event message from base die 12, of kind `k`, for core `core` of its target. -/
def exEvt (k dst res body : Nat) : EvtMsg := ⟨12, dst, k, 0xF, res, 0, body, 31, false⟩

theorem witness_QuayMessages : (exLink 2 0).routeUp 12 0 = true ∧
    Tbl.get [] { exLink 2 0 with quay := [(0, [exRead 0xE000000000])] }.quay 0 = exRead 0xE000000000 :: [] ∧
    (exLink 2 0).requestOk (exRead 0xE000000000) = true ∧ (exLink 2 0).requestOk (exRead 0xE0C0000000) = false ∧
    isLink 12 0 = true ∧ 0x50 / 16 = 5 ∧ (farEnd (mainEnd 12 0).1 (mainEnd 12 0).2).1 < 12 ∧ isLink 12 3 = true ∧
    12 ≤ (farEnd (mainEnd 12 3).1 (mainEnd 12 3).2).1 ∧ 0x20 / 16 ≠ 5 ∧ (State.reset.core 12).standin = none ∧
    State.reset.freeSlot 0 0 = some 0 ∧ (withFlds [(a_TIDE_SCHED 0, f_TIDE_SCHED_CAP, 0)] State.reset).freeSlot 0 0 = none ∧
    (exLink 2 0).landRoom 12 0 (exRead 0xE000000000).channel (flitsOf (exRead 0xE000000000).dataBytes) = true ∧
    (exLink 2 0).answerUp 0 (exRead 0xE0C0000000) = true ∧ (exLink 2 0).outbound (exRead 0xE000000000) = false ∧
    (exLink 2 0).outbound (exRead 0xE0C0000000) = false ∧ State.reset.notedSlot 0 5 1 = none ∧
    ({ exUp with entries := [(0, some ⟨5, 1, 0, 0, none, false, none, false⟩)] } : State).notedSlot 0 5 1 =
      some (0, ⟨5, 1, 0, 0, none, false, none, false⟩) ∧
    (exLink 3 0).routeUp 0 12 = false ∧ (exEvt 9 0 1 0).reserved ≠ 0 ∧ State.reset.routeUp 12 12 = true ∧ State.reset.routeUp 0 0 = true := by
  decide +kernel

theorem witness_QuayMessages_good : eventGood { exEvt 3 11 0 11 with src := 11, core := 12 } 3 ∧ eventGood (exEvt 3 0 0 12) 3 ∧
    eventGood { exEvt 4 12 0 31 with src := 12 } 4 ∧ eventGood (exEvt 5 0 0 1) 5 ∧ eventGood (exEvt 7 12 0 0x50) 7 ∧
    eventGood (exEvt 7 12 0 0x53) 7 ∧ eventGood (exEvt 7 12 0 0x20) 7 ∧ eventGood (exEvt 1 0 0 0) 1 ∧ eventGood (exEvt 2 0 0 0) 2 := by
  unfold eventGood
  decide +kernel

theorem witness_LinksAndClocks : isLink 0 0 = true ∧ (exLink 2 6).linkState 0 0 = 2 ∧ ((exLink 2 6).link 12 0).replays < 7 ∧
    7 ≤ ((exLink 2 7).link 12 0).replays ∧ (exLink 3 0).linkState 12 0 = 3 ∧ (exLink 1 0).linkState 12 0 < 2 ∧
    (exLink 2 0).fld (a_QUAY_LCTL 12 0) f_QUAY_LCTL_DISABLE = 0 ∧ (Source.order .jtag).2 = 0 ∧
    (exLink 2 0).commandCode .jtag (cmdLinkDisable 12 0) = 0 ∧ (exLink 2 0).commandCode .jtag (cmdLinkRetrain 12 0) = 0 ∧
    (exLink 2 0).linkState 0 0 ≠ 5 ∧ State.reset.fld a_MGMT_BOOT f_MGMT_BOOT_STEP = 1 := by decide +kernel

/-- Die 0, or base die 0, with one request at the head of its list, channel 0 of stack 0 being Active and the link between the two up. -/
def exHome (die : Nat) (e : HomeEnt) (dirs : Tbl (List DirEnt)) : State :=
  withFlds [(a_HBM_CH_STATUS 12 0 0, f_HBM_CH_STATUS_STATE, 2)] { exLink 2 0 with homes := [(die, [e])], dirs := dirs }

/-- A write of 8 bytes of PCIe's to galley 0, or to HBM. -/
def exWrite (a : Nat) (begun : Bool) : HomeEnt := ⟨⟨12, 31, .pcie 0, a, 8, some [1, 2, 3, 4, 5, 6, 7, 8]⟩, 0, begun, []⟩

/-- Base die 0 with an invalidation on its way to die 0 and a recall to the management processor. -/
def exInvals : State := { exLink 2 0 with invals := [⟨12, 0, 0, false⟩, ⟨12, 12, 64, true⟩], dirs := [(1, [⟨64, true, 4096, false⟩])] }

theorem witness_HomeOrder : (exHome 12 (exWrite 0 false) []).homeList 12 = exWrite 0 false :: [] ∧
    (exHome 12 (exWrite 0 false) []).open_ 12 (exWrite 0 false).req = true ∧ (exHome 12 (exWrite 0 false) []).waitsLeft (exWrite 0 false) = [] ∧
    (exHome 12 (exWrite 0 false) []).needed (exWrite 0 false).req = [] ∧
    (exHome 12 (exWrite 0 false) [(0, [⟨0, false, 1, false⟩])]).needed (exWrite 0 false).req ≠ [] ∧
    (exWrite 0 false).req.hbmLines = 0 :: [] ∧ (exHome 12 (exWrite 0 false) [(0, [⟨0, false, 1, false⟩])]).dirSet (dirKey 0) ≠ [] ∧
    (exWrite 0 true).begun = true ∧ (State.reset.dirSet (dirKey 0)).length < 16 ∧ State.reset.noRoom (exWrite 0 false).req = none ∧
    (exInvals.invals.find? fun v => v.target == 0 && !v.recalls && exInvals.invalGoes v) = some ⟨12, 0, 0, false⟩ ∧
    (exInvals.invals.find? fun v => v.home == 12 && v.recalls && exInvals.invalGoes v) = some ⟨12, 12, 64, true⟩ ∧
    (exInvals.dirEnt 64).map (fun e => (e.mod, e.lost)) = some (true, false) := by decide +kernel

theorem witness_HomeOrder_memory : (exHome 12 (exWrite 0 false) []).memThere 0 8 ∧ (exHome 12 (exWrite 0 false) []).noMarks 0 8 ∧
    (exHome 0 (exWrite 0xE000000000 false) []).memThere 0xE000000000 8 := by
  unfold State.memThere State.noMarks
  decide +kernel

/-- The request of a fetch by core 0, and of a read by PCIe, of line 0. -/
def exFetch : HomeEnt := ⟨⟨0, 31, .fetch 0, 0, 64, none⟩, 0, false, []⟩

theorem witness_HomeOrder_reads : (exHome 12 ⟨exRead 0, 0, false, []⟩ []).homeHead 12 ⟨exRead 0, 0, false, []⟩ [] ∧
    (exHome 12 exFetch []).homeHead 12 exFetch [] ∧
    ({ CoreState.init with missing := some 0 } : CoreState).missing = some exFetch.req.addr := by
  unfold State.homeHead
  decide +kernel

/-- A cell of kind `k` for an address, three granules, at the head of its die's list. -/
def exCell (k addr g0 g1 g2 : Nat) : Cell := ⟨k, 31, 0, 0, 0, 0, 0, 7, addr / 16, g0, g1, g2⟩
def exCellEnt (c : Cell) : HomeEnt := ⟨⟨12, 31, .cell c, c.addr * 16, 48, none⟩, 0, false, []⟩
def exCellAt (c : Cell) : State := exHome 0 (exCellEnt c) []

/-- A cell of die 0 for node 5 on its way to its base die. -/
def exLeaving : MemReq := ⟨0, 31, .cell { exCell 3 0xE000000000 1 2 3 with dst := 5 }, 0, 0, none⟩

theorem witness_QuayMessages_cells : Tbl.get [] ({ exLink 2 0 with quay := [(12, [exLeaving])] } : State).quay 12 = exLeaving :: [] ∧
    (exLink 2 0).routeUp 0 12 = true ∧ (exLink 2 0).landRoom 0 12 exLeaving.channel (flitsOf exLeaving.dataBytes) = true ∧
    (exLink 2 0).answerUp 12 exLeaving = true ∧ (5 : Nat) ≠ (exLink 2 0).nodeId ∧ exLeaving.len ≠ 1 := by decide +kernel

/-- A READ of one granule, WRITEs of memory and of registers, a TWRITE, a TCLOSE, a SIGNAL of 1 to core 0. -/
def exReadCell : Cell := exCell 1 0xE000000000 1 0 0

def exWriteCell : Cell := exCell 3 0xE000000000 1 2 3
def exRegCell : Cell := exCell 3 0xF000000000 1 2 3
def exTwrite : Cell := exCell 4 0xE000000000 1 2 3
def exTclose : Cell := exCell 5 0xE000000000 0 0 0
def exSignal : Cell := exCell 0xC 0 1 0 0

theorem witness_CellsAtTheirDie_heads : ∀ c ∈ [exReadCell, exWriteCell, exRegCell, exTwrite, exTclose, exSignal],
    (exCellAt c).cellHead 0 c [] := by
  have h : ∀ c ∈ [exReadCell, exWriteCell, exRegCell, exTwrite, exTclose, exSignal],
      (exCellAt c).homeHead 0 (exCellEnt c) [] := by
    unfold State.homeHead
    decide +kernel
  exact fun c hc => ⟨exCellEnt c, rfl, h c hc⟩

/-- The READ where the galley word has a double-bit error. -/
def exBadWord : State := { exCellAt exReadCell with marks := [(0xE000000000, 2)] }

theorem witness_CellsAtTheirDie : (((exCellAt exReadCell).setHome 0 []).readAny (exReadCell.addr * 16) 16 0xF 5).code = 0 ∧
    1 ≤ bits exReadCell.g0 5 0 ∧ bits exReadCell.g0 5 0 ≤ 48 ∧ ((exBadWord.setHome 0 []).readAny (exReadCell.addr * 16) 16 0xF 5).code ≠ 0 ∧
    ((exCellAt exWriteCell).writeCell exWriteCell).code = 0 ∧ (∀ p ∈ cellPieces exWriteCell, inRegs p.1 = false) ∧
    (∀ p ∈ cellPieces exRegCell, inRegs p.1 = true) ∧ exTwrite.kind = 4 ∧ exTclose.core < 0xC0 ∧
    (exCellAt exTclose).loadClose 0 exTclose = false ∧ bits exTclose.g0 79 64 ≤ (exCellAt exTclose).ctxTotal exTclose ∧
    exSignal.kind = 0xC ∧ bits exSignal.g0 23 16 < 156 := by decide +kernel

/-- An atomic of 4 bytes with an AOP, and an RLADD32 packet with G 0 whose block word is at 1000H of the galley. -/
def exAtomic (aop : Nat) : Cell := exCell 9 0xE000000000 5 aop 0
def exAdd (g : Nat) : Cell := exCell 6 0xE000000000 1 2 (g + 0x400 * 2 ^ 62)

theorem witness_AddersAndAtomics_heads : (∀ a, a ∈ [0, 1, 2, 3, 4, 5, 6, 7, 8, 9, 10] → (exCellAt (exAtomic a)).homeHead 0 (exCellEnt (exAtomic a)) []) ∧
    (exCellAt (exAdd 0)).homeHead 0 (exCellEnt (exAdd 0)) [] ∧ (exCellAt (exAdd 1)).homeHead 0 (exCellEnt (exAdd 1)) [] ∧
    (exCellAt (exAtomic 10)).memThere 0xE000000000 4 ∧ (exCellAt (exAtomic 10)).noMarks (blockOf 0xE000000000) 4096 ∧
    (∀ b ∈ (exCellAt (exAtomic 10)).addCache 0xE000000000, b.bad = false) := by
  unfold State.homeHead State.memThere State.noMarks
  decide +kernel

theorem witness_AddersAndAtomics : (∀ a, a ∈ [0, 1, 2, 3, 4, 5, 6, 7, 8, 9, 10] → (atomicReq (exAtomic a)).aop = a ∧
      (atomicReq (exAtomic a)).width = 4 ∧ (atomicReq (exAtomic a)).addr % 4 = 0) ∧
    (withFlds [(a_HBM_PART 12 0, f_HBM_PART_INVARIANT, 0)] (exCellAt (exAtomic 10))).addersInvariant 0xE000000000 0 = false ∧
    (withFlds [(a_HBM_PART 12 0, f_HBM_PART_INVARIANT, 1)] (exCellAt (exAtomic 10))).addersInvariant 0xE000000000 0 = true ∧
    (addPkt (exAdd 0)).placed = true ∧ (exCellAt (exAdd 0)).marks = [] ∧
    (∀ b ∈ (exCellAt (exAdd 0)).addCache (addPkt (exAdd 0)).addr, b.bad = false) ∧
    (exCellAt (exAdd 0)).hbmDown (addPkt (exAdd 0)).addr 32 = false ∧ (exCellAt (exAdd 0)).hbmDown (addPkt (exAdd 0)).bwa 4 = false ∧
    (addPkt (exAdd 0)).cwv = false ∧ (addPkt (exAdd 0)).addr + 32 ≤ (addPkt (exAdd 0)).bwa ∧
    blockG ((exCellAt (exAdd 0)).num (addPkt (exAdd 0)).bwa 4) = some 0 ∧ blockG (addPkt (exAdd 0)).word = some 0 ∧
    blockG (addPkt (exAdd 1)).word = some 1 := by decide +kernel
/-! ### Witnesses: HBM -/

/-- Stack 0 with channel 0 in state `ch`, the stack in state 2, its controller `h`, at a tide of base die 0. -/
def exHbm (ch tide : Nat) (h : HbmState) : State :=
  withFlds [(a_chan 0 0, f_HBM_CH_STATUS_STATE, ch), (a_HBM_STACK_STATUS 12 0, f_HBM_STACK_STATUS_STATE, 2)]
    { exUp with hbms := [(0, h)], tide := [(12, tide)] }

/-- A scheduler with a write and a read of two lines; one with 48 writes and a read. -/
def exSched : Sched := ⟨[⟨0, true, 0⟩, ⟨0x40, false, 0⟩], [], false, []⟩
def exDrainW : Sched := ⟨(List.range 48).map (fun n => ⟨2 ^ 22 * n, true, 0⟩) ++ [⟨0x40, false, 0⟩], [], false, []⟩

theorem witness_HbmControllers_issue : exSched.next 0 = some ⟨0x40, false, 0⟩ ∧ exSched.next 2000 = some ⟨0, true, 0⟩ ∧
    exDrainW.next 0 = some ⟨0, true, 0⟩ ∧ 48 ≤ (exDrainW.reqs.filter fun x => x.write).length ∧
    (exHbm 2 0 { HbmState.init with scheds := [(0, exSched)] }).chanState 0x40 = 2 ∧
    (∀ x ∈ firstOfLine [] exSched.reqs, ¬ x.since + 2000 ≤ 0) ∧ exSched.drain = false ∧
    ({ exSched with wait := [⟨0x80, false, 0⟩] } : Sched).next 0 = some ⟨0x40, false, 0⟩ := by decide +kernel

theorem witness_HbmControllers : inHbm 0 64 = true ∧ (exHbm 2 0 .init).chanState 0 = 2 ∧ (exHbm 2 0 .init).markAt 0 ≠ 2 ∧
    decodeWord (withErrors (codeword (List.replicate 64 7)) []) = .clean ∧
    decodeWord (withErrors (codeword (List.replicate 64 7)) [⟨35, 3⟩]) = .corrected 35 3 ∧
    decodeWord (withErrors (codeword (List.replicate 64 7)) [⟨0, 1⟩, ⟨1, 1⟩]) = .uncorrectable ∧
    ({ exHbm 2 0 .init with marks := [(0, 2)] } : State).markAt 0 = 2 ∧
    ((exHbm 2 0 { HbmState.init with scrubs := [0] }).hbm 0).scrubs = 0 :: [] ∧ inHbm 0 (2 ^ 20) = true ∧
    ((exHbm 2 0 { HbmState.init with patrol := 2 ^ 30 - 1 }).hbm 0).patrol < 2 ^ 30 ∧
    (exHbm 2 0 .init).fld (a_HBM_SCRUB 12 0) f_HBM_SCRUB_HOURS ≠ 0 ∧ ((exHbm 2 0 .init).sched 0).reqs = [] ∧
    (exHbm 2 0 .init).fld (a_HBM_STACK_STATUS 12 0) f_HBM_STACK_STATUS_STATE = 2 ∧
    (∀ last ∈ Tbl.find ([(0, 0)] : Tbl Nat) 0, last + 3900 ≤ 3900) ∧
    ((exHbm 2 0 .init).fld (a_PWR_THERM_HBM 12) f_PWR_THERM_HBM_TRIP : Int) ≤ 2047 ∧
    (0 : Int) < ((exHbm 2 0 .init).fld (a_PWR_THERM_HBM 12) f_PWR_THERM_HBM_TRIP : Int) ∧
    (∀ n ∈ [3], bits ((exHbm 2 0 .init).hbmEntryAt 0 n) 191 176 ≠ Code.HBM_SYMBOL_CORRECTED) := by decide +kernel

/-- A request of HBM that its channel has held since tide 0. -/
def exHeld : State := { exHbm 3 2_000_001 .init with homes := [(12, [exWrite 0 false])] }

theorem witness_HbmChannels : (exHbm 2 0 .init).fld (a_chan 0 0) f_HBM_CH_STATUS_STATE = 2 ∧
    (exHbm 4 0 .init).fld (a_chan 0 0) f_HBM_CH_STATUS_STATE = 4 ∧ (exHbm 3 0 .init).fld (a_chan 0 0) f_HBM_CH_STATUS_STATE = 3 ∧
    (Source.order .pcie).2 = 0 ∧ exUp.commandCode .pcie (cmdHbmRetrain 11 31) = 0 ∧ exUp.commandCode .pcie (cmdHbmOffline 0 0) = 0 ∧
    exUp.commandCode .pcie (cmdHbmOnline 0 0) = 0 ∧ exUp.commandCode .pcie (cmdMargin 0 1 0 35 0) = 0 ∧
    exUp.fld (a_margin 0) f_HBM_MARGIN_STATUS_BUSY = 0 ∧ exHeld.overHeld 12 = some (0, exWrite 0 false, 0) ∧
    (withFlds [(a_margin 0, f_HBM_MARGIN_STATUS_BUSY, 1)] exUp).fld (a_margin 0) f_HBM_MARGIN_STATUS_BUSY = 1 ∧
    (List.replicate 32 (0 : Word)).length = 32 := by decide +kernel

/-! ### Witnesses: photonics and routers -/

/-- Laser 0 of bank 0 and that of the spare bank in states `a` and `b`, three bad samples in a row. -/
def exLaser (a b : Nat) (t : List Takeover) : State :=
  (withFlds [(a_PHX_LASER 12 0 0, f_PHX_LASER_STATE, a), (a_PHX_LASER 12 4 0, f_PHX_LASER_STATE, b)] { exUp with takeovers := t }).setLaser 12 0 0
    ⟨some (100, 10), 3⟩

theorem witness_LasersRingsPorts_lasers : (exLaser 2 3 []).laserSt 12 0 0 = 2 ∧ (exLaser 2 3 []).laserSt 12 4 0 = 3 ∧
    (∀ x ∈ (exLaser 2 3 []).takeovers, x.die = 12 → x.wave = 0 → x.bank ≠ 0) ∧ ((exLaser 2 3 []).laser 12 0 0).bad + 1 = 4 ∧
    10 * 69 < 7 * 100 ∧ ¬ 10 * 70 < 7 * 100 ∧ (exLaser 2 3 []).takeover 12 0 = none ∧ (exLaser 2 4 []).laserSt 12 4 0 = 4 ∧
    (exLaser 2 3 [⟨12, 0, 0, false, 0⟩]).takeover 12 0 = some ⟨12, 0, 0, false, 0⟩ ∧ (Source.order .mctp).2 = 0 ∧
    (exLaser 2 3 []).commandCode .mctp (cmdLaserRetire 12 0 0) = 0 := by decide +kernel

/-- Port 0 in state `st`, at step `x.step` of its bring-up and at a tide. -/
def exPort (st tide : Nat) (x : PortState) : State :=
  withFlds [(a_port 0, f_PHX_PORT_STATE, st)] { exUp with ports := [(0, x)], tide := [(12, tide)] }

theorem witness_LasersRingsPorts : (exPort 0 0 .init).portSt 0 < 3 ∧ ((exPort 0 0 .init).port 0).untun.testBit 16 = false ∧
    ((exPort 1 100_000_000 { PortState.init with step := 3 }).port 0).since + 100_000_000 ≤
      (exPort 1 100_000_000 { PortState.init with step := 3 }).tideOf 12 ∧ ((exPort 1 0 .init).port 0).noLight = false ∧
    ((exPort 1 0 { PortState.init with step := 4, ident := some (5, 6, 7) }).port 0).ident = some (5, 6, 7) ∧
    (exPort 1 0 .init).fld (a_PHX_PORT_EXP 12 0) f_PHX_PORT_EXP_CHECK = 0 ∧
    (withFlds [(a_PHX_PORT_EXP 12 0, f_PHX_PORT_EXP_CHECK, 1)] (exPort 1 0 .init)).fld (a_PHX_PORT_EXP 12 0) f_PHX_PORT_EXP_CHECK = 1 ∧
    (exPort 1 0 .init).calStep 0 ≠ 7 ∧ (exPort 2 0 .init).commandCode .mctp (cmdPortRetrain 0) = 0 ∧ (exPort 2 0 .init).portSt 0 ≠ 3 ∧
    (exPort 2 0 .init).commandCode .mctp (cmdPortDisable 0) = 0 ∧ (exPort 2 0 .init).fld (a_port 0) f_PHX_PORT_DISABLE = 0 ∧
    (exPort 2 100_000_000 .init).portSt 0 = 2 ∧
    ((exPort 2 100_000_000 .init).port 0).boundary < (exPort 2 100_000_000 .init).tideOf 12 / (exPort 2 100_000_000 .init).calStep 0 ∧
    ((exPort 2 0 .init).port 0).hold = none ∧ 16 ∈ (exPort 2 0 .init).usable 0 ∧ Tbl.get 0 ((exPort 2 0 .init).port 0).low 16 = 0 ∧
    Tbl.get 0 ((exPort 2 1_000_000_000 { PortState.init with low := [(16, 1)] }).port 0).low 16 + 1_000_000_000 ≤ 1_000_000_000 + 1 ∧
    ((exPort 2 0 { PortState.init with rotating := true }).port 0).rotating = true ∧ (exPort 1 0 .init).calStep 0 = 0 + (exPort 1 0 .init).calStep 0 ∧
    (exPort 2 0 { PortState.init with rotating := true }).tideOf 12 / (exPort 2 0 .init).calStep 0 ≤ 0 ∧
    (withFlds [(a_port 0, f_PHX_PORT_DISABLE, 1)] (exPort 3 0 .init)).fld (a_port 0) f_PHX_PORT_DISABLE = 1 ∧ 17 ∉ (exPort 2 0 .init).usable 0 := by
  decide +kernel

/-- Lane engine 0 on position 0 of port 0, in state `st`, at a tide. -/
def exLane (st tide : Nat) (x : LaneState) : State :=
  withFlds [(a_stat 0, f_LANE_STATUS_STATE, st), (a_stat 0, f_LANE_STATUS_PORT, 0), (a_stat 0, f_LANE_STATUS_POS, 0), (a_port 0, f_PHX_PORT_STATE, 2), (a_port 0, f_PHX_PORT_PART, 0)]
    { exUp with lanes := [(0, x)], tide := [(12, tide)], laneAsks := [(12, 0)] }

/-- Codewords: zeros, one that no correction mends, and a control codeword with every field zero (its parity worked by hand). -/
def exZeros : List Byte := List.replicate 136 0
def exGarbage : List Byte := (List.range 136).map fun n => BitVec.ofNat 8 (n * n)
def exControl : List Byte :=
  [12, 218, 110, 32, 195, 188, 222, 125] ++ List.replicate 120 0 ++ [0x5D, 0xA3, 0x0F, 0xC6, 0x71, 0x9E, 0x24, 0xB8]

/-- The lane with its position filled by the peer, and the light of its slot dim since tide 0. -/
def exFilled (st tide : Nat) (x : LaneState) : State :=
  withFlds [(a_stat 0, f_LANE_STATUS_SLOT, 0)] { exLane st tide x with ports := [(0, { PortState.init with filled := 1, dim := [(0, 1)] })] }

theorem witness_LasersRingsPorts_dim : ((exFilled 2 10_000 .init).port 0).filled.testBit ((exFilled 2 10_000 .init).lanePos 0) = true ∧
    Tbl.get 0 ((exFilled 2 10_000 .init).port 0).dim 0 + 10_000 ≤ (exFilled 2 10_000 .init).tideOf 12 + 1 ∧ 0 ∈ (exFilled 2 0 .init).usable 0 ∧
    ((exFilled 2 10_000 .init).portLanes 0).find? (fun l => (exFilled 2 10_000 .init).laneSlot l == 0) = some 0 ∧
    (exFilled 2 10_000 .init).laneSt 0 = 2 ∧ (exFilled 2 10_000 .init).fld (a_port 0) f_PHX_PORT_DISABLE = 0 := by decide +kernel

theorem witness_Lanes_codewords : rsDecode (exZeros.map BitVec.toNat) = some (List.replicate 136 0, 0) ∧
    rsDecode (exGarbage.map BitVec.toNat) = none ∧ rsDecode (exControl.map BitVec.toNat) = some (exControl.map BitVec.toNat, 0) ∧
    controlOk (exControl.drop 8) = true ∧ controlOk (exZeros.drop 8) = false ∧ exGarbage.length = 136 ∧ exControl.length = 136 := by
  decide +kernel

theorem witness_Lanes : (exLane 2 0 .init).laneSt 0 = 2 ∧ (exLane 2 0 .init).portSt ((exLane 2 0 .init).lanePort 0) ≠ 3 ∧
    portDie ((exLane 2 0 .init).lanePort 0) = laneDie 0 ∧ (exLane 2 0 .init).exempt 12 ((exLane 2 0 .init).laneSlot 0) = false ∧
    (exLane 2 0 .init).lanePort 0 < 32 ∧ (exLane 1 0 .init).laneSt 0 = 1 ∧
    15 ≤ (({ LaneState.init with uncorr := List.replicate 15 0 } : LaneState).uncorr.filter fun t => decide (0 < t + 1_000_000)).length ∧
    ((exLane 3 0 { LaneState.init with due := some 0 }).lane 0).due = some 0 ∧ (exLane 4 0 .init).laneSt 0 = 4 ∧
    (laneDie 0, laneNo 0) ∈ (exLane 2 0 .init).laneAsks ∧ ((exLane 4 0 .init).lane 0).dropped = false ∧
    ((exLane 4 1_000_001 .init).lane 0).since + 1_000_000 < (exLane 4 1_000_001 .init).tideOf 12 ∧
    (exLane 2 0 .init).fld (a_lctl 0) f_LANE_CTL_OFFLINE = 0 ∧ (Source.order .jtag).2 = 0 ∧
    (withFlds [(a_lctl 0, f_LANE_CTL_OFFLINE, 1)] (exLane 6 0 .init)).fld (a_lctl 0) f_LANE_CTL_OFFLINE = 1 ∧
    (exLane 2 0 .init).commandCode .jtag (cmdLaneOffline 383) = 0 ∧ (exLane 2 0 .init).commandCode .jtag (cmdLaneOnline 0) = 0 ∧
    (exLane 2 0 .init).commandCode .jtag (cmdLaneRetrain 0) = 0 ∧ ((exLane 1 0 .init).port 0).filled.testBit ((exLane 1 0 .init).lanePos 0) = false ∧
    ((exFilled 2 4352 .init).lane 0).markAt + 2176 * (2 - ((exFilled 2 4352 .init).lane 0).marks) ≤ (exFilled 2 4352 .init).tideOf 12 ∧
    ((exFilled 1 0 .init).port 0).filled.testBit 0 = true ∧ (exFilled 1 0 .init).listens 0 = true ∧ (exLane 4 0 .init).listens 0 = false := by
  decide +kernel

/-- Base die 0 with lane 0 in service on port 0, which routes `mask` reach node 5 by, partition 0 imposed, and its router `r`. -/
def exRouter (mask cwin : Nat) (r : RouterState) : State :=
  (withFlds [(a_RTR_ROUTE 12 5, f_RTR_ROUTE_MASK, mask), (a_RTR_CTL 12, f_RTR_CTL_CWIN, cwin), (a_port 1, f_PHX_PORT_PART, 0)]
    { exLane 2 3000 { LaneState.init with txAt := some 3000, txIdx := 1 } with routers := [(12, r)] }).setReg a_IMPO_PSTATE 1

/-- An arrival on lane 0: a WRITE to node `dst`, or a READ. -/
def exArrival (good : Bool) (kind dst : Nat) : Arrival := ⟨0, { exCell kind 0xE000000000 1 0 0 with part := 0, dst := dst, itide := 3000 }, good⟩

theorem witness_Routers_slot : (exArrival false 3 0).lane < 384 ∧ (exArrival true 3 5).good = true ∧ kindOk (exArrival true 3 5).cell = true ∧
    (exArrival true 3 5).cell.part = (exRouter 1 0 .init).portPart ((exRouter 1 0 .init).lanePort 0) ∧
    (exRouter 1 0 .init).tornAt 12 0 = false ∧ (exRouter 1 0 .init).stale 12 (exArrival true 3 5).cell = false ∧
    (exRouter 1 0 .init).canEject 12 (exArrival true 3 0).cell = true ∧ (exRouter 1 0 .init).nodeId = 0 ∧
    mergeKey (exArrival true 3 5).cell = none ∧ 0 ∈ (exRouter 1 0 .init).outputs 12 ∧
    ((exRouter 1 0 .init).fld (a_RTR_ROUTE 12 5) f_RTR_ROUTE_MASK).testBit ((exRouter 1 0 .init).lanePort 0) = true ∧
    0 ∈ diePorts 12 ∧ (exRouter 1 0 .init).portPart 0 = 0 ∧
    ((exRouter 2 0 .init).outputs 12).all (fun l => !((exRouter 2 0 .init).fld (a_RTR_ROUTE 12 5) f_RTR_ROUTE_MASK).testBit ((exRouter 2 0 .init).lanePort l)) = true ∧
    ((exRouter 2 0 .init).fld (a_RTR_ROUTE 12 5) f_RTR_ROUTE_MASK).testBit 1 = true ∧ (exRouter 2 0 .init).portPart 1 = 0 ∧
    mergeKey (exArrival true 1 5).cell ≠ none ∧ (exRouter 1 3 .init).fld (a_RTR_CTL 12) f_RTR_CTL_CWIN ≠ 0 ∧
    ((exRouter 1 3 .init).freeEntry 12 0).isSome = true ∧ ((exRouter 1 0 .init).router 12).crossing = [] ∧
    (∀ p ∈ diePorts 12, ((exRouter 1 0 .init).port p).step < 3) ∧ (∀ l ∈ dieLanes 12, ((exRouter 1 0 .init).lane l).tx = none) ∧
    (∀ l ∈ (exRouter 1 0 .init).outputs 12, (exRouter 1 0 .init).txIndex l < 256 ∧ l = 0) ∧ 256 ≤ (exLane 2 3000 .init).txIndex 0 ∧
    ((exRouter 1 0 { RouterState.init with crossing := [(0, ⟨exReadCell, 0, false, none, none⟩)] }).router 12).crossing =
      [(0, ⟨exReadCell, 0, false, none, none⟩)] ∧ (1 : Nat).testBit 0 = true := by decide +kernel

/-- A combining entry of a READ with the given tickets. -/
def exCombo (ts : List Ticket) (sent : Bool) : Combo := ⟨exCell 1 0xE000000000 1 0 0, ts, 0, sent, 1, false⟩

theorem witness_Routers : (exRouter 1 0 { RouterState.init with eject := [exReadCell] }).router 12 = { RouterState.init with eject := [exReadCell] } ∧
    (exCombo [⟨0, 0, 0, 0, 1⟩] false).sent = false ∧ (exRouter 1 0 .init).fld (a_RTR_CTL 12) f_RTR_CTL_CWIN ≤ 0 ∧
    (exCombo [⟨0, 0, 0, 0, 1⟩, ⟨1, 0, 0, 0, 1⟩] false).tickets ≠ [⟨0, 0, 0, 0, 1⟩] ∧
    [(⟨0, false, 0, 0, 1, 0, false⟩ : LinkEnt)].find? (fun e => e.port == 0 && decide (e.since + 3000 ≤ (exRouter 1 0 .init).tideOf 12)) =
      some ⟨0, false, 0, 0, 1, 0, false⟩ ∧ (exRouter 1 0 .init).laneAt 0 0 = some 0 ∧ (exRouter 1 0 .init).laneAt 0 1 = none ∧
    (exRouter 1 0 .init).laneSt 0 = 2 ∧ ((exRouter 1 0 .init).port 0).filled.testBit 0 = false ∧
    ({ exRouter 1 0 .init with ports := [(0, { PortState.init with filled := 1 })] }.port 0).filled.testBit 0 = true ∧
    (let c : Cell := { exCell 0xB 0 0 0 0 with core := 0xD0 }
     0xC0 ≤ c.core ∧ cellResponse c = true ∧ cellDie c = 13 ∧ (exRouter 1 0 .init).loadClose (coreDie c.core) c = false) ∧
    (exRouter 1 0 .init).crossRoom 12 13 = false ∧
    (withFlds [(a_QUAY_LSTATUS 12 3, f_QUAY_LSTATUS_STATE, 2), (a_QUAY_LSTATUS 13 3, f_QUAY_LSTATUS_STATE, 2)]
      (exRouter 1 0 .init)).crossRoom 12 13 = true ∧ (exRouter 1 0 .init).tornAt 12 exReadCell.part = false ∧
    (withFlds [(a_RTR_STATUS 12, f_RTR_STATUS_TORN, 1)] (exRouter 1 0 .init)).tornAt 12 (exArrival true 3 0).cell.part = true ∧
    (let c : Cell := { exCell 0xB 0 0 0 0 with core := 0xC0 }
     (exHome 12 (exCellEnt c) []).homeList 12 = exCellEnt c :: [] ∧ answerDie c.core = 12 ∧ cellResponse c = true) ∧
    Tbl.get none [(0, some (exCombo [⟨0, 0, 0, 0, 1⟩] true))] 0 = some (exCombo [⟨0, 0, 0, 0, 1⟩] true) := by decide +kernel
/-! ### Witnesses: responses and collectives -/

/-- Core 0's lighter with request `r` under id 0, and a response cell for it at die 0. -/
def exReply (kind g0 : Nat) (r : Request) : State :=
  { exCellAt (exCell kind 0 g0 0 0) with lighters := [(0, { LighterState.init with reqs := [(0, some r)] })] }

/-- A LOAD of 48 bytes into the galley with `acked` of `total` granules in; a STORE; an atomic with its result in the galley. -/
def exLoadReq (acked total : Nat) : Request :=
  { newRequest 0 (0x301 + 0xE000000000 * 2 ^ 128) total with len := 48, acked := acked }
def exStoreReq (acked total : Nat) (rcv : Bool) : Request :=
  { newRequest 0 (0x302 + (if rcv then 2 ^ 367 else 0)) total with len := 48, acked := acked }
def exAtomicReq : Request := { newRequest 0 (0x318 + 0xE000000000 * 2 ^ 144) 1 with len := 8 }

theorem witness_Responses : (exReply 2 7 (exLoadReq 0 3)).homeList 0 = exCellEnt (exCell 2 0 7 0 0) :: [] ∧
    (exReply 2 7 (exLoadReq 0 3)).actor 0 = 0 ∧ (exReply 2 7 (exLoadReq 0 3)).request 0 0 = some (exLoadReq 0 3) ∧
    hdOp (exLoadReq 0 3).desc = 1 ∧ granules 7 = 3 ∧ bits (exLoadReq 0 3).desc 175 128 = 0xE000000000 ∧
    (exReply 2 7 (exLoadReq 0 3)).logical 0 = 0 ∧ (∀ i, i < 3 → isGalley (0xE000000000 + 16 * i) = true) ∧
    (exReply 2 7 (exLoadReq 0 3)).marks = [] ∧ (∀ i, i < 3 → isHbm (0x1000 + 16 * i) = true) ∧ (exLoadReq 0 6).acked + 3 < (exLoadReq 0 6).total ∧
    (exLoadReq 0 3).total ≤ (exLoadReq 0 3).acked + 3 ∧ (exLoadReq 0 3).total = (exLoadReq 0 3).len / 16 ∧
    (rcvOf (exLoadReq 0 3).desc).on = false ∧ hdOp exAtomicReq.desc = 0x18 ∧ exAtomicReq.total ≤ exAtomicReq.acked + 1 ∧
    isGalley (bits exAtomicReq.desc 191 144) = true ∧ isHbm 0x1000 = true ∧ exAtomicReq.acked < exAtomicReq.total ∧ bits 9 79 64 = 0 ∧
    bits (2 ^ 64) 79 64 ≠ 0 ∧ hdOp (exStoreReq 0 1 true).desc ≠ 1 ∧ bits 1 31 16 = 0 ∧ bits 1 15 0 = 1 ∧
    (exStoreReq 0 2 true).acked + 1 < (exStoreReq 0 2 true).total ∧ (exStoreReq 0 1 true).total ≤ (exStoreReq 0 1 true).acked + 1 ∧
    (rcvOf (exStoreReq 0 1 false).desc).on = false ∧ (rcvOf (exStoreReq 0 1 true).desc).on = true ∧
    (rcvOf (exStoreReq 0 1 true).desc).node = (exReply 0xB 1 (exStoreReq 0 1 true)).nodeId ∧ bits 0x20001 31 16 = 2 ∧
    2 ≠ Code.TALLY_MISMATCH := by decide +kernel

/-- Die 0 with core 0's context 0 in state `st`, an ask to open it, ABORTs heard early, and partition 0 imposed on core 0's cluster. -/
def exContext (st early : Nat) : State :=
  (withFlds [(a_COLL_CTX 0 0 0 0, f_COLL_CTX_STATE, st), (a_COLL_CTX 0 0 0 0, f_COLL_CTX_CID, 5), (a_COLL_EARLY 0 0 0, f_COLL_EARLY_VALID, early),
      (a_COLL_EARLY 0 0 0, f_COLL_EARLY_CID, 5)]
    { exState exCore with collAsks := [⟨0, 0, 5, 1000⟩] }).setReg a_IMPO_PSTATE 2

/-- A TEARDOWN and an ABORT cell of partition 0 that wait at the node's control unit. -/
def exTeardown : Cell := { exCell 0xD 0 (1 + 0x505 * 256) 0 0 with part := 0 }
def exAbort : Cell := { exCell 0xD 0 (2 + 0x505 * 256) 5 0 with part := 0 }
def exControls (seen : Bool) : State :=
  { exContext 1 0 with
    ctl := [(0, exTeardown), (0, exAbort)]
    teardownsSeen := if seen then [(0, 0x505, 0)] else []
    abortsFlooded := if seen then [(5, 0)] else [] }

theorem witness_CollectivesAndTeardowns : (exContext 0 0).collAsks.find? (fun a => coreDie a.core == 0) = some ⟨0, 0, 5, 1000⟩ ∧
    (exContext 0 0).tideOf 0 < 1000 ∧ 1000 ≤ ({ exContext 0 0 with tide := [(0, 1000)] } : State).tideOf 0 ∧
    (exContext 1 0).collState 0 0 0 = 1 ∧ (exContext 2 0).collState 0 0 0 = 2 ∧ (exContext 0 0).collState 0 0 0 = 0 ∧
    (exContext 0 0).earlyOf 0 5 ((exContext 0 0).partOf 0) = none ∧ (exContext 0 1).earlyOf 0 5 ((exContext 0 1).partOf 0) = some 0 ∧
    findCtx (fun c m => (exContext 1 0).collState 0 c m == 1 && decide (((exContext 1 0).reg (a_COLL_CTX 0 c m 1)).toNat ≤ 0)) = some (0, 0) ∧
    findCtx (fun c m => (withFlds [(a_COLL_CTL 0, f_COLL_CTL_GRACE, 0)] (exContext 2 0)).collState 0 c m == 2 &&
      decide (((exContext 2 0).reg (a_COLL_CTX 0 c m 1)).toNat +
        (withFlds [(a_COLL_CTL 0, f_COLL_CTL_GRACE, 0)] (exContext 2 0)).fld (a_COLL_CTL 0) f_COLL_CTL_GRACE ≤ 0)) = some (0, 0) ∧
    (exControls false).ctl.find? (fun x => isTeardown x.2) = some (0, exTeardown) ∧ (exControls false).pstate 0 = 2 ∧
    (0, bits exTeardown.g0 23 8, bits exTeardown.g0 127 64) ∈ (exControls true).teardownsSeen ∧
    (0, bits exTeardown.g0 23 8, bits exTeardown.g0 127 64) ∉ (exControls false).teardownsSeen ∧ Tbl.get none (exControls false).torn 0 = none ∧
    (exControls false).ctl.find? (fun x => x.2.kind == 0xD && bits x.2.g0 7 0 == 2) = some (0, exAbort) ∧
    (bits exAbort.g1 31 0, bits exAbort.g0 127 64) ∈ (exControls true).abortsFlooded ∧
    (bits exAbort.g1 31 0, bits exAbort.g0 127 64) ∉ (exControls false).abortsFlooded ∧ (exControls false).collSeen = [] ∧
    0 ∈ (exControls false).partDies 0 ∧ (0, 0) ∈ (exControls false).ctxsOf 0 5 0 := by decide +kernel
/-! ### Witnesses: the tide -/

/-- An alignment message of a SUB, of die 12 for die 0 or of die 0 for die 12. -/
def exAlign (dst sub body : Nat) : EvtMsg := ⟨12 - dst, dst, 6, 0xF, 0, 16, body + sub * 2 ^ 344, 31, false⟩

/-- A state of the follower of die 5 and of the servo, with time-transfer cells in hand. -/
def exFollow (f : Follow) : State := { exLink 2 0 with follow := [(0, f)], tide := [(0, 100_000)] }
def exTimeCell (k seq : Nat) : Nat × Cell := (3, { exCell 0xE 0 k seq 0 with part := 31 })
def exServo (st port now : Nat) (v : Servo) (l : List (Nat × Cell)) : State :=
  withFlds [(a_TIDE_STATUS 12, f_TIDE_STATUS_STATE, st), (a_TIDE_STATUS 12, f_TIDE_STATUS_PORT, port)]
    { exUp with servo := v, ctl := l, tide := [(12, now)] }
def exImposed (s : State) : State := s.setReg a_IMPO_PSTATE 2

theorem witness_TideAlignsAndFollows_dies : (exFollow .init).dieUp 0 = true ∧ (exFollow .init).routeUp 12 0 = true ∧ (exFollow .init).routeUp 0 12 = true ∧
    (exFollow .init).clockLost.contains 0 = false ∧
    (∀ x ∈ ((exFollow { Follow.init with sent := some 0 }).followOf 0).sent, x ≤ 100_000 ∧ x + 100_000 ≤ 100_000) ∧
    ((exFollow { Follow.init with aligned := true }).followOf 0).aligned = true ∧ ((exFollow .init).followOf 0).aligned = false ∧
    (exFollow .init).anyImposed = false ∧ (exImposed (exFollow .init)).anyImposed = true ∧ (twoWay 0 0 0 0).1 = 0 ∧
    (twoWay 0 0 16 ((exFollow .init).stamp 0)).1 ≠ 0 ∧
    0 ≤ ((exFollow .init).count40 0 : Int) + (twoWay 0 0 16 ((exFollow .init).stamp 0)).1 * 2 ^ 35 ∧
    ((exFollow .init).count40 0 : Int) + (twoWay 0 0 16 ((exFollow .init).stamp 0)).1 * 2 ^ 35 < 2 ^ 104 ∧
    (exImposed (exFollow .init)).fld (a_TIDE_STATUS 0) f_TIDE_STATUS_STATE ≠ 4 ∧ bits (exAlign 0 2 7).body 63 32 = 0 ∧
    ((exFollow { Follow.init with rates := [(100_000, 7)] }).followOf 0).rates.find? (fun r => decide (r.1 ≤ 100_000)) = some (100_000, 7) := by
  decide +kernel

theorem witness_TideAlignsAndFollows_messages : eventGood (exAlign 12 0 0) 6 ∧ eventGood (exAlign 0 1 0) 6 ∧ eventGood (exAlign 0 2 7) 6 ∧
    bits (exAlign 12 0 0).body 351 344 = 0 ∧ bits (exAlign 0 1 0).body 351 344 = 1 ∧ bits (exAlign 0 2 7).body 351 344 = 2 := by
  unfold eventGood; decide +kernel

/-- The servo in HOLDOVER with port 0, which is live, as its alternate parent. -/
def exMoves : State :=
  withFlds [(a_TIDE_STATUS 12, f_TIDE_STATUS_STATE, 3), (a_TIDE_STATUS 12, f_TIDE_STATUS_PORT, 3), (a_TIDE_CTL 12, f_TIDE_CTL_ALT, 0)]
    (exLane 2 125_000 .init)

theorem witness_TideAlignsAndFollows : (exServo 0 0x3F 0 .init []).isRoot = false ∧
    (exPort 2 0 .init).portSt 0 = 2 ∧ (withFlds [(a_TIDE_STATUS 12, f_TIDE_STATUS_PORT, 0)] (exLane 2 125_000 .init)).portLive 0 = true ∧
    (exServo 2 3 0 .init [exTimeCell 1 9]).timeArrival 1 = some (exTimeCell 1 9) ∧ bits (exTimeCell 1 9).2.g0 63 8 = 0 ∧
    bits (exTimeCell 1 9).2.g1 127 64 = 0 ∧ (exTimeCell 1 9).2.g2 = 0 ∧ (exServo 2 3 0 .init []).servoSt = 2 ∧
    (withFlds [(a_TIDE_CTL 12, f_TIDE_CTL_ROOT, 1)] exUp).rootReady = true ∧
    (exServo 1 3 0 { Servo.init with req := some (9, 4) } [exTimeCell 2 9]).timeArrival 2 = some (exTimeCell 2 9) ∧
    bits (exTimeCell 2 9).2.g1 63 0 = 9 ∧ (exTimeCell 2 9).1 = (exServo 1 3 0 .init []).fld (a_TIDE_STATUS 12) f_TIDE_STATUS_PORT ∧
    (twoWay 4 0 0 4).1 = 0 - 4 - (4 - 0) ∧ (twoWay 0 0 0 4000).1 = -4000 ∧ 3200 < (-4000 : Int).natAbs ∧
    (exServo 2 3 0 .init []).servoSt ≠ 3 ∧ exMoves.servoSt = 3 ∧ exMoves.portLive (exMoves.fld (a_TIDE_CTL 12) f_TIDE_CTL_ALT) = true ∧
    exMoves.isRoot = false ∧ (exServo 3 3 50_000_000 .init []).portLive ((exServo 3 3 50_000_000 .init []).fld (a_TIDE_CTL 12) f_TIDE_CTL_ALT) = false ∧
    (exImposed (exServo 1 3 0 { Servo.init with req := some (9, 4) } [exTimeCell 2 9])).anyImposed = true ∧ Servo.init.first = false ∧
    (exServo 3 3 50_000_000 .init []).servoSt = 3 ∧ (exServo 3 3 50_000_000 .init []).servo.since + 50_000_000 ≤ 50_000_000 ∧
    (exImposed (exServo 1 3 10_000_000 .init [])).anyImposed = true ∧
    max Servo.init.since Servo.init.imposed + 10_000_000 ≤ (exServo 1 3 10_000_000 .init []).tideOf 12 := by decide +kernel
/-! ### Witnesses: lighters and streams -/

/-- Core 0 with one descriptor in queue 0 of its lighter, at checking level `l`, and node 5 reached over port 0. -/
def exLtr (l d : Nat) : State :=
  withFlds [(a_RTR_ROUTE 12 5, f_RTR_ROUTE_MASK, 1)] (exVec { exCore with queues := [(0, [⟨bytesLE 80 d⟩])] } l 0)

/-- Descriptors: LOAD and PUT of 48 bytes, STORE, RLADD32 of one block, an atomic, SIGNAL, CCSET, XVERIFY of one block. -/
def exXfer (op g : Nat) : Nat := 0x300 + op + 0xE000000000 * 2 ^ 128 + g * 2 ^ 256 + 47 * 2 ^ 320
def exFar : Nat := 5 * 2 ^ 48 + 0xE000010000
def exStore (g : Nat) : Nat := 0x403 + g * 2 ^ 192 + 7 * 2 ^ 256
def exRl (g : Nat) : Nat := 0x510 + 0xE000000000 * 2 ^ 128 + 0xE000001000 * 2 ^ 368 + g * 2 ^ 416 + 0xE000020000 * 2 ^ 480
def exAmo (op g : Nat) : Nat := 0x318 + op * 2 ^ 140 + g * 2 ^ 192 + 3 * 2 ^ 320
def exSig : Nat := 0x220 + 1 * 2 ^ 208 + 20 * 2 ^ 236
def exCcset : Nat := 0x222 + 2 * 2 ^ 181 + 5 * 2 ^ 224
def exXverify (mode : Nat) : Nat := 0x338 + 0xE000000000 * 2 ^ 128 + 0xE000001000 * 2 ^ 304 + mode * 2 ^ 380

/-- The lighter left with `n` descriptors to suppress. -/
def exLeft (n : Nat) (s : State) : State := withFlds [(a_LTR_SUPPRESS 0 0, f_LTR_SUPPRESS_LEFT, n)] s

theorem witness_LighterDescriptors_head : (exLtr 0 (exXfer 1 exFar)).ltrHead 0 0 0 ⟨bytesLE 80 (exXfer 1 exFar)⟩ ∧
    (exLtr 2 (exAmo 0 exFar)).ltrHead 0 0 0 ⟨bytesLE 80 (exAmo 0 exFar)⟩ ∧ (exLtr 0 0).injections = [] := by
  and_intros <;> (try unfold State.ltrFree) <;> decide +kernel

theorem witness_LighterDescriptors_spans : (exLtr 0 0).memThere 0xE000000000 8192 ∧ (exLtr 0 0).noMarks 0xE000000000 8192 := by
  unfold State.memThere State.noMarks; decide +kernel

theorem witness_LighterDescriptors_transfers : Desc.num ⟨bytesLE 80 (exXfer 1 exFar)⟩ = exXfer 1 exFar ∧ hdOp (exXfer 1 exFar) = 1 ∧
    (exLtr 0 0).xferCheck 0 (exXfer 1 exFar) = none ∧ (exLtr 0 0).xferCheck 0 (exXfer 2 exFar) = none ∧ gaNode exFar ≠ (exLtr 0 0).nodeId ∧
    (withFlds [(a_PCIE_HMAP 0, f_PCIE_HMAP_VALID, 1), (a_PCIE_HMAP 0, f_PCIE_HMAP_PART, (exLtr 0 0).partOf 0)] (exLtr 0 0)).xferCheck 0
      (exXfer 2 0xC000000000) = none ∧ isHostWin (gaLocal 0xC000000000) = true ∧ gaNode 0xC000000000 = (exLtr 0 0).nodeId ∧
    (rcvOf (exXfer 2 0xC000000000)).on = false ∧ (exLtr 0 0).tallied 0 5 = false ∧ (exLtr 2 0).tallied 0 5 = true ∧
    (exLtr 0 0).xferCheck 0 (exXfer 1 8) = some Code.BAD_ADDRESS ∧ (exLtr 0 0).xferCheck 0 (exXfer 2 8) = some Code.BAD_ADDRESS ∧
    lighterLen (hdOp 0) = none ∧ hdOp (exStore exFar) = 3 ∧ hdLen (exStore exFar) = 4 ∧ hdReserved (exStore exFar) = false ∧
    bits (exStore exFar) 190 128 = 0 ∧ (exLtr 0 0).globalOk 0 exFar 16 16 true = true ∧ (exLtr 0 0).reachable 0 (gaNode exFar) = true ∧
    bits (exStore exFar + 2 ^ 128) 190 128 ≠ 0 ∧ (exLtr 0 0).globalOk 0 8 16 16 true = false := by decide +kernel

theorem witness_LighterDescriptors_adds : hdOp (exRl exFar) = 0x10 ∧ hdLen (exRl exFar) = 5 ∧ hdReserved (exRl exFar) = false ∧
    bits (exRl exFar) 609 582 = 0 ∧ bits (exRl exFar) 367 176 = 0 ∧ bit (exRl exFar) 623 = false ∧
    (exLtr 0 0).rlDstBad 0 exFar 1 0xE000020000 0 false = false ∧ (exLtr 0 0).localOk 0 0xE000000000 4096 4096 = true ∧
    (exLtr 0 0).localOk 0 0xE000001000 4 4 = true ∧ (exLtr 0 0).fld (a_LTR_SUPPRESS 0 0) f_LTR_SUPPRESS_LEFT = 0 ∧
    (exLeft 1 (exLtr 0 0)).fld (a_LTR_SUPPRESS 0 0) f_LTR_SUPPRESS_LEFT ≠ 0 ∧ (blockG 0).isSome = true ∧
    natLE ((exLtr 0 0).bytes 0xE000001000 4) = 0 ∧ bits (exRl exFar + 2 ^ 582) 609 582 ≠ 0 ∧
    (exLtr 0 0).rlDstBad 0 8 1 0 0 false = true ∧ hdOp (exAmo 10 exFar) = 0x18 ∧ hdLen (exAmo 10 exFar) = 3 ∧
    bits (exAmo 10 exFar) 143 140 = 10 ∧ bits (exAmo 10 exFar) 137 128 = 0 ∧ (exLtr 0 0).globalOk 0 exFar 4 4 false = true ∧
    bit (exAmo 10 exFar) 138 = false ∧ (exLtr 0 0).invariant ((exLtr 0 0).partOf 0) = true ∧
    (withFlds [(a_HBM_PART 12 ((exLtr 0 0).partOf 0), f_HBM_PART_INVARIANT, 0)] (exLtr 0 0)).invariant ((exLtr 0 0).partOf 0) = false ∧
    10 < bits (exAmo 11 exFar) 143 140 := by decide +kernel

theorem witness_LighterDescriptors_signals : hdOp exSig = 0x20 ∧ hdLen exSig = 2 ∧ hdReserved exSig = false ∧ bits exSig 230 224 = 0 ∧
    bits exSig 207 128 = 0 ∧ bits exSig 223 208 ≠ 0 ∧ (exLtr 0 0).reachable 0 (bits exSig 255 244) = true ∧
    (exLtr 0 0).reachable 0 6 = false ∧ bits (exSig + 2 ^ 130) 207 128 ≠ 0 ∧ hdOp exCcset = 0x22 ∧ hdLen exCcset = 2 ∧
    bits exCcset 180 128 = 0 ∧ bits (exCcset + 2 ^ 129) 180 128 ≠ 0 := by decide +kernel

/-- As `exLtr`, with a check word of 1. -/
def exWrongWord : State := { exLtr 2 (exXverify 0) with mem := [(0xE000001000, 1)] }

/-- A PUT through the host window in TWIN, of a block whose tally differs by the partition's and the endpoint's key. -/
def exHostPut : State :=
  (withFlds [(a_PCIE_HMAP 0, f_PCIE_HMAP_VALID, 1), (a_PCIE_HMAP 0, f_PCIE_HMAP_PART, (exLtr 0 0).partOf 0)]
    { exLtr 2 (exXfer 2 (5 * 2 ^ 48)) with mem := [(0xE000000000, 1)] }).setReg (a_CHK_PKEY 12 ((exLtr 0 0).partOf 0)) 77

theorem witness_LighterDescriptors_choices : natLE (exWrongWord.bytes 0xE000001000 4) = 1 ∧ blockG 1 = some 1 ∧ blockG (2 ^ 22) = none ∧
    natLE (({ exWrongWord with mem := [(0xE000001003, 1)] } : State).bytes 0xE000001000 4) = 2 ^ 24 ∧ blockG (2 ^ 24) = none ∧
    (exLtr 0 0).ccWritten 0 2 = false ∧
    ({ exLtr 0 0 with gathered := [⟨.pcie, a_LTR_CC 0 0 2, true, true, 0⟩] } : State).ccWritten 0 2 = true ∧ exHostPut.tallied 0 exHostPut.nodeId = true ∧
    exHostPut.xferCheck 0 (exXfer 2 0xC000000000) = none ∧ gaNode 0xC000000000 = exHostPut.nodeId ∧
    bytesTally (exHostPut.ltrKey 0) (exHostPut.bytes 0xE000000000 48) ≠
      bytesTally (exHostPut.reg (a_CHK_PKEY 12 (exHostPut.partOf 0))) (exHostPut.bytes 0xE000000000 48) := by decide +kernel

theorem witness_LighterDescriptors : hdOp (exXverify 0) = 0x38 ∧ (exLtr 2 0).xverifyCheck 0 (exXverify 0) = none ∧
    (exLtr 2 0).xverifyCheck 0 (exXverify 1) = none ∧ (exLtr 0 0).levelOf 0 = 0 ∧ (exLtr 2 0).levelOf 0 ≠ 0 ∧ bit (exXverify 1) 380 = true ∧
    bit (exXverify 0) 380 = false ∧ 0xE000000000 + 4096 * 1 ≤ 0xE000001000 ∧ natLE ((exLtr 2 0).bytes 0xE000001000 8) % 2 ^ 32 = 0 ∧
    linTally ((exLtr 2 0).ltrKey 0) 32 (0xE000000000 / 4)
      ((List.range 1024).map fun j => natLE ((exLtr 2 0).bytes (0xE000000000 + 4096 * 0 + 4 * j) 4)) = 0 ∧
    natLE (exWrongWord.bytes 0xE000001000 8) % 2 ^ 32 = 1 ∧
    linTally (exWrongWord.ltrKey 0) 32 (0xE000000000 / 4)
      ((List.range 1024).map fun j => natLE (exWrongWord.bytes (0xE000000000 + 4096 * 0 + 4 * j) 4)) = 0 ∧
    (exLtr 2 0).xverifyCheck 0 (exXverify 2) = some Code.BAD_DESCRIPTOR := by decide +kernel
/-- A STREAM of one block through SBUF at the second KiB pair of the galley; a hold on set 0; core 0 with it as its head, or started. -/
def exStream : Nat := 0x528 + 0xE000002000 * 2 ^ 336 + exFar * 2 ^ 416 + 0xE000020000 * 2 ^ 480
def exHold (held lost clear : Bool) : StreamHold := ⟨0, 1, 0, clear, 0, held, lost⟩
def exStreaming (h : StreamHold) : State := { exLtr 0 exStream with presses := [(0, { PressState.init with streams := [h] })] }
def exStreamReq (read : Bool) : Request :=
  { newRequest 0 exStream 128 with len := 4096, stream := some ⟨1, false, read, [], none⟩ }
def exBegun (read : Bool) (p : PressState) : State :=
  { exVec exCore 0 0 with presses := [(0, p)], lighters := [(0, { LighterState.init with reqs := [(0, some (exStreamReq read))] })] }
def exHolding (clear : Bool) : PressState := { PressState.init with streams := [exHold true false clear] }
/-- The same with a stick of row 3 that its checksum stick does not cover. -/
def exBadRow : PressState := { exHolding false with ckv := [(0, true)], sticks := [(3, [1])] }

theorem witness_Streams_head : (exStreaming (exHold false false false)).ltrHead 0 0 0 ⟨bytesLE 80 exStream⟩ := by
  and_intros <;> (try unfold State.ltrFree) <;> decide +kernel

theorem witness_Streams_span : (exBegun true .init).noMarks 0xE000002000 4096 := by unfold State.noMarks; decide +kernel

theorem witness_Streams : hdOp exStream = 0x28 ∧ (exStreaming (exHold false false false)).nextStream 0 0 = some (exHold false false false) ∧
    (exStreaming (exHold false false false)).streamCheck 0 exStream = none ∧
    (exStreaming (exHold false false false)).streamCheck 0 (exStream + 2 ^ 600) = some Code.BAD_DESCRIPTOR ∧
    (exStreaming (exHold false true false)).nextStream 0 0 = some (exHold false true false) ∧
    (∀ q, q < 4 → (exBegun false { PressState.init with streams := [exHold false false false] }).headMay 0 q = false) ∧
    (exBegun false { PressState.init with streams := [exHold false false false] }).holdable 0 = some (exHold false false false) ∧
    (exBegun false (exHolding true)).stopped 0 = false ∧
    (exBegun false (exHolding true)).findStream 0 (fun t => !t.read && (match (exHolding true).streams.find? fun x => x.ord == t.ord with
      | some x => x.held || x.lost
      | none => true)) = some (0, exStreamReq false, ⟨1, false, false, [], none⟩) ∧
    (exHolding true).streams.find? (fun x => x.ord == 1) = some (exHold true false true) ∧
    (exHolding false).streams.find? (fun x => x.ord == 1) = some (exHold true false false) ∧
    Tbl.get false (exHolding true).ckv 0 = false ∧ bits exStream 383 336 = 0xE000002000 ∧ 0xE000002000 % 8 = 0 ∧
    isGalley 0xE000002000 = true ∧ galleyDie 0xE000002000 = 0 ∧ Tbl.get false exBadRow.ckv 0 = true ∧ exBadRow.rowDiff 0 3 ≠ 0 ∧
    exBadRow.rowDiff 0 0 = 0 ∧ exBadRow.rowDiff 0 1 = 0 ∧ exBadRow.rowDiff 0 2 = 0 ∧
    (exBegun true .init).findStream 0 (fun t => t.read) = some (0, exStreamReq true, ⟨1, false, true, [], none⟩) ∧
    (exBegun true .init).streamProving 0 exStream ⟨1, false, true, [], none⟩ = false ∧
    (exBegun true .init).fld (a_LTR_SUPPRESS 0 0) f_LTR_SUPPRESS_LEFT = 0 ∧ (exStreamReq true).quiet = false ∧ (exStreamReq true).ghost = false ∧
    (exLeft 1 (exBegun true .init)).findStream 0 (fun t => t.read) = some (0, exStreamReq true, ⟨1, false, true, [], none⟩) ∧
    (exLeft 1 (exBegun true .init)).streamProving 0 exStream ⟨1, false, true, [], none⟩ = false ∧
    (exLeft 1 (exBegun true .init)).fld (a_LTR_SUPPRESS 0 0) f_LTR_SUPPRESS_LEFT ≠ 0 := by decide +kernel

/-! ### Witnesses: the schedule -/

/-- An entry: what it asks of die `die` and core `core` for partition 0, its kind, its argument, its mark. -/
def exEntry (kind die core arg mark : Nat) : Nat :=
  mark * 2 ^ 192 + kind * 2 ^ 128 + die * 2 ^ 124 + core * 2 ^ 120 + arg

/-- Die `die` at tide `now` with that entry in slot 0, accepted at `acc`, and room for 8 entries. -/
def exDue (die now e acc : Nat) (busy : Bool) : State :=
  withFlds [(a_TIDE_SCHED die, f_TIDE_SCHED_CAP, 8)]
    { exState exCore with released := true, tide := [(die, now)], entries := [(die * 1024, some ⟨e, 1, acc, 0, none, busy, none, true⟩)] }

/-- The words of an entry put before its last. -/
def exPut (cap e : Nat) : State :=
  withFlds [(a_TIDE_SCHED 0, f_TIDE_SCHED_CAP, cap)]
    { exState exCore with released := true, puts := [(0, e % 2 ^ 64), (1, e / 2 ^ 64 % 2 ^ 64), (2, e / 2 ^ 128 % 2 ^ 64)] }

/-- Core 0's schedule ring at the start of the galley, with `n` entries in it, the first `e`. -/
def exRing (n e : Nat) : State :=
  withFlds [(a_TIDE_RING 0 0, f_TIDE_RING_BASE, 0xE000000000), (a_TIDE_SCHED 0, f_TIDE_SCHED_CAP, 8)]
    { exState exCore with released := true, mem := memWrite [] 0xE000000000 (bytesLE 8 n ++ bytesLE 56 0 ++ bytesLE 32 e) }
def exMark (arg : Nat) : Nat := exEntry 1 0 0xF arg 9
def exLane8 (all : Bool) : Nat := exEntry 8 (if all then 0 else 12) 0xF (if all then 2 ^ 114 else 0) 9
def exCommit : Nat := exEntry 5 0 0xF (0xE000000010 * 2 ^ 48 + 0xE000000000) 9
def exPrefetch : Nat := exEntry 2 0 0 0 9

theorem witness_ScheduleEntries_puts : (exPut 8 (exMark 1)).dieUp 0 = true ∧ (Source.order .pcie).2 = 0 ∧
    Tbl.get 0 (exPut 8 (exMark 1)).puts 0 * 2 ^ 0 + Tbl.get 0 (exPut 8 (exMark 1)).puts 1 * 2 ^ 64 + Tbl.get 0 (exPut 8 (exMark 1)).puts 2 * 2 ^ 128 +
      9 * 2 ^ 192 = exMark 1 ∧ (exPut 8 0).entryOk (exMark 1) ⟨1, 0, 0xF⟩ = true ∧ (exPut 8 0).entryAddrOk (exMark 1) = true ∧
    (exPut 8 0).entryOk (exMark (2 ^ 13)) ⟨1, 0, 0xF⟩ = false ∧ (exPut 8 0).entryAddrOk (exMark (2 ^ 48)) = false ∧
    (exPut 0 0).freeSlot 0 0 = none ∧ (exPut 8 0).freeSlot 0 0 = some 0 ∧ enDies (exMark 1) = [0] ∧
    (exPut 8 0).entryOk (exLane8 true) ⟨1, 0, 0xF⟩ = true ∧ enDies (exLane8 true) = [12, 13, 14, 15] ∧ (exPut 8 (exMark 1)).alone = true ∧
    (exPut 8 (exMark 1)).wayOpen .pcie (a_TIDE_PUT 0 3) = false ∧ (exPut 8 (exMark 1)).wayOpen (.pilot 0) (a_TIDE_PUT 0 3) = true ∧
    ({ exPut 8 (exMark 1) with pending := [.uartBreak] } : State).alone = false ∧ (exPut 8 (exMark 1)).dieUp 12 = true ∧
    (Source.order (.pilot 0)).2 = 0 := by decide +kernel

theorem witness_ScheduleEntries_rings : (exRing 1 (exMark 1)).fld (a_TIDE_RING 0 0) f_TIDE_RING_BASE = 0xE000000000 ∧
    (exRing 1 (exMark 1)).dieUp 0 = true ∧ (exRing 1 (exMark 1)).num 0xE000000000 8 = 1 ∧ (exRing 1 (exMark 1)).num 0xE000000008 8 = 0 ∧
    (exRing 0 0).num 0xE000000000 8 = 0 ∧ 64 < (exRing 65 0).num 0xE000000000 8 ∧
    (exRing 1 (exMark 1)).num (0xE000000000 + 64) 32 = exMark 1 ∧ (exRing 1 (exMark 1)).entryOk (exMark 1) ⟨2, 0, 0⟩ = true ∧
    (exRing 1 (exMark 1)).entryOk (exMark (2 ^ 12)) ⟨2, 0, 0⟩ = false ∧ (exRing 1 (exMark 1)).freeSlot 0 0 = some 0 ∧
    (exRing 1 (exEntry 4 0 0 5 9)).entryOk (exEntry 4 0 0 5 9) ⟨2, 0, 0⟩ = true ∧
    (exRing 1 (exEntry 4 0 0 5 9)).entryAddrOk (exEntry 4 0 0 5 9) = true := by decide +kernel

theorem witness_ScheduleEntries_span : (exRing 1 (exMark 1)).noMarks 0xE000000000 2112 ∧ (exDue 0 30 exCommit 0 false).noMarks 0xE000000010 16 ∧
    (exDue 0 30 exCommit 0 false).noMarks 0xE000000000 8 ∧ (exDue 0 30 (exMark 1) 0 false).memThere 0xE000000000 16 ∧
    (exDue 0 30 (exMark 1) 0 false).noMarks 0xE000000000 16 := by unfold State.noMarks State.memThere; decide +kernel

/-- The member of core 0 among `r` replicas; its mark with the votes `us` of step 7 in its table, its context FINAL and a vote held. -/
def exMember (r : Nat) : Member := ⟨0, 0, 0xE000002000, r, 0, [], 7, 0xE000003000, 1, 2, [], [], none, 0⟩
def exVoting (us : List Nat) (v : Vote) : State :=
  { withFlds [(a_COLL_CTX 0 0 0 0, f_COLL_CTX_STATE, 3)] (exDue 0 30 (exMark 1) 0 false) with
    votes := [(0, v)], mem := memWrite [] 0xE000002000 (us.flatMap fun u => bytesLE 32 (VoteEntry.num ⟨u, 7, 5, 0, true⟩)) }
def exVotes (us : List Nat) (u : Nat) : Nat :=
  (((exVoting us .init).voteTable (exMember us.length)).filter fun e => e.valid && e.step == 7 && e.u == u).length

/-- A manifest of no shard. -/
def exManifest : List Byte :=
  let h := [0x43, 0x4B, 0x4D, 0x46] ++ bytesLE 2 0x0100 ++ List.replicate 54 0
  h ++ bytesLE 4 (crc32c h)

theorem witness_ScheduleEntries_votes : (exVoting [4] .init).dueSlot 0 1 = some (0, ⟨exMark 1, 1, 0, 0, none, false, none, true⟩) ∧
    (exVoting [4] .init).voteFinal (exMember 1) = true ∧ (exMember 1).ridx < (exMember 1).replicas ∧ 1 < 2 * exVotes [4] 4 ∧
    (((exVoting [4, 5, 5] .init).voteTable (exMember 3))[0]?.map VoteEntry.u).getD 0 = 4 ∧ 3 < 2 * exVotes [4, 5, 5] 5 ∧
    ((exVoting [] ⟨7, true, none⟩).voteOf 0).replayed = true ∧ ((exVoting [] ⟨7, true, none⟩).voteOf 0).step = (exMember 1).step ∧
    ((exVoting [] .init).voteOf 0).replayed = false ∧ ((exVoting [] ⟨7, false, some ⟨5, 0⟩⟩).voteOf 0).odd = some ⟨5, 0⟩ ∧
    (exVoting [] .init).updateTally (exMember 1) = 0 ∧ (exVoting [] .init).updateTally (exMember 1) ≠ 1 ∧
    (exVoting [] .init).restoredData (exMember 1) [] = none ∧ checkpointWhole [] [] = false ∧ checkpointWhole exManifest [] = true ∧
    (exVoting [] .init).reachNow 0 false (tensorLines (exMember 1).tensors) = true ∧
    (exVoting [] .init).reachNow 0 false (tensorLines [⟨0, 16, 4⟩]) = false ∧
    { exVoting [] .init with mem := [(0xE000000001, 2)] }.reachNow 0 false (policyLines 0xE000000000 2 []) = true ∧
    (exVoting [] .init).reachNow 0 false (policyLines 0 2 []) = false ∧
    flaggedTensors ({ exVoting [] .init with mem := [(0xE000000001, 2)] }.bytes 0xE000000000 2) = 1 :: [] ∧
    (exVoting [] .init).fld (a_COLL_CTL 0) f_COLL_CTL_NF0 = 0 ∧
    2 ≤ (withFlds [(a_COLL_CTL 0, f_COLL_CTL_NF0, 2)] (exVoting [] .init)).fld (a_COLL_CTL 0) f_COLL_CTL_NF0 := by decide +kernel

theorem witness_ScheduleEntries_no_majority (u : Nat) :
    ¬ 1 < 2 * (((exVoting [] .init).voteTable (exMember 1)).filter fun e => e.valid && e.step == 7 && e.u == u).length := by
  have h : (exVoting [] .init).voteTable (exMember 1) = [⟨0, 0, 0, 0, false⟩] := by decide +kernel
  simp [h]

/-- Die 0 with a finished PREWARM ramp of its entry in slot 0. -/
def exRamped : State :=
  { exDue 0 40000 (exEntry 3 0 0xF 0 40000) 0 true with ramps := [(0, { RampState.init with prewarms := [⟨0, 40000, 8000, 16, true⟩] })] }

/-- A prepare word that is set, and core 0 with a full queue or none. -/
def exPrepared : State := { exDue 0 9 exCommit 0 false with mem := [(0xE000000007, 0x80)] }
def exPrefetching (cap now : Nat) (busy : Bool) : State :=
  { exDue 0 now exPrefetch 0 busy with cores := [(0, { exCore with qcap := [(0, cap)], queues := [(0, List.replicate (4 - cap) ⟨[]⟩)], pmem := memWrite [] 0 (bytesLE 16 0x120) })] }

theorem witness_ScheduleEntries : (exDue 0 30 (exMark 1) 0 false).dueSlot 0 1 = some (0, ⟨exMark 1, 1, 0, 0, none, false, none, true⟩) ∧
    enRepeat (exMark 1) ≤ 0 ∧ 0 < enRepeat (exMark 1 + 2 * 2 ^ 136) ∧ (exDue 0 30 (exMark 1) 0 false).tideOf 0 = 30 ∧
    SchedSlot.due ⟨exMark 1, 1, 0, 0, none, false, none, true⟩ + 16 < 30 ∧ bits (exMark 1) 95 48 = 0 ∧
    bits (exMark (0xE000000000 * 2 ^ 48 + 1)) 95 48 = 0xE000000000 ∧ (exDue 0 30 (exMark 1) 0 false).rangeOpen 0 true 0xE000000000 16 = true ∧
    (exDue 0 30 (exMark 1) 0 false).rangeOpen 0 true 64 16 = false ∧
    ({ exPrefetching 4 9 true with entries := [(0, some ⟨exPrefetch, 1, 0, 0, none, true, some (bytesLE 16 0x120), true⟩)] } : State).heldPrefetch 0 =
      some (0, ⟨exPrefetch, 1, 0, 0, none, true, some (bytesLE 16 0x120), true⟩) ∧
    (exPrefetching 2 9 true).heldPrefetch 0 = none ∧
    ((exPrefetching 2 9 true).heldPrefetches 0).find? (fun x => x.2.held.isNone) = some (0, ⟨exPrefetch, 1, 0, 0, none, true, none, true⟩) ∧
    ((exPrefetching 2 9 true).core 0).stores = [] ∧ ((exPrefetching 2 9 true).core 0).pmarks = [] ∧
    (exPrefetching 4 9 false).dueSlot 0 2 = some (0, ⟨exPrefetch, 1, 0, 0, none, false, none, true⟩) ∧
    ((exPrefetching 4 9 false).prefetch 0 ⟨exPrefetch, 1, 0, 0, none, false, none, true⟩).isSome = true ∧
    ((exPrefetching 2 9 false).prefetch 0 ⟨exPrefetch, 1, 0, 0, none, false, none, true⟩).isNone = true ∧
    (exPrefetching 4 9 true).heldPrefetch 0 = some (0, ⟨exPrefetch, 1, 0, 0, none, true, none, true⟩) ∧
    ((exPrefetching 4 9 false).core 0).enqCheck 0 0 false (natLE (((exPrefetching 4 9 false).core 0).pbytes 0 16)) = none ∧
    (exDue 0 8000 (exEntry 3 0 0xF 0 40000) 0 false).dueSlot 0 3 = some (0, ⟨exEntry 3 0 0xF 0 40000, 1, 0, 0, none, false, none, true⟩) ∧
    exRamped.dueStart 0 = some ⟨0, 40000, 8000, 16, true⟩ ∧
    exRamped.slot 0 0 = some ⟨exEntry 3 0 0xF 0 40000, 1, 0, 0, none, true, none, true⟩ ∧
    exPrepared.dueSlot 0 5 = some (0, ⟨exCommit, 1, 0, 0, none, false, none, true⟩) ∧ bits exCommit 95 48 = 0xE000000010 ∧ bits exCommit 47 0 = 0xE000000000 ∧
    (exPrepared.num 0xE000000000 8).testBit 63 = true ∧ Tbl.get none exPrepared.torn (enPart exCommit) = none ∧
    ((exDue 0 9 exCommit 0 false).num 0xE000000000 8).testBit 63 = false ∧
    (exDue 0 9 exCommit 0 false).dueSlot 0 5 = some (0, ⟨exCommit, 1, 0, 0, none, false, none, true⟩) ∧
    (exDue 0 12 exCommit 10 false).dueSlot 0 5 = some (0, ⟨exCommit, 1, 10, 0, none, false, none, true⟩) ∧
    SchedSlot.due ⟨exCommit, 1, 10, 0, none, false, none, true⟩ < 10 ∧ exPrepared.actionBeaten 0 false = false ∧
    ({ exPrepared with pending := [.impoRelease .pcie 1] } : State).actionBeaten 0 false = true := by decide +kernel

/-! ### Witnesses: maintenance, rehearsals, staged records -/

/-- Die 12 with a maintenance window of channel 0 of stack 0 to end at tide 9. -/
def exMaint : State := { exHbm 4 9 .init with maints := [⟨0, 0, 9⟩] }

/-- Port 0 with a held boundary to end at tide 9. -/
def exHeldPort (b : Bool) : State := exPort 2 9 { PortState.init with hold := some 9, rotating := b }

/-- Die 12 with injection 0 set to drop lane 0 for 1 us, and its REHEARSE due at tide 9; the same running since tide 0. -/
def exInject (valid : Nat) : State :=
  exImposed (withFlds [(a_FI_CTL 12, f_FI_CTL_ENABLE, 1), (a_FI_INJ 12 0 0, f_FI_INJ_VALID, valid), (a_FI_INJ 12 0 0, f_FI_INJ_KIND, 1),
    (a_FI_INJ 12 0 0, f_FI_INJ_DURATION, 1), (a_lctl 0, f_LANE_CTL_PART, 0), (a_stat 0, f_LANE_STATUS_STATE, 2)]
    (exDue 12 9 (exEntry 0xC 12 0xF 0 9) 0 false))
def exInjected (now : Nat) : State :=
  { exInject 1 with injections := [(12 * 16, some ⟨0, false⟩)], tide := [(12, now)], lanes := [(0, { LaneState.init with dropped := true })] }

/-- A STAGED APPLY of section type 0x0B + y for partition 0, due at tide 9. -/
def exApply (y : Nat) (l : List Nat) : State :=
  { exDue 12 9 (exEntry 0xD 12 0xF (0xB + y) 9) 0 false with staged := [(stagedKey y 0 12, some l)] }

theorem witness_ScheduleActions : (exDue 12 9 (exLane8 false) 0 false).dueSlot 12 8 = some (0, ⟨exLane8 false, 1, 0, 0, none, false, none, true⟩) ∧
    laneWinner ((exDue 12 9 (exLane8 false) 0 false).lanePeers 12 ⟨exLane8 false, 1, 0, 0, none, false, none, true⟩) =
      some (0, ⟨exLane8 false, 1, 0, 0, none, false, none, true⟩) ∧
    (∀ p ∈ diePorts 12, ((exDue 12 9 (exLane8 false) 0 false).port p).rotating = false) ∧
    0 < enRepeat (exLane8 false + 2 ^ 136) ∧ (exLane 2 0 .init).portLanes 0 = [0] ∧
    (exDue 12 9 (exEntry 9 12 0xF (2 ^ 32 + 5) 9) 0 false).dueSlot 12 9 = some (0, ⟨exEntry 9 12 0xF (2 ^ 32 + 5) 9, 1, 0, 0, none, false, none, true⟩) ∧
    (bits (exEntry 9 12 0xF (2 ^ 32 + 5) 9) 39 32).testBit 0 = true ∧ ((exHeldPort false).port 0).hold = some 9 ∧
    (exHeldPort false).tideOf 12 = 9 ∧ ((exHeldPort false).port 0).rotating = false ∧ ((exHeldPort true).port 0).rotating = true ∧
    (exPort 2 100_000_000 { PortState.init with hold := some 9, rotating := true }).calStep 0 ≤ 100_000_000 ∧
    (exDue 12 9 (exEntry 0xA 12 0xF 5 9) 0 false).dueSlot 12 0xA = some (0, ⟨exEntry 0xA 12 0xF 5 9, 1, 0, 0, none, false, none, true⟩) ∧
    bits (exEntry 0xA 12 0xF 5 9) 38 37 < 3 ∧ (exHbm 2 0 .init).chanLive 0 0 = true ∧
    exMaint.maints.find? (fun m => m.stack == 0 && m.chan == 0 && decide (m.stop ≤ exMaint.tideOf 12)) = some ⟨0, 0, 9⟩ ∧ stackBase 0 = 12 ∧
    exMaint.fld (a_chan 0 0) f_HBM_CH_STATUS_STATE = 4 ∧ exMaint.fld (a_chanCtl 0 0) f_HBM_CH_CTL_OFFLINE = 0 ∧
    ({ exHbm 2 9 .init with maints := [⟨0, 0, 9⟩] } : State).fld (a_chan 0 0) f_HBM_CH_STATUS_STATE ≠ 4 := by decide +kernel

theorem witness_ScheduleActions_rehearsals : (exInject 1).dueSlot 12 0xC = some (0, ⟨exEntry 0xC 12 0xF 0 9, 1, 0, 0, none, false, none, true⟩) ∧
    (exInject 1).tideOf 12 ≤ 9 + 16 ∧ (exInject 1).rehearseBeaten 12 ⟨exEntry 0xC 12 0xF 0 9, 1, 0, 0, none, false, none, true⟩ = false ∧
    ({ exInject 1 with pending := [.teardown], ctl := [(0, exTeardown)] } : State).rehearseBeaten 12
      ⟨exEntry 0xC 12 0xF 0 9, 1, 0, 0, none, false, none, true⟩ = true ∧
    (exApply 0 [0]).actionBeaten 0 true = false ∧
    ({ exApply 0 [0] with pending := [.impoDiscard .pcie 1] } : State).actionBeaten 0 true = true ∧ (exInject 1).fld (a_FI_CTL 12) f_FI_CTL_ENABLE = 1 ∧ (exInject 1).fld (a_FI_INJ 12 0 0) f_FI_INJ_VALID = 1 ∧
    Tbl.get none (exInject 1).injections (12 * 16) = none ∧ (exInject 1).pstate 0 = 2 ∧ (exInject 1).targetOk 12 0 = true ∧
    (exInject 1).fld (a_FI_INJ 12 0 0) f_FI_INJ_DURATION = 1 ∧ (exInject 0).fld (a_FI_INJ 12 0 0) f_FI_INJ_VALID ≠ 1 ∧
    (exInject 1).laneSt 0 = 2 ∧ Tbl.get none (exInjected 9).injections (12 * 16) = some ⟨0, false⟩ ∧
    0 + 1 * 1000 ≤ (exInjected 1000).tideOf 12 ∧ (exInjected 9).tideOf 12 < 1000 ∧ 0 ∈ (exInjected 9).fiLanes 12 0 ∧
    ((exInjected 9).lane 0).dropped = true ∧
    (exApply 0 [0]).dueSlot 12 0x0D = some (0, ⟨exEntry 0xD 12 0xF 0xB 9, 1, 0, 0, none, false, none, true⟩) ∧
    Tbl.get none (exApply 0 [0]).staged (stagedKey 0 0 12) = some [0] ∧ rb 0 1 < 8 ∧
    (exApply 0 [0]).fld (a_LANE_PLANSEL 12) f_LANE_PLANSEL_CUR = rb 0 1 ∧ (exApply 0 [256]).fld (a_LANE_PLANSEL 12) f_LANE_PLANSEL_CUR ≠ rb 256 1 ∧
    (exApply 1 [7]).dueSlot 12 0x0D = some (0, ⟨exEntry 0xD 12 0xF 0xC 9, 1, 0, 0, none, false, none, true⟩) ∧
    Tbl.get none (exApply 1 [7]).staged (stagedKey 1 0 12) = some [7] ∧
    (exApply 2 [7]).dueSlot 12 0x0D = some (0, ⟨exEntry 0xD 12 0xF 0xD 9, 1, 0, 0, none, false, none, true⟩) ∧
    Tbl.get none (exApply 2 [7]).staged (stagedKey 2 0 12) = some [7] ∧ enPart (exEntry 0xD 12 0xF 0xD 9) < 24 := by decide +kernel
/-! ### Witnesses: imposition -/

/-- An image of partition 0 from its sections' types, record counts and bytes. -/
def exSects (flags : Nat) (l : List (Nat × Nat × List Byte)) : List Byte :=
  let body := l.foldl (fun (a : List Byte × List Byte) x =>
    (a.1 ++ bytesLE 2 x.1 ++ bytesLE 2 x.2.1 ++ bytesLE 4 (0x40 + 16 * l.length + a.2.length) ++ bytesLE 4 x.2.2.length ++ bytesLE 4 (crc32c x.2.2),
      a.2 ++ x.2.2)) ([], [])
  let head := bytesLE 4 0x4F504D49 ++ bytesLE 2 0x0100 ++ bytesLE 2 64 ++ bytesLE 4 (0x40 + body.1.length + body.2.length) ++ bytesLE 2 l.length ++
    bytesLE 2 flags ++ bytesLE 4 1 ++ bytesLE 4 0 ++ bytesLE 8 0x1234 ++ bytesLE 28 0
  head ++ bytesLE 4 (crc32c (head ++ body.1)) ++ body.1 ++ body.2

/-- Records: PART of cluster 0, CORES with core 0 from HBM 40H, GALLEY of 1 MiB, one MEMORY window, CHECK; and a replacement's CHECK. -/
def exCheckRec : Nat × Nat × List Byte := (0xD, 1, bytesLE 32 0)
def exImage : List Byte := exSects 0 [(2, 1, bytesLE 16 (2 ^ 32 + 10000 * 2 ^ 64)), (3, 1, bytesLE 64 (2 ^ 8 + 0x40 * 2 ^ 128)),
  (4, 1, bytesLE 48 (2 ^ 32)), (5, 1, bytesLE 16 0), exCheckRec]
def exReplace : List Byte := exSects 2 [exCheckRec]

/-- The loader in a state, with a run, on a module that is up; ready to take a load with an image at IMPO_SRC or without. -/
def exLoader (st : Nat) (x : LoadRun) : State := withFlds [(a_IMPO_STATUS, f_IMPO_STATUS_STATE, st)] { exUp with loader := some x }
def exRunLoad (img : List Byte) (bad : Option ImgBad) (failed : Option Nat) : LoadRun := ⟨.pcie, img, bad, [0], [], failed⟩
def exReady (src : Nat) : State := withFlds [(a_MGMT_BOOT, f_MGMT_BOOT_STEP, 0xA), (a_IMPO_SRC, f_IMPO_SRC_ADDR, src)] (exHbm 2 0 .init)

/-- The channel of the image held, before a LOAD; and a LOAD whose copy is still to be made, its channel Active (2) or retraining (3). -/
def exHeldImage : State := withFlds [(a_HBM_CH_STATUS 12 0 0, f_HBM_CH_STATUS_STATE, 3)] (exReady 0)
def exUnread (ch : Nat) : State :=
  withFlds [(a_IMPO_STATUS, f_IMPO_STATUS_STATE, 1), (a_HBM_CH_STATUS 12 0 0, f_HBM_CH_STATUS_STATE, ch)]
    { exReady 0 with loader := some ⟨.pcie, [], none, [], [], none⟩ }

theorem witness_ImpositionLoads_load : (exReady 0).loaderOpen = true ∧ (exReady 0).commandCode .pcie cmdImpoLoad = 0 ∧ exUp.loaderOpen = false ∧
    exUp.overridden cmdImpoLoad = false ∧ inHbm 0 64 = true ∧ (exReady 0).hbmDown 0 64 = false ∧ (exReady 0).hbmBad 0 64 = none ∧
    ({ exReady 0 with marks := [(0, 2)] } : State).hbmBad 0 64 = some 0 ∧ (8 : Nat) % 4096 ≠ 0 ∧ (exReady 0).alone = true ∧
    (exReady 0).wayOpen .pcie a_IMPO_CMD = true ∧ (Source.order .pcie).2 = 0 ∧ exUp.alone = true ∧ exUp.dieUp 12 = true ∧
    (exReady 0).rangeOpen 12 false 0 64 = true ∧ exHeldImage.rangeOpen 12 false 0 64 = false ∧ exHeldImage.hbmDown 0 64 = false ∧
    exHeldImage.loaderOpen = true ∧ exHeldImage.commandCode .pcie cmdImpoLoad = 0 ∧
    (exUnread 2).loader = some ⟨.pcie, [], none, [], [], none⟩ ∧ (⟨.pcie, [], none, [], [], none⟩ : LoadRun).unread = true ∧
    (exUnread 2).fld a_IMPO_STATUS f_IMPO_STATUS_STATE = 1 ∧ (exUnread 3).fld a_IMPO_STATUS f_IMPO_STATUS_STATE = 1 ∧
    (exUnread 2).rangeOpen 12 false 0 64 = true ∧ (exUnread 3).rangeOpen 12 false 0 64 = false ∧ (exUnread 3).hbmDown 0 64 = false ∧
    (exUnread 2).hbmBad 0 64 = none ∧ (exUnread 2).fld a_IMPO_SRC f_IMPO_SRC_ADDR = 0 ∧
    (exReady 8).fld a_IMPO_SRC f_IMPO_SRC_ADDR = 8 := by decide +kernel

theorem witness_ImpositionLoads_checks : headChecks exImage = none ∧ (parseImage exImage).sects.map (entryBad exImage (parseImage exImage)) =
      List.replicate 5 none ∧ exUp.imageChecks exImage = none ∧ (exImposed exUp).imageChecks exReplace = none ∧
    (parseImage exReplace).replace = true ∧ (parseImage exImage).replace = false ∧ (parseImage exImage).mod = false ∧
    (parseImage exImage).plist = [0] ∧ (exUp.imageChecks (exImage.take 64)).isSome = true ∧ imgNum exImage 0 4 = 0x4F504D49 ∧
    imgNum (0 :: exImage.drop 1) 0 4 ≠ 0x4F504D49 ∧ imgNum (exImage.take 4 ++ 1 :: exImage.drop 5) 4 2 ≠ 0x0100 ∧
    imgNum (exImage.take 4 ++ 1 :: exImage.drop 5) 0 4 = 0x4F504D49 ∧ (parseImage exImage).recs 5 = [0] ∧ rb 0 1 < 4 ∧ rb 0 0 < 24 := by
  decide +kernel

theorem witness_ImpositionLoads : (exLoader 1 (exRunLoad exImage none none)).loader = some (exRunLoad exImage none none) ∧
    (exRunLoad exImage none none).unread = false ∧ (exLoader 1 (exRunLoad exImage none none)).fld a_IMPO_STATUS f_IMPO_STATUS_STATE = 1 ∧
    (∀ d, d < 16 → (exLoader 1 (exRunLoad exImage none none)).writable d = true) ∧
    (exLoader 3 (exRunLoad exImage none (some 0))).failedDie (exRunLoad exImage none (some 0)) = some 0 ∧
    (exLoader 3 (exRunLoad exImage none none)).failedDie (exRunLoad exImage none none) = none ∧
    Tbl.get none (exLoader 3 (exRunLoad exImage none none)).torn 0 = none ∧ 0 ∈ maskClusters ((parseImage exImage).clusters 0) ∧
    0 ∈ clusterCores 0 ∧ (parseImage exImage).enabled 0 = true ∧ (parseImage exImage).enabled 1 = false ∧
    (exLoader 4 (exRunLoad exReplace none none)).fld a_IMPO_STATUS f_IMPO_STATUS_STATE = 4 ∧ (exImposed exUp).pstate 0 = 2 ∧
    ((parseImage exReplace).sect (stagedType 2)).isSome = true ∧ exUp.commandCode .pcie (cmdImpoRelease 1) = 0 ∧
    exUp.commandCode .mctp (cmdImpoDiscard 1) = 0 ∧ exUp.pstate 0 < 2 := by decide +kernel
/-! ### Witnesses: managers -/

/-- Die 12 at a tide, with the role registers, the strap of its role, and the managers' memory. -/
def exManager (role strap now : Nat) (m : MgrState) : State :=
  withFlds [(a_MGMT_ROLE, f_MGMT_ROLE_ROLE, role), (a_MGMT_STRAP, f_MGMT_STRAP_ROLE, strap)] { exUp with mgr := m, tide := [(12, now)] }
def exHm (s : State) : State := withFlds [(a_MGMT_ROLE, f_MGMT_ROLE_HMV, 1), (a_MGMT_ROLE, f_MGMT_ROLE_HMNODE, 5)] s
def exStep (n : Nat) (s : State) : State := withFlds [(a_MGMT_BOOT, f_MGMT_BOOT_STEP, n)] s
def exWindow : MgrState := { State.reset.mgr with window := some 0 }

/-- A heartbeat in one cell from node 5 of a role, with the sender's epoch. -/
def exBeat (role epoch : Nat) : Nat × Cell :=
  (0, { exCell 0xE 0 (0x10 + 5 * 2 ^ 24 + epoch * 2 ^ 96) role 0 with part := 31 })
def exBeats (role epoch : Nat) : State := { exManager 3 0 0 exWindow with ctl := [exBeat role epoch] }

/-- Node 5 heard at tide 0. -/
def exPeers (role now : Nat) : State := exHm (exManager role 0 now { exWindow with peers := [(5, some ⟨1, 0, 0, 0⟩)] })

/-- A teardown of partition 0 that die 12 has had; a preemption due; a step record with commit word `c` of shard `h`. -/
def exTorn (now : Nat) : State := { exManager 3 0 now exWindow with torn := [(0, some ⟨0, 0x505, 0, 0, false⟩)] }
def exJobMark : JobMark := ⟨0, 0, 1, []⟩
def exPre (late past : Bool) : Preempt := ⟨exJobMark, 9, 0, false, false, late, past⟩
def exPreempt (late past : Bool) : State := { exUp with preempts := [exPre late past], tide := [(12, 9)] }
def exStepRec (commit h : Nat) : List Byte := bytesLE 0x60 (commit + 2 ^ 63) ++ bytesLE 32 h

theorem witness_Managers : (exHm (exManager 3 0 100_000 exWindow)).mgr.window = some 0 ∧
    (∀ x ∈ (exHm (exManager 3 0 100_000 exWindow)).mgr.beat, x + 100_000 ≤ 100_000) ∧
    (exHm (exManager 3 0 100_000 exWindow)).master = some 5 ∧ (exHm (exManager 3 0 100_000 exWindow)).role ≠ 1 ∧
    (exHm (exManager 3 0 100_000 exWindow)).role ≠ 2 ∧ (exManager 1 0 100_000 exWindow).role = 1 ∧ (exManager 1 0 100_000 exWindow).mgr.window = some 0 ∧
    (withFlds [(a_RTR_ROUTE 12 5, f_RTR_ROUTE_MASK, 1)] (exManager 1 0 100_000 exWindow)).boardNodes = [5] ∧ exWindow.beat = none ∧
    (exHm (exManager 3 0 100_000 exWindow)).mgr.pause ≤ 100_000 ∧ (exStep 7 (exManager 3 2 0 State.reset.mgr)).mgr.window = none ∧
    (exStep 7 (exManager 3 2 0 State.reset.mgr)).mgr.beat = none ∧ (exStep 7 (exManager 3 2 0 State.reset.mgr)).strapRole = 2 ∧
    (exStep 7 (exManager 3 2 0 State.reset.mgr)).fld a_MGMT_BOOT f_MGMT_BOOT_STEP = 7 ∧ exUp.fld a_MGMT_BOOT f_MGMT_BOOT_STEP ≠ 7 ∧
    (exManager 3 0 200_000 exWindow).strapRole = 0 ∧ (exManager 3 0 200_000 exWindow).mgr.settled = false ∧
    (exManager 3 0 200_000 exWindow).hmKnown = false ∧ (exManager 3 0 200_000 exWindow).fld a_MGMT_ROLE f_MGMT_ROLE_EPOCH < 2 ^ 31 ∧
    (exHm (exManager 3 0 200_000 exWindow)).hmKnown = true ∧ (exManager 3 3 2_000_000 exWindow).role = 3 ∧
    (exManager 3 3 2_000_000 exWindow).strapRole ≠ 0 ∧
    0 + 2_000_000 + 200_000 * (exManager 3 3 2_000_000 exWindow).boardSlot ≤ (exManager 3 3 2_000_000 exWindow).tideOf 12 ∧
    (exHm (exManager 3 3 2_000_000 exWindow)).sbKnown = false ∧ (exStep 8 { exManager 3 0 5_200_000 exWindow with
      boot := { State.reset.boot with hbmDone := true } }).boot.hbmDone = true ∧ 0 + 5_200_000 ≤ (exManager 3 0 5_200_000 exWindow).tideOf 12 := by
  decide +kernel

theorem witness_Managers_beats : ((exBeats 1 3).takeMsg 0x10 (fun _ => true)).map (fun x => (x.1.src, x.1.epoch, bits x.1.body 1 0)) =
      some (5, 3, 1) ∧ ((exBeats 2 3).takeMsg 0x10 (fun _ => true)).map (fun x => bits x.1.body 1 0) = some 2 ∧
    (exBeats 1 3).role ≠ 1 ∧ (exBeats 1 3).hmKnown = false ∧ (exManager 1 0 0 exWindow).role = 1 ∧
    (exManager 1 0 0 exWindow).fld a_MGMT_ROLE f_MGMT_ROLE_EPOCH < 3 ∧ (exManager 1 0 0 { exWindow with own := 3 }).mgr.own = 3 ∧
    3 ≤ (withFlds [(a_MGMT_ROLE, f_MGMT_ROLE_EPOCH, 3)] (exManager 1 0 0 { exWindow with own := 3 })).fld a_MGMT_ROLE f_MGMT_ROLE_EPOCH ∧ (exBeats 2 3).sbKnown = false ∧ ¬ 5 < (exBeats 1 3).nodeId ∧
    (exPeers 2 500_000).mgr.peers = [(5, some ⟨1, 0, 0, 0⟩)] ∧ max 0 0 + 500_000 ≤ (exPeers 2 500_000).tideOf 12 ∧
    ¬ max 0 0 + 500_000 ≤ (exPeers 2 499_999).tideOf 12 ∧ (exPeers 1 500_000).role = 1 ∧ (exPeers 2 500_000).role = 2 ∧
    (exPeers 2 500_000).hmKnown = true ∧ (exPeers 2 500_000).fld a_MGMT_ROLE f_MGMT_ROLE_HMNODE = 5 ∧ (exPeers 2 500_000).sbKnown = false ∧
    (exPeers 2 500_000).injections = [] ∧ (exPeers 3 500_000).role ≠ 1 ∧ (exPeers 3 500_000).role ≠ 2 ∧
    (exImposed (exPeers 1 500_000)).pstate 0 = 2 ∧ Tbl.get none (exImposed (exPeers 1 500_000)).torn 0 = none ∧
    (exImposed (exPeers 1 500_000)).teardownsSeen = [] ∧
    ((exImposed (exState exCore)).setReg (a_PILOT_MAILBOX 0 0) (0x7D0A * 2 ^ 48 + 0x505)).partOf 0 = 0 ∧
    (((exImposed (exState exCore)).setReg (a_PILOT_MAILBOX 0 0) (0x7D0A * 2 ^ 48 + 0x505)).reg (a_PILOT_MAILBOX 0 0)).toNat / 2 ^ 48 = 0x7D0A := by
  decide +kernel

theorem witness_Managers_jobs : Tbl.get none (exTorn 1_000_000).tornOld 0 = none ∧
    Tbl.get none (exTorn 1_000_000).torn 0 = some ⟨0, 0x505, 0, 0, false⟩ ∧ 0 + 1_000_000 ≤ (exTorn 1_000_000).tideOf 12 ∧
    (exTorn 5).tideOf 12 < 0 + 1_000_000 ∧ (exPreempt false false).preempts.find? (fun p => !p.past &&
      decide (p.deadline ≤ (exPreempt false false).tideOf 12)) = some (exPre false false) ∧ (exPre false false).job.part < 24 ∧
    (exPreempt false false).role ≠ 1 ∧ (withFlds [(a_MGMT_ROLE, f_MGMT_ROLE_ROLE, 1)] (exImposed (exPreempt false false))).role = 1 ∧
    (exImposed (exPreempt false false)).pstate 0 = 2 ∧ (∃ p ∈ (exPreempt true true).preempts, p.job.part = 0 ∧ p.late = true) ∧
    (∀ p ∈ (exPreempt false false).preempts, ¬ (p.job.part = 0 ∧ p.late = true)) ∧
    none ∈ [some 3, none] ∧ none ∉ [some 3, some 4] ∧ exUp.recs.buf.length < 256 ∧ (stepRec (exStepRec 7 0)).cstep = 7 ∧
    (stepRec (exStepRec 7 0)).shard = 0 ∧ lastHeld ([exStepRec 7 0].map stepRec) = 7 ∧ lastHeld ([exStepRec 7 0, exStepRec 6 1].map stepRec) = 7 ∧
    (stepRec (exStepRec 6 1)).shard = 1 ∧ (stepRec (exStepRec 6 1)).cstep + 1 = 7 ∧ (stepRec (exStepRec 6 1)).ready = false ∧
    (stepRec (exStepRec 6 1)).gvalid = false ∧ (stepRec (bytesLE 128 (2 ^ 63 + 6 + (2 ^ 63 + 7) * 2 ^ (8 * 0x48) + 2 ^ (8 * 0x60)))).gstep = 7 ∧
    (stepRec (bytesLE 128 (2 ^ 63 + 6 + (2 ^ 63 + 7) * 2 ^ (8 * 0x48) + 2 ^ (8 * 0x60)))).gvalid = true ∧ (stepRec (exStepRec 2 1)).cstep + 1 < 7 ∧
    exUp.commandCode .pcie (cmdFiRetire 3 7) = 0 := by decide +kernel

/-! ### Witnesses: power and clock crossings -/

/-- A supply at sample counts `x`, in a state, at a tide. -/
def exSupply (st now : Nat) (x : SupplyState) : State :=
  withFlds [(a_PWR_SUPPLY, f_PWR_SUPPLY_STATE, st), (a_MGMT_BOOT, f_MGMT_BOOT_STEP, 0xA)] { exState exCore with released := true, supply := x, tide := [(12, now)] }

/-- Die 0 at a tide, with its ramp; its press waiting for the ramp; its clock stopped towards a group. -/
def exRampDie (now : Nat) (r : RampState) : State := { exUp with tide := [(0, now)], ramps := [(0, r)] }
def exStalled : State := { exPress { exCore with run := .pressStall } { exLoaded with pending := some ⟨1, 0, 0, 1⟩ } with
  released := true, tide := [(0, 4000)], ramps := [] }
def exCross (mode now : Nat) : State :=
  withFlds [(a_CLK_XCFG 0 0, f_CLK_XCFG_MODE, mode), (a_CLK_XCFG 0 0, f_CLK_XCFG_TIMEOUT, 1)]
    { exState { exCore with loads := [⟨0xE000000000, .g 1 8 false, none⟩] } with tide := [(0, now)], crossStops := [(0, some 0)] }

theorem witness_PowerAndCrossings : exUp.off = false ∧ (exSupply 0 0 .init).fld a_PWR_SUPPLY f_PWR_SUPPLY_STATE < 2 ∧
    SupplyState.init.low < 20 ∧ 20 ≤ (exSupply 0 0 { SupplyState.init with low := 20 }).supply.low ∧ (exSupply 0 0 .init).loader = none ∧
    (exSupply 0 0 .init).dieUp 3 = true ∧ (exSupply 0 0 .init).actor 0 = 0 ∧ (exSupply 0 0 .init).partOf 0 < 24 ∧
    ((exSupply 0 0 .init).core 0).run = .running ∧ ((exSupply 0 0 .init).core 0).loads = [] ∧
    (exSupply 0 0 { SupplyState.init with high := 20 }).supply.high = 20 ∧
    (exSupply 2 0 { SupplyState.init with good := 99 }).supply.good = 99 ∧ (exSupply 2 0 .init).fld a_PWR_SUPPLY f_PWR_SUPPLY_STATE = 2 ∧
    (exSupply 2 0 .init).supply.kept = false ∧ { SupplyState.init with kept := true }.kept = true ∧ (exSupply 2 0 .init).supply.good < 99 ∧
    (exSupply 3 0 { SupplyState.init with high := 20 }).fld a_PWR_SUPPLY f_PWR_SUPPLY_STATE = 3 ∧
    (exSupply 2 0 .init).supply.early = false ∧ (exSupply 2 0 .init).boot.resetWaits = false ∧ 0 + 5_020_000 ≤ (exSupply 2 5_020_000 .init).tideOf 12 ∧
    (exRampDie 10000 .init).dieUp 0 = true ∧ (exRampDie 10000 .init).clockLost.contains 0 = false ∧ (exRampDie 10000 .init).refLost = false ∧
    Tbl.get 0 (exRampDie 10000 .init).budgetSent 0 < 10000 / 10000 * 10000 ∧ (∀ k ∈ [64, 64], k = exUp.maxClock 0) ∧
    exUp.dieUp 12 = true ∧ exUp.stopped 12 = false ∧ Tbl.get 0 { exUp with tide := [(12, 15000)] }.budgetDone 12 < (15000 - 5000) / 10000 * 10000 ∧
    availPower 0 0 [0, 0, 0, 0] ≤ 12 * minBudget ∧ 2000 ≤ availPower 9000 0 [0, 0, 0, 0] ∧
    (exRampDie 15000 .init).stopped 0 = false ∧ Tbl.get 0 (exRampDie 15000 .init).budgetDone 0 < (15000 - 5000) / 10000 * 10000 ∧
    ((exRampDie 2000 .init).ramp 0).last < 2000 / 2000 * 2000 ∧ ((exRampDie 2000 .init).ramp 0).prewarms = [] ∧
    (exStalled.ramp 0).level < 16 ∧ exStalled.rampStalled 0 = true ∧ exStalled.fld (a_PWR_STATUS 0) f_PWR_STATUS_THERMAL ≠ 1 ∧
    exStalled.fld (a_PWR_STATUS 0) f_PWR_STATUS_RATE ≠ 1 ∧ exStalled.stopped 0 = false ∧
    (withFlds [(a_PWR_STATUS 0, f_PWR_STATUS_THERMAL, 1)] exStalled).fld (a_PWR_STATUS 0) f_PWR_STATUS_THERMAL = 1 ∧
    (exRampDie 2000 .init).rampStalled 0 = false ∧ RampState.init.level = 0 ∧
    ¬ (exUp.fld (a_PWR_THERM 0) f_PWR_THERM_TRIP : Int) ≤ 50 ∧ (exUp.fld (a_PWR_THERM 0) f_PWR_THERM_TRIP : Int) ≤ 2047 ∧
    (exUp.fld (a_PWR_THERM 0) f_PWR_THERM_THROTTLE : Int) < (exUp.fld (a_PWR_THERM 0) f_PWR_THERM_TRIP : Int) ∧
    (50 : Int) < (exUp.fld (a_PWR_THERM 0) f_PWR_THERM_CLEAR : Int) ∧ exUp.hot.contains 0 = false ∧ (∀ n, n < 64 → (exUp.qp n).jobs = []) ∧ exUp.hot.contains 12 = false ∧
    hasGroup 0 0 = true ∧ hasGroup 12 5 = true ∧ exUp.fld (a_CLK_XSTAT 0 0) f_CLK_XSTAT_STOPPED = 0 ∧
    Tbl.get none (exCross 1 1001).crossStops 0 = some 0 ∧ (exCross 0 1001).fld (a_CLK_XCFG 0 0) f_CLK_XCFG_MODE = 0 ∧
    (exCross 1 1001).fld (a_CLK_XCFG 0 0) f_CLK_XCFG_MODE ≠ 0 ∧ 0 + (exCross 1 1001).fld (a_CLK_XCFG 0 0) f_CLK_XCFG_TIMEOUT * 1000 <
      (exCross 1 1001).tideOf 0 ∧ (exCross 1 1001).tideOf 0 = 1001 ∧ ((exCross 1 1001).core 0).tstatus.getLsbD 3 = false := by decide +kernel

theorem witness_PowerAndCrossings_idle : waveSlots 1 ≤
    (RampState.idle { RampState.init with level := 1, slots := (List.range 4).map fun n => ⟨n, none, 0⟩ } 500 2000).length := by
  unfold RampState.idle
  rw [List.length_mergeSort]
  decide +kernel
/-! ### Witnesses: start-up -/

/-- Start-up at step `n` and a tide of die 12, with what it keeps. -/
def exBoot (n now : Nat) (b : BootState) : State := exStep n { State.reset with boot := b, tide := [(12, now)] }

/-- A start-up record of a root module with its routes closed and every port's dimension 0; the flash that holds it. -/
def exRecordHead : List Byte := [0x42, 0x52, 0x44, 0x54] ++ bytesLE 2 0x0100 ++ bytesLE 2 2 ++ [1, 0x3F, 0x3F, 0] ++ bytesLE 4 0 ++ List.replicate 492 0
def exRecord : List Byte := exRecordHead ++ bytesLE 4 0x2F223A9F
def exStack (ok : Bool) : StackBoot := ⟨ok, [0, 0, 0], []⟩

theorem witness_StartUp : State.reset.off = false ∧ State.reset.brownout = false ∧ { State.reset with off := true }.off = true ∧
    (withFlds [(a_PWR_SUPPLY, f_PWR_SUPPLY_STATE, 2)] State.reset).brownout = true ∧ (withFlds [(a_QUAY_LSTATUS 12 3, f_QUAY_LSTATUS_STATE, 5)] exUp).linkState 12 3 = 5 ∧
    (exBoot 1 0 { BootState.init with age := 200_000 }).inStep 1 = true ∧ 100_000 ≤ (exBoot 1 0 { BootState.init with age := 200_000 }).boot.age ∧
    (exBoot 1 0 { BootState.init with age := 200_000 }).pllUp = true ∧ (exBoot 1 0 .init).inStep 1 = true ∧ (exBoot 1 0 .init).boot.age < 100_000 ∧
    (exBoot 1 0 { BootState.init with age := 200_000 }).refLost = false ∧ 110_000 ≤ { BootState.init with age := 110_000 }.age ∧
    (exBoot 2 110_000 { BootState.init with sample := some 0x11 }).inStep 2 = true ∧
    (exBoot 2 110_000 { BootState.init with sample := some 0x11 }).boot.again = none ∧ strapBits 0x15 = 0x11 ∧ strapBits 0x12 ≠ 0x11 ∧
    (exBoot 2 10_110_000 { BootState.init with sample := some 0x11, again := some 110_000 }).inStep 2 = true ∧
    110_000 + 10_000_000 ≤ (exBoot 2 10_110_000 .init).tideOf 12 ∧ (exBoot 3 0 .init).inStep 3 = true ∧
    (exBoot 3 0 .init).fld a_MGMT_SEC f_MGMT_SEC_SVN ≤ 4 ∧ (exBoot 4 0 .init).inStep 4 = true ∧ (exBoot 4 0 .init).broken = [] ∧
    bit 1 0 = true ∧ bit 1 1 = false ∧ (exBoot 4 0 .init).linkState 0 0 ≠ 5 ∧
    recordGood ((exBoot 4 0 .init).flashBytes 0x1D0_0000 512) = false ∧ (exBoot 5 0 .init).inStep 5 = true ∧ (exBoot 5 0 .init).broken.length < 2 ∧
    ((exBoot 5 0 .init).unit (unitId 0 3 7 0)).quarantined = false ∧ (exBoot 6 0 .init).inStep 6 = true ∧ (exBoot 9 0 .init).inStep 9 = true ∧ (exBoot 7 0 .init).boot.hbmDone = false ∧ (exBoot 8 0 .init).inStep 8 = true ∧
    (List.replicate 12 (exStack true)).length = 12 ∧ (exStack false).organised = false ∧ bit BootState.init.flags 3 = false := by
  decide +kernel

/-- The CRC of the record, in parts, each worked apart from the model. -/
def exCrc (c : Nat) (bs : List Byte) : Nat := bs.foldl (fun c b => crcByte 0x82F63B78 8 (c ^^^ b.toNat)) c

theorem exCrc_append (c : Nat) (a b : List Byte) : exCrc c (a ++ b) = exCrc (exCrc c a) b := List.foldl_append

theorem exRecord_crc : crc32c (exRecord.take 0x1FC) = 0x2F223A9F := by
  have h : exRecord.take 0x1FC = exRecordHead.take 127 ++ (List.replicate 127 0 ++ (List.replicate 127 0 ++ List.replicate 127 0)) := by
    decide +kernel
  have e (bs : List Byte) : crc32c bs = exCrc 0xFFFFFFFF bs ^^^ 0xFFFFFFFF := rfl
  rw [h, e, exCrc_append, exCrc_append, exCrc_append, show exCrc 0xFFFFFFFF (exRecordHead.take 127) = 0x6C7A8848 by decide +kernel,
    show exCrc 0x6C7A8848 (List.replicate 127 0) = 0x8D43D37F by decide +kernel,
    show exCrc 0x8D43D37F (List.replicate 127 0) = 0xEC93D893 by decide +kernel,
    show exCrc 0xEC93D893 (List.replicate 127 0) = 0xD0DDC560 by decide +kernel]
  decide

theorem witness_StartUp_record : recordGood exRecord = true := by
  simp only [recordGood, exRecord_crc]
  decide +kernel

/-- Start-up done, with AUTOSTART, the servo locked and stack 0 in service, its channels Active. -/
def exAuto : State :=
  withFlds ((a_TIDE_STATUS 12, f_TIDE_STATUS_STATE, 2) :: (List.range 32).map fun c => (a_chan 0 c, f_HBM_CH_STATUS_STATE, 2)) { exStep 0xA (exHbm 2 0 .init) with boot := { BootState.init with flags := 1 } }

theorem witness_StartUp_autostart : exAuto.inStep 0xA = true ∧ bit exAuto.boot.flags 0 = true ∧ exAuto.boot.auto = false ∧ exAuto.servoSt = 2 ∧
    exAuto.loaderOpen = true ∧ exAuto.topStack = some 0 ∧
    (withFlds [(a_chan 0 0, f_HBM_CH_STATUS_STATE, 3)] exAuto).rangeOpen 12 true (2 ^ 36 - 2 ^ 20) (2 ^ 20) = false := by decide +kernel

/-- Every line of its stack 0 serves. -/
theorem exAuto_chanState (l : Nat) (h : l < 2 ^ 36) : exAuto.chanState l = 2 := by
  have c : ∀ c, c < 32 → exAuto.fld (a_HBM_CH_STATUS 12 0 c) f_HBM_CH_STATUS_STATE = 2 := by decide +kernel
  have z : stackOf l = 0 := Nat.div_eq_of_lt h
  have n : chanOf l < 32 := Nat.mod_lt _ (by decide)
  simp only [State.chanState, homeOf, z]
  exact c _ n

theorem exAuto_lines (l : Nat) (h : l ∈ linesOf (2 ^ 36 - 2 ^ 20) (2 ^ 20)) : l < 2 ^ 36 := by
  obtain ⟨i, hi, rfl⟩ := List.mem_map.1 h
  have := List.mem_range.1 hi
  omega

theorem witness_StartUp_range : exAuto.rangeOpen 12 true (2 ^ 36 - 2 ^ 20) (2 ^ 20) = true ∧
    exAuto.hbmDown (2 ^ 36 - 2 ^ 20) (2 ^ 20) = false := by
  have e : exAuto.homes = [] ∧ exAuto.quay = [] ∧ exAuto.dirs = [] ∧ exAuto.dirBad = [] ∧ exAuto.hbms = [(0, .init)] := by decide +kernel
  have q (l : Nat) : exAuto.sched l = .init := by
    simp only [State.sched, State.hbm, e.2.2.2.2]
    cases hs : stackOf l <;> rfl
  constructor
  · simp only [State.rangeOpen, State.reachNow, Bool.or_eq_true, Bool.and_eq_true, List.all_eq_true]
    refine .inr ⟨fun x hx => ?_, fun l hl => ?_⟩
    · obtain ⟨l, hl, rfl⟩ := List.mem_map.1 (List.mem_eraseDups.1 hx)
      have z : homeOf l = 12 := by have := exAuto_lines l hl; unfold homeOf stackOf; omega
      rw [z]
      exact ⟨rfl, rfl⟩
    · have c := exAuto_chanState l (exAuto_lines l hl)
      have d : exAuto.dirEnt l = none := by simp [State.dirEnt, State.dirSet, e.2.2.1, Tbl.get, Tbl.find]
      simp [c, q, d, Sched.init, State.homeList, State.setsSound, State.dirSet, State.lookBad, e, Tbl.get, Tbl.find]
  · simp only [State.hbmDown, Bool.and_eq_false_iff, List.any_eq_false]
    exact .inr fun l hl => by simp [exAuto_chanState l (exAuto_lines l hl)]

/-! ### Witnesses: the host -/

def exHost : State := { exStep 0xA exUp with boot := { BootState.init with hbmDone := true } }

/-- Core 0's LOAD of 48 bytes from the host window to a local address, with a tally of its own so far or none; asked for as tag 0 at tide 0. -/
def exHostReq (a : Nat) (tallied : Bool) (own : Nat) : Request :=
  { exLoadReq 0 48 with host := true, desc := 0x301 + a * 2 ^ 128, tallied := tallied, own := own }
def exHostRead (now : Nat) : State :=
  { exState exCore with
    lighters := [(0, { LighterState.init with reqs := [(0, some (exHostReq 0xE000000000 false 0))] })]
    hostReads := [⟨0, 0xC000000000, 0, 48, 0, some 0⟩]
    tide := [(12, now)] }

/-- The status ring on, of 64 records, with its TAIL; a record that waits. -/
def exRingOn (tail : Nat) (r : RecState) : State :=
  withFlds [(a_PCIE_RING_CTL, f_PCIE_RING_CTL_EN, 1), (a_PCIE_RING_TAIL, f_PCIE_RING_TAIL_TAIL, tail)] { exUp with recs := r }
def exStatus : StatusRec := ⟨1, 0, Code.SUPPLY_LOW, 0, [], 16, 31, 0, false, false⟩

theorem witness_HostAccesses : 0 % 4096 + 64 ≤ 4096 ∧ 0 + 64 ≤ 0xC000_0000 ∧ exHost.hostReach 0xE000000000 = true ∧ exHost.hostReach 0 = true ∧
    0 + 64 ≤ 0xC0_0000_0000 ∧ exUp.hostReach 0xE000000000 = false ∧ exUp.hostReach 0 = false ∧
    (exHostRead 0).hostRequest 0 = some (0, 0, exHostReq 0xE000000000 false 0) ∧
    (exHostRead 0).logical 0 = 0 / 256 ∧ (exHostReq 0 false 0).quiet = false ∧ (exHostReq 0 false 0).ghost = false ∧
    (exHostReq 0 false 0).fail = none ∧ bits (exHostReq 0xE000000000 false 0).desc 175 128 = 0xE000000000 ∧
    isGalley 0xE000000000 = true ∧ inGalley (galleyDie 0xE000000000) 0xE000000000 48 = true ∧ 0 + 16 < (exLoadReq 0 48).total ∧
    (exLoadReq 0 48).total ≤ 0 + 48 ∧ hdOp (exHostReq 0 false 0).desc = 1 ∧ bits (exHostReq 0 false 0).desc 175 128 = 0 ∧ isHbm 0 = true ∧
    (contentTally ((exHostRead 0).ltrKey 0) 0 (wordsLE 6 (bytesLE 48 0))).toNat =
      (contentTally ((exHostRead 0).reg (a_CHK_PKEY 12 ((exHostRead 0).partOf 0))) 0 (wordsLE 6 (bytesLE 48 0))).toNat ∧
    (exHostReq 0 true 1).tallied = true ∧ (exHostReq 0 true 1).own ≠ (exHostReq 0 true 1).theirs ∧
    0 + 8 ≤ 0x10_0000_0000 ∧ exUp.noDie 0xF0_0000_0000 = false ∧ State.reset.noDie 0xF0_0000_0000 = true ∧ ¬ (16 = 8 ∧ 0 % 8 = 0) ∧
    (rcvOf (exLoadReq 0 48).desc).on = false ∧ (∃ x ∈ (exHostRead 50_000_000).hostReads, x.tag = 0 ∧ x.sent = some 0) ∧
    (∀ x ∈ (exHostRead 50_000_000).hostReads, x.off < 2 ^ 32) ∧ exUp.wayOpen .pcie 0xF0_C000_0000 = true ∧ exUp.noDie 0xF0_C000_0000 = false ∧ exUp.regReads = [] ∧
    (∃ y ∈ [RegRead.mk (.pcie 0) 0xF0_0000_0000 8], regDie y.addr = regDie 0xF0_0000_0000) ∧
    0 + 50_000_000 ≤ (exHostRead 50_000_000).tideOf 12 ∧ (exHostRead 0).tideOf 12 < 50_000_000 ∧
    (exHostRead 0).pcie.d3hot = false := by decide +kernel

theorem witness_HostAccesses_ring : exUp.fld a_PCIE_RING_CTL f_PCIE_RING_CTL_EN = 0 ∧ (exRingOn 0 .init).fld a_PCIE_RING_CTL f_PCIE_RING_CTL_EN = 1 ∧
    (exRingOn 64 .init).fld a_PCIE_RING_CTL f_PCIE_RING_CTL_LOG2SIZE = 6 ∧ (exRingOn 64 .init).fld a_PCIE_RING_TAIL f_PCIE_RING_TAIL_TAIL = 64 ∧
    (exRingOn 0 { RecState.init with buf := [exStatus] }).recs.buf = exStatus :: [] ∧ (exRingOn 0 { RecState.init with dropped := 2 }).recs.dropped ≠ 0 ∧
    (7 % 2 ^ 32 + 2 ^ 32 - 0) % 2 ^ 32 ≤ (exRingOn 64 .init).fld a_PCIE_RING_TAIL f_PCIE_RING_TAIL_TAIL ∧
    (exRingOn 0 .init).fld a_PCIE_RING_TAIL f_PCIE_RING_TAIL_TAIL < (7 % 2 ^ 32 + 2 ^ 32 - 0) % 2 ^ 32 ∧
    ({ exUp with preemptDps := [9] } : State).preemptDps = 9 :: [] ∧ 6 ≤ 6 % 32 ∧ 16 ≤ 16 ∧ 5 % 32 < 6 ∧ 16 < 17 % 32 ∧
    exUp.commandCode .pcie (cmdRingEnable 6) = 0 ∧ exUp.commandCode .pcie (cmdRingEnable 5) = 0 ∧
    exUp.alone = true ∧ exUp.wayOpen .pcie a_PCIE_RING_CTL = true ∧
    (∀ p, p < 24 → exUp.pstate p ≠ 2) := by decide +kernel

theorem witness_HostAccesses_reg : ¬ isFlits 0xF0_C000_0000 := by unfold isFlits a_QUAY_FLITS regAddr; omega

theorem witness_HostAccesses_span : (exHostRead 0).noMarks (bits (exLoadReq 0 48).desc 175 128) 48 := by unfold State.noMarks; decide +kernel

/-! ### Witnesses: Ethernet -/

/-- Both links up, queue pair 0 enabled and ready on port 0 with its rings of 16 entries in galley 0 (completion at 0, receive at 1000H, send at
2000H), RETRY attempts; memory region 0, writable, of 4 KiB at 4000H. -/
def exQp (retry now : Nat) (q : QpState) (mem : List (Nat × Byte)) : State :=
  let x := 4 * 2 ^ 4 + 0xE000000000 * 2 ^ 8 + 4 * 2 ^ 56 + 0xE000001000 * 2 ^ 60 + 4 * 2 ^ 108 + 0xE000002000 * 2 ^ 112 + retry * 2 ^ 290 +
    2 ^ 303 + 2 ^ 304
  withFlds [(a_ETH_PORT 0 0, f_ETH_PORT_STATE, 1), (a_ETH_MR 0 1, f_ETH_MR_VALID, 1), (a_ETH_MR 0 1, f_ETH_MR_WRITE, 1),
      (a_ETH_MR 0 1, f_ETH_MR_PART, 0), (a_ETH_MR 0 0, f_ETH_MR_SIZE, 1), (a_ETH_MR 0 0, f_ETH_MR_BASE, 0xE000004), (a_PWR_SUPPLY, f_PWR_SUPPLY_STATE, 0)]
    ((List.range 6).foldl (fun t w => t.setReg (a_ETH_QP 0 w) (BitVec.ofNat 64 (x / 2 ^ (64 * w))))
      { exState exCore with released := true, qps := [(0, q)], mem := mem, tide := [(12, now)] })

/-- A WQE: SEND of 16 bytes at 5000H; the job that it becomes; rings with one entry each. -/
def exWqe : Nat := 2 * 2 ^ 232 + 0xE000005000 * 2 ^ 272 + 16 * 2 ^ 320
def exJob : SendJob := ⟨exWqe, 0, 1, 0, 0⟩
def exSendRing : List (Nat × Byte) := memWrite (memWrite [] 0xE000002000 (bytesLE 8 1)) 0xE000002040 (bytesLE 64 exWqe)
def exRecvRing : List (Nat × Byte) :=
  memWrite (memWrite [] 0xE000001000 (bytesLE 8 1)) 0xE000001040 (bytesLE 32 (0xE000006000 * 2 ^ 112 + 64 * 2 ^ 160))
def exSent : QpState := { QpState.init with jobs := [exJob] }

theorem witness_Ethernet_links : (exQp 3 0 .init []).ethSt 0 = 1 ∧ exUp.ethSt 1 = 0 ∧ exUp.qpBits 0 303 303 = 0 ∧
    exUp.commandCode .pcie (cmdQpEnable 0) = 0 ∧ (exQp 3 0 .init []).qpReady 0 = true ∧ (exQp 3 0 .init []).ethPaused 0 = false ∧
    (exQp 3 55_000 { QpState.init with rate := 1_000_000_000 } []).tideOf 12 = 55_000 ∧
    ((exQp 3 55_000 { QpState.init with rate := 1_000_000_000 } []).qp 0).rate < 400_000_000_000 ∧
    (exUp.ethSt 0 ≠ 1) ∧ (exQp 3 0 .init []).qpPort 0 = 0 := by decide +kernel

theorem witness_Ethernet_sender : ((exQp 3 0 exSent []).qp 0).jobs = [exJob] ∧ (0 + 1) % 2 ^ 24 ≠ exSent.una ∧
    (let s := (exQp 3 0 exSent []).setQpBits 0 359 336 1
     psnDiff 1 0 ≤ psnDiff (s.npsn 0) 0 ∧ exJob.acked 1 (s.npsn 0) = true ∧ exJob.acked 0 (s.npsn 0) = false) ∧
    bit exWqe 242 = false ∧ (exQp 3 0 exSent []).num 0xE000000000 8 = 0 ∧ (exQp 3 0 exSent []).qpBits 0 7 4 = 4 ∧
    (exQp 3 0 exSent []).rangeOpen 12 true 0xE000000040 32 = true ∧ (exQp 3 0 exSent []).rangeOpen 12 true 0xE000000000 8 = true ∧
    (exQp 3 0 exSent []).rangeOpen 12 false 0xE000000008 8 = true ∧ exSent.cqes = [] ∧
    exSent.tries + 1 < (exQp 3 0 exSent []).qpBits 0 292 290 ∧ (exQp 1 0 exSent []).qpBits 0 292 290 ≤ exSent.tries + 1 ∧
    exSent.since + 4096 * 2 ^ (exQp 3 4096 exSent []).qpBits 0 296 293 ≤ (exQp 3 4096 exSent []).tideOf 12 ∧
    (exQp 3 0 exSent []).tideOf 12 < exSent.since + 4096 * 2 ^ (exQp 3 0 exSent []).qpBits 0 296 293 ∧
    (∀ m, m < 64 → m ≠ 0 → (exQp 3 0 .init exSendRing).qpBits m 303 303 = 0) ∧ (exQp 3 0 .init exSendRing).ethHeld = [] ∧
    (exQp 3 0 .init exSendRing).num 0xE000002000 8 = 1 ∧ (exQp 3 0 .init exSendRing).num 0xE000002008 8 = 0 ∧
    (exQp 3 0 .init exSendRing).num 0xE000002040 64 = exWqe ∧ (exQp 3 0 .init exSendRing).wqeCheck 0 exWqe = 0 ∧
    (∀ r ∈ [.compl, .recv, .send], (exQp 3 0 .init exSendRing).ringOpen 0 r = true) ∧ (exQp 3 0 .init exSendRing).unitErrs = [] ∧ (exQp 3 0 .init exSendRing).rangeOpen 12 false 0xE000005000 16 = true ∧
    wqLen exWqe ≤ (exQp 3 0 .init exSendRing).qpMtu 0 ∧ wqLaddr exWqe = 0xE000005000 ∧ wqLen exWqe = 16 := by decide +kernel

theorem witness_Ethernet_spans : (exQp 3 0 .init exSendRing).memThere 0xE000002000 0x4000 ∧ (exQp 3 0 .init exSendRing).noMarks 0xE000000000 0x8000 ∧
    (exQp 3 0 .init exRecvRing).memThere 0xE000000000 0x8000 ∧ (exQp 3 0 .init exRecvRing).noMarks 0xE000000000 0x8000 ∧
    (exQp 3 0 .init []).memThere 0xE000000000 0x8000 ∧ (exQp 3 0 .init []).noMarks 0xE000000000 0x8000 := by
  unfold State.memThere State.noMarks; decide +kernel

theorem witness_Ethernet : (exQp 3 0 .init []).regionOf 0 16 0 32 = some 0xE000004000 ∧ (exQp 3 0 .init []).regionOf 0 4090 0 32 = none ∧
    (exQp 3 0 .init []).rangeOpen 12 true 0xE000004010 32 = true ∧ (withFlds [(a_ETH_MR 0 0, f_ETH_MR_BASE, 1)] (exQp 3 0 .init [])).regionOf 0 0 0 32 = some 0x1000 ∧
    (withFlds [(a_ETH_MR 0 0, f_ETH_MR_BASE, 1)] (exQp 3 0 .init [])).rangeOpen 12 true 0x1000 32 = false ∧ (bytesLE 32 7).length ≤ (exQp 3 0 .init []).qpMtu 0 ∧
    (List.replicate 1024 (0 : Byte)).length = (exQp 3 0 .init []).qpMtu 0 ∧ (exQp 3 0 .init []).regionOf 0 0 0 2048 = some 0xE000004000 ∧
    ((exQp 3 0 { QpState.init with incoming := some (.write 0xE000004010 32) } []).qp 0).incoming = some (.write 0xE000004010 32) ∧
    0 < psnDiff 1 ((exQp 3 0 .init []).epsn 0) ∧ psnDiff 1 ((exQp 3 0 .init []).epsn 0) < 2 ^ 23 ∧
    2 ^ 23 ≤ psnDiff (2 ^ 24 - 1) ((exQp 3 0 .init []).epsn 0) ∧ (exQp 3 0 .init exRecvRing).num 0xE000001000 8 = 1 ∧
    (exQp 3 0 .init exRecvRing).num 0xE000001008 8 = 0 ∧ (exQp 3 0 .init []).num 0xE000001000 8 = (exQp 3 0 .init []).num 0xE000001008 8 ∧
    bits ((exQp 3 0 .init exRecvRing).num 0xE000001040 32) 159 112 = 0xE000006000 ∧
    bits ((exQp 3 0 .init exRecvRing).num 0xE000001040 32) 191 160 = 64 ∧ isGalley 0xE000006000 = true ∧ isGalley (0xE000006000 + 16 - 1) = true ∧
    (exQp 3 0 .init []).ringOpen 0 .recv = true ∧ (exQp 3 0 .init exRecvRing).ringOpen 0 .recv = true ∧
    (let u := ((((exQp 3 0 .init exRecvRing).readMem 0xE000001040 32 0xF 5).st.unitFlits 12 false 0xE000001040 32).openWrite 12 0xE000001008 (bytesLE 8 1)).st
     u.rangeOpen 12 true 0xE000006000 16 = true ∧ (u.openWrite 12 0xE000006000 (bytesLE 16 1)).st.ringOpen 0 .compl = true) ∧
    0xE000000040 + 32 ≤ 0xE000001008 ∧ 0xE000001008 + 8 ≤ 0xE000006000 ∧ exUp.role ≠ 1 ∧
    (withFlds [(a_MGMT_ROLE, f_MGMT_ROLE_ROLE, 1)] exUp).role = 1 ∧ exUp.fld (a_ETH_PORT 0 0) f_ETH_PORT_PTPDOM = 0 ∧ 500 < (501 : Int).natAbs ∧
    (exQp 3 0 .init []).fld (a_ETH_PORT 0 0) f_ETH_PORT_DISABLE = 0 ∧ (List.replicate 9217 (0 : Byte)).length = 9217 ∧
    exUp.ptp.chosen = none ∧ (⟨0, 5⟩ : PtpFrom).rank < 6 ∧ ¬ (⟨0, 7⟩ : PtpFrom).rank < 6 ∧ exUp.ptp.last = 0 ∧
    ((501 : Int) - 0 - 0).natAbs = 501 ∧ (⟨0, 501, none⟩ : PtpTimes).t2 - (⟨0, 501, none⟩ : PtpTimes).t1 = 501 ∧
    exUp.isRoot = false ∧ ({ exUp with ptp := ⟨true, 0, 3, 0, 0, 0, some (0, 5)⟩, tide := [(12, 4_000_000_000)] } : State).ptp.locked = true ∧
    0 + 4_000_000_000 ≤ ({ exUp with ptp := ⟨true, 0, 3, 0, 0, 0, some (0, 5)⟩, tide := [(12, 4_000_000_000)] } : State).tideOf 12 := by decide +kernel
/-! ### Witnesses: orders, the management port, console and flash -/

/-- An order of kind `k` from node 5, message 8, of an epoch, with its words 1 and 2 of the body, in one cell. -/
def exOrder (k epoch w1 : Nat) : Nat × Cell :=
  (0, { exCell 0xE 0 (0x11 + 5 * 2 ^ 24 + 8 * 2 ^ 64 + epoch * 2 ^ 96) (k + w1 * 2 ^ 64) 0 with part := 31 })
def exOrders (k epoch w1 : Nat) : State := { exManager 3 0 0 exWindow with ctl := [exOrder k epoch w1] }
def exMsgIn (kind : Nat) : State :=
  { exManager 3 0 0 exWindow with ctl := [(0, { exCell 0xE 0 (kind + 5 * 2 ^ 24 + 8 * 2 ^ 64) 0 0 with part := 31 })] }

/-- What `takeMsg` asks of an order's kind. -/
def exKind (k b : Nat) : Bool := bits b 7 0 == k || !(decide (1 ≤ bits b 7 0) && decide (bits b 7 0 ≤ 7))
def exTake (s : State) (k : Nat) : Option (Nat × Nat × Nat × Nat) :=
  (s.takeMsg 0x11 (exKind k)).map fun x => (x.1.src, x.1.msgid, x.1.epoch, bits x.1.body 15 0)
def exOut (tries : Nat) : State := { exManager 3 0 100_000 { exWindow with out := [⟨5, 0x11, 1, 0, [], 0, tries⟩] } with ctl := [] }

theorem witness_Orders : (∀ k ∈ [1, 2, 3, 4, 5, 6, 7], exTake (exOrders k 1 0) k = some (5, 8, 1, k)) ∧ exTake (exOrders 9 1 0) 1 = some (5, 8, 1, 9) ∧
    exTake (exOrders (1 + 2 ^ 8) 1 0) 1 = some (5, 8, 1, 1 + 2 ^ 8) := by decide +kernel

theorem witness_Orders_epochs : 8 ∉ Tbl.get [] (exOrders 1 1 0).mgr.acted 5 ∧
    8 ∈ Tbl.get [] ({ exOrders 1 1 0 with mgr := { exWindow with acted := [(5, [8])] } } : State).mgr.acted 5 ∧
    (exOrders 1 1 0).fld (a_TIDE_MGR 12) f_TIDE_MGR_EPOCH ≤ 1 ∧
    1 < (withFlds [(a_TIDE_MGR 12, f_TIDE_MGR_EPOCH, 2)] (exOrders 1 1 0)).fld (a_TIDE_MGR 12) f_TIDE_MGR_EPOCH ∧
    inRegs a_PWR_SUPPLY = true ∧ exUp.dieUp (regDie a_PWR_SUPPLY) = true ∧ State.reset.dieUp 0 = false ∧ a_PWR_SUPPLY ≠ a_MGMT_ROLE ∧
    (exOrders 3 1 0).role ≠ 1 ∧ Source.manager 3 1 ∈ { exOrders 3 1 0 with ordersNow := [(3, 1)] }.ordersMet ∧ (exOrders 3 1 0).ordersMet = [] ∧
    exUp.wayOpen (.manager 5 1) a_PWR_SUPPLY = true ∧ exUp.wayOpen (.manager 5 1) (a_PWR_STATUS 0) = false ∧ exUp.dieUp 0 = true := by decide +kernel

/-- PWR_SUPPLY is no register that an order shows itself in, nor a flit counter. -/
theorem witness_Orders_plain : a_PWR_SUPPLY ≠ a_MGMT_ROLE ∧ a_PWR_SUPPLY ≠ a_TIDE_MGR 12 ∧ a_PWR_SUPPLY ≠ a_PCIE_RING_TAIL ∧ ¬ isFlits a_PWR_SUPPLY :=
  ⟨by decide, by decide, by decide, by unfold isFlits a_QUAY_FLITS a_PWR_SUPPLY regAddr; omega⟩

theorem witness_Orders_kinds : (exManager 1 0 0 exWindow).role = 1 ∧ inHbm 0 16 = true ∧ inHbm 0xC0_0000_0000 16 = false ∧
    isGalley 0xC0_0000_0000 = false ∧ exUp.dieUp (addrDie 0) = true ∧ (exManager 2 0 0 exWindow).role = 2 ∧
    bits (natLE (bytesLE 16 (2 + a_PWR_SUPPLY * 2 ^ 64))) 7 0 = 2 ∧ bits (natLE (bytesLE 16 (2 + a_PWR_SUPPLY * 2 ^ 64))) 15 8 = 0 ∧
    (exManager 1 0 0 exWindow).fld (a_TIDE_MGR 12) f_TIDE_MGR_EPOCH ≤ (exManager 1 0 0 exWindow).myEpoch ∧
    ((exMsgIn 0x12).takeMsg 0x12 (fun _ => true)).isSome = true ∧ ((exMsgIn 0x13).takeMsg 0x13 (fun _ => true)).isSome = true ∧
    ((exMsgIn 0x14).takeMsg 0x14 (fun _ => true)).isSome = true ∧ teardownCodes.contains Code.HBM_DATA_ERROR = false ∧
    (exOut 1).mgr.out.find? (fun y => decide (y.sent + 100_000 ≤ (exOut 1).tideOf 12)) = some ⟨5, 0x11, 1, 0, [], 0, 1⟩ ∧
    (exOut 8).mgr.out.find? (fun y => decide (y.sent + 100_000 ≤ (exOut 8).tideOf 12)) = some ⟨5, 0x11, 1, 0, [], 0, 8⟩ := by decide +kernel

/-- A module whose firmware serves, and its SPDM connection over MCTP at a stage. -/
def exServing : State := { exStep 0xA exUp with boot := { BootState.init with hbmDone := true } }
def exSpdm (n : Nat) : State := { exServing with spdm := [(0, ⟨n, 0x12⟩)] }

theorem witness_ManagementPort_reads : exServing.wayOpen .mctp a_PWR_SUPPLY = true ∧ exServing.wayOpen .mctp (a_PWR_STATUS 0) = false ∧
    exServing.regReads = [] ∧ (a_PWR_SUPPLY + 4) % 8 ≠ 0 ∧ inRegs (a_PWR_SUPPLY + 4) = true ∧ exServing.dieUp (regDie (a_PWR_SUPPLY + 4)) = true ∧
    (0x7F : Nat) % 256 ≠ 255 ∧ 6 < 0x0A := by decide +kernel

theorem witness_ManagementPort : exServing.firmwareUp = true ∧ State.reset.firmwareUp = false ∧ exServing.off = false ∧ 7 % 256 ≠ 0 ∧ 7 % 256 ≠ 255 ∧
    inRegs 0 = false ∧ inRegs a_PWR_SUPPLY = true ∧ exServing.dieUp (regDie a_PWR_SUPPLY) = true ∧
    ({ exServing with released := false } : State).dieUp 0 = false ∧ a_PWR_SUPPLY % 8 = 0 ∧ exServing.dieUp (addrDie 0) = true ∧
    exServing.boot.hbmDone = true ∧ inHbm 0 64 = true ∧ exServing.inImposed 0 64 = false ∧ (0 : Nat) % 16 = 0 ∧
    0x0A ≤ exServing.fld a_MGMT_BOOT f_MGMT_BOOT_STEP ∧ (exServing.setReg a_IMPO_PSTATE 3).pstate 0 = 3 ∧ exServing.pstate 0 ≠ 3 ∧
    (withFlds [(a_CHK_QUNIT 12 0, f_CHK_QUNIT_VALID, 1)] exServing).quarUsed 0 = true ∧ (exSpdm 0 |>.spdmConn false).stage = 0 ∧
    1 ≤ ((exSpdm 1).spdmConn false).stage ∧ 2 ≤ ((exSpdm 2).spdmConn false).stage ∧ 3 ≤ ((exSpdm 3).spdmConn false).stage ∧
    exServing.boot.keyBad = false ∧ ({ exServing with boot := { BootState.init with keyBad := true } } : State).boot.attested = false := by
  decide +kernel

theorem witness_ConsoleFlash_ways : exUp.crossStopped 12 9 = false ∧
    (withFlds [(a_CLK_XSTAT 12 9, f_CLK_XSTAT_STOPPED, 1)] exUp).crossStopped 12 9 = true ∧ 533 ≤ exUp.fld a_UART_CFG f_UART_CFG_DIV ∧
    exUp.alone = true ∧ exUp.wayOpen .jtag a_PWR_SUPPLY = true ∧ exUp.wayOpen .jtag (a_PWR_STATUS 0) = false ∧ exUp.regReads = [] ∧
    ∀ a ∈ [a_UART_CFG, a_MGMT_FLASH_CTL, a_MGMT_FWCTL, a_MGMT_SEC], exUp.wayOpen .pcie a = true := by decide +kernel

theorem witness_ConsoleFlash : exUp.off = false ∧ (exUp.uartRx.drop 0).length < 256 ∧
    256 ≤ (({ exUp with uartRx := List.replicate 256 0 } : State).uartRx.drop 0).length ∧ exUp.commandCode .pcie (cmdUartDiv 600) = 0 ∧
    exUp.commandCode .pcie (cmdUartDiv 5) = 0 ∧ (∀ p, p < 24 → exUp.pstate p ≠ 2) ∧ (exImposed exUp).pstate 0 = 2 ∧
    inRegs a_PWR_SUPPLY = true ∧ inRegs 0 = false ∧ exUp.fld a_MGMT_FLASH_STATUS f_MGMT_FLASH_STATUS_BUSY = 0 ∧
    (withFlds [(a_MGMT_FLASH_STATUS, f_MGMT_FLASH_STATUS_BUSY, 1)] exUp).fld a_MGMT_FLASH_STATUS f_MGMT_FLASH_STATUS_BUSY = 1 ∧
    exUp.commandCode .pcie (cmdFlashErase 0x1D0_0000) = 0 ∧ 0x1D0_0000 % 2 ^ 32 / 512 * 512 < 0x1D1_0000 ∧
    (withFlds [(a_MGMT_FLASH_STATUS, f_MGMT_FLASH_STATUS_BUSY, 1)] exUp).commandCode .pcie (cmdFlashErase 0) = 0 ∧
    ({ exUp with flashOp := some ⟨2, 0x1D0_0000, List.replicate 512 7⟩ } : State).flashOp = some ⟨2, 0x1D0_0000, List.replicate 512 7⟩ ∧
    (List.replicate 512 (7 : Byte)).length = 512 ∧ List.replicate 512 (6 : Byte) ≠ List.replicate 512 7 ∧ exUp.swapAsk = none ∧ exUp.role ≠ 1 ∧
    exUp.commandCode .pcie cmdMgmtSwap = 0 ∧ (exManager 1 0 0 exWindow).role = 1 ∧ (exManager 1 0 0 exWindow).sbKnown = false ∧
    (exManager 1 0 0 exWindow).commandCode .pcie cmdMgmtSwap = 0 ∧ exUp.fld a_MGMT_SEC f_MGMT_SEC_BURNING = 0 ∧
    exUp.fld a_MGMT_SEC f_MGMT_SEC_SVN < 3 ∧ 3 ≤ (withFlds [(a_MGMT_FW, f_MGMT_FW_SVN, 4)] exUp).fld a_MGMT_FW f_MGMT_FW_SVN ∧
    exUp.commandCode .pcie (cmdSvnWrite 3) = 0 ∧ ({ exUp with swapAsk := some .pcie } : State).swapAsk ≠ none := by decide +kernel

/-! ### Witnesses: the step -/

theorem witness_StepRunsFront : ({ State.reset with pending := [.uartBreak, .jtagBypass] } : State).pending = .uartBreak :: [.jtagBypass] ∧
    State.reset.pending = [] := by decide +kernel

theorem witness_PilotsKeepInvariant : (exState exCore).memWf = true ∧ (exState exCore).queueWf = true ∧
    ({ exState exCore with pending := [.add 0 1 2 3] } : State).pending = .add 0 1 2 3 :: [] ∧ pilotWord (.add 0 1 2 3) ≠ 0 := by decide +kernel

theorem witness_PilotsKeepInvariant_reset : State.reset.pilotInv ∧ Instr.ofPilot (.timerEvent 0) :=
  ⟨⟨by decide +kernel, by decide +kernel, fun c => by
    rw [show State.reset.core c = CoreState.init from rfl]
    exact ⟨by decide, by decide, fun _ => Nat.zero_le _, by decide⟩⟩,
    .inr ⟨0, .inr (.inr (.inr (.inl rfl)))⟩⟩
/-- Operands that the words of control-word, token and VSEL instructions ask for. -/
theorem witness_PilotWordsDecode : (5 : BitVec 12) ≠ 0x050 ∧ (3 : Fin 64) ≠ 0 ∧ (1 : Fin 8) ≠ 0 := by decide

/-! ### Commands that name no unit of the module are ill-formed -/

theorem test_illFormed_cores : (Instr.add 156 1 2 3).wf = false ∧ (Instr.add 155 1 2 3).wf = true ∧ (Instr.fiRetire .pcie 3 13).wf = false ∧
    (Instr.fiRetire .pcie 12 0).wf = false ∧ (Instr.fiRetire .pcie 11 12).wf = true ∧ (Instr.pilotHalt (.pilot 156) 0).wf = false ∧
    (Instr.pilotHalt (.manager 4096 0) 0).wf = false ∧ (Instr.pilotHalt (.manager 0 (2 ^ 32)) 0).wf = false ∧
    (Instr.microcodeUpdate 0 9).wf = false ∧ (Instr.galleyBankServe 0 32 []).wf = false := by decide +kernel

theorem test_illFormed_dies : (Instr.tideProbeSend 16).wf = false ∧ (Instr.waveBoundary 12 0).wf = false ∧
    (Instr.laserMonitorSample 11 0 0 0 0 0).wf = false ∧ (Instr.laserMonitorSample 12 5 0 0 0 0).wf = false ∧
    (Instr.laserMonitorSample 12 0 17 0 0 0).wf = false ∧ (Instr.laserMonitorSample 12 4 16 0 0 0).wf = true ∧
    (Instr.flitCrcReplay 0 8 0 false).wf = false ∧ (Instr.pllLossOfLock 0 4).wf = false ∧ (Instr.crossingTimeout 0 10).wf = false ∧
    (Instr.injectionEnd 0 16).wf = false ∧ (Instr.tideAlignProbe ⟨16, 12, 6, 0xF, 0, 0, 0, 31, false⟩).wf = false ∧
    (Instr.tideAlignProbe ⟨3, 12, 6, 0xF, 0, 0, 2 ^ 352, 31, false⟩).wf = false := by decide +kernel

theorem test_illFormed_memory : (Instr.hbmSchedulerIssue 12 0).wf = false ∧ (Instr.hbmSchedulerIssue 0 64).wf = false ∧
    (Instr.hbmRefresh 0 4160).wf = false ∧ (Instr.hbmRetrainCmd .pcie 0 32).wf = false ∧ (Instr.registerWrite .pcie (2 ^ 48) 8 0).wf = false ∧
    (Instr.flashErase .pcie (2 ^ 32)).wf = false ∧ (Instr.quarantineClearEntry .pcie 64).wf = false := by decide +kernel

theorem test_illFormed_fabric : (Instr.portDisable .pcie 32).wf = false ∧ (Instr.laneOnline .pcie 384).wf = false ∧
    (Instr.laneCodewordReceive 0 (List.replicate 135 0)).wf = false ∧ (Instr.laneCodewordReceive 0 (List.replicate 136 0)).wf = true ∧
    (Instr.ethLinkDown 2).wf = false ∧ (Instr.roceAck 64 0).wf = false ∧ (Instr.roceAck 0 (2 ^ 24)).wf = false ∧
    (Instr.teardownRecord 24).wf = false ∧ (Instr.impoRelease .pcie (2 ^ 24)).wf = false := by decide +kernel

/-! ### The spec's worked examples -/

/-- 03_core_and_instruction_set.md, encoding five instructions. -/
theorem test_words : pilotWord (.addi 0 5 5 (-64)) = 0x10FF_00A5 ∧ pilotWord (.vfma 0 0 0 3 1 2 0) = 0x8060_0823 ∧
    pilotWord (.forme 0 3 4 7) = 0xC10C_40E0 ∧ pilotWord (.press 0 0xF 1 1 0) = 0xC0FC_0000 ∧ pilotWord (.enq 0 0x14 6) = 0xC8A0_00C0 ∧
    decodePilot 0 0x10FF_00A5 = some (.addi 0 5 5 (-64)) ∧ decodePilot 0 0 = none := by decide +kernel

/-- 04_galley_case_engines_berth_pool.md, the galley's addresses, and 08_memory_system.md, decoding a stack address. -/
theorem test_addresses : galleyDie 0xE0_3012_3C00 = 3 ∧ stackOf 0x70_1234_5000 = 7 ∧ homeOf 0x70_1234_5000 = 14 ∧ chanOf 0x70_1234_5000 = 8 ∧
    pchanOf 0x70_1234_5000 = 16 ∧ bankOf 0x70_1234_5000 = 3 * 16 + 1 * 4 + 0 := by decide +kernel

/-- 19_register_address_map.md: the HBM block of die 14, and CK_LOC of core 7 on die 5. -/
theorem test_registers : regAddr 14 8 0 = 0xF0_E080_0000 ∧ a_CK_LOC 5 7 = 0xF0_5017_0088 ∧ regDie 0xF0_5017_0088 = 5 := by decide +kernel

/-- 01_invariant_arithmetic.md, one stick from three BF16 products. -/
def exProduct (s : Stick) (x w : Nat) : Stick :=
  let p := pressProduct (factorOf ⟨-8, 12⟩ (Fmt.bf16.decode x)) (factorOf ⟨-4, 8⟩ (Fmt.bf16.decode w))
  stickAdd s p.1 p.2
theorem test_products :
    exProduct (exProduct (exProduct 0 0x3FC0 0x4000) 0xBF20 0x3F80) 0x3A80 0x4040 = 0x2100_0000_0000_0000_0000_0000_0000_2600 ∧
    (stickRead (.fl .b32) (-12) 0 0x2100_0000_0000_0000_0000_0000_0000_2600).bits = 0x4018_0000 := by decide +kernel

/-- 01_invariant_arithmetic.md, four binary32 addends into a vector stick. -/
theorem test_addends :
    [0x40A0_0000, 0xBFA0_0000, 0x1280_0000, 0x1540_0000].foldl (fun s x => stickAddNum (-85) s (Fmt.b32.decode x)) 0 =
      0x2100_0000_0078_0000_0000_0000_0000_0002 ∧
    (stickRead (.fl .b32) (-85) 0 0x2100_0000_0078_0000_0000_0000_0000_0002).bits = 0x4070_0000 := by decide +kernel

/-- 01_invariant_arithmetic.md, two members reduce one element; exp(1.0). -/
theorem test_reduction : toRL 32 (-20) 1 (Fmt.b32.decode 0x3E99_999A) = (314573, rlINEXACT) ∧
    toRL 32 (-20) 1 (Fmt.b32.decode 0xBDCC_CCCD) = (-104858, rlINEXACT) ∧ blockWord (-20) rlINEXACT = 0x0020_FFEC ∧
    (Fmt.b32.ofNum (rlNum 32 0x0020_FFEC 0x0003_3333)).bits = 0x3E4C_CCC0 ∧ (Fmt.b32.exp 0 (Fmt.b32.decode 0x3F80_0000)).bits = 0x402D_F854 ∧
    (Fmt.bf16.exp 0 (Fmt.bf16.decode 0x3F80)).bits = 0x402E := by decide +kernel

/-- 13_imposition_image.md, a replacement image: the CRC of its section. -/
theorem test_crc : crc32c (List.replicate 32 0) = 0x8A91_36AA := by decide +kernel

/-! ### Small steps -/

/-- 03_core_and_instruction_set.md, the pilot's registers: g0 reads as zero and takes no write; an add wraps; a core of another number is untouched. -/
theorem test_add : (match exec (.add 0 1 1 1) (exState exCore) with
      | .next t => (t.core 0).rg 1 == 0 && (t.core 0).rg 3 == 7 && (t.core 0).pc == 4 && t.core 1 == .init
      | _ => false) = true ∧ (match exec (.add 0 0 3 3) (exState exCore) with
      | .next t => (t.core 0).rg 0 == 0 && (t.core 0).pc == 4
      | _ => false) = true := by decide +kernel

/-- 03_core_and_instruction_set.md, multiply and divide (MAJ 0x09): a quotient by zero is all ones, the most negative number by -1 is itself. -/
theorem test_div : (match exec (.div 0 9 3 0) (exState exCore) with
      | .next t => (t.core 0).rg 9 == 0xFFFFFFFFFFFFFFFF
      | _ => false) = true ∧ (match exec (.div 0 9 1 2) (exState exCore) with
      | .next t => (t.core 0).rg 9 == 0x8000000000000000
      | _ => false) = true := by decide +kernel

/-- The step takes the front command, and idles into a tick on an empty queue. -/
theorem test_step : (match step { exState exCore with pending := [.add 0 9 3 3, .sub 0 9 3 7] } with
      | .next t => (t.core 0).rg 9 == 14 && t.pending == [.sub 0 9 3 7]
      | _ => false) = true ∧ (match step (withFlds [(a_MGMT_BOOT, f_MGMT_BOOT_STEP, 1)] { exUp with boot := { BootState.init with age := 200_000 } }) with
      | .next t => t.tideOf 12 == 1 && t.boot.age == 200_001
      | _ => false) = true := by decide +kernel

end Sys2Proof.Tests
end

/-! PROOFS. Register accesses of an interface (00_scope.md R15, R16; 12_the_tide.md R389; 04_galley_case_engines_berth_pool.md R167): what an
access leaves alone, how a write arrives, what a 32-bit read answers. -/

namespace Sys2Proof.Machine
open Sys2Proof

/-! ### Routes and flit counters (R231, R256) -/

/-- A walk over the bridges uses links 3 and 4 alone. -/
theorem hopLinks_link_lt {b : Nat} {masks : List Nat} {p : Nat × Nat} (h : p ∈ hopLinks b masks) : p.2 < 8 := by
  induction masks generalizing b with
  | nil => simp [hopLinks] at h
  | cons m r ih =>
    rcases List.mem_cons.mp h with rfl | h
    · dsimp only; split <;> omega
    · exact ih h

/-- Whichever way round the ring a packet takes, it crosses bridges. -/
theorem State.bridges_link_lt {s : State} {b b' : Nat} {p : Nat × Nat} (h : p ∈ s.bridges b b') : p.2 < 8 := by
  unfold State.bridges at h
  dsimp only at h
  generalize (if b ^^^ b' = 3 then [1, 2] else [b ^^^ b']) = way, (if b ^^^ b' = 3 then [2, 1] else _) = other at h
  split at h
  · simp at h
  · split at h <;> exact hopLinks_link_lt h

/-- The links of a route are links that a die has (R256). -/
theorem State.route_link_lt {s : State} {src dst : Nat} {p : Nat × Nat} (h : p ∈ s.route src dst) : p.2 < 8 := by
  unfold State.route at h
  split at h
  · simp at h
  · simp only [List.mem_append] at h
    rcases h with (h | h) | h
    · split at h <;> simp at h
      simp [h]
    · exact State.bridges_link_lt h
    · split at h <;> simp at h
      rw [h]; dsimp only; omega

theorem State.onlyFlits_refl (s : State) : s.onlyFlits s := fun _ _ => rfl

theorem State.onlyFlits_trans {s t u : State} (h : s.onlyFlits t) (h' : t.onlyFlits u) : s.onlyFlits u :=
  fun a ha => (h' a ha).trans (h a ha)

/-- A packet counts on flit counters alone. -/
theorem State.onlyFlits_carry (s : State) (src dst : Nat) {v : Nat} (hv : v < 6) (n : Nat) : s.onlyFlits (s.carry src dst v n) :=
  List.foldlRecOn (motive := fun t => s.onlyFlits t) _ _ s.onlyFlits_refl fun t ht p hp =>
    State.onlyFlits_trans ht fun _ ha =>
      t.reg_setFld_ne _ _ fun e => ha ⟨p.1, p.2, v, State.route_link_lt hp, hv, e⟩

/-- A register access counts on flit counters alone (R232, R256). -/
theorem State.onlyFlits_regFlits (s : State) (src : Source) (a n m : Nat) : s.onlyFlits (s.regFlits src a n m) := by
  unfold State.regFlits
  split
  · exact s.onlyFlits_refl
  · have hch : (if src = .jtag then (5, 5) else (0, 1) : Nat × Nat).1 < 6 ∧ (if src = .jtag then (5, 5) else (0, 1) : Nat × Nat).2 < 6 := by
      split <;> decide
    exact State.onlyFlits_trans (s.onlyFlits_carry _ _ hch.1 _) (State.onlyFlits_carry _ _ _ hch.2 _)

/-- Flits counted on a route are register writes: a view of the state that sees no register write sees none of them. -/
theorem State.view_carry {γ : Type} (view : State → γ) (same : ∀ t a v, view (State.setReg t a v) = view t)
    (s : State) (src dst v n : Nat) : view (s.carry src dst v n) = view s :=
  State.foldl_view view _ _ _ fun _ _ => same ..

/-- The same of the flits of a register access. -/
theorem State.view_regFlits {γ : Type} (view : State → γ) (same : ∀ t a v, view (State.setReg t a v) = view t)
    (s : State) (src : Source) (a n m : Nat) : view (s.regFlits src a n m) = view s := by
  unfold State.regFlits
  split
  · rfl
  · exact (State.view_carry view same ..).trans (State.view_carry view same ..)

section
variable (s : State) (src : Source) (a n m : Nat)

@[simp] theorem State.regFlits_mem : (s.regFlits src a n m).mem = s.mem :=
  State.view_regFlits State.mem State.setReg_mem ..
@[simp] theorem State.regFlits_marks : (s.regFlits src a n m).marks = s.marks :=
  State.view_regFlits State.marks State.setReg_marks ..
@[simp] theorem State.regFlits_cores : (s.regFlits src a n m).cores = s.cores :=
  State.view_regFlits State.cores State.setReg_cores ..
@[simp] theorem State.regFlits_presses : (s.regFlits src a n m).presses = s.presses :=
  State.view_regFlits State.presses State.setReg_presses ..
@[simp] theorem State.regFlits_latches : (s.regFlits src a n m).latches = s.latches :=
  State.view_regFlits State.latches State.setReg_latches ..
@[simp] theorem State.regFlits_outbox : (s.regFlits src a n m).outbox = s.outbox :=
  State.view_regFlits State.outbox State.setReg_outbox ..

end

/-! ### The halves of a register (R15) -/

/-- A 32-bit read changes its interface's latch alone. -/
theorem State.readHalf_eq (s : State) (i a : Nat) : (s.readHalf i a).2 = { s with latches := (s.readHalf i a).2.latches } := by
  unfold State.readHalf
  dsimp only
  split
  · rfl
  · split
    · split <;> rfl
    · rfl

/-- A low half is read as it stands. -/
theorem State.readHalf_low (s : State) (i : Nat) {a : Nat} (ha : a % 8 = 0) :
    (s.readHalf i a).1 = (s.readReg a).toNat % 2 ^ 32 := by
  simp [State.readHalf, ha]

/-- A read of the low half latches the high half beside it. -/
theorem State.latch_readHalf_low (s : State) (i : Nat) {a : Nat} (ha : a % 8 = 0) :
    Tbl.get none (s.readHalf i a).2.latches i = some ⟨a, (s.readReg a).toNat / 2 ^ 32⟩ := by
  simp [State.readHalf, ha]

/-- A high half is what the interface has latched of its register, whatever the register holds by then. -/
theorem State.readHalf_high_of_latched {s : State} {i a h : Nat} (ha : a % 8 = 0) (hl : Tbl.get none s.latches i = some ⟨a, h⟩) :
    (s.readHalf i (a + 4)).1 = h := by
  have h4 : (a + 4) % 8 = 4 := by omega
  simp [State.readHalf, h4, hl]

/-! ### How a write arrives (R15, R389) -/

section
variable (s : State) (src : Source) {a : Nat} (v : Word)

theorem State.arrive_word (ha : a % 8 = 0) : s.arrive src a 8 v = s.gather ⟨src, a, true, true, v⟩ := by
  simp [State.arrive, ha]

theorem State.arrive_low (ha : a % 8 = 0) :
    s.arrive src a 4 v = { s with holds := Tbl.set none s.holds (Source.iface src) (some ⟨a, v.toNat % 2 ^ 32⟩) } := by
  simp [State.arrive, ha]

theorem State.arrive_high_of_held {h : Nat} (ha : a % 8 = 0) (hh : s.heldHalf (Source.iface src) a = some h) :
    s.arrive src (a + 4) 4 v = { s with holds := Tbl.set none s.holds (Source.iface src) none }.gather
      ⟨src, a, true, true, BitVec.ofNat 64 (h + v.toNat % 2 ^ 32 * 2 ^ 32)⟩ := by
  have h4 : (a + 4) % 8 = 4 := by omega
  simp [State.arrive, h4, hh]

theorem State.arrive_other_width {size : Nat} (h4 : size ≠ 4) (h8 : size ≠ 8) :
    s.arrive src a size v = s.gather ⟨src, a, false, false, v⟩ := by
  simp [State.arrive, h4, h8]

/-- The low half just written is the one its interface holds. -/
theorem State.heldHalf_arrive_low (ha : a % 8 = 0) : (s.arrive src a 4 v).heldHalf (Source.iface src) a = some (v.toNat % 2 ^ 32) := by
  simp [s.arrive_low src v ha, State.heldHalf]

end

/-! ### Accesses of an interface other than a pilot and the device -/

section
variable {s : State} {src : Source} {a : Nat} (hpilot : ∀ c, src ≠ .pilot c) (hdev : src ≠ .device)

/-- The half beside an aligned address lies in the same register space, on the same die. -/
theorem inRegs_high_half (ha : a % 8 = 0) (hin : inRegs a = true) : inRegs (a + 4) = true := by
  simp only [inRegs, Bool.and_eq_true, decide_eq_true_eq] at hin ⊢
  omega

theorem regDie_high_half (ha : a % 8 = 0) : regDie (a + 4) = regDie a := by
  unfold regDie
  omega

include hdev in
/-- The way of an interface depends on the die of the address alone. -/
theorem State.wayOpen_high_half (ha : a % 8 = 0) (hin : inRegs a = true) : s.wayOpen src (a + 4) = s.wayOpen src a := by
  have hd : Source.die src (a + 4) = Source.die src a := by
    cases src with
    | device => exact absurd rfl hdev
    | _ => rfl
  simp only [State.wayOpen, inRegs_high_half ha hin, hin, regDie_high_half ha, hd]

theorem State.noDie_of_dieUp (hup : s.dieUp (regDie a) = true) : s.noDie a = false := by simp [State.noDie, hup]

include hpilot hdev

/-- A write to a register of a die that answers arrives. -/
theorem exec_registerWrite_arrives (hin : inRegs a = true) (hup : s.dieUp (regDie a) = true) (size : Nat) (v : Word) :
    exec (.registerWrite src a size v) s = .next (s.arrive src a size v) := by
  show execRegisterWrite src a size v s = _
  cases src with
  | pilot c => exact absurd rfl (hpilot c)
  | device => exact absurd rfl hdev
  | pcie => simp [execRegisterWrite, State.noDie_of_dieUp hup, hin]
  | _ => rfl

/-- An aligned 32-bit read of a die that answers is made at once where its way is open and no other read of its die waits (R239). -/
theorem exec_registerHalfRead_reads (tag : Nat) (ha : a % 4 = 0) (hup : s.dieUp (regDie a) = true)
    (hway : s.wayOpen src a = true) (hfree : ∀ y ∈ s.regReads, regDie y.addr ≠ regDie a) :
    exec (.registerHalfRead src a tag) s = .next (s.regRead ⟨.half src tag, a, 4⟩) := by
  have hask : s.askReg ⟨.half src tag, a, 4⟩ = s.regRead ⟨.half src tag, a, 4⟩ := by
    have hway' : s.wayOpen (RegReader.half src tag).source a = true := hway
    have hnone : (s.regReads.any fun y => regDie y.addr == regDie a) = false := by simpa using hfree
    simp [State.askReg, hway', hnone]
  rw [← hask]
  show execRegisterHalfRead src a tag s = _
  cases src with
  | pilot c => exact absurd rfl (hpilot c)
  | device => exact absurd rfl hdev
  | _ => simp [execRegisterHalfRead, State.noDie_of_dieUp hup, ha]

end

/-- An answer to an interface is one thing sent out of the module. -/
theorem State.readAnswer_sends (s : State) (src : Source) (tag : Nat) (data : List Nat) :
    ∃ k, s.readAnswer src tag data = s.send k tag data := by
  cases src <;> exact ⟨_, rfl⟩

/-- The state in which a read of a register takes its value: its flits counted, its error record read (R167, R256). -/
def State.accessed (s : State) (src : Source) (a n m : Nat) : State := (s.regFlits src a n m).touch (a - a % 8)

/-- Whether a record of an error log counts as read shows in no register. -/
theorem State.readReg_accessed (s : State) (src : Source) (a n m b : Nat) :
    (s.accessed src a n m).readReg b = (s.regFlits src a n m).readReg b := rfl

theorem State.accessed_latches (s : State) (src : Source) (a n m : Nat) : (s.accessed src a n m).latches = s.latches :=
  s.regFlits_latches src a n m

/-- A read of a half answers it to its interface, and changes the latch, the flit counters and the error record of its address alone. -/
theorem State.regRead_half {s : State} {a : Nat} (src : Source) (tag : Nat) (hup : s.dieUp (regDie a) = true) :
    let t := s.regRead ⟨.half src tag, a, 4⟩
    let q := (s.accessed src a 0 4).readHalf (Source.iface src) a
    s.computeKept t ∧ s.onlyFlits t ∧ t.latches = q.2.latches ∧
      ∃ x : Out, t.outbox = s.outbox ++ [x] ∧ x.dest = tag ∧ x.data = [0, q.1] := by
  intro t q
  obtain ⟨k, hk⟩ := q.2.readAnswer_sends src tag [0, q.1]
  have ht : t = { s.accessed src a 0 4 with latches := q.2.latches }.send k tag [0, q.1] := by
    rw [← State.readHalf_eq, ← hk]
    simp [t, State.regRead, hup, State.regAnswer, RegReader.source, q, State.accessed]
  rw [ht]
  refine ⟨?_, s.onlyFlits_regFlits src a 0 4, rfl, ⟨k, tag, [0, q.1]⟩, ?_, rfl, rfl⟩
  · simp [State.computeKept, State.accessed, State.touch]
  · simp [State.send, State.accessed, State.touch]

/-- An error record read is no longer among the unread ones; every other stays. -/
theorem State.mem_touch_unread (s : State) (a r : Nat) : r ∈ (s.touch a).unread ↔ r ∈ s.unread ∧ r ≠ a - a % 32 := by
  simp [State.touch]

/-- Settles O23: a write waits for its tide tick, a low half is held for the high half that follows, and a low half read latches the high half. -/
theorem registerAccesses : Obligations.RegisterAccesses := by
  refine ⟨fun s src a hpilot hdev hin ha hup => ⟨?word, ?halves, ?other, ?reads⟩, ?log⟩
  case word =>
    intro v
    rw [exec_registerWrite_arrives hpilot hdev hin hup, s.arrive_word src v ha]
    rfl
  case halves =>
    intro lo hi
    let t := s.arrive src a 4 lo
    have ht : t = { s with holds := t.holds } := by simp only [t, s.arrive_low src lo ha]
    have hup' : t.dieUp (regDie (a + 4)) = true := by rw [regDie_high_half ha, ht]; exact hup
    have hheld : t.heldHalf (Source.iface src) a = some (lo.toNat % 2 ^ 32) := s.heldHalf_arrive_low src lo ha
    refine ⟨t, exec_registerWrite_arrives hpilot hdev hin hup 4 lo, ht, _,
      exec_registerWrite_arrives hpilot hdev (inRegs_high_half ha hin) hup' 4 hi, ?_⟩
    rw [t.arrive_high_of_held src hi ha hheld, ht]
    rfl
  case other =>
    intro size v h4 h8
    rw [exec_registerWrite_arrives hpilot hdev hin hup, s.arrive_other_width src v h4 h8]
    rfl
  case reads =>
    intro free v tag hs
    obtain ⟨hkept, hflits, hlatches, hsent⟩ := State.regRead_half src tag hup
    have hlatch := (s.accessed src a 0 4).latch_readHalf_low (Source.iface src) ha
    rw [State.readHalf_low _ _ ha, State.readReg_accessed] at hsent
    rw [← hlatches, State.readReg_accessed] at hlatch
    refine ⟨_, exec_registerHalfRead_reads hpilot hdev tag (by omega) hup hs.1 hs.2, hkept, hflits, hsent, ?_⟩
    intro u tag' hul hup' hu
    have hupHigh : u.dieUp (regDie (a + 4)) = true := by rw [regDie_high_half ha]; exact hup'
    have hwayHigh : u.wayOpen src (a + 4) = true := by rw [State.wayOpen_high_half hdev ha hin]; exact hu.1
    have hfreeHigh : ∀ y ∈ u.regReads, regDie y.addr ≠ regDie (a + 4) := by rw [regDie_high_half ha]; exact hu.2
    obtain ⟨hkept', hflits', -, hsent'⟩ := State.regRead_half src tag' hupHigh
    rw [← hul, ← u.accessed_latches src (a + 4) 0 4] at hlatch
    rw [State.readHalf_high_of_latched ha hlatch] at hsent'
    exact ⟨_, exec_registerHalfRead_reads hpilot hdev tag' (by omega) hupHigh hwayHigh hfreeHigh, hkept', hflits', hsent'⟩
  case log => exact fun s a => ⟨s.touch a, rfl, rfl, s.mem_touch_unread a⟩

end Sys2Proof.Machine

/-! PROOFS. Sums of sticks (01_invariant_arithmetic.md R25, R31): joining two sticks is a commutative and associative operation, and a
contribution is a join with the stick that holds it alone. -/

namespace Sys2Proof.Machine
open Sys2Proof

/-! ### The fields of a stick (R24, R553) -/

/-- Above A stands the status byte, whose upper two bits are the reserved ones. -/
theorem mkStick_eq_append (a : Int) (st : Nat) : mkStick a st = BitVec.ofNat 8 (st % 64) ++ BitVec.ofInt 120 a := by
  apply BitVec.eq_of_toNat_eq
  have hst : st % 64 < 2 ^ 8 := by omega
  have ha : unsigned 120 a < 2 ^ 120 := (BitVec.ofInt 120 a).isLt
  have hsum : st % 64 * 2 ^ 120 + unsigned 120 a < 2 ^ 128 := by omega
  rw [mkStick, BitVec.toNat_append, BitVec.toNat_ofNat, BitVec.toNat_ofNat, Nat.mod_eq_of_lt hsum, Nat.mod_eq_of_lt hst,
    Nat.shiftLeft_eq, Nat.mul_comm, Nat.two_pow_add_eq_or_of_lt ha, Nat.mul_comm]
  rfl

@[simp] theorem ofInt_stickA_mkStick (a : Int) (st : Nat) : BitVec.ofInt 120 (stickA (mkStick a st)) = BitVec.ofInt 120 a := by
  rw [stickA, mkStick_eq_append, BitVec.extractLsb'_append_eq_right, BitVec.ofInt_toInt]

@[simp] theorem stickSt_mkStick (a : Int) (st : Nat) : stickSt (mkStick a st) = st % 64 := by
  rw [stickSt, mkStick_eq_append, BitVec.extractLsb'_append_eq_left, BitVec.toNat_ofNat]
  omega

/-- The reserved bits are the upper two of the status byte. -/
theorem reserved_eq_zero_iff (s : Stick) : s.extractLsb' 126 2 = 0 ↔ stickSt s < 64 := by
  have hres : s.extractLsb' 126 2 = 0 ↔ s.toNat / 2 ^ 126 % 2 ^ 2 = 0 := by
    simp [← BitVec.toNat_inj, Nat.shiftRight_eq_div_pow]
  rw [hres, stickSt, BitVec.extractLsb'_toNat, Nat.shiftRight_eq_div_pow]
  omega

/-- A stick is written with its reserved bits zero (R553). -/
@[simp] theorem reserved_mkStick (a : Int) (st : Nat) : (mkStick a st).extractLsb' 126 2 = 0 := by
  rw [reserved_eq_zero_iff, stickSt_mkStick]
  omega

/-- A stick is made again of its fields, where its reserved bits are zero. -/
theorem mkStick_stickA_stickSt {s : Stick} (hs : s.extractLsb' 126 2 = 0) : mkStick (stickA s) (stickSt s) = s := by
  rw [mkStick_eq_append, Nat.mod_eq_of_lt ((reserved_eq_zero_iff s).mp hs), stickA, stickSt, BitVec.ofInt_toInt, BitVec.ofNat_toNat,
    BitVec.setWidth_eq]
  exact BitVec.extractLsb'_append_extractLsb' (w := 8)

/-! ### Joining sticks (R25, R31) -/

/-- A contribution to a stick with a sum and status bits adds to the one, modulo 2^120, and is ORed into the other. -/
theorem stickAdd_mkStick (a b : Int) (st u : Nat) : stickAdd (mkStick a st) b u = mkStick (a + b) (st ||| u) := by
  have hA : BitVec.ofInt 120 (stickA (mkStick a st) + b) = BitVec.ofInt 120 (a + b) := by
    rw [BitVec.ofInt_add, BitVec.ofInt_add, ofInt_stickA_mkStick]
  have hSt : (st % 64 ||| u) % 64 = (st ||| u) % 64 := by
    rw [Nat.or_mod_two_pow (n := 6), Nat.or_mod_two_pow (n := 6), Nat.mod_mod]
  rw [stickAdd, stickSt_mkStick, mkStick_eq_append, hA, hSt, ← mkStick_eq_append]

theorem stickJoin_comm (s t : Stick) : stickJoin s t = stickJoin t s := by
  rw [stickJoin, stickJoin, Int.add_comm, Nat.or_comm]

theorem stickJoin_assoc (r s t : Stick) : stickJoin (stickJoin r s) t = stickJoin r (stickJoin s t) := by
  have left (r s t : Stick) : stickJoin (stickJoin r s) t = mkStick (stickA r + stickA s + stickA t) (stickSt r ||| stickSt s ||| stickSt t) :=
    stickAdd_mkStick ..
  rw [left, stickJoin_comm r, left, Int.add_assoc, Int.add_comm, Nat.or_assoc, Nat.or_comm]

theorem stickJoin_right_comm (r s t : Stick) : stickJoin (stickJoin r s) t = stickJoin (stickJoin r t) s := by
  rw [stickJoin_assoc, stickJoin_comm s, stickJoin_assoc]

/-- The cleared stick adds nothing to a stick whose reserved bits are zero. -/
theorem stickJoin_zero {s : Stick} (hs : s.extractLsb' 126 2 = 0) : stickJoin s 0 = s := by
  calc stickJoin s 0
    _ = mkStick (stickA s + 0) (stickSt s ||| 0) := rfl
    _ = s := by rw [Int.add_zero, Nat.or_zero, mkStick_stickA_stickSt hs]

/-- A contribution is a join with the stick that holds it alone. -/
theorem stickAdd_eq_stickJoin (s : Stick) (n : Int) (st : Nat) : stickAdd s n st = stickJoin s (stickAdd 0 n st) :=
  calc stickAdd s n st
    _ = stickAdd (mkStick (0 + n) (0 ||| st)) (stickA s) (stickSt s) := by
      rw [stickAdd_mkStick, stickAdd, Int.zero_add, Nat.zero_or, Int.add_comm, Nat.or_comm]
    _ = stickJoin s (stickAdd 0 n st) := stickJoin_comm ..

/-- An addend makes one contribution, whatever its class (R30, R32). -/
theorem stickAddNum_eq_stickJoin (q : Int) (s : Stick) (x : ElemVal) : stickAddNum q s x = stickJoin s (stickAddNum q 0 x) := by
  cases x with
  | nan _ => exact stickAdd_eq_stickJoin ..
  | inf _ => exact stickAdd_eq_stickJoin ..
  | fin _ _ _ => exact stickAdd_eq_stickJoin ..

/-! ### Sums over lists of contributions -/

section
variable {α : Type} {add : Stick → α → Stick} {one : α → Stick} (joins : ∀ s x, add s x = stickJoin s (one x))
include joins

/-- Contributions in another order give the same stick. -/
theorem foldl_joins_eq_of_perm {xs ys : List α} (p : xs.Perm ys) (s : Stick) : xs.foldl add s = ys.foldl add s :=
  p.foldl_eq' (fun x _ y _ s => by simp only [joins, stickJoin_right_comm s]) s

/-- Contributions to a join may all be made to its second part. -/
theorem foldl_joins_stickJoin (s t : Stick) (xs : List α) : xs.foldl add (stickJoin s t) = stickJoin s (xs.foldl add t) := by
  induction xs generalizing t with
  | nil => rfl
  | cons x xs ih => rw [List.foldl_cons, List.foldl_cons, joins, stickJoin_assoc, ih, joins]

/-- Contributions leave the reserved bits zero. -/
theorem reserved_foldl_joins {s : Stick} (hs : s.extractLsb' 126 2 = 0) (xs : List α) : (xs.foldl add s).extractLsb' 126 2 = 0 :=
  List.foldlRecOn (motive := fun t : Stick => t.extractLsb' 126 2 = 0) xs add hs fun t _ x _ => by
    rw [joins]
    exact reserved_mkStick ..

/-- The later contributions may be gathered in a cleared stick and joined. -/
theorem foldl_joins_append {s : Stick} (hs : s.extractLsb' 126 2 = 0) (xs ys : List α) :
    (xs ++ ys).foldl add s = stickJoin (xs.foldl add s) (ys.foldl add 0) := by
  rw [List.foldl_append, ← foldl_joins_stickJoin joins, stickJoin_zero (reserved_foldl_joins joins hs xs)]

end

/-- Settles O17: every addend is a join, and joins commute and associate. -/
theorem stickOrderFree : Obligations.StickOrderFree := by
  refine ⟨fun q s xs ys p => ?addends, fun q s xs ys hs => ?grouped, fun s cs ds p => ?contributions⟩
  case addends => exact foldl_joins_eq_of_perm (stickAddNum_eq_stickJoin q) p s
  case grouped => exact foldl_joins_append (stickAddNum_eq_stickJoin q) hs xs ys
  case contributions =>
    have joins (t : Stick) (x : Int × Nat) : stickAdd t x.1 x.2 = stickJoin t (stickAdd 0 x.1 x.2) := stickAdd_eq_stickJoin ..
    exact foldl_joins_eq_of_perm joins p s

end Sys2Proof.Machine
